-- ==== Sys2Proof/Word.lean ====
section
/-! DEFINITION. The word types of the LT8 (R5): bytes, 32-bit register words, 64-bit fields. -/

namespace Sys2Proof

/-- One byte of DRAM, scratch, shelf, flash, a descriptor or a record. -/
abbrev Byte := BitVec 8

/-- A 32-bit register word. -/
abbrev Word := BitVec 32

/-- A 64-bit field or generator state. -/
abbrev Dword := BitVec 64

/-- A run of bytes, lowest address first. -/
abbrev Bytes := List Byte

end Sys2Proof
end

