-- ==== Sys2Proof/Syntax.lean ====
section
/-! DEFINITION. The commands the LT8 takes: one constructor of `Instr` for each row of the table, with its operands.
What the outside decides or delivers (an address, a value, the bytes a host read returned, a level on a pin, a choice that
Penuo makes) is an operand; what the spec computes from it is the machine's. -/

namespace Sys2Proof

/-- A ring by kind and number (R67). -/
inductive RingId where
  | sq (n : Nat)
  | cq (n : Nat)
  | err
  | ldg
  deriving DecidableEq, Repr

/-- A unit that a reset reaches (R504): a bay by flat index, a wing's own parts, or one of the chip-level units of Fabric
reach. -/
inductive RstUnit where
  | bay (b : Nat)
  | wing (w : Nat)
  | spine
  | accession
  | collation
  | dramCtl
  | pcieApp
  deriving DecidableEq, Repr

/-- What the board and the boot ROM meet during bring-up (R515 steps 3 and 4): the DRAM size code found by training, the
BOOT_SEL balls, and the speed and width at which the link trains (speed 0: link down). -/
structure BootReport where
  dramSize : Nat
  bootSel : Nat
  speed : Nat
  width : Nat
  deriving DecidableEq, Repr

/-- One detected error event as the chip level sees it (R550, R553): kind code, unit address (R24), the job slot charged,
the context and the 64-bit DETAIL. -/
structure ErrEvent where
  kind : Nat
  unit : Nat
  job : Option Nat
  context : Option Nat
  detail : Nat
  deriving DecidableEq, Repr

/-- One cropped line of a page-side, as Penuo's crop stage gives it (R146, R148): the edges in the plane and the width in
positions. -/
structure CropLine where
  x : Nat
  y : Nat
  positions : Nat
  deriving DecidableEq, Repr

/-- The fields of a page-table entry that Penuo inserts (R332). FLAGS: bits 0 to 2; an inserted entry is never SWAPPED. -/
structure EntryFields where
  page : Nat
  log2 : Nat
  flags : Nat
  fill : Nat
  basePos : Nat
  deriving DecidableEq, Repr

/-- One page-table edit that Penuo requests (R344), on the entry at a BASE_POS: remove it, insert or replace one, change its LOG2_SIZE,
its BASE_POS or a flag; swap its page out to a unit of the swap area, or give it a page in DRAM. -/
inductive Edit where
  | remove (basePos : Nat)
  | insert (e : EntryFields)
  | replace (basePos : Nat) (e : EntryFields)
  | setLog2 (basePos log2 : Nat)
  | setBase (basePos newBase : Nat)
  | setValid (basePos : Nat) (v : Bool)
  | setShared (basePos : Nat) (v : Bool)
  | setPinned (basePos : Nat) (v : Bool)
  | setSwapped (basePos unit : Nat)
  | setResident (basePos page : Nat)
  deriving DecidableEq, Repr

/-- Where a command list lies (R268): base 0 (device DRAM), 14 (the folio image through the reserve shelf) or 15 (the bay's own
shelf), and a byte offset, which for base 0 and a fresh list is a DRAM address. -/
structure ListAt where
  base : Nat
  off : Nat
  deriving DecidableEq, Repr

/-- What Penuo decides about a context before it places it (R459, R321, R467): the job slot, the stage, the list (wing
part), the sequence slots it serves, the stripe and the signal counter it assigns to that (R323), the spread (PART, PARTS) of a head,
and the far bases 1 to 13 that it fills (address, extent). `list`: the commands of a fresh list that it hands the context and writes at `listAt`; none: the stage's own
list in the folio image, read through base 0 or 14 as `listAt` says. -/
structure CtxPlan where
  job : Nat
  stage : Nat
  part : Nat
  seqs : List Nat
  stripe : Nat
  counter : Nat
  spread : Nat × Nat
  bases : List (Nat × Nat × Nat)
  listAt : ListAt
  list : List Bytes
  deriving DecidableEq, Repr

/-- The commands, one constructor for each row of the table, in its order. -/
inductive Instr where
  /-- A write to byte offset `off` of the kick page (R35, R74). -/
  | kick (off : Nat)
  /-- The doorbell read of record `rec` (R69) returns INDEX and GEN. -/
  | doorbellReadDone (rec index gen : Nat)
  /-- A fetch turn of ring `sq` returns up to 8 descriptors (R88, R89). -/
  | descriptorFetch (sq : Nat) (descs : List Bytes)
  | nop (sq : Nat)
  /-- `param`: the 352 bytes read at PARAM_ADDR (R406). -/
  | run (sq : Nat) (param : Bytes)
  | cancel (sq : Nat)
  | folioLoad (sq : Nat)
  /-- `image`: the bytes copied from SRC (R439). -/
  | folioFetchDone (slot : Nat) (image : Bytes)
  | folioCommit (slot : Nat)
  | folioUnload (sq : Nat)
  | folioUnloadRelease (slot : Nat)
  | bayBist (sq : Nat)
  | bistDrainDone
  | bistDrainTimeout
  /-- `fails`: the failing items in the BIST layout of R554. -/
  | bistTestsDone (fails : Nat)
  /-- `block`: the configuration block read at CONFIG_ADDR (R194). -/
  | commit (sq : Nat) (block : Bytes)
  | calibrateDark (sq : Nat)
  | calibrateWhite (sq : Nat)
  | stop (sq : Nat)
  | configApply (t : Nat)
  | calibrationStart (slot : Nat)
  | calLineTrigger (slot : Nat)
  | calibrationDone (slot : Nat)
  | report (sq : Nat)
  | extend (sq : Nat)
  | attestDone
  | stateReqStandby
  | stateReqService
  | stateReqTest
  | stateReqRecovery
  | stateTransitionDone
  | standbyEntryDone
  | startOk
  | startWindowExpiry
  | watchdogRestart
  | watchdogExpiry
  | powerOn
  /-- `coreLow`: VDD_CORE or VDD_SRAM lies below its brown-out threshold (R606). -/
  | powerOnRelease (coreLow : Bool)
  | vddAoLost
  | brownOut
  | brownOutRelease
  | resetNAssert
  | resetNRelease
  | rstReqBay (bay : Nat)
  | rstReqWing (wing : Nat)
  | rstReqFabric
  | rstReqWarm
  /-- `warm`: Warm reach, else Fabric. -/
  | debugResetRequest (warm : Bool)
  | debugResetWithdraw
  /-- `pll`: 0 arithmetic, 1 fabric, 2 core, 3 DRAM, 4 SerDes; 5 is REF_CLK (R543). -/
  | clockFailure (pll : Nat)
  /-- `wing`: the wing whose core or hub port is stuck, or none (any other port). -/
  | lockUp (wing : Option Nat)
  | unitIdleAck (u : RstUnit)
  | handshakeTimeout (u : RstUnit)
  | forcedResetApplied (u : RstUnit)
  | unitReleaseDone (u : RstUnit) (boot : BootReport)
  | flr
  | hotReset
  | perstNAssert
  | perstNRelease
  | linkLoss
  | hostAccessWake
  /-- A BAR4 write of `data` at window offset `off`, or a read of `len` bytes. -/
  | bar4Access (write : Bool) (off len : Nat) (data : Bytes)
  | bar0AtomicOp (bar off : Nat)
  /-- A BAR0 write of words with byte enables from the aligned offset `off` (R590, R591). -/
  | registerWrite (off : Nat) (words : List (Word × BitVec 4))
  | ldgDeviceUjLoRead
  | sysLock
  /-- `hi`: HLK_VER_AGREE_1, else HLK_VER_AGREE_0. -/
  | hlkVerAgreeWrite (hi : Bool) (v : Word)
  | mgtEmbWrite (v : Word)
  | hostBootGo (length : Nat)
  | hostBootVerifyDone
  | ringEnable (r : RingId) (v : Word)
  | sqRingDisable (n : Nat) (v : Word)
  | cqRingDisable (n : Nat) (v : Word)
  | keepDrop
  | abort (t : Nat)
  | colTDrop (t : Nat) (v : Word)
  | carInjectArm (v : Word)
  | shelfSplitWrite (v : Word)
  | folioPin (h : Nat)
  | folioUnpin (h : Nat)
  | flush
  | ledgerEnable (v : Word)
  | ledgerDisable (v : Word)
  | ldgSlowPop
  | clkArithStep (v : Word)
  | wakeTimerWrite (v : Word)
  | wakeTimerExpiry
  /-- `k` 0 to 5: ERR_FENCE_C[k]; 6: ERR_FENCE_B. -/
  | fenceWrite (k : Nat) (v : Word)
  /-- `k` 0 to 5: ERR_LASTING_C[k]; 6: ERR_LASTING_U. -/
  | lastingClear (k : Nat) (v : Word)
  | otpProgCustHash0
  | otpProgCustHash1
  | otpProgRevoke0
  | otpProgRevoke1
  | otpProgDebugDisable
  | otpProgDone
  | secRbAdvance (v : Word)
  | rollbackBurnDone
  | firmwareUpdate (v : Word)
  /-- `image`: the bytes copied from the update source; `flashError`: programming or read-back failed. -/
  | firmwareUpdateDone (image : Bytes) (flashError : Bool)
  /-- `len`, here and below: the data bytes of the frame, in either direction (R46); none where the sender gives none. -/
  | mgtRdStatus (len : Nat := 0)
  | mgtRdReg (addr len : Nat)
  | mgtWrReg (addr : Nat) (data : Bytes)
  | mgtDwinFetch (addr : Nat) (data : Bytes)
  | dwinFetchDone
  | mgtDwinRead (addr len : Nat)
  | mgtDwinWrite (addr : Nat) (data : Bytes)
  | dwinWriteDone
  | mgtMboxWrite (data : Bytes)
  | mboxTake
  | mgtMboxRead (len : Nat)
  | mgtKick (addr : Nat) (len : Nat := 0)
  | mgtWake (len : Nat := 0)
  | mgtReset (addr : Nat) (len : Nat := 0)
  | mgtClearStarts (len : Nat := 0)
  | mgtMode8d (len : Nat := 0)
  | mgtMode1s (len : Nat := 0)
  | mgtRcvData (addr : Nat) (data : Bytes)
  | rcvProgramDone
  /-- `image`: the address, which is the image's length in bytes. -/
  | mgtRcvCommit (image : Nat) (len : Nat := 0)
  | rcvCommitDone
  /-- `complementOk` false: the complement check failed (OPCODE_CHECK); true: the opcode is unknown. -/
  | mgtBadFrame (complementOk : Bool)
  /-- `buf`: the bytes of the job's buffer from the record's start to the end of the record or of INPUT_LEN. -/
  | recordDispatch (slot : Nat) (buf : Bytes)
  | recordDecoded (lane : Nat)
  /-- `rows`: rows counted from row 0 with no gap that were in DRAM before the abort (R142). -/
  | decodeBudgetExpiry (lane rows : Nat)
  /-- `row`: a row sequence of the job in `slot`; otherwise the page-side at the head of the waiting order. `tables`: where Penuo puts
  the page tables of the slots it takes (R333). -/
  | seqSlotGrant (row : Bool) (slot : Nat) (tables : List Nat := [])
  /-- `crops`: for each ready member, its sequence index and its lines in crop order; `rowBase`: where the rows go. -/
  | batchPack (slot batch : Nat) (crops : List (Nat × List CropLine)) (rowBase : Nat)
  /-- `now`: the arithmetic count of the decision (R474). -/
  | lcAdmission (slot : Nat) (now : Nat := 0)
  | contextPlace (p : CtxPlan)
  | contextSwitchDone (carrel : Nat)
  | spillMove (bay : Nat)
  | cmdLineFetch (carrel slot : Nat)
  /-- `vec`: the vector unit is taken, else the array. -/
  | enginePreempt (carrel slot : Nat) (vec : Bool)
  | load (carrel slot now : Nat)
  | store (carrel slot now : Nat)
  | stream (carrel slot now : Nat)
  | expand (carrel slot now : Nat)
  | tmac (carrel slot now : Nat)
  | vec (carrel slot now : Nat)
  | req (carrel slot now : Nat)
  | attn (carrel slot now : Nat)
  | kvapp (carrel slot now : Nat)
  | argmax (carrel slot now : Nat)
  | pack (carrel slot now : Nat)
  | cathand (carrel slot now : Nat)
  | fence (carrel slot now : Nat)
  | signal (carrel slot now : Nat)
  | waitsig (carrel slot now : Nat)
  | cmdNop (carrel slot now : Nat)
  /-- The command at list index `idx` of the context in the slot reaches its completion point at arithmetic count `now`. -/
  | commandComplete (carrel slot idx now : Nat)
  | kvDescriptorEmit (carrel slot : Nat)
  | combinePart (carrel slot : Nat)
  | spareTake (seq : Nat)
  | kvappResume (carrel slot : Nat)
  | editApply (seq : Nat) (edit : Option Edit)
  /-- `prompt`: the tokens of the sequence's first prefill (R368). -/
  | prefixMatch (seq : Nat) (prompt : List Nat)
  | freeListRestock (k : Nat)
  | swapOut
  /-- `data`: the swapped bytes as the swap area returns them, page after page in table order. -/
  | swapIn (seq : Nat) (data : Bytes)
  | cardSummaryBuild (seq basePos : Nat)
  | refillDone (wing handle shard : Nat)
  | tokenChoice (seq : Nat)
  | catalogAdvance (seq : Nat)
  | lineFrame (port : Nat) (frame : Bytes)
  | frameStart (port vc : Nat)
  | frameEnd (port vc : Nat)
  /-- `headerErrors`: bits in error of the packet header; `crcOk`: the payload CRC holds. -/
  | csiLine (port vc dataType : Nat) (payload : Bytes) (headerErrors : Nat) (crcOk : Bool)
  /-- The filtered levels of ENC_A_n and ENC_B_n after the edge. -/
  | encEdge (t : Nat) (a b : Bool)
  | lineTriggerDeferred (port : Nat)
  | strobeOn (m : Nat)
  | strobeOff (m : Nat)
  | stallLimit (t : Nat)
  | leadAssert (t : Nat)
  | leadDeassert (t : Nat)
  | dfeedAssert (t : Nat)
  | ilkOpen (t : Nat)
  | ilkClose (t : Nat)
  /-- `aborted`: an exit event arrived while READY_IDLE was being entered (R535). -/
  | readyIdleEntry (aborted : Bool)
  | readyIdleExitDone
  | wakeComplete
  | collationReady
  /-- The readings of the sensors whose domains are powered: sensor number and degrees (R545). -/
  | tempUpdate (readings : List (Nat × Int))
  | aoClockFallback
  | ledgerIntervalClose
  /-- `ev`: an error the hardware detects now; none: the oldest summary already on its way up (R552). -/
  | errorRecordIssue (ev : Option ErrEvent)
  | jobTeardown (slot : Nat)
  | challenge
  /-- `scope`: the 8 SCOPE bytes; `block`: the signature block in the layout of R437. -/
  | response (scope : Bytes) (block : Bytes)
  | debugVerifyDone
  /-- `mps`: the maximum payload code of HLK_STATUS.MPS; `mrrs`: bytes; `ro`: Relaxed Ordering enabled. -/
  | deviceControlWrite (mps mrrs : Nat) (ro : Bool)
  | linkUp (speed width : Nat)
  deriving DecidableEq, Repr

end Sys2Proof
end

