-- ==== Sys2Proof/Config.lean ====
section
/-! DEFINITION. What the spec leaves to the outside, as constants with no body: nothing in Lean can prove a value of them, so
every statement holds for all of them. -/

namespace Sys2Proof.Config

/-- A byte whose value the spec leaves undefined, by the number of free bytes drawn before it: scratch outside the live
extents after a switch-in (R471), vector register bits a write leaves undefined, output areas after a teardown. -/
opaque freeByte : Nat → Byte

/-- The signature that the signing engine makes with the identity key over a message (R584, R585): the private key is not in the
spec. -/
opaque sign : Bytes → Bytes

/-- The random challenge bytes of the entropy source, by the number of challenges made before (R588). -/
opaque challenge : Nat → Bytes

/-- The fixed-point inverse DCT of ISO/IEC 23002-2 on a block of 64 dequantised coefficients, row after row (R124): the spec names
the standard and does not reproduce it. -/
opaque inverseDct : List Int → List Int

/-- The STATUS of the sequence record of a page-side whose folio has no DECODE stage and whose stages have all run: the spec
names no status for it (chapter 3, chapter 12). -/
opaque plainEnd : Nat

end Sys2Proof.Config
end

