-- ==== Sys2Proof/Machine/State.lean ====
section
/-! DEFINITION. The state of the LT8 as plain data: its registers, its rings and jobs, every unit of R11 with its memories,
the always-on domain, the board's boot flash and OTP as the chip sees them, and what the chip has sent out. Registers whose
fields only mirror other state are not stored twice: `readReg` in Ops computes them. -/

namespace Sys2Proof.Machine

/-- A memory in canonical form: addresses strictly rising, no entry equal to the byte an unlisted address reads as. -/
abbrev Mem := List Host.Cell

/-- The BAR0 registers as a list of (offset, word) in canonical form: offsets strictly rising, no entry equal to the
register's value after a power-on reset (R596, R601). -/
abbrev RegFile := List (Nat × Word)

/-- The device states of R26. -/
inductive DeviceState where
  | off
  | standby
  | bringUp
  | service
  | test
  | recovery
  | closedStacks
  deriving DecidableEq, Repr

/-- The power states of R532. -/
inductive PowerState where
  | standby
  | readyIdle
  | active
  | exiting
  deriving DecidableEq, Repr

/-- What the LT8 sends to the outside, in order: the observable effect of the commands. -/
inductive Out where
  /-- One memory write to the host: address, bytes, Relaxed Ordering attribute (R38, R39). -/
  | hostWrite (addr : Nat) (data : Bytes) (relaxed : Bool)
  /-- An MSI-X message (R37, R100). -/
  | msix (vector : Nat)
  /-- One memory read of the host: address, bytes asked for (R39). -/
  | hostRead (addr len : Nat)
  /-- A doorbell read of record `rec` is issued (R75). -/
  | doorbellRead (rec : Nat)
  /-- Data returned for a read on the management port (R47). -/
  | mgtData (data : Bytes)
  /-- Data returned for a BAR4 read (R41). -/
  | bar4Data (data : Bytes)
  /-- A word returned for a BAR0 read (R593). -/
  | bar0Data (v : Word)
  /-- A request completed as Unsupported Request (R594). -/
  | unsupportedRequest
  /-- LSP_n_LSYNC asserts for 4 MCLK cycles (R175). -/
  | lsync (port : Nat)
  /-- Bits shifted out by CHALLENGE (R588). -/
  | tdo (data : Bytes)
  deriving DecidableEq, Repr

/-- The phases of R506. -/
inductive RstPhase where
  | run
  | idleReq
  | forced
  | held
  | releasing
  deriving DecidableEq, Repr

/-- The reset sources of R505, numbered as SOURCES of R528. -/
inductive RstSource where
  | powerOn
  | brownOut
  | resetN
  | watchdog
  | software
  | debug
  | clockFailure
  | lockUp
  deriving DecidableEq, Repr

/-- The units that a source covers (R504): one bay, one wing with its bays, the fabric, or everything (Warm, Cold). -/
inductive Reach where
  | bay (b : Nat)
  | wing (w : Nat)
  | fabric
  | warm
  | cold
  deriving DecidableEq, Repr

/-- One unit's reset state (R506): its phase, the widest reach of its episode (0 to 4 as coded in R504), and the AO cycles that the
handshake has left. -/
structure UnitRst where
  unit : RstUnit
  phase : RstPhase
  widest : Nat
  left : Nat
  deriving DecidableEq, Repr

/-- The reset controller, start logic and reset-cause log in the always-on domain (chapter 16). -/
structure Rst where
  units : List UnitRst
  /-- Asserted sources with their coverage. -/
  asserted : List (RstSource × Reach)
  /-- The chip-wide episode: SOURCES seen, widest reach, whether a unit was forced, the state when it began, whether it
  ended a counted start. -/
  epSources : List RstSource
  epWidest : Nat
  epForced : Bool
  epPrior : DeviceState
  epFailed : Bool
  epOpen : Bool
  /-- Failed-start count, 0 to 7 (R518, R519). -/
  starts : Nat
  /-- The start window is counting, and the AO cycles it has left (R517). -/
  windowRun : Bool
  windowLeft : Nat
  /-- A software request has not yet reached HELD (R530). -/
  reqBusy : Bool
  /-- Number of log entries ever appended: SEQ of the next one, modulo 4,096 (R528). -/
  logSeq : Nat
  /-- A Fabric reset has begun and its release has not completed (R513). -/
  fabricRelease : Bool
  deriving DecidableEq, Repr

/-- Where the running Penuo came from (R577, SEC_STATUS). -/
structure BootSrc where
  slotB : Bool
  host : Bool
  fallback : Bool
  svn : Nat
  deriving DecidableEq, Repr

/-- Device state machine, power controller, pins and clocks (chapters 1, 17, 21). -/
structure Dev where
  state : DeviceState
  prev : DeviceState
  /-- A requested transition under way (R29), with its target. -/
  req : Option DeviceState
  fatalEntry : Bool
  power : PowerState
  /-- The wake sequence from STANDBY runs (R539). -/
  waking : Bool
  /-- The collation unit is ready during a wake (R539). -/
  colReady : Bool
  /-- Idle AO cycles counted toward PWR_IDLE.HOLD (R533). -/
  idleFor : Nat
  /-- The thermal warning is armed (R546). -/
  thermArmed : Bool
  /-- THERM_N is driven low (R547). -/
  thermN : Bool
  /-- AO counts run from the RC oscillator (R544). -/
  aoFallback : Bool
  /-- PLLs locked: bits as CLK_STATUS.LOCKED. -/
  locked : Nat
  /-- Arithmetic step in force (R542). -/
  step : Nat
  /-- Switched domains on, bits of R531. -/
  domains : Nat
  /-- AO cycles until the service watchdog fires, none while it does not count (R621). -/
  wdog : Option Nat
  /-- DRAM_RESET_N driven high (R611). -/
  dramReset : Bool
  /-- DRAM is in self-refresh. -/
  selfRefresh : Bool
  /-- BFL_RESET_N released (R525). -/
  bflReset : Bool
  /-- The boot ROM waits for a host image (R43) and has not accepted one. -/
  hostBoot : Bool
  /-- LENGTH of the host image under verification. -/
  hostLen : Nat
  /-- Penuo runs, and where it came from. -/
  penuo : Option BootSrc
  /-- DRAM_SIZE found by training (SYS_TOPO). -/
  dramSize : Nat
  /-- Steps 2 and 3 of R515 done in this bring-up: PLLs locked, DRAM trained, link brought up; step 4 done. -/
  step2 : Bool
  step3Dram : Bool
  step3Link : Bool
  step4 : Bool
  deriving DecidableEq, Repr

/-- A host access that arrived in STANDBY and is served once the part is in SERVICE, in order of arrival (R36, R44, R595,
R616). -/
inductive HostAccess where
  /-- BAR0 words with byte enables, from an aligned offset. -/
  | write (off : Nat) (words : List (Word × BitVec 4))
  /-- A write to the kick page. -/
  | kick (off : Nat)
  /-- An AtomicOp to BAR0 or BAR2. -/
  | atomic (bar off : Nat)
  /-- A configuration write of Device Control. -/
  | deviceControl (mps mrrs : Nat) (ro : Bool)
  | bar4 (write : Bool) (off len : Nat) (data : Bytes)
  /-- A read of LDG_DEVICE_UJ_LO. -/
  | ujRead
  deriving DecidableEq, Repr

/-- The PCIe endpoint (chapter 2). -/
structure Link where
  up : Bool
  speed : Nat
  width : Nat
  /-- Maximum payload code and maximum read request in Device Control, Relaxed Ordering enabled (R39, R44). -/
  mps : Nat
  mrrs : Nat
  relaxed : Bool
  perstLow : Bool
  /-- The transmitter has left electrical idle (R612). -/
  txActive : Bool
  bootSel : Nat
  bar4 : Bool
  /-- The MSI-X table, 64 entries of 16 bytes (R37). -/
  msixTable : Mem
  /-- The pending-bit array: one bit per vector (R37). -/
  msixPending : Nat
  /-- Accesses that wait for the wake, oldest first. -/
  waiting : List HostAccess
  deriving DecidableEq, Repr


/-- A completion record before PHASE is known (R93). `frees`: the job slot that the job-end record frees (R92); `ofPage`: the
page-side, by job number and index, whose sequence record it is (R456). -/
structure CqRec where
  sample : Nat
  tag : Nat
  status : Nat
  flags : Nat
  amount : Nat
  index : Nat
  sq : Nat
  client : Nat
  sat : Nat
  zc : Nat
  slowdown : Nat
  detail : Nat
  frees : Option Nat
  ofPage : Option (Nat × Nat)
  deriving DecidableEq, Repr

/-- An error record before PHASE is known (R105). -/
structure ErrRec where
  severity : Nat
  unit : Nat
  kind : Nat
  lasting : Bool
  merged : Bool
  count : Nat
  context : Nat
  client : Nat
  sq : Nat
  tag : Nat
  number : Nat
  detail : Nat
  deriving DecidableEq, Repr

/-- A message held behind the outbound mailbox (R59); a message that Penuo originates takes its SEQ when written. An
ERROR_RECORD carries its record, so that it can still merge. -/
structure MboxMsg where
  type : Nat
  seq : Option Nat
  payload : Bytes
  err : Option ErrRec
  deriving DecidableEq, Repr

/-- The management target and the mailboxes (R45 to R59, R618). -/
structure Mgt where
  mode8d : Bool
  last : Nat
  dwinBusy : Bool
  dwinReady : Bool
  /-- The window buffer, 256 bytes, and the bytes of the last fetch. -/
  window : Bytes
  windowLen : Nat
  /-- The window operation under way: true a fetch; the DRAM address and the data of a write. -/
  dwinOp : Option (Bool × Nat × Nat × Bytes)
  inbox : Option Bytes
  outbox : Option Bytes
  held : List MboxMsg
  /-- Count of messages Penuo has originated, 32 bits (R56). -/
  origSeq : Nat
  deriving DecidableEq, Repr

/-- A submission ring's counts (R72 to R76): the LT8's head count, the last good host count, a doorbell read in flight, one
more wanted after it, a kick held until SERVICE (R78), and the fetched descriptors that have not begun, in ring order. -/
structure SqRing where
  own : Nat
  host : Nat
  reading : Bool
  again : Bool
  kickHeld : Bool
  fetched : List (Bytes × Option Nat)
  deriving DecidableEq, Repr

/-- A produced ring's counts: the LT8's tail count, the last good host head count, last found full (R75). -/
structure ProdRing where
  own : Nat
  host : Nat
  full : Bool
  reading : Bool
  again : Bool
  deriving DecidableEq, Repr

/-- A completion ring with the records held for it, oldest first (R99). -/
structure CqRing where
  ring : ProdRing
  held : List CqRec
  deriving DecidableEq, Repr

/-- The rings (chapter 3). -/
structure Rings where
  sqs : List SqRing
  cqs : List CqRing
  errRing : ProdRing
  ldgRing : ProdRing
  /-- Round-robin position in each class (R89): the ring served last, LC then BE. -/
  lastLc : Nat
  lastBe : Nat
  /-- Job-end records of CANCELs that wait for the records of the jobs they cancelled (R104): completion ring, record, job
  numbers. -/
  cancels : List (Nat × CqRec × List Nat)
  deriving DecidableEq, Repr

/-- Where a job stands. -/
inductive JobPhase where
  /-- Fetched; waits for FENCE or its turn. -/
  | queued
  /-- An LC RUN waits for its admission (R474). -/
  | admission
  /-- A RUN that works, or any other job at work. -/
  | running
  /-- FOLIO_LOAD: fetch, verify to directory, commit write under way (R439). -/
  | loadFetch
  | loadCommit
  /-- FOLIO_UNLOAD waits for its jobs (R443). -/
  | unloading
  /-- BAY_BIST: draining, testing (R566). -/
  | bistDrain
  | bistTest
  /-- CAPTURE_CONFIG: accepted, waits for its transports; calibrating. -/
  | capture
  | calibrating
  /-- ATTEST at the signing engine. -/
  | attest
  /-- Charged with an error; its teardown is due (R499). -/
  | teardown
  /-- The job-end record is formed (written or held). -/
  | ended
  deriving DecidableEq, Repr

/-- An admitted plan (R476, R477): per stage with a list, the planned carrels and the charge on each; slack; the Δ taken
from other jobs (by job number). -/
structure Plan where
  stages : List (Nat × List Nat × Nat)
  slack : Nat
  deltas : List (Nat × Nat)
  budget : Nat
  admittedAt : Nat
  overplan : Bool
  deriving DecidableEq, Repr

/-- Requantisation counts against one tensor (R231). -/
structure TensorCount where
  tensor : Nat
  sat : Nat
  zc : Nat
  elems : Nat
  deriving DecidableEq, Repr

/-- A job in a job slot (R88, R456). `number` orders jobs by fetch. -/
structure Job where
  slot : Nat
  number : Nat
  sq : Nat
  lc : Bool
  desc : Bytes
  phase : JobPhase
  /-- Sequence records formed for the job; sequences already ended, by index. -/
  seqRecs : Nat
  ended : List Nat
  /-- Record walk (R118, R136): offset and index of the next record to walk; the records walked and not yet dispatched, by index. -/
  walkOff : Nat
  walkIdx : Nat
  walked : List (Nat × Bytes)
  /-- Next sequence index to be granted sequence slots (R457). -/
  nextGrant : Nat
  /-- The parameter block in force (R406), as read. -/
  param : Bytes
  counts : List TensorCount
  degenerate : Bool
  /-- The 64 signal counters; set to 0 when the first context is placed (R282). -/
  signals : List Nat
  /-- The counters that Penuo has assigned to stripes (R323): stage, sequence index, stripe, counter. -/
  stripeSigs : List (Nat × Nat × Nat × Nat)
  sumM : Nat
  sumS : Nat
  runs : Nat
  /-- Runs made per stage (R481). -/
  stageRuns : List (Nat × Nat)
  slowRaised : Bool
  plan : Option Plan
  /-- The admission of an LC job: its arithmetic count and BUDGET (R482). -/
  admission : Option (Nat × Nat)
  /-- The folio that the descriptor names was committed, and accepted RUNs, at the fetch (R440, R443, R444). -/
  folioOk : Bool
  /-- NUMBER of the first error record of its teardown (R499). -/
  errNumber : Nat
  deriving DecidableEq, Repr

/-- The header fields of a page-side's planes in DRAM (R130, R133, R204). -/
structure Planes where
  sample : Nat
  addr : Nat
  width : Nat
  height : Nat
  dpiX : Nat
  dpiY : Nat
  layout : Nat
  deriving DecidableEq, Repr

/-- Who holds granules of a pool. -/
inductive PoolOwner where
  /-- The planes of sequence `idx` of the job with that number. -/
  | planes (job idx : Nat)
  /-- A page-side's OUTPUT or WORK buffer in a stage, by base (R435). -/
  | buffer (job idx stage base : Nat)
  /-- A spill image moved to the pool (R472). -/
  | spill (ctx : Nat)
  /-- A captured page-side, by sample ID (R204). -/
  | capture (sample : Nat)
  deriving DecidableEq, Repr

/-- Granules first to first + count − 1 of a pool. -/
structure PoolAlloc where
  first : Nat
  count : Nat
  owner : PoolOwner
  /-- References to the buffer (R324). -/
  refs : Nat
  deriving DecidableEq, Repr

/-- What has become of a held page-side (R65, R133, R208, R209). -/
inductive HeldFate where
  | held
  | aborted
  | noRoom
  | consumed
  /-- Ended by a line frame of a version outside the agreed range (R65). -/
  | version
  deriving DecidableEq, Repr

/-- A held page-side: kept (R133) or captured (R209). `order` is when it became held. -/
structure HeldSide where
  planes : Planes
  captured : Bool
  jobNumber : Nat
  seqIdx : Nat
  claimable : Bool
  order : Nat
  claimedBy : Option Nat
  fate : HeldFate
  deriving DecidableEq, Repr

/-- A record on a decode lane (R128, R143). -/
structure LaneRec where
  slot : Nat
  jobNumber : Nat
  idx : Nat
  record : Bytes
  budget : Nat
  planes : Planes
  deriving DecidableEq, Repr

/-- An encoder batch of a job (R147, R149): the index behind its last, its members that have not failed, whether it has been
packed. -/
structure Batch where
  jobNumber : Nat
  number : Nat
  limit : Nat
  members : List Nat
  packed : Bool
  /-- The packed rows' addresses; how many row sequences it has been given, over the rows of one ENCODE stage after another; and for
  each ENCODE stage the rows it has encoded. -/
  rows : List Nat
  granted : Nat
  encoded : List (Nat × Nat)
  deriving DecidableEq, Repr

/-- The accession unit (chapter 4): lanes 0 to 5 JPEG, 6 to 9 T.6, 10 raw. -/
structure Acc where
  lanes : List (Option LaneRec)
  pool : List PoolAlloc
  /-- The allocations that wait for pool room, oldest first (R131, R435). -/
  poolQueue : List PoolOwner
  /-- Round-robin position per lane kind (JPEG, T.6, raw): the LC job and the BE job served last, by number (R136). -/
  laneTurns : List (Nat × Nat)
  held : List HeldSide
  heldCount : Nat
  batches : List Batch
  deriving DecidableEq, Repr

/-- One source entry in force (R196). -/
structure Source where
  port : Nat
  vc : Nat
  transport : Nat
  side : Nat
  channelIn : Nat
  plane : Nat
  ratioY : Nat
  ratioX : Nat
  off : Int
  xDest : Nat
  pixels : Nat
  sampleBits : Nat
  channels : Nat
  minLine : Nat
  mclkDiv : Nat
  kind : Nat
  deriving DecidableEq, Repr

/-- One strobe entry in force (R197), with the source's index in the same configuration. -/
structure Strobe where
  output : Nat
  source : Nat
  uv : Bool
  qoff : Int
  delay : Nat
  width : Nat
  deriving DecidableEq, Repr

/-- A transport section in force (R195) with the sources and strobes of the transport. -/
structure TransportCfg where
  frameMode : Bool
  dir : Bool
  leadHigh : Bool
  dfeedHigh : Bool
  ilkClosedHigh : Bool
  maxRows : Nat
  pitch : Nat
  topQc : Int
  tailQc : Nat
  revLim : Nat
  stallLim : Nat
  width0 : Nat
  width1 : Nat
  filter : Nat
  whiteTarget : Nat
  sources : List Source
  strobes : List Strobe
  deriving DecidableEq, Repr

/-- The dark and white references of a source, per pixel (R181, R182), with PORT, CHANNEL_IN, PIXELS and SAMPLE_BITS of the entry that
they were measured for. -/
structure Refs where
  transport : Nat
  source : Nat
  entry : Nat × Nat × Nat × Nat
  dark : List Nat
  white : List Nat
  deriving DecidableEq, Repr

/-- The open page-side of one side of a transport, for which the capture pool had room (R169, R204, R205). -/
structure OpenSide where
  sample : Nat
  side : Nat
  addr : Nat
  /-- Corrected lines taken so far: source index, line number, pixels. -/
  lines : List (Nat × Nat × List Nat)
  /-- Lines that are lost or were discarded (R162): source index, line number. -/
  gone : List (Nat × Nat)
  linesLost : Nat
  overspeed : Nat
  /-- Bits [7:0] as in COL_T_EVENT. -/
  flags : Nat
  deriving DecidableEq, Repr

/-- A line that one LSYNC asks of a source: transport, source index, line number; `cal` for a calibration's line. -/
structure Trigger where
  transport : Nat
  source : Nat
  line : Nat
  cal : Bool
  deriving DecidableEq, Repr

/-- A line-sensor port: the lines of the LSYNC whose frame is outstanding, those held back by MIN_LINE, whether MIN_LINE has not
yet passed since the last LSYNC (R176), the last LINE_SEQ seen, the lines since then that are already known lost or discarded
(R162), byte alignment, and whether it waits for the next leading edge after a frame of a foreign version (R65). -/
structure Lsp where
  outstanding : List Trigger
  deferred : List (List Trigger)
  inMinLine : Bool
  lastSeq : Option Nat
  known : Nat
  sync : Bool
  muted : Bool
  deriving DecidableEq, Repr

/-- The phase of a lamp output's strobe event (R178). -/
inductive StrobePhase where
  | idle
  | delay (uv : Bool) (transport : Nat)
  | high (uv : Bool) (transport : Nat)
  deriving DecidableEq, Repr

/-- What one source of a calibration has taken: transport, source index, lines, frames (R188), and the sum of each pixel. -/
structure CalSum where
  transport : Nat
  source : Nat
  lines : Nat
  frames : Nat
  sums : List Nat
  deriving DecidableEq, Repr

/-- A calibration that waits or is under way (R186): the job slot, dark or white, AVG, transports, and in frame mode the (port,
virtual channel) pairs inside a frame that it takes. -/
structure Calib where
  slot : Nat
  white : Bool
  avg : Nat
  transports : List Nat
  started : Bool
  sums : List CalSum
  inFrame : List (Nat × Nat)
  deriving DecidableEq, Repr

/-- One transport (R166 to R175). -/
structure Transport where
  /-- Position counter, 32 bits, in the always-on domain. -/
  pos : Nat
  /-- Page counter, 45 bits. -/
  page : Nat
  encA : Bool
  encB : Bool
  cfg : Option TransportCfg
  /-- Latched P_lead and P_trail, and the high-water mark H. -/
  pLead : Nat
  pTrail : Option Nat
  high : Nat
  /-- The next row whose triggers have not fired, per source index. -/
  nextRow : List (Nat × Nat)
  sides : List OpenSide
  /-- A leading edge latched in STANDBY or READY_IDLE (R538). -/
  leadLatch : Option Nat
  leadActive : Bool
  ilkClosed : Bool
  /-- The interlock has stayed closed since the last leading edge (R191). -/
  ilkHeld : Bool
  /-- The next row whose event has not begun, per strobe index (R178). -/
  nextStrobe : List (Nat × Nat)
  /-- Strobe events of triggers that have fired on page-sides closed since, whose position is still to come (R178). -/
  lateStrobes : List (Nat × Strobe)
  /-- Events of R167. -/
  encErrs : Nat
  deriving DecidableEq, Repr

/-- The collation unit (chapter 5). -/
structure Col where
  transports : List Transport
  lsps : List Lsp
  refs : List Refs
  pool : List PoolAlloc
  lamps : List StrobePhase
  calib : List Calib
  /-- Frames under way on the CSI ports: port, virtual channel. -/
  csiOpen : List (Nat × Nat)
  /-- Accepted CAPTURE_CONFIG work not yet applied, in fetch order: job slot, transports still to take it, the parsed
  configuration per transport (none: decommit). -/
  queue : List (Nat × List Nat × List (Nat × Option TransportCfg))
  deriving DecidableEq, Repr

/-- A stage entry of a committed folio (R433). -/
structure Stage where
  kind : Nat
  input : Nat
  wingParts : Nat
  conc : Bool
  card : Bool
  list : Nat
  listLen : Nat
  units : Nat
  streams : Nat
  winKib : Nat
  expand4k : Nat
  stripeH : Nat
  minW : Nat
  maxW : Nat
  minH : Nat
  maxH : Nat
  bound : Nat
  catAllow : Nat
  textClasses : Nat
  kv : Option Nat
  shelfOff : Nat
  shelfShards : Nat
  deriving DecidableEq, Repr

/-- A KV declaration (R434). -/
structure KvDecl where
  layers : Nat
  heads : Nat
  hdim : Nat
  fmt : Nat
  log2Page : Nat
  pinRecent : Nat
  budgetPos : Nat
  cardP : Nat
  deriving DecidableEq, Repr

/-- A folio handle in use (R439): its image in the model area, its parsed declarations, whether it is committed or being
unloaded. -/
structure Folio where
  handle : Nat
  addr : Nat
  len : Nat
  version : Nat
  committed : Bool
  unloading : Bool
  loaderSlot : Option Nat
  pinned : Bool
  pinWanted : Bool
  grammarBase : Nat
  grammars : List (Nat × Nat)
  defaultGrammar : Nat
  prefixSeed : Nat
  seqSlots : Nat
  stages : List Stage
  kvs : List KvDecl
  quant : List Bytes
  commandOff : Nat
  params : Option Bytes
  /-- Binding entries: stage, base, kind, argument, size (R435). -/
  bindings : List (Nat × Nat × Nat × Nat × Nat)
  /-- Fix-ups: kind, input tensor, output tensor, scale table, destination (R436). -/
  fixups : List (Nat × Nat × Nat × Nat × Nat)
  digest : Bytes
  grammarDigests : List Bytes
  deriving DecidableEq, Repr

/-- A shard resident on a reserve shelf (R450 to R452): where, whether pinned, when last read. -/
structure Shard where
  wing : Nat
  bay : Nat
  handle : Nat
  number : Nat
  /-- Its place in the bay's reserve shelf, in units of 64 KiB. -/
  pos : Nat
  pinned : Bool
  lastRead : Nat
  deriving DecidableEq, Repr

/-- Model folios and the reserve shelf (chapter 13). -/
structure Fol where
  folios : List Folio
  shards : List Shard
  /-- Refills under way: wing, handle, shard. -/
  refills : List (Nat × Nat × Nat)
  reads : Nat
  deriving DecidableEq, Repr

/-- One accumulator cell (R245, R255): value, saturation flag, residue. -/
structure AccCell where
  value : Int
  sat : Bool
  residue : Nat
  deriving DecidableEq, Repr

/-- One pass of a TMAC at work (R294): the rows of d, the column operands with their group size and shifts, the initial values of
the 256 cells. -/
structure PassIn where
  ds : List (List Int)
  ws : List (List Int × Option (Nat × List Nat))
  init : List Int
  deriving DecidableEq, Repr

/-- A TMAC on the array (R249, R254): the arithmetic count from which its cycles run, those it ran before, the cycles before its
first pass, lookups and pair width of a pass, A8 × A8 mode, its passes in order, and the flags and residues of the cells that an
interrupted pass has saved beside its save area. -/
structure TmacRun where
  start : Nat
  ran : Nat
  lead : Nat
  lookups : Nat
  width : Nat
  a8 : Bool
  passes : List PassIn
  saved : Option (List (Bool × Nat))
  deriving DecidableEq, Repr

/-- A tile that a REQ has written in a context's scratch: the tensor, its first address and bytes, its columns, and where the channel
records of a range-mode tile lie (R237). -/
structure Tile where
  tensor : Nat
  addr : Nat
  bytes : Nat
  cols : Nat
  recs : Option Nat
  deriving DecidableEq, Repr

/-- A drained element on its way from a TMAC to its REQ or KVAPP: row, column, cell. -/
structure Drain where
  rows : Nat
  cols : Nat
  cells : List AccCell
  deriving DecidableEq, Repr

/-- A stream handle (R289 to R291): its command, how many bytes it delivers after XFORM, how many are consumed, how many have been
moved into the scratch ring, and those fetched into its shelf window and not yet moved. -/
structure StreamH where
  handle : Nat
  cmd : Bytes
  total : Nat
  consumed : Nat
  ringed : Nat
  ahead : Bytes
  deriving DecidableEq, Repr

/-- A page as the walk takes it (R339): the entry's BASE_POS, PAGE address, positions n. -/
structure WalkPage where
  basePos : Nat
  page : Nat
  count : Nat
  deriving DecidableEq, Repr

/-- A row of partial attention results (R361): m, l and O as FP32 words. -/
structure PartRow where
  m : Word
  l : Word
  o : List Word
  deriving DecidableEq, Repr

/-- A walk of an ATTN at work (R339 to R342). -/
structure Walk where
  seq : Nat
  cmdIdx : Nat
  pages : List WalkPage
  /-- Descriptors emitted so far, and those among them that wait in the queue (R341). -/
  emitted : Nat
  queued : Nat
  /-- Per page consumed, per block, per query row: the block sum and the running maximum after it (R376). -/
  blocks : List (List (List (Word × Word)))
  /-- The combiner has taken the rows of a part (R362), and has written part 0's output. -/
  handed : Bool
  written : Bool
  deriving DecidableEq, Repr

/-- A command issued and not yet complete: list index, command bytes, class letter as in R275, and its place in the order of
issue. -/
structure OutCmd where
  idx : Nat
  cmd : Bytes
  cls : Nat
  order : Nat
  deriving DecidableEq, Repr

/-- A context (R459): the running state of one stage of one job. Its register bank (R257) and scratch live with it while it
sits in a slot; `image` holds them while it is spilled. -/
structure Ctx where
  id : Nat
  plan : CtxPlan
  jobNumber : Nat
  lc : Bool
  units : Nat
  /-- Where its list lies, by base and offset (R268). -/
  listAt : ListAt
  listLen : Nat
  /-- A stripe that passes over its stage's own list (R321): its first and last output row, and the stripes whose rows it reads
  (R323): stage, sequence index, stripe. -/
  rows : Option (Nat × Nat)
  producers : List (Nat × Nat × Nat)
  bases : List (Nat × Nat × Nat)
  /-- The carrel and slot, none while spilled. -/
  place : Option (Nat × Nat)
  bay : Nat
  /-- The expansion grant on the bay's shelf: first byte and bytes (R311). -/
  expand : Option (Nat × Nat)
  streams : Nat
  winKib : Nat
  /-- Commands fetched and not issued, and the index of the next to issue and to fetch. -/
  queue : List Bytes
  nextIssue : Nat
  nextFetch : Nat
  outstanding : List OutCmd
  handles : List StreamH
  drain : Option Drain
  /-- The TMAC on the array, and the tiles that its REQs have written. -/
  tmac : Option TmacRun
  tiles : List Tile
  vregs : List (List Word)
  walk : Option Walk
  /-- The final output, and its address, that the combiner holds for a part 0 that is switched out (R362). -/
  heldOut : Option (Nat × Bytes)
  /-- Stopped by an error in the cycle of detection (R552). -/
  stopped : Bool
  /-- An engine of this context was taken by an LC command (R465): bit 0 array, bit 1 vector. -/
  taken : Nat
  /-- KVAPP waits for a spare (R337), and the drained rows it has written so far. -/
  kvWait : Bool
  kvDone : Nat
  /-- Arithmetic count at the issue of the run's first command (R494). -/
  runStart : Option Nat
  /-- No run is under way: the context keeps its slot between steps (R458). -/
  idle : Bool
  /-- The run is over-plan (R481). -/
  overplan : Bool
  /-- Spill image: its first byte, in the bay's spill area or in the plane pool, and the bytes of its live region; whether it lies in
  the pool; when it was spilled. -/
  image : Option (Nat × Nat)
  pooled : Bool
  spilledAt : Nat
  /-- Sequence slots that its run served and that have been let go since. -/
  gone : List Nat
  /-- Pool addresses of the buffers whose reference it holds (R324). -/
  reads : List Nat
  deriving DecidableEq, Repr

/-- A context switch under way on a carrel (R469 to R471): slot, leaving context, entering context, its cost. -/
structure Switch where
  slot : Nat
  leaving : Option Nat
  entering : Option Nat
  cost : Nat
  deriving DecidableEq, Repr

/-- A carrel (R11): four slots, each with the physical scratch units it holds in map order (R263) and the context in it;
128 KiB of scratch; two accumulator sets; the slot that issued last (R464). -/
structure Carrel where
  slots : List (List Nat × Option Nat)
  scratch : Mem
  /-- The 64-bit words whose stored bits and check bits hold an error (R262, R266), by word number; true: a double-bit one. Every
  other word's check bits are valid. -/
  bad : List (Nat × Bool)
  /-- The arithmetic count at which the clears of its units end (R264). -/
  clearUntil : Nat
  accSets : List (List AccCell)
  lastIssue : Nat
  switching : Option Switch
  deriving DecidableEq, Repr

/-- A context that Penuo could not place yet (R461 to R463): what was asked, the job, its class, oldest first in the list. -/
structure WaitCtx where
  plan : CtxPlan
  jobNumber : Nat
  lc : Bool
  deriving DecidableEq, Repr

/-- A combiner of a wing hub at work (R361): the job, the stage, the sequences and the list index of the ATTN it combines, PARTS,
and the rows of each PART that has handed over. -/
structure Combiner where
  jobNumber : Nat
  stage : Nat
  seqs : List Nat
  idx : Nat
  parts : Nat
  rows : List (Nat × List PartRow)
  deriving DecidableEq, Repr

/-- A run of the scheduler and the compute fabric (chapters 7, 8, 9, 14). -/
structure Sch where
  carrels : List Carrel
  /-- The shelf of each bay: spill area, reserve shelf, stream buffers. -/
  shelves : List Mem
  ctxs : List Ctx
  nextCtx : Nat
  /-- Contexts that wait for a slot, in the order in which they became ready. -/
  waiting : List WaitCtx
  /-- Switch-outs that wait for the reserved room of a bay (R472): bay, bytes of the image, job number. -/
  spillNeed : List (Nat × Nat × Nat)
  /-- Commands issued so far, and for each bay DMA engine the LC and the BE context served last (R466). -/
  issueCount : Nat
  dmaLast : List (Nat × Nat)
  /-- Bay under BIST (R566) with the job slot, and what was asked. -/
  bist : Option (Nat × Nat)
  /-- AO cycles that its drain has left (R566). -/
  bistLeft : Nat
  bistQueue : List Nat
  /-- Bays stopped, wings stopped (R551). -/
  stoppedBays : List Nat
  stoppedWings : List Nat
  /-- The combiners of the wing hubs (R361). -/
  combiners : List Combiner
  /-- The wing cores' L1 memories, instructions and data, 32 KiB each, and the wings' L2 memories, 768 KiB each (R11, R17). They
  hold Penuo's own code and data: no rule says what it keeps there. -/
  coreL1 : List (Mem × Mem)
  wingL2 : List Mem
  deriving DecidableEq, Repr

/-- A page-table entry (R332). -/
structure Pte where
  page : Nat
  log2 : Nat
  valid : Bool
  shared : Bool
  pinned : Bool
  swapped : Bool
  fill : Nat
  basePos : Nat
  /-- BF16 score. -/
  score : BitVec 16
  /-- The summary card is built (R389), with its bytes. -/
  card : Option Bytes
  deriving DecidableEq, Repr

/-- A sequence at its catalog unit (R425): configuration, emitted bytes with their margins, fields, run length, generator.
`mask`: none until the mask in force is built (R427). -/
structure CatSeq where
  /-- The wing whose catalog unit holds it, none until its decoder stage is first placed (R425). -/
  wing : Option Nat
  grammarAddr : Nat
  state : Nat
  stack : List Nat
  mask : Option (List Nat)
  /-- The token taken and not yet advanced, with its BF16 margin. -/
  token : Option (Nat × BitVec 16)
  emitted : List (Byte × BitVec 16)
  written : Nat
  openField : Option Nat
  /-- Closed fields: first byte, last byte. -/
  fields : List (Nat × Nat)
  run : Nat
  paused : Bool
  rng : Dword
  /-- Tokens to feed back as the next prefill chunk (R410). -/
  feed : List Nat
  /-- The row of logits handed over and not yet used (R428). -/
  row : Option (List Word)
  /-- Its place in the order in which rows reached the catalog unit (R466). -/
  rowAt : Nat
  deriving DecidableEq, Repr

/-- A sequence slot (R333, R456, R457). -/
structure SeqSlot where
  slot : Nat
  jobNumber : Nat
  jobSlot : Nat
  idx : Nat
  row : Bool
  /-- The ENCODE stage that a row sequence serves, the DECODE stage for a page-side (R350). -/
  stage : Nat
  sample : Nat
  /-- The page table, and where it lies in device DRAM. -/
  tableAt : Nat
  table : List Pte
  gen : Nat
  cursor : Nat
  geom : Option KvDecl
  spare : Option Nat
  /-- Open command batches of the present step (R345), and the positions the sequence put into it (R467). -/
  stepOpen : Nat
  chunk : Nat
  /-- How many of the chunk's positions are fed-back tokens. -/
  chunkFed : Nat
  /-- Queued edits are being applied (R345). -/
  applying : Bool
  started : Bool
  startedAt : Nat
  edits : List Edit
  /-- Edits requested, outside a step, while an application runs: one application each, in their order (R345). -/
  after : List (List Edit)
  swappedAt : Option Nat
  /-- Not swapped in, or a step completed since (R383). -/
  fresh : Bool
  prompt : List Nat
  /-- Chunks held through a node so far (R372); no later chunk is inserted once this stops. -/
  shared : Nat
  insertOk : Bool
  cat : Option CatSeq
  planes : Option Planes
  /-- Since when it waits for its next step, on the KV clock (R468). -/
  waitFrom : Nat
  /-- Its chunk did not fit into the last step of its batch (R468). -/
  deferred : Bool
  /-- The bay whose shelf holds planes of the page-side, once a context that reaches it by base 15 has been placed (R322). -/
  shelfBay : Option Nat
  /-- Runs of the present step begun: stage, part, PART of a spread head. -/
  stepRan : List (Nat × Nat × Nat)
  /-- Runs of the page-side that have completed: stage, part, stripe. -/
  done : List (Nat × Nat × Nat)
  /-- Its sequence record is formed: it takes no further step, and its slot goes when the record is written (R456). -/
  ended : Bool
  deriving DecidableEq, Repr

/-- A concordance node (R370). -/
structure Node where
  id : Nat
  folio : Nat
  log2 : Nat
  hash : Dword
  parent : Option Nat
  tokens : List Nat
  page : Nat
  lastMatch : Nat
  deriving DecidableEq, Repr

/-- KV memory (chapters 10, 11). -/
structure Kv where
  seqs : List SeqSlot
  /-- Free pages per size k (2^(k+4) positions) with their addresses and bytes. -/
  free : List (List Nat)
  /-- Bytes of the arena carved so far. -/
  carved : Nat
  /-- Bytes of a page by its address, for pages carved. -/
  pageBytes : List (Nat × Nat)
  nodes : List Node
  nextNode : Nat
  /-- Orders matches, swaps and first steps in time. -/
  clock : Nat
  /-- Swap units in use: first unit, count, owner sequence slot. -/
  swapRuns : List (Nat × Nat × Nat)
  deriving DecidableEq, Repr

/-- One client's account in one state (R489, R490): the seven counters of R493 in its order, and PAGES. -/
structure Account where
  client : Nat
  array : Nat
  vector : Nat
  decode : Nat
  catalog : Nat
  dram : Nat
  pcie : Nat
  refill : Nat
  pages : Nat
  deriving DecidableEq, Repr

/-- A closed account held for the ledger ring (R109). -/
structure HeldAccount where
  state : Nat
  interval : Nat
  merged : Bool
  energy : Nat
  acct : Account
  deriving DecidableEq, Repr

/-- A slow event (R497). -/
structure SlowEvent where
  ratio : Nat
  sq : Nat
  tag : Nat
  deriving DecidableEq, Repr

/-- The circulation ledger (chapter 15). -/
structure Ldg where
  accounts : List Account
  carries : List (Nat × Nat)
  held : List HeldAccount
  /-- State in force when the open interval began (R33, R485). -/
  intervalState : DeviceState
  /-- AO count at which the open interval began, and its length in AO cycles (R488). -/
  openedAt : Nat
  length : Nat
  devicePj : Nat
  latchedHi : Nat
  slow : List SlowEvent
  deriving DecidableEq, Repr

/-- History of one (unit, kind) pair (R556, R557). -/
structure ErrPair where
  unit : Nat
  kind : Nat
  times : List Nat
  lasting : Bool
  /-- Time of the pair's last record and events since it (R556). -/
  lastRecord : Nat
  since : Nat
  deriving DecidableEq, Repr

/-- Error reporting (chapter 18). -/
structure Errs where
  /-- Summaries on their way to the chip level, oldest first (R552). -/
  pending : List ErrEvent
  held : List ErrRec
  /-- A record of severity contained or worse that can neither merge nor be held (R107). -/
  stuck : List ErrRec
  /-- NUMBER of the last record formed. -/
  number : Nat
  pairs : List ErrPair
  deriving DecidableEq, Repr

/-- OTP (R572), 146 bytes at offsets 0 to 145. -/
abbrev Otp := Mem

/-- An ATTEST job waiting at the signing engine or being signed (R586). -/
structure AttestJob where
  slot : Nat
  desc : Bytes
  deriving DecidableEq, Repr

/-- Security, identity, debug (chapter 19). -/
structure Sec where
  otp : Otp
  ms : List Bytes
  extendCount : Nat
  attest : List AttestJob
  /-- The OTP field being programmed, with its data (R573). -/
  otpBusy : Option (Nat × Bytes)
  /-- The target of a rollback burn under way (R579). -/
  rbBusy : Option Nat
  /-- Update under way (R578): length, source, as they stood at GO. -/
  fwu : Option (Nat × Nat)
  fwuStatus : Nat
  /-- The outstanding challenge, the CHALLENGEs made, the failed responses (held at 8) and the unlocked scope (R588). -/
  challengeBytes : Option Bytes
  challengeCount : Nat
  fails : Nat
  scope : Nat
  /-- A response under verification: the 48 challenge bytes, SCOPE, and the signature block. -/
  response : Option (Bytes × Bytes × Bytes)
  /-- Bytes of the board's boot flash: 32 to 256 MiB (R62, R63). -/
  flashBytes : Nat
  /-- Recovery loader (R522): next block expected, none when the image is abandoned; status fields. -/
  rcvNext : Option Nat
  rcvBusy : Bool
  rcvOverrun : Bool
  rcvSeqErr : Bool
  rcvResult : Nat
  rcvSlotB : Bool
  rcvLen : Option Nat
  deriving DecidableEq, Repr

/-- The state of the LT8. -/
structure State where
  /-- The commands that wait, first in, first out. -/
  pending : List Instr
  regs : RegFile
  /-- THE MODEL'S OWN counter of free values drawn; not the spec's. -/
  fresh : Nat
  /-- Everything the LT8 has sent, oldest first. -/
  out : List Out
  /-- AO cycles counted, and the latest arithmetic count known. -/
  aoTime : Nat
  arithNow : Nat
  dev : Dev
  rst : Rst
  link : Link
  mgt : Mgt
  rings : Rings
  jobs : List Job
  jobCount : Nat
  acc : Acc
  col : Col
  fol : Fol
  sch : Sch
  kv : Kv
  ldg : Ldg
  err : Errs
  sec : Sec
  dram : Mem
  flash : Mem
  deriving DecidableEq, Repr

/-! ### The machine right after a power-on reset -/

/-- The units that resets reach (R504). -/
def allUnits : List RstUnit :=
  (List.range 24).map .bay ++ (List.range 4).map .wing ++ [.spine, .accession, .collation, .dramCtl, .pcieApp]

def Dev.reset : Dev :=
  { state := .bringUp, prev := .off, req := none, fatalEntry := false, power := .active, waking := false,
    colReady := false, idleFor := 0, thermArmed := true, thermN := false, aoFallback := false, locked := 0, step := 0,
    domains := 0, wdog := none, dramReset := false, selfRefresh := false, bflReset := false, hostBoot := false, hostLen := 0,
    penuo := none, dramSize := 0, step2 := false, step3Dram := false, step3Link := false, step4 := false }

/-- The power-on source is asserted and every unit is held (R505, R506). -/
def Rst.reset : Rst :=
  { units := allUnits.map fun u => ⟨u, .held, 4, 0⟩, asserted := [(.powerOn, .cold)], epSources := [.powerOn],
    epWidest := 4, epForced := false, epPrior := .off, epFailed := false, epOpen := true, starts := 0,
    windowRun := false, windowLeft := 0, reqBusy := false, logSeq := 0, fabricRelease := false }

/-- The MSI-X table with every vector masked: bit 0 of each entry's last word, as PCI Express resets it (PRESUMED, assumption
25). -/
def msixReset : Mem := (List.range 64).map fun k => (16 * k + 12, 1)

def Link.reset : Link :=
  { up := false, speed := 0, width := 0, mps := 0, mrrs := 512, relaxed := true, perstLow := false, txActive := false,
    bootSel := 0, bar4 := false, msixTable := msixReset, msixPending := 0,
    waiting := [] }

def Mgt.reset : Mgt :=
  { mode8d := false, last := 0, dwinBusy := false, dwinReady := false, window := [], windowLen := 0, dwinOp := none,
    inbox := none, outbox := none, held := [], origSeq := 0 }

def Rings.reset : Rings :=
  { sqs := List.replicate 64 ⟨0, 0, false, false, false, []⟩
    cqs := List.replicate 64 ⟨⟨0, 0, false, false, false⟩, []⟩
    errRing := ⟨0, 0, false, false, false⟩, ldgRing := ⟨0, 0, false, false, false⟩, lastLc := 63, lastBe := 63,
    cancels := [] }

def Acc.reset : Acc :=
  { lanes := List.replicate 11 none, pool := [], poolQueue := [], laneTurns := List.replicate 3 (0, 0), held := [], heldCount := 0, batches := [] }

def Transport.reset : Transport :=
  { pos := 0, page := 0, encA := false, encB := false, cfg := none, pLead := 0, pTrail := none, high := 0,
    nextRow := [], sides := [], leadLatch := none, leadActive := false, ilkClosed := false, ilkHeld := false,
    nextStrobe := [], lateStrobes := [], encErrs := 0 }

def Col.reset : Col :=
  { transports := List.replicate 4 Transport.reset, lsps := List.replicate 8 ⟨[], [], false, none, 0, false, false⟩, refs := [],
    pool := [], lamps := List.replicate 16 .idle, calib := [], csiOpen := [], queue := [] }

def Fol.reset : Fol := { folios := [], shards := [], refills := [], reads := 0 }

/-- Four empty slots, scratch clear, both accumulator sets clear. -/
def Carrel.reset : Carrel :=
  { slots := List.replicate 4 ([], none), scratch := [], bad := [], clearUntil := 0, accSets := [[], []], lastIssue := 0,
    switching := none }

def Sch.reset : Sch :=
  { carrels := List.replicate 192 Carrel.reset, shelves := List.replicate 24 [], ctxs := [], nextCtx := 0,
    waiting := [], spillNeed := [], issueCount := 0, dmaLast := List.replicate 48 (0, 0), bist := none, bistLeft := 0, bistQueue := [], stoppedBays := [], stoppedWings := [],
    combiners := [], coreL1 := List.replicate 16 ([], []), wingL2 := List.replicate 4 [] }

def Kv.reset : Kv :=
  { seqs := [], free := List.replicate 8 [], carved := 0, pageBytes := [], nodes := [], nextNode := 0, clock := 0, swapRuns := [] }

def Ldg.reset : Ldg :=
  { accounts := [], carries := [], held := [], intervalState := .bringUp, openedAt := 0, length := 8192, devicePj := 0, latchedHi := 0, slow := [] }

def Errs.reset : Errs := { pending := [], held := [], stuck := [], number := 0, pairs := [] }

def Sec.reset : Sec :=
  { otp := [], ms := List.replicate 8 (List.replicate 32 0), extendCount := 0, attest := [], otpBusy := none,
    rbBusy := none, fwu := none, fwuStatus := 0, challengeBytes := none, challengeCount := 0, fails := 0, scope := 0,
    response := none, flashBytes := 32 * 2 ^ 20, rcvNext := none, rcvBusy := false, rcvOverrun := false,
    rcvSeqErr := false, rcvResult := 0, rcvSlotB := false, rcvLen := none }

/-- The machine right after a power-on reset: BAR0 as R601 gives it (an empty list: every register at its reset value),
BRING_UP as SYS_STATE reads, the power-on source still asserted. -/
def State.reset : State :=
  { pending := [], regs := [], fresh := 0, out := [], aoTime := 0, arithNow := 0, dev := Dev.reset, rst := Rst.reset,
    link := Link.reset, mgt := Mgt.reset, rings := Rings.reset, jobs := [], jobCount := 0, acc := Acc.reset,
    col := Col.reset, fol := Fol.reset, sch := Sch.reset, kv := Kv.reset, ldg := Ldg.reset, err := Errs.reset,
    sec := Sec.reset, dram := [], flash := [] }

/-- Why a command can stop with a fault. Closed: no command of this model raises one, since every effect the spec gives is
modelled; the constructor is kept so that the type says what a fault would mean. Raising it would be safe. -/
inductive Fault where
  /-- Nobody raises it today: a command to which the spec gives no effect at all. Safe: the run stops. -/
  | noEffect (mnemonic : String)
  deriving DecidableEq, Repr

/-- Why a command is refused. -/
inductive Refusal where
  /-- Raised by `exec` alone, for a command that has no meaning in the model yet. Safe: the run stops. -/
  | notModelled (mnemonic : String)
  deriving DecidableEq, Repr

end Sys2Proof.Machine
end

