-- ==== Sys2Proof/Machine/Bytes.lean ====
section
/-! DEFINITION. Byte order, bit fields, rounding and check codes: the small arithmetic that every layout of the spec is read
and written with (R5, R117, R157). -/

namespace Sys2Proof.Machine

/-- The value of a little-endian field (R5). -/
def leNat : Bytes → Nat
  | [] => 0
  | b :: bs => b.toNat + 256 * leNat bs

/-- The `n` bytes of a little-endian field holding `v` modulo 256^n (R5). -/
def toLe : Nat → Nat → Bytes
  | 0, _ => []
  | n + 1, v => BitVec.ofNat 8 v :: toLe n (v / 256)

/-- The value of a field sent most significant byte first (R46, and the octet strings of R5). -/
def beNat (bs : Bytes) : Nat := leNat bs.reverse

/-- The `n` bytes of a field sent most significant byte first. -/
def toBe (n v : Nat) : Bytes := (toLe n v).reverse

/-- `n` zero bytes. -/
def zeros (n : Nat) : Bytes := List.replicate n 0

/-- `n` bytes from offset `off`; bytes past the end read as 0. -/
def sliceB (bs : Bytes) (off n : Nat) : Bytes :=
  let t := (bs.drop off).take n
  t ++ zeros (n - t.length)

def u8 (bs : Bytes) (off : Nat) : Nat := (bs.getD off 0).toNat
def u16 (bs : Bytes) (off : Nat) : Nat := leNat (sliceB bs off 2)
def u24 (bs : Bytes) (off : Nat) : Nat := leNat (sliceB bs off 3)
def u32 (bs : Bytes) (off : Nat) : Nat := leNat (sliceB bs off 4)
def u48 (bs : Bytes) (off : Nat) : Nat := leNat (sliceB bs off 6)
def u64 (bs : Bytes) (off : Nat) : Nat := leNat (sliceB bs off 8)

/-- The two's-complement value of the low `n` bits of `v`. -/
def sext (n v : Nat) : Int :=
  let m := v % 2 ^ n
  if m < 2 ^ (n - 1) then (m : Int) else (m : Int) - (2 ^ n : Nat)

/-- The low `n` bits of an integer, as two's complement. -/
def wrapN (n : Nat) (v : Int) : Nat := (v % (2 ^ n : Nat)).toNat

def s8 (bs : Bytes) (off : Nat) : Int := sext 8 (u8 bs off)
def s16 (bs : Bytes) (off : Nat) : Int := sext 16 (u16 bs off)
def s32 (bs : Bytes) (off : Nat) : Int := sext 32 (u32 bs off)

/-- Bits [lo + n − 1 : lo] of `v`. -/
def bitsN (v lo n : Nat) : Nat := (v >>> lo) % 2 ^ n

def bitN (v i : Nat) : Bool := v.testBit i

/-- `v` with bits [lo + n − 1 : lo] replaced by those of `x`. -/
def putBitsN (v lo n x : Nat) : Nat :=
  v - ((bitsN v lo n) <<< lo) + ((x % 2 ^ n) <<< lo)

def wbits (w : Word) (lo n : Nat) : Nat := bitsN w.toNat lo n

def wbit (w : Word) (i : Nat) : Bool := w.toNat.testBit i

def wput (w : Word) (lo n x : Nat) : Word := BitVec.ofNat 32 (putBitsN w.toNat lo n x)

def ceilDiv (a b : Nat) : Nat := (a + b - 1) / b

/-- `a` rounded up to a multiple of `b`. -/
def roundUp (a b : Nat) : Nat := ceilDiv a b * b

def b2n (b : Bool) : Nat := if b then 1 else 0

/-- A count that is held at `top` once reached. -/
def satAdd (top a b : Nat) : Nat := min top (a + b)

/-- An integer held between bounds. -/
def clampI (lo hi v : Int) : Int := max lo (min hi v)

/-- Exclusive or of a byte list's bits as Nat operands stay below 2^n. -/
def crcShiftR (poly : Nat) : Nat → Nat → Nat
  | 0, c => c
  | k + 1, c => crcShiftR poly k (if c % 2 = 1 then (c / 2) ^^^ poly else c / 2)

/-- CRC-32C as R117 gives it: polynomial 0x1EDC6F41 reflected, initial value and final exclusive or all ones. -/
def crc32c (bs : Bytes) : Nat :=
  (bs.foldl (fun c b => crcShiftR 0x82F63B78 8 (c ^^^ b.toNat)) 0xFFFFFFFF) ^^^ 0xFFFFFFFF

def crcShiftL (poly : Nat) : Nat → Nat → Nat
  | 0, c => c
  | k + 1, c => crcShiftL poly k (if c ≥ 0x8000 then ((c * 2) % 0x10000) ^^^ poly else c * 2)

/-- CRC-16 with polynomial 0x1021, most significant bit first, from `init`, no final exclusive or (R157). -/
def crc16 (init : Nat) (bs : Bytes) : Nat :=
  bs.foldl (fun c b => crcShiftL 0x1021 8 (c ^^^ (b.toNat * 256))) init

/-- The largest of a list of naturals, 0 for none. -/
def maxNat (l : List Nat) : Nat := l.foldl max 0

/-- Replace the first element that satisfies `p`. -/
def updFirst {α : Type} (p : α → Bool) (f : α → α) : List α → List α
  | [] => []
  | a :: l => if p a then f a :: l else a :: updFirst p f l

/-- Add one element at the end unless it is there. -/
def addNew {α : Type} [DecidableEq α] (l : List α) (a : α) : List α := if a ∈ l then l else l ++ [a]

/-- The bitmap of a list of bit numbers. -/
def bitmap (l : List Nat) : Nat := l.foldl (fun m i => m ||| (1 <<< i)) 0

end Sys2Proof.Machine
end

