-- ==== Sys2Proof/Machine/Regs.lean ====
section
/-! DEFINITION. The set-up register map of BAR0 as data (R601): the offset of every register, and for each run of registers
its field masks by access code (R7) and its value after a power-on reset. The masks and values are those of the spec's own
register tables. -/

namespace Sys2Proof.Machine

/-- A run of `count` registers from offset `base`: the bits of each access code (R7); every other bit is RO, WO or reserved;
and the power-on value. -/
structure RegRow where
  base : Nat
  count : Nat
  rw : Nat
  w1c : Nat
  w1s : Nat
  rwl : Nat
  reset : Nat
  deriving DecidableEq, Repr

abbrev rSysId : Nat := 0x0000
abbrev rSysStep : Nat := 0x0004
abbrev rSysTopo : Nat := 0x0008
abbrev rSysLock : Nat := 0x000C
abbrev rSysState : Nat := 0x0010
abbrev rSysStateReq : Nat := 0x0014
abbrev rSysAccess : Nat := 0x0018
abbrev rRstStatus : Nat := 0x1000
abbrev rRstReq : Nat := 0x1004
abbrev rRstCtrl : Nat := 0x1008
abbrev rRstStart : Nat := 0x100C
abbrev rRstWdog : Nat := 0x1010
abbrev rRstRcvStatus : Nat := 0x1014
abbrev rRstLogHead : Nat := 0x101C
abbrev rRstLog (n : Nat) : Nat := 0x1020 + 4 * n
abbrev rPwrStatus : Nat := 0x1800
abbrev rPwrDomains : Nat := 0x1804
abbrev rPwrIdle : Nat := 0x1808
abbrev rPwrWakeEn : Nat := 0x180C
abbrev rPwrWakeTimer : Nat := 0x1810
abbrev rPwrWakeCause : Nat := 0x1814
abbrev rPwrThermCtrl : Nat := 0x1818
abbrev rPwrThermStatus : Nat := 0x181C
abbrev rClkStatus : Nat := 0x1840
abbrev rClkArith : Nat := 0x1844
abbrev rClkFail : Nat := 0x1848
abbrev rHlkStatus : Nat := 0x2000
abbrev rHlkBar4Base : Nat := 0x2004
abbrev rHlkBoot : Nat := 0x2008
abbrev rHlkVerCap0 : Nat := 0x2010
abbrev rHlkVerCap1 : Nat := 0x2014
abbrev rHlkVerAgree0 : Nat := 0x2018
abbrev rHlkVerAgree1 : Nat := 0x201C
abbrev rMgtEmb : Nat := 0x2080
abbrev rMgtIntStatus : Nat := 0x2084
abbrev rMgtIntEn : Nat := 0x2088
abbrev rRingDbBaseLo : Nat := 0x20C0
abbrev rRingDbBaseHi : Nat := 0x20C4
abbrev rRingErrBaseLo : Nat := 0x20C8
abbrev rRingErrBaseHi : Nat := 0x20CC
abbrev rRingErrCtrl : Nat := 0x20D0
abbrev rRingLdgBaseLo : Nat := 0x20D4
abbrev rRingLdgBaseHi : Nat := 0x20D8
abbrev rRingLdgCtrl : Nat := 0x20DC
abbrev rRingSlots : Nat := 0x20E0
abbrev rRingStatus : Nat := 0x20E4
abbrev rRingSqBaseLo (n : Nat) : Nat := 0x2100 + 4 * n
abbrev rRingSqBaseHi (n : Nat) : Nat := 0x2200 + 4 * n
abbrev rRingSqCtrl (n : Nat) : Nat := 0x2300 + 4 * n
abbrev rRingCqBaseLo (n : Nat) : Nat := 0x2400 + 4 * n
abbrev rRingCqBaseHi (n : Nat) : Nat := 0x2500 + 4 * n
abbrev rRingCqCtrl (n : Nat) : Nat := 0x2600 + 4 * n
abbrev rRingSqHead (n : Nat) : Nat := 0x2700 + 4 * n
abbrev rAccStatus : Nat := 0x3000
abbrev rAccPoolBaseLo : Nat := 0x3004
abbrev rAccPoolBaseHi : Nat := 0x3008
abbrev rAccPoolSize : Nat := 0x300C
abbrev rAccPack : Nat := 0x3010
abbrev rAccFailCount : Nat := 0x3014
abbrev rAccKeep : Nat := 0x3018
abbrev rAccBudget (n : Nat) : Nat := 0x3100 + 4 * n
abbrev rColStatus : Nat := 0x3800
abbrev rColPoolBaseLo : Nat := 0x3804
abbrev rColPoolBaseHi : Nat := 0x3808
abbrev rColPoolSize : Nat := 0x380C
abbrev rColIrq : Nat := 0x3810
abbrev rColTPos (n : Nat) : Nat := 0x3840 + 4 * n
abbrev rColTCtrl (n : Nat) : Nat := 0x3860 + 4 * n
abbrev rColTEvent (n : Nat) : Nat := 0x3870 + 4 * n
abbrev rColTDrop (n : Nat) : Nat := 0x3880 + 4 * n
abbrev rColLspErr (n : Nat) : Nat := 0x3890 + 4 * n
abbrev rCarStatus : Nat := 0x4000
abbrev rCarInject : Nat := 0x4008
abbrev rCarSlots (n : Nat) : Nat := 0x4100 + 4 * n
abbrev rCarErrcnt (n : Nat) : Nat := 0x4400 + 4 * n
abbrev rMdlCommitted : Nat := 0x4800
abbrev rMdlLoading : Nat := 0x4804
abbrev rMdlAreaBaseLo : Nat := 0x4808
abbrev rMdlAreaBaseHi : Nat := 0x480C
abbrev rMdlAreaSize : Nat := 0x4810
abbrev rMdlShelfSplit : Nat := 0x4814
abbrev rMdlPinCtrl : Nat := 0x4818
abbrev rMdlPinned : Nat := 0x481C
abbrev rMdlShards (n : Nat) : Nat := 0x4820 + 4 * n
abbrev rMdlRefillCount : Nat := 0x4830
abbrev rMdlMissCount : Nat := 0x4834
abbrev rMdlFault (n : Nat) : Nat := 0x4900 + 4 * n
abbrev rSchPolicy : Nat := 0x5000
abbrev rSchStatus : Nat := 0x5004
abbrev rSchSpill : Nat := 0x5008
abbrev rSchLc : Nat := 0x500C
abbrev rSchSwitchCount : Nat := 0x5010
abbrev rSchOverplan : Nat := 0x5014
abbrev rSchRefused : Nat := 0x5018
abbrev rSchLcLoad (n : Nat) : Nat := 0x5100 + 4 * n
abbrev rKvcStatus : Nat := 0x6000
abbrev rKvcArenaBaseLo : Nat := 0x6004
abbrev rKvcArenaBaseHi : Nat := 0x6008
abbrev rKvcArenaSize : Nat := 0x600C
abbrev rKvcFree (n : Nat) : Nat := 0x6010 + 4 * n
abbrev rKvcSwapBaseLo : Nat := 0x6040
abbrev rKvcSwapBaseHi : Nat := 0x6044
abbrev rKvcSwapSize : Nat := 0x6048
abbrev rKvcSwapStatus : Nat := 0x604C
abbrev rKvcSwapCount : Nat := 0x6050
abbrev rKvcEvictCount : Nat := 0x6054
abbrev rKvcConcStatus : Nat := 0x6060
abbrev rKvcConcCount : Nat := 0x6064
abbrev rKvcConcCtrl : Nat := 0x6068
abbrev rCatStatus : Nat := 0x7000
abbrev rCatActive (n : Nat) : Nat := 0x7004 + 4 * n
abbrev rCatSampled : Nat := 0x7020
abbrev rCatForced : Nat := 0x7024
abbrev rCatEnds : Nat := 0x7028
abbrev rCatPauses : Nat := 0x702C
abbrev rErrStatus : Nat := 0x8000
abbrev rErrCtrl : Nat := 0x8004
abbrev rErrFenceC (n : Nat) : Nat := 0x8010 + 4 * n
abbrev rErrFenceB : Nat := 0x8028
abbrev rErrLastingC (n : Nat) : Nat := 0x8030 + 4 * n
abbrev rErrLastingU : Nat := 0x8048
abbrev rErrStopped : Nat := 0x8050
abbrev rErrNumber : Nat := 0x8058
abbrev rLdgCtrl : Nat := 0x9000
abbrev rLdgInterval : Nat := 0x9004
abbrev rLdgCoef (n : Nat) : Nat := 0x9010 + 4 * n
abbrev rLdgDeviceUjLo : Nat := 0x9030
abbrev rLdgDeviceUjHi : Nat := 0x9034
abbrev rLdgSlowCtrl : Nat := 0x9040
abbrev rLdgSlowInfo : Nat := 0x9044
abbrev rLdgSlowTag : Nat := 0x9048
abbrev rLdgSlowPop : Nat := 0x904C
abbrev rLdgFaultCount : Nat := 0x9050
abbrev rSecStatus : Nat := 0xA000
abbrev rSecSerialLo : Nat := 0xA004
abbrev rSecSerialHi : Nat := 0xA008
abbrev rSecRbAdvance : Nat := 0xA010
abbrev rSecFwuSrcLo : Nat := 0xA020
abbrev rSecFwuSrcHi : Nat := 0xA024
abbrev rSecFwuCtrl : Nat := 0xA028
abbrev rSecOtpData (n : Nat) : Nat := 0xA040 + 4 * n
abbrev rSecOtpProg : Nat := 0xA060
abbrev rDbgStatus : Nat := 0xB000

/-- The SYS block of the map (R601). -/
def regRowsSys : List RegRow :=
  [⟨0x0000, 1, 0, 0, 0, 0, 0x4C540008⟩,
   ⟨0x0004, 1, 0, 0, 0, 0, 0xB0⟩,
   ⟨0x0008, 1, 0, 0, 0, 0, 0x4468⟩,
   ⟨0x000C, 1, 0, 0, 0x1, 0, 0⟩,
   ⟨0x0010, 1, 0, 0x600, 0, 0, 0x2⟩,
   ⟨0x0014, 1, 0, 0, 0, 0, 0⟩,
   ⟨0x0018, 1, 0, 0x7, 0, 0, 0⟩]

/-- The RST blocks of the map (R601). -/
def regRowsRst : List RegRow :=
  [⟨0x1000, 1, 0, 0x400, 0, 0, 0⟩,
   ⟨0x1004, 1, 0, 0, 0, 0, 0⟩,
   ⟨0x1008, 1, 0, 0, 0, 0x3FF, 0x84⟩,
   ⟨0x100C, 1, 0, 0, 0, 0, 0⟩,
   ⟨0x1010, 1, 0, 0, 0, 0x3F, 0x21⟩,
   ⟨0x1014, 1, 0, 0, 0, 0, 0⟩,
   ⟨0x101C, 1, 0, 0, 0, 0, 0⟩,
   ⟨0x1020, 16, 0, 0, 0, 0, 0⟩,
   ⟨0x1800, 1, 0, 0x8, 0, 0, 0x3⟩,
   ⟨0x1804, 1, 0, 0, 0, 0, 0⟩,
   ⟨0x1808, 1, 0x1FF, 0, 0, 0, 0x42⟩,
   ⟨0x180C, 1, 0x1FF, 0, 0, 0, 0xF⟩,
   ⟨0x1810, 1, 0xFFFFFF, 0, 0, 0, 0⟩,
   ⟨0x1814, 1, 0, 0x7FF, 0, 0, 0⟩,
   ⟨0x1818, 1, 0x7FFF, 0, 0, 0, 0x5A⟩,
   ⟨0x181C, 1, 0, 0x1000, 0, 0, 0⟩,
   ⟨0x1840, 1, 0, 0, 0, 0, 0⟩,
   ⟨0x1844, 1, 0, 0, 0, 0x3, 0⟩,
   ⟨0x1848, 1, 0, 0x3F, 0, 0, 0⟩]

/-- The LINK blocks of the map (R601). -/
def regRowsLink : List RegRow :=
  [⟨0x2000, 1, 0, 0x3000, 0, 0, 0⟩,
   ⟨0x2004, 1, 0xFF, 0, 0, 0, 0⟩,
   ⟨0x2008, 1, 0xFFFFFFF, 0, 0, 0, 0⟩,
   ⟨0x2010, 1, 0, 0, 0, 0, 0x11101310⟩,
   ⟨0x2014, 1, 0, 0, 0, 0, 0x12102114⟩,
   ⟨0x2018, 1, 0, 0, 0, 0xFFFFFFFF, 0x11101010⟩,
   ⟨0x201C, 1, 0, 0, 0, 0xFFFFFFFF, 0x12102114⟩,
   ⟨0x2080, 1, 0, 0x2, 0, 0x1, 0⟩,
   ⟨0x2084, 1, 0, 0x1D, 0, 0, 0⟩,
   ⟨0x2088, 1, 0x1F, 0, 0, 0, 0⟩,
   ⟨0x20C0, 1, 0xFFFFF000, 0, 0, 0, 0⟩,
   ⟨0x20C4, 1, 0xFFFFFFFF, 0, 0, 0, 0⟩,
   ⟨0x20C8, 1, 0xFFFFF000, 0, 0, 0, 0⟩,
   ⟨0x20CC, 1, 0xFFFFFFFF, 0, 0, 0, 0⟩,
   ⟨0x20D0, 1, 0xFFF, 0x2000, 0, 0, 0⟩,
   ⟨0x20D4, 1, 0xFFFFF000, 0, 0, 0, 0⟩,
   ⟨0x20D8, 1, 0xFFFFFFFF, 0, 0, 0, 0⟩,
   ⟨0x20DC, 1, 0xFFF, 0x2000, 0, 0, 0⟩,
   ⟨0x20E0, 1, 0xFF0000, 0, 0, 0, 0⟩,
   ⟨0x20E4, 1, 0, 0x9, 0, 0, 0⟩,
   ⟨0x2100, 64, 0xFFFFF000, 0, 0, 0, 0⟩,
   ⟨0x2200, 64, 0xFFFFFFFF, 0, 0, 0, 0⟩,
   ⟨0x2300, 64, 0x1FFFFF, 0x200000, 0, 0, 0⟩,
   ⟨0x2400, 64, 0xFFFFF000, 0, 0, 0, 0⟩,
   ⟨0x2500, 64, 0xFFFFFFFF, 0, 0, 0, 0⟩,
   ⟨0x2600, 64, 0x1FFF, 0x4000, 0, 0, 0⟩,
   ⟨0x2700, 64, 0, 0, 0, 0, 0⟩]

/-- The ACC blocks of the map (R601). -/
def regRowsAcc : List RegRow :=
  [⟨0x3000, 1, 0, 0, 0, 0, 0⟩,
   ⟨0x3004, 1, 0xFFFF0000, 0, 0, 0, 0⟩,
   ⟨0x3008, 1, 0xF, 0, 0, 0, 0⟩,
   ⟨0x300C, 1, 0xFFFF, 0, 0, 0, 0⟩,
   ⟨0x3010, 1, 0x1F, 0, 0, 0, 0x8⟩,
   ⟨0x3014, 1, 0, 0, 0, 0, 0⟩,
   ⟨0x3018, 1, 0, 0, 0x10000, 0, 0⟩,
   ⟨0x3100, 64, 0xFFFFFFFF, 0, 0, 0, 0x404D00⟩,
   ⟨0x3800, 1, 0, 0, 0, 0, 0⟩,
   ⟨0x3804, 1, 0xFFFF0000, 0, 0, 0, 0⟩,
   ⟨0x3808, 1, 0xF, 0, 0, 0, 0⟩,
   ⟨0x380C, 1, 0xFFFF, 0, 0, 0, 0⟩,
   ⟨0x3810, 1, 0x7F, 0, 0, 0, 0⟩,
   ⟨0x3840, 4, 0, 0, 0, 0, 0⟩,
   ⟨0x3860, 4, 0, 0, 0, 0, 0⟩,
   ⟨0x3870, 4, 0, 0x1FF, 0, 0, 0⟩,
   ⟨0x3880, 4, 0, 0, 0, 0, 0⟩,
   ⟨0x3890, 8, 0, 0, 0, 0, 0⟩]

/-- The CAR blocks of the map (R601). -/
def regRowsCar : List RegRow :=
  [⟨0x4000, 1, 0, 0, 0, 0, 0⟩,
   ⟨0x4008, 1, 0x3FF, 0x800, 0x400, 0, 0⟩,
   ⟨0x4100, 192, 0, 0, 0, 0, 0⟩,
   ⟨0x4400, 192, 0, 0, 0, 0, 0⟩,
   ⟨0x4800, 1, 0, 0, 0, 0, 0⟩,
   ⟨0x4804, 1, 0, 0, 0, 0, 0⟩,
   ⟨0x4808, 1, 0xFFFF0000, 0, 0, 0, 0⟩,
   ⟨0x480C, 1, 0xF, 0, 0, 0, 0⟩,
   ⟨0x4810, 1, 0xFFFF, 0, 0, 0, 0⟩,
   ⟨0x4814, 1, 0x7, 0x8, 0, 0, 0⟩,
   ⟨0x4818, 1, 0, 0x40, 0, 0, 0⟩,
   ⟨0x481C, 1, 0, 0, 0, 0, 0⟩,
   ⟨0x4820, 4, 0, 0, 0, 0, 0⟩,
   ⟨0x4830, 1, 0, 0, 0, 0, 0⟩,
   ⟨0x4834, 1, 0, 0, 0, 0, 0⟩,
   ⟨0x4900, 32, 0, 0, 0, 0, 0⟩]

/-- The SCH block of the map (R601). -/
def regRowsSch : List RegRow :=
  [⟨0x5000, 1, 0x3, 0, 0, 0, 0x2⟩,
   ⟨0x5004, 1, 0, 0, 0, 0, 0⟩,
   ⟨0x5008, 1, 0, 0, 0, 0, 0⟩,
   ⟨0x500C, 1, 0, 0, 0, 0, 0⟩,
   ⟨0x5010, 1, 0, 0, 0, 0, 0⟩,
   ⟨0x5014, 1, 0, 0, 0, 0, 0⟩,
   ⟨0x5018, 1, 0, 0, 0, 0, 0⟩,
   ⟨0x5100, 192, 0, 0, 0, 0, 0⟩]

/-- The KVC block of the map (R601). -/
def regRowsKvc : List RegRow :=
  [⟨0x6000, 1, 0, 0, 0, 0, 0⟩,
   ⟨0x6004, 1, 0xFFF00000, 0, 0, 0, 0⟩,
   ⟨0x6008, 1, 0xF, 0, 0, 0, 0⟩,
   ⟨0x600C, 1, 0xFFFF, 0, 0, 0, 0⟩,
   ⟨0x6010, 8, 0xFFFF0000, 0, 0, 0, 0x40000⟩,
   ⟨0x6040, 1, 0xFFFFF000, 0, 0, 0, 0⟩,
   ⟨0x6044, 1, 0xFFFFFFFF, 0, 0, 0, 0⟩,
   ⟨0x6048, 1, 0xFFFF, 0, 0, 0, 0⟩,
   ⟨0x604C, 1, 0, 0, 0, 0, 0⟩,
   ⟨0x6050, 1, 0, 0, 0, 0, 0⟩,
   ⟨0x6054, 1, 0, 0, 0, 0, 0⟩,
   ⟨0x6060, 1, 0, 0, 0, 0, 0⟩,
   ⟨0x6064, 1, 0, 0, 0, 0, 0⟩,
   ⟨0x6068, 1, 0x1, 0, 0x2, 0, 0x1⟩]

/-- The CAT block of the map (R601). -/
def regRowsCat : List RegRow :=
  [⟨0x7000, 1, 0, 0, 0, 0, 0⟩,
   ⟨0x7004, 4, 0, 0, 0, 0, 0⟩,
   ⟨0x7020, 1, 0, 0, 0, 0, 0⟩,
   ⟨0x7024, 1, 0, 0, 0, 0, 0⟩,
   ⟨0x7028, 1, 0, 0, 0, 0, 0⟩,
   ⟨0x702C, 1, 0, 0, 0, 0, 0⟩]

/-- The ERR block of the map (R601). -/
def regRowsErr : List RegRow :=
  [⟨0x8000, 1, 0, 0x3, 0, 0, 0⟩,
   ⟨0x8004, 1, 0xFFFFF, 0, 0, 0, 0x43544⟩,
   ⟨0x8010, 6, 0xFFFFFFFF, 0, 0, 0, 0⟩,
   ⟨0x8028, 1, 0xFFFFFF, 0, 0, 0, 0⟩,
   ⟨0x8030, 6, 0, 0xFFFFFFFF, 0, 0, 0⟩,
   ⟨0x8048, 1, 0, 0x1FFFFFFF, 0, 0, 0⟩,
   ⟨0x8050, 1, 0, 0, 0, 0, 0⟩,
   ⟨0x8058, 1, 0, 0, 0, 0, 0⟩]

/-- The LDG block of the map (R601). -/
def regRowsLdg : List RegRow :=
  [⟨0x9000, 1, 0x1F, 0x20, 0, 0, 0x1A⟩,
   ⟨0x9004, 1, 0, 0, 0, 0, 0⟩,
   ⟨0x9010, 1, 0, 0, 0, 0, 0x60⟩,
   ⟨0x9014, 1, 0, 0, 0, 0, 0x26⟩,
   ⟨0x9018, 1, 0, 0, 0, 0, 0x37⟩,
   ⟨0x901C, 1, 0, 0, 0, 0, 0xC⟩,
   ⟨0x9020, 1, 0, 0, 0, 0, 0x1E⟩,
   ⟨0x9024, 1, 0, 0, 0, 0, 0x2D⟩,
   ⟨0x9028, 1, 0, 0, 0, 0, 0x23⟩,
   ⟨0x9030, 1, 0, 0, 0, 0, 0⟩,
   ⟨0x9034, 1, 0, 0, 0, 0, 0⟩,
   ⟨0x9040, 1, 0x7FFFFFF, 0, 0, 0, 0x40000⟩,
   ⟨0x9044, 1, 0, 0x10000000, 0, 0, 0⟩,
   ⟨0x9048, 1, 0, 0, 0, 0, 0⟩,
   ⟨0x904C, 1, 0, 0, 0, 0, 0⟩,
   ⟨0x9050, 1, 0, 0, 0, 0, 0⟩]

/-- The SEC blocks of the map (R601). -/
def regRowsSec : List RegRow :=
  [⟨0xA000, 1, 0, 0, 0, 0, 0⟩,
   ⟨0xA004, 1, 0, 0, 0, 0, 0⟩,
   ⟨0xA008, 1, 0, 0, 0, 0, 0⟩,
   ⟨0xA010, 1, 0, 0x80, 0, 0, 0⟩,
   ⟨0xA020, 1, 0xFFFFFFC0, 0, 0, 0, 0⟩,
   ⟨0xA024, 1, 0xFFFFFFFF, 0, 0, 0, 0⟩,
   ⟨0xA028, 1, 0xFFFFFFF, 0, 0, 0, 0⟩,
   ⟨0xA040, 8, 0xFFFFFFFF, 0, 0, 0, 0⟩,
   ⟨0xA060, 1, 0, 0x60, 0, 0, 0⟩,
   ⟨0xB000, 1, 0, 0, 0, 0, 0⟩]

/-- Every register of BAR0 (R601). -/
def regTable : List RegRow :=
  regRowsSys ++ regRowsRst ++ regRowsLink ++ regRowsAcc ++ regRowsCar ++ regRowsSch ++ regRowsKvc ++ regRowsCat ++ regRowsErr ++ regRowsLdg ++ regRowsSec

/-- The row that lists an offset; none for an unmapped offset (R592). -/
def regRow? (off : Nat) : Option RegRow :=
  regTable.find? fun r => r.base ≤ off && off < r.base + 4 * r.count && off % 4 = 0

/-- A register's value after a power-on reset (R596, R601). -/
def regReset (off : Nat) : Word :=
  match regRow? off with
  | some r => BitVec.ofNat 32 r.reset
  | none => 0

/-- Offsets of the MSI-X table and the pending-bit array (R37). -/
def isMsixOffset (off : Nat) : Bool := 0x2800 ≤ off && off < 0x2C08

end Sys2Proof.Machine
end

