-- ==== Sys2Proof/Machine/Ops.lean ====
section
/-! DEFINITION. The named operations over memory and registers, and the outputs every unit shares: reading and writing cells
in canonical form, DRAM, register words, interrupts, host writes (R39) and the device state (R26 to R32). -/

namespace Sys2Proof.Machine

/-- What one command answers. -/
abbrev Result := Host.Outcome State Fault Refusal

/-! ### Cells: a list of (address, value) pairs in one canonical form -/

/-- The value at an address: the listed one, or what an unlisted address reads as. -/
def getCell {α : Type} (dflt : Nat → α) (a : Nat) : List (Nat × α) → α
  | [] => dflt a
  | (b, v) :: l => if a = b then v else if a < b then dflt a else getCell dflt a l

/-- Write a value: an address that would hold what it reads as unlisted is not listed. -/
def putCell {α : Type} [DecidableEq α] (dflt : Nat → α) (a : Nat) (v : α) : List (Nat × α) → List (Nat × α)
  | [] => if v = dflt a then [] else [(a, v)]
  | (b, w) :: l =>
    if a = b then (if v = dflt a then l else (a, v) :: l)
    else if a < b then (if v = dflt a then (b, w) :: l else (a, v) :: (b, w) :: l)
    else (b, w) :: putCell dflt a v l

/-- The canonical form: addresses strictly rising above `lo`, no entry at its unlisted value. -/
def cellsFrom {α : Type} [DecidableEq α] (dflt : Nat → α) (lo : Nat) : List (Nat × α) → Bool
  | [] => true
  | (b, v) :: l => decide (lo ≤ b) && decide (v ≠ dflt b) && cellsFrom dflt (b + 1) l

/-- What a byte of any memory reads as before anything has written it: 0 (DESIGN CHOICE, assumption 3). -/
def Mem.blank : Nat → Byte := fun _ => 0

def Mem.get (m : Mem) (a : Nat) : Byte := getCell Mem.blank a m

def Mem.put (m : Mem) (a : Nat) (v : Byte) : Mem := putCell Mem.blank a v m

/-- The memory is in its canonical form. -/
def Mem.wf (m : Mem) : Bool := cellsFrom Mem.blank 0 m

/-- `n` bytes from address `a`. -/
def Mem.read (m : Mem) (a : Nat) : Nat → Bytes
  | 0 => []
  | n + 1 => m.get a :: Mem.read m (a + 1) n

/-- Bytes written from address `a` upward. -/
def Mem.write (m : Mem) (a : Nat) : Bytes → Mem
  | [] => m
  | b :: bs => Mem.write (m.put a b) (a + 1) bs

/-! ### Registers -/

/-- The stored word of a register. -/
def State.reg (s : State) (off : Nat) : Word := getCell regReset off s.regs

/-- Store a register word; the list keeps its canonical form. -/
def State.setReg (s : State) (off : Nat) (v : Word) : State := { s with regs := putCell regReset off v s.regs }

/-- Bits [lo + n − 1 : lo] of a stored register word. -/
def State.regF (s : State) (off lo n : Nat) : Nat := wbits (s.reg off) lo n

def State.setRegF (s : State) (off lo n v : Nat) : State := s.setReg off (wput (s.reg off) lo n v)

def State.regB (s : State) (off i : Nat) : Bool := wbit (s.reg off) i

/-- Set one bit of a register: how the LT8 records an event in a W1C or RO bit. -/
def State.flag (s : State) (off i : Nat) : State := s.setRegF off i 1 1

/-- Add to a count field that wraps. -/
def State.bump (s : State) (off lo n k : Nat) : State := s.setRegF off lo n (s.regF off lo n + k)

/-- Add to a count field that is held at its largest value once reached. -/
def State.bumpSat (s : State) (off lo n k : Nat) : State :=
  s.setRegF off lo n (satAdd (2 ^ n - 1) (s.regF off lo n) k)

/-- The 64-bit value of a register pair, low word first. -/
def State.regPair (s : State) (lo hi : Nat) : Nat := (s.reg lo).toNat + 2 ^ 32 * (s.reg hi).toNat

/-! ### Writes by access code (R7, R592, R597, R513) -/

/-- SYS_ACCESS records a dropped write: bit 0 PARTIAL, 1 UNMAPPED, 2 LOCKED, and the offset (R591, R592, R597). -/
def State.access (s : State) (bit off : Nat) : State := (s.flag rSysAccess bit).setRegF rSysAccess 16 16 off

/-- SYS_LOCK.LOCK. -/
def State.locked (s : State) : Bool := s.regB rSysLock 0

/-- What a whole-word write leaves in a register: RW (and, unlocked, RWL) bits as written, W1C bits cleared and W1S bits set
where 1 is written, every other bit as it was (R7, R9). -/
def writtenWord (r : RegRow) (locked : Bool) (old v : Word) : Word :=
  let wr := if locked then r.rw else r.rw ||| r.rwl
  let a := (old.toNat &&& (0xFFFFFFFF ^^^ wr)) ||| (v.toNat &&& wr)
  let b := a &&& (0xFFFFFFFF ^^^ (v.toNat &&& r.w1c))
  BitVec.ofNat 32 (b ||| (v.toNat &&& r.w1s))

/-- A whole-word write by access codes alone; a locked RWL field also sets SYS_ACCESS.LOCKED (R597). -/
def State.writeWord (s : State) (off : Nat) (v : Word) : State :=
  match regRow? off with
  | none => s
  | some r =>
    let s1 := s.setReg off (writtenWord r s.locked (s.reg off) v)
    if s.locked && r.rwl ≠ 0 then s1.access 2 off else s1

/-- Registers that a Fabric reset keeps (R504): the SYS_, RST_, PWR_, CLK_, MGT_, LDG_ and MDL_ blocks, the agreed versions,
HLK_STATUS (its W1C bits reset), the counts since the last Warm or Cold reset, and ERR_NUMBER. -/
def keptByFabric (off : Nat) : Bool :=
  off < 0x2000 || (0x2080 ≤ off && off < 0x20C0) || (0x4800 ≤ off && off < 0x5000) || (0x9000 ≤ off && off < 0xA000) ||
    off = rHlkStatus || off = rHlkVerAgree0 || off = rHlkVerAgree1 || off = rErrNumber || off = rAccFailCount ||
    (rColLspErr 0 ≤ off && off ≤ rColLspErr 7) || (rCarErrcnt 0 ≤ off && off ≤ rCarErrcnt 191) ||
    off = rSchSwitchCount || off = rSchOverplan || off = rSchRefused || off = rKvcSwapCount || off = rKvcEvictCount ||
    off = rKvcConcCount || (rCatSampled ≤ off && off ≤ rCatPauses)

/-- A register that cannot be reached now: one that Fabric resets, until the Fabric release completes (R513). -/
def State.fabricHidden (s : State) (off : Nat) : Bool := s.rst.fabricRelease && !keptByFabric off

/-! ### DRAM -/

/-- Usable device DRAM in bytes, with inline ECC on: 15, 30 or 60 GiB; none before training (R19, SYS_TOPO). -/
def State.dramBytes (s : State) : Nat :=
  match s.dev.dramSize with
  | 0 => 0
  | 1 => 15 * 2 ^ 30
  | 2 => 30 * 2 ^ 30
  | _ => 60 * 2 ^ 30

def State.dramRead (s : State) (a n : Nat) : Bytes := s.dram.read a n

def State.dramWrite (s : State) (a : Nat) (bs : Bytes) : State := { s with dram := s.dram.write a bs }

/-! ### Outputs -/

def State.emit (s : State) (o : Out) : State := { s with out := s.out ++ [o] }

/-- Embedded mode (R60). -/
def State.emb (s : State) : Bool := s.regB rMgtEmb 0

/-- A vector is masked: bit 0 of the last word of its table entry (PRESUMED, assumption 25). -/
def State.vecMasked (s : State) (vector : Nat) : Bool := (s.link.msixTable.get (16 * vector + 12)).getLsbD 0

/-- An MSI-X message; none is sent in embedded mode (R60). That of a masked vector stays pending (R37). -/
def State.msix (s : State) (vector : Nat) : State :=
  if s.emb then s
  else if s.vecMasked vector then { s with link := { s.link with msixPending := s.link.msixPending ||| 2 ^ vector } }
  else s.emit (.msix vector)

/-- Set bit `k` of MGT_INT_STATUS: 0 CQ, 2 LEDGER, 3 SYS, 4 THERM. -/
def State.mgtInt (s : State) (k : Nat) : State := s.flag rMgtIntStatus k

/-- The largest payload of one write to the host, in bytes (R39, Device Control). -/
def State.mpsBytes (s : State) : Nat := 128 * 2 ^ min s.link.mps 2

/-- Cut a write at the maximum payload and at every 4 KiB boundary (R39); `fuel` bounds the pieces. -/
def splitWrite (mps : Nat) : Nat → Nat → Bytes → List (Nat × Bytes)
  | 0, _, _ => []
  | _, _, [] => []
  | fuel + 1, a, bs =>
    let n := min mps (4096 - a % 4096)
    (a, bs.take n) :: splitWrite mps fuel (a + n) (bs.drop n)

/-- Bytes that the LT8 puts where the host reads them: host memory over PCIe, or device DRAM in embedded mode (R39, R60).
`bulk` writes carry Relaxed Ordering when the host has enabled it; notice writes never do (R38). -/
def State.hostWrite (s : State) (a : Nat) (bs : Bytes) (bulk : Bool) : State :=
  if s.emb then s.dramWrite a bs
  else
    (splitWrite s.mpsBytes (bs.length + 1) a bs).foldl
      (fun s p => s.emit (.hostWrite p.1 p.2 (bulk && s.link.relaxed))) s

/-- Cut a read at the maximum read request size and at every 4 KiB boundary (R39; the boundary is PCI Express's own, assumption
25); `fuel` bounds the pieces. -/
def splitRead (mrrs : Nat) : Nat → Nat → Nat → List (Nat × Nat)
  | 0, _, _ => []
  | fuel + 1, a, n =>
    if n = 0 then []
    else
      let k := min n (min mrrs (4096 - a % 4096))
      (a, k) :: splitRead mrrs fuel (a + k) (n - k)

/-- The reads that fetch `n` bytes of host memory from address `a`, each no larger than the maximum read request (R39); none in
embedded mode (R60). -/
def State.hostRead (s : State) (a n : Nat) : State :=
  if s.emb then s
  else (splitRead (max 1 s.link.mrrs) n a n).foldl (fun s p => s.emit (.hostRead p.1 p.2)) s

/-- Bytes that the LT8 reads where the host keeps them: the operand's, or device DRAM in embedded mode (R60). -/
def State.hostBytes (s : State) (a n : Nat) (given : Bytes) : Bytes :=
  if s.emb then s.dramRead a n else sliceB given 0 n

/-- The same, with the reads that fetch them. -/
def State.fetchHost (s : State) (a n : Nat) (given : Bytes) : Bytes × State := (s.hostBytes a n given, s.hostRead a n)

/-! ### Device state -/

def State.onDev (s : State) (f : Dev → Dev) : State := { s with dev := f s.dev }
def State.onRst (s : State) (f : Rst → Rst) : State := { s with rst := f s.rst }
def State.onLink (s : State) (f : Link → Link) : State := { s with link := f s.link }
def State.onMgt (s : State) (f : Mgt → Mgt) : State := { s with mgt := f s.mgt }
def State.onRings (s : State) (f : Rings → Rings) : State := { s with rings := f s.rings }
def State.onAcc (s : State) (f : Acc → Acc) : State := { s with acc := f s.acc }
def State.onCol (s : State) (f : Col → Col) : State := { s with col := f s.col }
def State.onFol (s : State) (f : Fol → Fol) : State := { s with fol := f s.fol }
def State.onSch (s : State) (f : Sch → Sch) : State := { s with sch := f s.sch }
def State.onKv (s : State) (f : Kv → Kv) : State := { s with kv := f s.kv }
def State.onLdg (s : State) (f : Ldg → Ldg) : State := { s with ldg := f s.ldg }
def State.onErr (s : State) (f : Errs → Errs) : State := { s with err := f s.err }
def State.onSec (s : State) (f : Sec → Sec) : State := { s with sec := f s.sec }

/-- In OFF nothing runs (R26): a command other than POWER_ON finds nobody and changes nothing. -/
def State.whenOn (s : State) (f : State → State) : State := if s.dev.state = .off then s else f s

/-- With VDD_AO absent and no source asserted, no pin or supply event is seen. -/
def State.whenPowered (s : State) (f : State → State) : State :=
  if s.dev.state = .off && s.rst.asserted = [] then s else f s

/-- No Fabric, Warm or Cold episode holds the fabric: it works (R506, R513). -/
def State.fabricUp (s : State) : Bool := !s.rst.fabricRelease && !s.rst.epOpen

/-- Rings are fetched and jobs run: SERVICE, TEST or RECOVERY with the fabric up (R26). -/
def State.running (s : State) : Bool :=
  (match s.dev.state with | .service => true | .test => true | .recovery => true | _ => false) && s.fabricUp

/-- The code of R26. -/
def DeviceState.code : DeviceState → Nat
  | .off => 0
  | .standby => 1
  | .bringUp => 2
  | .service => 3
  | .test => 4
  | .recovery => 5
  | .closedStacks => 6

/-- SERVICE, TEST or RECOVERY: the states whose rings are fetched (R26). -/
def DeviceState.serves : DeviceState → Bool
  | .service => true
  | .test => true
  | .recovery => true
  | _ => false

/-- The code of R532. -/
def PowerState.code : PowerState → Nat
  | .standby => 1
  | .readyIdle => 2
  | .active => 3
  | .exiting => 4

/-- Set a SYS_STATE event bit (9 REQ_REFUSED, 10 WAKE_ABORT) and MGT_INT_STATUS.SYS with it. -/
def State.sysEvent (s : State) (bit : Nat) : State := (s.flag rSysState bit).mgtInt 3

/-- The watchdog period in AO cycles (RST_WDOG). -/
def State.wdogPeriod (s : State) : Nat :=
  let p := s.regF rRstWdog 1 5
  2 ^ (if 10 ≤ p && p ≤ 20 then p else 16)

/-- The service watchdog on a change of device state: a full period on entry into SERVICE, TEST or RECOVERY from outside
them, discarded on leaving them (R621). -/
def State.wdogOn (s : State) (st : DeviceState) : Option Nat :=
  if !st.serves then none
  else if s.dev.state.serves then s.dev.wdog
  else some s.wdogPeriod

/-- The device goes to a state (R27): PREV is the state it leaves, a transition under way is over, and an entry into SERVICE
clears FATAL_ENTRY. -/
def State.goto (s : State) (st : DeviceState) : State :=
  s.onDev fun d =>
    { d with
      state := st
      prev := d.state
      req := none
      fatalEntry := if st = .service then false else d.fatalEntry
      wdog := s.wdogOn st }

/-! ### The model's own free values -/

/-- Take `n` fresh free bytes: what the spec leaves undefined (Config.freeByte). -/
def State.drawBytes (s : State) (n : Nat) : Bytes × State :=
  ((List.range n).map fun i => Config.freeByte (s.fresh + i), { s with fresh := s.fresh + n })

end Sys2Proof.Machine
end

