-- ==== Sys2Proof/Machine/Flags.lean ====
section
/-! DEFINITION. The codes and flag bits of the spec's records: status codes (R95), flag bits (R94), error kinds, their units and
severities (R553), management results (R49), mailbox types (R57). -/

namespace Sys2Proof.Machine

/-! ### STATUS (R95) -/

abbrev stOk : Nat := 0x0000
abbrev stOkStop : Nat := 0x0001
abbrev stOkEnd : Nat := 0x0002
abbrev stDeadEnd : Nat := 0x0010
abbrev stLengthLimit : Nat := 0x0011
abbrev stCorrupt : Nat := 0x0020
abbrev stOverrun : Nat := 0x0021
abbrev stUnsupported : Nat := 0x0022
abbrev stResources : Nat := 0x0030
abbrev stVersion : Nat := 0x0031
abbrev stSignature : Nat := 0x0032
abbrev stBound : Nat := 0x0033
abbrev stContextFault : Nat := 0x0040
abbrev stSwapExhausted : Nat := 0x0041
abbrev stConfig : Nat := 0x0050
abbrev stCancelled : Nat := 0x0060

/-! ### FLAGS of a completion record (R94): bit values -/

abbrev flScaleSuspect : Nat := 0x0001
abbrev flSaturation : Nat := 0x0002
abbrev flZeroCollapse : Nat := 0x0004
abbrev flDegenerate : Nat := 0x0008
abbrev flLowConfidence : Nat := 0x0010
abbrev flPartialUtf8 : Nat := 0x0020
abbrev flVoid : Nat := 0x0040
abbrev flJobEnd : Nat := 0x4000
abbrev flPhase : Nat := 0x8000

/-! ### LAST of the management port (R49) -/

abbrev lastOk : Nat := 0
abbrev lastOpcodeCheck : Nat := 1
abbrev lastUnknown : Nat := 2
abbrev lastAlign : Nat := 3
abbrev lastRange : Nat := 4
abbrev lastNotAvailable : Nat := 5
abbrev lastWrongState : Nat := 6
abbrev lastBusy : Nat := 7

/-! ### Error kinds (R553) -/

abbrev ekScratchCe : Nat := 0x0101
abbrev ekScratchUe : Nat := 0x0102
abbrev ekResidue : Nat := 0x0103
abbrev ekScratchRange : Nat := 0x0104
abbrev ekCommand : Nat := 0x0105
abbrev ekShelfCe : Nat := 0x0201
abbrev ekShelfUe : Nat := 0x0202
abbrev ekFarRange : Nat := 0x0203
abbrev ekDmaProtocol : Nat := 0x0204
abbrev ekCoreCacheCe : Nat := 0x0301
abbrev ekCoreCacheUe : Nat := 0x0302
abbrev ekCatalogParity : Nat := 0x0303
abbrev ekDramCe : Nat := 0x0401
abbrev ekDramUe : Nat := 0x0402
abbrev ekDramLinkCe : Nat := 0x0403
abbrev ekPcieCe : Nat := 0x0404
abbrev ekPcieUe : Nat := 0x0405
abbrev ekFabricCrc : Nat := 0x0406
abbrev ekForcedReset : Nat := 0x0501
abbrev ekUnitReset : Nat := 0x0502
abbrev ekAoClock : Nat := 0x0503
abbrev ekBistFail : Nat := 0x0504

/-- Severities of R551. -/
abbrev sevCorrected : Nat := 0
abbrev sevContained : Nat := 1
abbrev sevUnitFatal : Nat := 2
abbrev sevDeviceFatal : Nat := 3

/-- The severity of an error kind (R553); DRAM_UE, PCIE_UE and FABRIC_CRC are device-fatal when they serve no job. -/
def severityOf (kind : Nat) (job : Bool) : Nat :=
  if kind ∈ [ekScratchCe, ekShelfCe, ekCoreCacheCe, ekDramCe, ekDramLinkCe, ekPcieCe] then sevCorrected
  else if kind ∈ [ekDmaProtocol, ekCoreCacheUe, ekForcedReset, ekBistFail] then sevUnitFatal
  else if kind ∈ [ekDramUe, ekPcieUe, ekFabricCrc] && !job then sevDeviceFatal
  else sevContained

/-! ### Unit addresses (R23, R24, R25) -/

/-- The packed unit address of R24. -/
def unitAddr (level wing bay carrel sub : Nat) : Nat :=
  carrel + 8 * bay + 64 * wing + 256 * level + 2048 * sub

/-- A carrel, by flat index, with a sub-unit. -/
def unitCarrel (c sub : Nat) : Nat := unitAddr 0 (c / 48) (c % 48 / 8) (c % 8) sub

/-- A bay, by flat index, with a sub-unit. -/
def unitBay (b sub : Nat) : Nat := unitAddr 1 (b / 6) (b % 6) 0 sub

def unitWing (w sub : Nat) : Nat := unitAddr 2 w 0 0 sub

def unitChip (sub : Nat) : Nat := unitAddr 3 0 0 0 sub

def uaCarrel (u : Nat) : Nat := bitsN u 0 3
def uaBay (u : Nat) : Nat := bitsN u 3 3
def uaWing (u : Nat) : Nat := bitsN u 6 2
def uaLevel (u : Nat) : Nat := bitsN u 8 3
def uaSub (u : Nat) : Nat := bitsN u 11 5

/-- The flat carrel index named by a unit address of level 0 (R23). -/
def uaFlatCarrel (u : Nat) : Nat := 48 * uaWing u + 8 * uaBay u + uaCarrel u

/-- The flat bay index named by a unit address of level 1 (R23). -/
def uaFlatBay (u : Nat) : Nat := 6 * uaWing u + uaBay u

/-! ### Mailbox types (R57) -/

abbrev mtEcho : Nat := 0x01
abbrev mtErrorRecord : Nat := 0x02
abbrev mtCompletion : Nat := 0x03
abbrev mtLedger : Nat := 0x04
abbrev mtMalformed : Nat := 0x7E
abbrev mtUnknown : Nat := 0x7F

end Sys2Proof.Machine
end

