-- ==== Sys2Proof/Machine/Codec.lean ====
section
/-! DEFINITION. The stream decoders of the accession unit: the JPEG subset of R123 and R124, and T.6 (R125), with the failures of R142.
The spec names ISO/IEC 10918-1 and ITU-T T.6 and does not reproduce them: markers, Huffman coding, the block order, and the code
tables of T.6 are those standards' (PRESUMED, assumption 17). The fixed-point inverse DCT of ISO/IEC 23002-2 stays open: `Config`. -/

namespace Sys2Proof.Machine

/-- What a decoder answers, or STATUS and DETAIL of its failure. -/
abbrev Decoded := Except (Nat × Nat)

/-- The bits of a byte, bit 7 first. -/
def byteBits (b : Byte) : List Bool := (List.range 8).map fun i => bitN b.toNat (7 - i)

/-- The bits of a run of bytes in order. -/
def bitsOf (bs : Bytes) : List Bool := bs.flatMap byteBits

/-- The value of bits, most significant first. -/
def bitsVal (bs : List Bool) : Nat := bs.foldl (fun v b => 2 * v + b2n b) 0

/-! ### JPEG (R123, R124) -/

abbrev jpegMarker : Nat × Nat := (stCorrupt, 0x10)
abbrev jpegCode : Nat × Nat := (stCorrupt, 0x11)
abbrev jpegRestart : Nat × Nat := (stCorrupt, 0x12)
abbrev jpegFrame : Nat × Nat := (stCorrupt, 0x13)
abbrev jpegProcess : Nat × Nat := (stUnsupported, 2)
abbrev jpegPrecision : Nat × Nat := (stUnsupported, 3)
abbrev jpegStructure : Nat × Nat := (stUnsupported, 4)

/-- A Huffman table: its codes with their values, each code under a leading 1. -/
abbrev HuffTable := List (Nat × Nat)

/-- A component of the frame: identifier, horizontal and vertical factor, quantisation table. -/
structure JpegComp where
  id : Nat
  h : Nat
  v : Nat
  tq : Nat
  deriving DecidableEq, Repr

/-- What the marker segments read so far define. -/
structure JpegTables where
  quant : List (Nat × List Nat)
  dc : List (Nat × HuffTable)
  ac : List (Nat × HuffTable)
  interval : Nat
  frame : Option (List JpegComp)
  deriving DecidableEq, Repr

def JpegTables.empty : JpegTables := ⟨[], [], [], 0, none⟩

/-- The entry of a numbered list of tables. -/
def tableAt {α : Type} (n : Nat) (l : List (Nat × α)) : Option α := (l.find? (·.1 = n)).map (·.2)

/-- A DQT segment: 8-bit tables of 64 values in coding order; `fuel` bounds their number. -/
def jpegDqt : Nat → Bytes → JpegTables → Decoded JpegTables
  | 0, _, t => .ok t
  | fuel + 1, bs, t =>
    match bs with
    | [] => .ok t
    | b :: rest =>
      let pq := b.toNat / 16
      let tq := b.toNat % 16
      if pq = 1 then .error jpegPrecision
      else if pq > 1 || tq > 3 || rest.length < 64 then .error jpegMarker
      else jpegDqt fuel (rest.drop 64) { t with quant := (tq, (rest.take 64).map (·.toNat)) :: t.quant }

/-- The codes of a table from the number of codes of each length, shortest first: within a length they count up, and each longer
length goes on from twice the next code. None when a length has more codes than it can. -/
def huffCodes : List Nat → Nat → Nat → List Nat → Option HuffTable
  | [], _, _, _ => some []
  | n :: counts, len, code, vals =>
    if code + n > 2 ^ len then none
    else
      (huffCodes counts (len + 1) (2 * (code + n)) (vals.drop n)).map fun more =>
        ((List.range n).map fun i => (2 ^ len + code + i, vals.getD i 0)) ++ more

/-- A DHT segment; `fuel` bounds its tables. -/
def jpegDht : Nat → Bytes → JpegTables → Decoded JpegTables
  | 0, _, t => .ok t
  | fuel + 1, bs, t =>
    match bs with
    | [] => .ok t
    | b :: rest =>
      let tc := b.toNat / 16
      let th := b.toNat % 16
      let counts := (rest.take 16).map (·.toNat)
      let n := counts.sum
      if tc > 1 || th > 3 || rest.length < 16 + n || n > 256 then .error jpegMarker
      else if th > 1 then .error jpegStructure
      else
        match huffCodes counts 1 0 (((rest.drop 16).take n).map (·.toNat)) with
        | none => .error jpegMarker
        | some h =>
          jpegDht fuel (rest.drop (16 + n))
            (if tc = 0 then { t with dc := (th, h) :: t.dc } else { t with ac := (th, h) :: t.ac })

/-- Sampling factors of R123: luminance (1,1), (2,1) or (2,2), chroma (1,1). -/
def samplingOk : List JpegComp → Bool
  | [] => false
  | y :: cs => ((y.h, y.v) = (1, 1) || (y.h, y.v) = (2, 1) || (y.h, y.v) = (2, 2)) && cs.all fun c => (c.h, c.v) = (1, 1)

/-- A SOF0 segment against WIDTH, HEIGHT and the number of planes of LAYOUT, its fields in order. -/
def jpegSof (width height planes : Nat) (bs : Bytes) (t : JpegTables) : Decoded JpegTables :=
  let n := u8 bs 5
  let comps := (List.range n).map fun i =>
    (⟨u8 bs (6 + 3 * i), u8 bs (7 + 3 * i) / 16, u8 bs (7 + 3 * i) % 16, u8 bs (8 + 3 * i)⟩ : JpegComp)
  if t.frame.isSome || bs.length < 6 || bs.length ≠ 6 + 3 * n then .error jpegMarker
  else if u8 bs 0 ≠ 8 then .error jpegPrecision
  else if beNat (sliceB bs 1 2) ≠ height || beNat (sliceB bs 3 2) ≠ width then .error jpegFrame
  else if n ≠ 1 && n ≠ 3 then .error jpegStructure
  else if n ≠ planes then .error jpegFrame
  else if !samplingOk comps then .error jpegStructure
  else .ok { t with frame := some comps }

/-- One component of a scan: its factors, its quantisation, DC and AC tables. -/
structure ScanComp where
  h : Nat
  v : Nat
  quant : List Nat
  dc : HuffTable
  ac : HuffTable
  deriving DecidableEq, Repr

/-- The tables of one component of a scan, if each has been defined. -/
def scanComp (t : JpegTables) (c : JpegComp) (td ta : Nat) : Option ScanComp :=
  match tableAt c.tq t.quant, tableAt td t.dc, tableAt ta t.ac with
  | some q, some d, some a => some ⟨c.h, c.v, q, d, a⟩
  | _, _, _ => none

/-- A SOS segment: one scan over every component, in the frame's order, of the whole spectrum. -/
def jpegSos (bs : Bytes) (t : JpegTables) : Decoded (List ScanComp) :=
  match t.frame with
  | none => .error jpegMarker
  | some comps =>
    let n := u8 bs 0
    if bs.length < 4 || bs.length ≠ 4 + 2 * n then .error jpegMarker
    else if n ≠ comps.length then .error jpegStructure
    else if (comps.zipIdx).any (fun e => u8 bs (1 + 2 * e.2) ≠ e.1.id) then .error jpegMarker
    else if u8 bs (1 + 2 * n) ≠ 0 || u8 bs (2 + 2 * n) ≠ 63 || u8 bs (3 + 2 * n) ≠ 0 then .error jpegMarker
    else
      let cs := (comps.zipIdx).map fun e =>
        let b := u8 bs (2 + 2 * e.2)
        scanComp t e.1 (b / 16) (b % 16)
      if cs.all Option.isSome then .ok (cs.filterMap id) else .error jpegMarker

/-- The entropy-coded data behind a scan header: its intervals, each with the number of the restart marker before it, and what
follows from the first other marker on. A stuffed zero byte goes; `cur` is the interval so far in reverse. -/
def jpegIntervals : Bytes → Option Nat → Bytes → List (Option Nat × Bytes) × Bytes
  | [], rst, cur => ([(rst, cur.reverse)], [])
  | [b], rst, cur => if b = 0xFF then ([(rst, cur.reverse)], [b]) else ([(rst, (b :: cur).reverse)], [])
  | b :: c :: rest, rst, cur =>
    if b ≠ 0xFF then jpegIntervals (c :: rest) rst (b :: cur)
    else if c = 0x00 then jpegIntervals rest rst (0xFF :: cur)
    else if c = 0xFF then jpegIntervals (c :: rest) rst cur
    else if 0xD0 ≤ c.toNat && c.toNat ≤ 0xD7 then
      let r := jpegIntervals rest (some (c.toNat % 8)) []
      ((rst, cur.reverse) :: r.1, r.2)
    else ([(rst, cur.reverse)], b :: c :: rest)

/-- Why a bit reader stops: the bits have run out, or the code is not in the table. -/
inductive BitStop where
  | dry
  | bad
  deriving DecidableEq, Repr

/-- Read one code word of a table: its value and the bits left; `n` bits may still be taken, `code` holds those taken under a
leading 1. -/
def readCode (t : HuffTable) : Nat → Nat → List Bool → Except BitStop (Nat × List Bool)
  | 0, _, _ => .error .bad
  | _, _, [] => .error .dry
  | n + 1, code, b :: bits =>
    match tableAt (2 * code + b2n b) t with
    | some v => .ok (v, bits)
    | none => readCode t n (2 * code + b2n b) bits

/-- Read `n` bits as a number. -/
def readBits (n : Nat) (bits : List Bool) : Except BitStop (Nat × List Bool) :=
  if bits.length < n then .error .dry else .ok (bitsVal (bits.take n), bits.drop n)

/-- The number that `n` additional bits stand for: the lower half of their range is negative. -/
def extended (n v : Nat) : Int := if n = 0 then 0 else if v < 2 ^ (n - 1) then (v : Int) - 2 ^ n + 1 else v

/-- The AC coefficients of a block from index `k` on, as (index, value); `fuel` bounds their number. A code with a run and no value,
other than the end of the block and the run of 16, is in no table that the standard allows (PRESUMED). -/
def readAc (t : HuffTable) : Nat → Nat → List Bool → Except BitStop (List (Nat × Int) × List Bool)
  | 0, _, bits => .ok ([], bits)
  | fuel + 1, k, bits =>
    if k > 63 then .ok ([], bits)
    else
      match readCode t 16 1 bits with
      | .error e => .error e
      | .ok (rs, bits) =>
        let r := rs / 16
        let n := rs % 16
        if rs = 0 then .ok ([], bits)
        else if n = 0 && r ≠ 15 then .error .bad
        else if n = 0 then (if k + 15 > 63 then .error .bad else readAc t fuel (k + 16) bits)
        else if k + r > 63 then .error .bad
        else
          match readBits n bits with
          | .error e => .error e
          | .ok (v, bits) =>
            match readAc t fuel (k + r + 1) bits with
            | .error e => .error e
            | .ok (l, bits) => .ok ((k + r, extended n v) :: l, bits)

/-- One block: its quantised coefficients in coding order and the DC value, which the next block of the component predicts from. A DC
code stands for at most 15 additional bits (PRESUMED). -/
def readBlock (c : ScanComp) (pred : Int) (bits : List Bool) : Except BitStop ((List Int × Int) × List Bool) :=
  match readCode c.dc 16 1 bits with
  | .error e => .error e
  | .ok (n, bits) =>
    match (if n > 15 then .error .bad else readBits n bits) with
    | .error e => .error e
    | .ok (v, bits) =>
      let dc := pred + extended n v
      match readAc c.ac 64 1 bits with
      | .error e => .error e
      | .ok (l, bits) =>
        .ok (((dc :: ((List.range 63).map fun i => ((l.find? (·.1 = i + 1)).map (·.2)).getD 0)), dc), bits)

/-- Row and column of coefficient `i` of the coding order: along the diagonals, upward on the even ones. -/
def zigzag : List (Nat × Nat) :=
  (List.range 15).flatMap fun d =>
    let rows := (List.range 8).filter fun r => decide (r ≤ d) && decide (d - r < 8)
    (if d % 2 = 0 then rows.reverse else rows).map fun r => (r, d - r)

/-- The samples of a block, row after row: dequantised, transformed, shifted by 128 and clamped (R124). -/
def blockSamples (quant : List Nat) (coef : List Int) : List Byte :=
  let scaled := (zigzag.zip (List.zipWith (fun q c => (q : Int) * c) quant coef))
  let grid := (List.range 64).map fun i => ((scaled.find? fun e => 8 * e.1.1 + e.1.2 = i).map (·.2)).getD 0
  (List.range 64).map fun i => BitVec.ofNat 8 (clampI 0 255 ((Config.inverseDct grid).getD i 0 + 128)).toNat

/-- The blocks of one MCU in order: for each component its rows of blocks, left to right. `preds` are the DC predictions. -/
def readMcu (cs : List ScanComp) (preds : List Int) (bits : List Bool) :
    Except BitStop ((List (List Byte) × List Int) × List Bool) :=
  let order := (cs.zipIdx).flatMap fun e => List.replicate (e.1.h * e.1.v) e
  order.foldl (fun acc e =>
    match acc with
    | .error x => .error x
    | .ok ((blocks, preds), bits) =>
      match readBlock e.1 (preds.getD e.2 0) bits with
      | .error x => .error x
      | .ok ((coef, dc), bits) => .ok ((blocks ++ [blockSamples e.1.quant coef], preds.set e.2 dc), bits))
    (.ok (([], preds), bits))

/-- `n` MCUs of one interval, from DC predictions of 0 at its start. -/
def readMcus (cs : List ScanComp) : Nat → List Int → List Bool → Except BitStop (List (List (List Byte)) × List Bool)
  | 0, _, bits => .ok ([], bits)
  | n + 1, preds, bits =>
    match readMcu cs preds bits with
    | .error e => .error e
    | .ok ((blocks, preds), bits) =>
      match readMcus cs n preds bits with
      | .error e => .error e
      | .ok (more, bits) => .ok (blocks :: more, bits)

/-- The MCUs of a scan over its intervals: `interval` MCUs in each but the last, `left` still to come, `k` intervals behind. An interval
that ends too soon or too late at a restart marker is one of R142's restart errors; elsewhere the marker structure is broken. -/
def readScan (cs : List ScanComp) (interval : Nat) : List (Option Nat × Bytes) → Nat → Nat → Decoded (List (List (List Byte)))
  | [], left, _ => if left = 0 then .ok [] else .error jpegMarker
  | (rst, data) :: rest, left, k =>
    let n := if interval = 0 then left else min interval left
    if k ≠ 0 && (rst ≠ some ((k - 1) % 8) || interval = 0 || left = 0) then .error jpegRestart
    else
      match readMcus cs n (cs.map fun _ => 0) (bitsOf data) with
      | .error .bad => .error jpegCode
      | .error .dry => .error (if rest = [] then jpegMarker else jpegRestart)
      | .ok (mcus, bits) =>
        if bits.length ≥ 8 then .error (if rest = [] && left = n then jpegMarker else jpegRestart)
        else if rest = [] && left ≠ n then .error jpegRestart
        else
          match readScan cs interval rest (left - n) (k + 1) with
          | .error e => .error e
          | .ok more => .ok (mcus ++ more)

/-- Sample `(x, y)` of component `i` at full size: chroma repeats over the luminance pixels it covers (R124). -/
def jpegSample (cs : List ScanComp) (width : Nat) (mcus : List (List (List Byte))) (i x y : Nat) : Byte :=
  let hm := maxNat (cs.map (·.h))
  let vm := maxNat (cs.map (·.v))
  let c := cs.getD i ⟨1, 1, [], [], []⟩
  let sx := x * c.h / hm
  let sy := y * c.v / vm
  let bx := sx / 8
  let by_ := sy / 8
  let mcu := mcus.getD (by_ / c.v * ceilDiv width (8 * hm) + bx / c.h) []
  let before := ((cs.take i).map fun d => d.h * d.v).sum
  ((mcu.getD (before + by_ % c.v * c.h + bx % c.h) []).getD (8 * (sy % 8) + sx % 8) 0)

/-- The single component of a grey image is coded block by block, whatever its factors. -/
def soloComps : List ScanComp → List ScanComp
  | [c] => [{ c with h := 1, v := 1 }]
  | cs => cs

/-- A scan: the samples, plane after plane and row after row without the pixels beyond WIDTH and HEIGHT, and what follows it. -/
def jpegScan (width height : Nat) (hdr rest : Bytes) (t : JpegTables) : Decoded (Bytes × Bytes) :=
  match jpegSos hdr t with
  | .error e => .error e
  | .ok cs =>
    let cs := soloComps cs
    let hm := maxNat (cs.map (·.h))
    let vm := maxNat (cs.map (·.v))
    let data := jpegIntervals rest none []
    match readScan cs t.interval data.1 (ceilDiv width (8 * hm) * ceilDiv height (8 * vm)) 0 with
    | .error e => .error e
    | .ok mcus =>
      .ok ((List.range cs.length).flatMap (fun i => (List.range height).flatMap fun y =>
        (List.range width).map fun x => jpegSample cs width mcus i x y), data.2)

/-- The marker segments from a marker on, until EOI behind the scan; `fuel` bounds their number, `px` holds the scan's samples. -/
def jpegSegments (width height planes : Nat) : Nat → Bytes → JpegTables → Option Bytes → Decoded Bytes
  | 0, _, _, _ => .error jpegMarker
  | fuel + 1, bs, t, px =>
    let bs := bs.dropWhile (· = 0xFF)
    match bs with
    | [] => .error jpegMarker
    | m :: rest =>
      let len := beNat (sliceB rest 0 2)
      let body := (rest.take len).drop 2
      let next := rest.drop len
      let go := fun (r : Decoded JpegTables) (px : Option Bytes) =>
        match r with
        | .error e => .error e
        | .ok t =>
          if next.head? = some 0xFF then jpegSegments width height planes fuel next t px else .error jpegMarker
      if m = 0xD9 then
        match px with
        | some p => .ok p
        | none => .error jpegMarker
      else if m.toNat < 0xC0 || (0xD0 ≤ m.toNat && m.toNat ≤ 0xD8) || 0xF0 ≤ m.toNat && m ≠ 0xFE || m = 0xDC then
        .error jpegMarker
      else if m = 0xDE || m = 0xDF || m = 0xCC || (m.toNat ≤ 0xCF && m ≠ 0xC0 && m ≠ 0xC4) then .error jpegProcess
      else if len < 2 || rest.length < len then .error jpegMarker
      else if m = 0xDB then go (jpegDqt (body.length + 1) body t) px
      else if m = 0xC4 then go (jpegDht (body.length + 1) body t) px
      else if m = 0xDD then
        if body.length = 2 then go (.ok { t with interval := beNat body }) px else .error jpegMarker
      else if m = 0xC0 then go (jpegSof width height planes body t) px
      else if m = 0xDA then
        if px.isSome then .error jpegStructure
        else
          match jpegScan width height body next t with
          | .error e => .error e
          | .ok (p, after) =>
            if after.head? = some 0xFF then jpegSegments width height planes fuel after t (some p) else .error jpegMarker
      else go (.ok t) px

/-- The samples of a JPEG payload (R123, R124), plane after plane and row after row. -/
def jpegDecode (payload : Bytes) (width height planes : Nat) : Decoded Bytes :=
  if payload.take 2 = [0xFF, 0xD8] && payload[2]? = some 0xFF then
    jpegSegments width height planes payload.length (payload.drop 2) JpegTables.empty none
  else .error jpegMarker

/-! ### T.6 (R125) -/

abbrev t6Code : Nat × Nat := (stCorrupt, 0x20)
abbrev t6End : Nat × Nat := (stCorrupt, 0x21)
abbrev t6Extension : Nat × Nat := (stUnsupported, 8)

/-- The codes of the white terminating runs 0 to 63, each under a leading 1. -/
def t6WhiteRuns : List Nat :=
   [0b100110101, 0b1000111, 0b10111, 0b11000, 0b11011, 0b11100, 0b11110, 0b11111, 0b110011, 0b110100, 0b100111, 0b101000,
    0b1001000, 0b1000011, 0b1110100, 0b1110101, 0b1101010, 0b1101011, 0b10100111, 0b10001100, 0b10001000, 0b10010111,
    0b10000011, 0b10000100, 0b10101000, 0b10101011, 0b10010011, 0b10100100, 0b10011000, 0b100000010, 0b100000011, 0b100011010,
    0b100011011, 0b100010010, 0b100010011, 0b100010100, 0b100010101, 0b100010110, 0b100010111, 0b100101000, 0b100101001,
    0b100101010, 0b100101011, 0b100101100, 0b100101101, 0b100000100, 0b100000101, 0b100001010, 0b100001011, 0b101010010,
    0b101010011, 0b101010100, 0b101010101, 0b100100100, 0b100100101, 0b101011000, 0b101011001, 0b101011010, 0b101011011,
    0b101001010, 0b101001011, 0b100110010, 0b100110011, 0b100110100]

/-- The codes of the white make-up runs 64, 128, … 1,728. -/
def t6WhiteMakeup : List Nat :=
   [0b111011, 0b110010, 0b1010111, 0b10110111, 0b100110110, 0b100110111, 0b101100100, 0b101100101, 0b101101000, 0b101100111,
    0b1011001100, 0b1011001101, 0b1011010010, 0b1011010011, 0b1011010100, 0b1011010101, 0b1011010110, 0b1011010111,
    0b1011011000, 0b1011011001, 0b1011011010, 0b1011011011, 0b1010011000, 0b1010011001, 0b1010011010, 0b1011000, 0b1010011011]

/-- The codes of the black terminating runs. -/
def t6BlackRuns : List Nat :=
   [0b10000110111, 0b1010, 0b111, 0b110, 0b1011, 0b10011, 0b10010, 0b100011, 0b1000101, 0b1000100, 0b10000100, 0b10000101,
    0b10000111, 0b100000100, 0b100000111, 0b1000011000, 0b10000010111, 0b10000011000, 0b10000001000, 0b100001100111,
    0b100001101000, 0b100001101100, 0b100000110111, 0b100000101000, 0b100000010111, 0b100000011000, 0b1000011001010,
    0b1000011001011, 0b1000011001100, 0b1000011001101, 0b1000001101000, 0b1000001101001] ++
   [0b1000001101010, 0b1000001101011, 0b1000011010010, 0b1000011010011, 0b1000011010100, 0b1000011010101, 0b1000011010110,
    0b1000011010111, 0b1000001101100, 0b1000001101101, 0b1000011011010, 0b1000011011011, 0b1000001010100, 0b1000001010101,
    0b1000001010110, 0b1000001010111, 0b1000001100100, 0b1000001100101, 0b1000001010010, 0b1000001010011, 0b1000000100100,
    0b1000000110111, 0b1000000111000, 0b1000000100111, 0b1000000101000, 0b1000001011000, 0b1000001011001, 0b1000000101011,
    0b1000000101100, 0b1000001011010, 0b1000001100110, 0b1000001100111]

/-- The codes of the black make-up runs 64, 128, … 1,728. -/
def t6BlackMakeup : List Nat :=
   [0b10000001111, 0b1000011001000, 0b1000011001001, 0b1000001011011, 0b1000000110011, 0b1000000110100, 0b1000000110101,
    0b10000001101100, 0b10000001101101, 0b10000001001010, 0b10000001001011, 0b10000001001100, 0b10000001001101,
    0b10000001110010, 0b10000001110011, 0b10000001110100, 0b10000001110101, 0b10000001110110, 0b10000001110111,
    0b10000001010010, 0b10000001010011, 0b10000001010100, 0b10000001010101, 0b10000001011010, 0b10000001011011,
    0b10000001100100, 0b10000001100101]

/-- The codes of the make-up runs 1,792, 1,856, … 2,560 of either colour. -/
def t6Extended : List Nat :=
   [0b100000001000, 0b100000001100, 0b100000001101, 0b1000000010010, 0b1000000010011, 0b1000000010100, 0b1000000010101,
    0b1000000010110, 0b1000000010111, 0b1000000011100, 0b1000000011101, 0b1000000011110, 0b1000000011111]

/-- A colour's table: terminating runs, then make-up runs in steps of 64. -/
def runTable (runs makeup : List Nat) : HuffTable :=
  runs.zipIdx ++ ((makeup ++ t6Extended).zipIdx).map fun e => (e.1, 64 * (e.2 + 1))

def t6White : HuffTable := runTable t6WhiteRuns t6WhiteMakeup
def t6Black : HuffTable := runTable t6BlackRuns t6BlackMakeup

/-- The modes of two-dimensional coding. -/
inductive T6Mode where
  | pass
  | horizontal
  /-- a1 lies `d` pixels right of b1, less 3. -/
  | vertical (d : Nat)
  | extension
  | zeros
  deriving DecidableEq, Repr

/-- The mode at the head of the bits, and the bits behind it; seven zeros can only be the end of the block. -/
def t6Mode : List Bool → Option (T6Mode × List Bool)
  | true :: r => some (.vertical 3, r)
  | false :: true :: true :: r => some (.vertical 4, r)
  | false :: true :: false :: r => some (.vertical 2, r)
  | false :: false :: true :: r => some (.horizontal, r)
  | false :: false :: false :: true :: r => some (.pass, r)
  | false :: false :: false :: false :: true :: true :: r => some (.vertical 5, r)
  | false :: false :: false :: false :: true :: false :: r => some (.vertical 1, r)
  | false :: false :: false :: false :: false :: true :: true :: r => some (.vertical 6, r)
  | false :: false :: false :: false :: false :: true :: false :: r => some (.vertical 0, r)
  | false :: false :: false :: false :: false :: false :: true :: r => some (.extension, r)
  | false :: false :: false :: false :: false :: false :: false :: r => some (.zeros, r)
  | _ => none

/-- The end of the block behind its first seven zeros: 00001, then 000000000001. -/
def t6Eofb (r : List Bool) : Bool := r.take 17 = List.replicate 4 false ++ [true] ++ List.replicate 11 false ++ [true]

/-- A run of one colour: make-up codes, then a terminating code; `fuel` bounds the codes. -/
def readRun (black : Bool) : Nat → List Bool → Nat → Decoded (Nat × List Bool)
  | 0, _, _ => .error t6End
  | fuel + 1, bits, n =>
    match readCode (if black then t6Black else t6White) 13 1 bits with
    | .error .bad => .error t6Code
    | .error .dry => .error t6End
    | .ok (v, bits) => if v < 64 then .ok (n + v, bits) else readRun black fuel bits (n + v)

/-- The first changing element of the reference line from position `p` on, to any colour or to a given one; WIDTH when there is
none. -/
def t6Change (ref : List Bool) (width p : Nat) (colour : Option Bool) : Nat :=
  (((List.range width).drop p).find? fun i =>
    let here := ref.getD i false
    here ≠ (decide (i ≠ 0) && ref.getD (i - 1) false) && colour.all (· = here)).getD width

/-- One row against its reference line: `row` the pixels so far, `start` at its very beginning (a0 lies before the first pixel).
Answers the row and the bits behind it; `fuel` bounds the modes. -/
def t6Row (width : Nat) (ref : List Bool) : Nat → List Bool → Bool → Bool → List Bool → Decoded (List Bool × List Bool)
  | 0, _, _, _, _ => .error t6End
  | fuel + 1, row, start, black, bits =>
    let a0 := row.length
    if a0 ≥ width then .ok (row, bits)
    else
      let from_ := if start then 0 else a0 + 1
      let b1 := t6Change ref width from_ (some !black)
      match t6Mode bits with
      | none => .error t6End
      | some (.zeros, bits) => .error (if t6Eofb bits || bits.length < 17 then t6End else t6Code)
      | some (.extension, _) => .error t6Extension
      | some (.pass, bits) =>
        let b2 := t6Change ref width (b1 + 1) none
        t6Row width ref fuel (row ++ List.replicate (b2 - a0) black) false black bits
      | some (.vertical d, bits) =>
        let a1 := b1 + d
        if a1 < from_ + 3 || a1 > width + 3 then .error t6Code
        else t6Row width ref fuel (row ++ List.replicate (a1 - 3 - a0) black) false (!black) bits
      | some (.horizontal, bits) =>
        match readRun black fuel bits 0 with
        | .error e => .error e
        | .ok (m, bits) =>
          match readRun (!black) fuel bits 0 with
          | .error e => .error e
          | .ok (n, bits) =>
            if a0 + m + n > width then .error t6Code
            else t6Row width ref fuel (row ++ List.replicate m black ++ List.replicate n (!black)) false black bits

/-- `n` rows, each against the one before; the bits behind them are ignored. -/
def t6Rows (width fuel : Nat) : Nat → List Bool → List Bool → Decoded (List (List Bool))
  | 0, _, _ => .ok []
  | n + 1, ref, bits =>
    match t6Row width ref fuel [] true false bits with
    | .error e => .error e
    | .ok (row, bits) =>
      match t6Rows width fuel n row bits with
      | .error e => .error e
      | .ok rows => .ok (row :: rows)

/-- The pixels of a T.6 payload whose first bit is bit 7 of its first byte: 1 black, 0 white, from an all-white reference line. -/
def t6Decode (payload : Bytes) (width height : Nat) : Decoded Bytes :=
  let bits := bitsOf payload
  match t6Rows width (bits.length + 2) height (List.replicate width false) bits with
  | .error e => .error e
  | .ok rows => .ok (rows.flatMap fun r => r.map fun b => if b then 1 else 0)

end Sys2Proof.Machine
end

