-- ==== Sys2Proof/Machine/Float.lean ====
section
/-! DEFINITION. The float formats and their arithmetic (R222, R257 to R261): FP32 and BF16 values as exact dyadic numbers,
rounding judged after rounding, and the correctly rounded exp2 and recip. A lane or register word is its FP32 bits. -/

namespace Sys2Proof.Machine

/-- A float operand: NaN and infinities by sign (true negative), or mantissa × 2^exp with a sign. -/
inductive Fp where
  | nan (neg : Bool)
  | inf (neg : Bool)
  | fin (neg : Bool) (man : Nat) (exp : Int)
  deriving DecidableEq, Repr

/-- The value of FP32 bits; subnormal inputs are flushed to zero of the same sign (R222). -/
def fpOf (w : Word) : Fp :=
  let n := w.toNat
  let neg := n.testBit 31
  let e := bitsN n 23 8
  let m := bitsN n 0 23
  if e = 255 then (if m = 0 then .inf neg else .nan neg)
  else if e = 0 then .fin neg 0 0
  else .fin neg (2 ^ 23 + m) ((e : Int) - 150)

/-- Divide by 2^n, ties to even. -/
def rneNat (m n : Nat) : Nat :=
  if n = 0 then m
  else
    let q := m / 2 ^ n
    let r := m % 2 ^ n
    if r > 2 ^ (n - 1) || (r = 2 ^ (n - 1) && q % 2 = 1) then q + 1 else q

/-- man × 2^exp rounded to `p` significant bits as if the exponent had no lower limit: mantissa in [2^(p−1), 2^p) and
exponent; (0, 0) for zero. -/
def normRound (p m : Nat) (e : Int) : Nat × Int :=
  if m = 0 then (0, 0)
  else
    let b := Nat.log2 m + 1
    if b ≤ p then (m * 2 ^ (p - b), e - ((p - b : Nat) : Int))
    else
      let r := rneNat m (b - p)
      let e' := e + ((b - p : Nat) : Int)
      if r = 2 ^ p then (2 ^ (p - 1), e' + 1) else (r, e')

/-- Round to a format with an 8-bit exponent and `p` significant bits, and answer FP32 bits: p 24 is FP32, p 8 is BF16 in the
upper half (R222). A magnitude that after rounding lies below the smallest normal is zero of the same sign. -/
def packFp (p : Nat) (neg : Bool) (m : Nat) (e : Int) : Word :=
  let s := if neg then 2 ^ 31 else 0
  let r := normRound p m e
  let top := r.2 + ((p : Nat) : Int) - 1
  if r.1 = 0 || top < -126 then BitVec.ofNat 32 s
  else if top > 127 then BitVec.ofNat 32 (s + 0x7F800000)
  else BitVec.ofNat 32 (s + (top + 127).toNat * 2 ^ 23 + (r.1 - 2 ^ (p - 1)) * 2 ^ (24 - p))

/-- The quiet NaN of R222, with a sign. -/
def qnan (neg : Bool) : Word := if neg then 0xFFC00000 else 0x7FC00000

def infW (neg : Bool) : Word := if neg then 0xFF800000 else 0x7F800000

/-- The bits of a value in a format of `p` significant bits. -/
def Fp.pack (p : Nat) : Fp → Word
  | .nan n => qnan n
  | .inf n => infW n
  | .fin n m e => packFp p n m e

def Fp.isNan : Fp → Bool
  | .nan _ => true
  | _ => false

def Fp.neg? : Fp → Bool
  | .nan n => n
  | .inf n => n
  | .fin n _ _ => n

def Fp.negate : Fp → Fp
  | .nan n => .nan !n
  | .inf n => .inf !n
  | .fin n m e => .fin (!n) m e

/-- The signed integer mantissa at a lower exponent. -/
def signedAt (neg : Bool) (m : Nat) (e low : Int) : Int :=
  let v : Int := (m * 2 ^ (e - low).toNat : Nat)
  if neg then -v else v

/-- The exact sum. A NaN operand gives a NaN of its sign, the first operand's before the second's; inf − inf gives the quiet NaN as
R222 writes it; an exact zero is +0 unless both operands are −0 (round to nearest). -/
def Fp.add : Fp → Fp → Fp
  | .nan n, _ => .nan n
  | _, .nan n => .nan n
  | .inf a, .inf b => if a = b then .inf a else .nan false
  | .inf a, _ => .inf a
  | _, .inf b => .inf b
  | .fin a m e, .fin b k f =>
    let low := min e f
    let v := signedAt a m e low + signedAt b k f low
    if v = 0 then .fin (a && b) 0 0 else .fin (decide (v < 0)) v.natAbs low

/-- The exact product; 0 × inf is the quiet NaN. -/
def Fp.mul : Fp → Fp → Fp
  | .nan n, _ => .nan n
  | _, .nan n => .nan n
  | .inf a, .inf b => .inf (a != b)
  | .inf a, .fin b k _ => if k = 0 then .nan false else .inf (a != b)
  | .fin a m _, .inf b => if m = 0 then .nan false else .inf (a != b)
  | .fin a m e, .fin b k f => .fin (a != b) (m * k) (e + f)

/-- The order of two numbers that are not NaN, −0 below +0 when `zeros` is set: a < b. -/
def Fp.lt (zeros : Bool) : Fp → Fp → Bool
  | .nan _, _ => false
  | _, .nan _ => false
  | .inf a, .inf b => a && !b
  | .inf a, .fin _ _ _ => a
  | .fin _ _ _, .inf b => !b
  | .fin a m e, .fin b k f =>
    let low := min e f
    let x := signedAt a m e low
    let y := signedAt b k f low
    decide (x < y) || (zeros && decide (x = 0) && decide (y = 0) && a && !b)

def Fp.eq : Fp → Fp → Bool
  | .nan _, _ => false
  | _, .nan _ => false
  | .inf a, .inf b => a = b
  | .fin a m e, .fin b k f =>
    let low := min e f
    decide (signedAt a m e low = signedAt b k f low)
  | _, _ => false

/-! ### FP32 operations (R259) -/

def f32Add (a b : Word) : Word := ((fpOf a).add (fpOf b)).pack 24
/-- The exact difference; a NaN operand keeps its sign (R222). -/
def Fp.sub (a b : Fp) : Fp := a.add (if b.isNan then b else b.negate)

def f32Sub (a b : Word) : Word := ((fpOf a).sub (fpOf b)).pack 24
def f32Mul (a b : Word) : Word := ((fpOf a).mul (fpOf b)).pack 24

/-- a × b + c, rounded once. -/
def f32Fma (a b c : Word) : Word := (((fpOf a).mul (fpOf b)).add (fpOf c)).pack 24

def f32Min (a b : Word) : Word :=
  let x := fpOf a
  let y := fpOf b
  if x.isNan then qnan x.neg? else if y.isNan then qnan y.neg?
  else if y.lt true x then y.pack 24 else x.pack 24

def f32Max (a b : Word) : Word :=
  let x := fpOf a
  let y := fpOf b
  if x.isNan then qnan x.neg? else if y.isNan then qnan y.neg?
  else if x.lt true y then y.pack 24 else x.pack 24

def f32Abs (a : Word) : Word :=
  match fpOf a with
  | .nan _ => qnan false
  | .inf _ => infW false
  | .fin _ m e => packFp 24 false m e

def f32Neg (a : Word) : Word := ((fpOf a).negate).pack 24

/-- FP32 to BF16, widened (R222). -/
def f32ToBf16 (a : Word) : Word := (fpOf a).pack 8

/-- An integer to FP32. -/
def f32OfInt (v : Int) : Word := packFp 24 (decide (v < 0)) v.natAbs 0

/-- v × 2^e in FP32, rounded once. -/
def f32OfScaled (v : Int) (e : Int) : Word := packFp 24 (decide (v < 0)) v.natAbs e

def i32Min : Int := -(2 ^ 31)
def i32Max : Int := 2 ^ 31 - 1

def sat32 (v : Int) : Int := clampI i32Min i32Max v

/-- man × 2^exp rounded to an integer, ties to even. -/
def roundInt (neg : Bool) (m : Nat) (e : Int) : Int :=
  let v : Int := if 0 ≤ e then (m * 2 ^ e.toNat : Nat) else (rneNat m (-e).toNat : Nat)
  if neg then -v else v

/-- A float to I32: ties to even, saturating, NaN 0 (R222). -/
def f32ToInt (a : Word) : Int :=
  match fpOf a with
  | .nan _ => 0
  | .inf n => if n then i32Min else i32Max
  | .fin n m e => if 40 < e then (if m = 0 then 0 else if n then i32Min else i32Max) else sat32 (roundInt n m e)

/-! ### exp2 and recip (R260) -/

/-- ln 2 × 2^220, rounded down. -/
def ln2Fix : Nat := 0xb17217f7d1cf79abc9e3b39803f2f6af40f343267298b62d8a0d175

/-- Σ y^k / k! from term `k` on, in 220-bit fixed point. -/
def expTaylor (y : Nat) : Nat → Nat → Nat → Nat
  | 0, _, _ => 0
  | fuel + 1, k, t => t + expTaylor y fuel (k + 1) (t * y / 2 ^ 220 / (k + 1))

/-- 2^f × 2^220 for f = `f` / 2^220 in [0, 1), rounded down. -/
def exp2Frac (f : Nat) : Nat := expTaylor (f * ln2Fix / 2 ^ 220) 60 0 (2 ^ 220)

/-- 2^x, correctly rounded (R260). A value that is not a power of two lies strictly between two representable ones, so the low
bit below the 220 computed ones is set. -/
def f32Exp2 (a : Word) : Word :=
  match fpOf a with
  | .nan n => qnan n
  | .inf n => if n then 0 else infW false
  | .fin n m e =>
    if m = 0 then 0x3F800000
    else if 8 ≤ e + (Nat.log2 m : Int) then (if n then 0 else infW false)
    else
      let fix : Int := signedAt n m e (-220)
      let k := fix / (2 ^ 220 : Nat)
      let f := (fix % (2 ^ 220 : Nat)).toNat
      if f = 0 then packFp 24 false 1 k
      else packFp 24 false (2 * exp2Frac f + 1) (k - 221)

/-- 1/x, correctly rounded (R260). -/
def f32Recip (a : Word) : Word :=
  match fpOf a with
  | .nan n => qnan n
  | .inf n => if n then 0x80000000 else 0
  | .fin n m e =>
    if m = 0 then infW n
    else packFp 24 n (2 * (2 ^ 80 / m) + b2n (2 ^ 80 % m ≠ 0)) (-e - 81)

/-- a / b in FP32, correctly rounded. -/
def f32Div (a b : Word) : Word :=
  match fpOf a, fpOf b with
  | .nan n, _ => qnan n
  | _, .nan n => qnan n
  | .inf _, .inf _ => qnan false
  | .inf x, y => infW (x != y.neg?)
  | x, .inf n => if x.neg? != n then 0x80000000 else 0
  | .fin x m e, .fin y k f =>
    if k = 0 then (if m = 0 then qnan false else infW (x != y))
    else packFp 24 (x != y) (2 * (m * 2 ^ 80 / k) + b2n (m * 2 ^ 80 % k ≠ 0)) (e - f - 81)

/-! ### Reductions and lanes -/

/-- One step of R261: lane i takes lane i op lane i + half. -/
def reduceStep (op : Word → Word → Word) (l : List Word) : List Word :=
  let h := l.length / 2
  List.zipWith op (l.take h) (l.drop h)

/-- 32 lanes into one, in five steps (R261). -/
def reduce32 (op : Word → Word → Word) (l : List Word) : Word :=
  ((List.range 5).foldl (fun l _ => reduceStep op l) l).headD 0

/-- A BF16 code widened to FP32 bits. -/
def bf16W (v : Nat) : Word := BitVec.ofNat 32 (v * 65536)

/-- The upper half of FP32 bits: the code of a BF16 value. -/
def bf16Code (w : Word) : Nat := w.toNat / 65536

/-- The value of FP32 bits exactly, subnormals included (R326). -/
def fpExact (w : Word) : Fp :=
  let n := w.toNat
  if bitsN n 23 8 = 0 then .fin (n.testBit 31) (bitsN n 0 23) (-149) else fpOf w

/-- The order of ARGMAX (R326): by number, exactly, −0 equal to +0, a NaN below every number: a < b. -/
def exactLt (a b : Word) : Bool :=
  match fpExact a, fpExact b with
  | .nan _, .nan _ => false
  | .nan _, _ => true
  | _, .nan _ => false
  | x, y => x.lt false y

/-- The same order on values as the float operations use them, subnormals flushed (R222): a < b. -/
def numLt (a b : Word) : Bool :=
  match fpOf a, fpOf b with
  | .nan _, .nan _ => false
  | .nan _, _ => true
  | _, .nan _ => false
  | x, y => x.lt false y

end Sys2Proof.Machine
end

