-- ==== Sys2Proof/Machine/Numeric.lean ====
section
/-! DEFINITION. Formats and packings (R211 to R221), codebooks (R218), requantisation (R227 to R230), range mode (R235 to R237) and
the arithmetic of one table-MAC cell (R241 to R247, R255). -/

namespace Sys2Proof.Machine

abbrev fmW1 : Nat := 0
abbrev fmWT : Nat := 1
abbrev fmW2 : Nat := 2
abbrev fmWC4 : Nat := 3
abbrev fmW3 : Nat := 4
abbrev fmW4 : Nat := 5
abbrev fmWF4 : Nat := 6
abbrev fmWC16 : Nat := 7
abbrev fmA1 : Nat := 8
abbrev fmA4U : Nat := 9
abbrev fmA8U : Nat := 10
abbrev fmA8S : Nat := 11
abbrev fmI32 : Nat := 12
abbrev fmBF16 : Nat := 13
abbrev fmFP32 : Nat := 14

/-- Bits per element in scratch: array form for WT and W3 (R211, R215). -/
def fmtBits (f : Nat) : Nat :=
  match f with
  | 0 => 1 | 1 => 2 | 2 => 2 | 3 => 2 | 4 => 4 | 5 => 4 | 6 => 4 | 7 => 4 | 8 => 1 | 9 => 4 | 10 => 8 | 11 => 8
  | 12 => 32 | 13 => 16 | _ => 32

/-- Bytes that `n` codes of a format occupy (R212). -/
def fmtBytes (f n : Nat) : Nat := ceilDiv (n * fmtBits f) 8

/-- Code `i` of a packed row as raw bits: element 0 in the least significant bits of the first byte (R212). -/
def rawAt (f : Nat) (row : Bytes) (i : Nat) : Nat :=
  let b := fmtBits f
  if b < 8 then bitsN (u8 row (i * b / 8)) (i * b % 8) b else leNat (sliceB row (i * (b / 8)) (b / 8))

/-- A code as an integer: A8S and I32 signed, the others unsigned. -/
def codeAt (f : Nat) (row : Bytes) (i : Nat) : Int :=
  let v := rawAt f row i
  if f = fmA8S then sext 8 v else if f = fmI32 then sext 32 v else (v : Int)

/-- Pack codes narrower than a byte, least significant first, the last byte padded with zero bits (R212). -/
def packBits (b : Nat) : Nat → List Nat → Bytes
  | 0, _ => []
  | _, [] => []
  | fuel + 1, l =>
    let per := 8 / b
    let v := ((l.take per).zipIdx.map fun p => (p.1 % 2 ^ b) * 2 ^ (b * p.2)).sum
    BitVec.ofNat 8 v :: packBits b fuel (l.drop per)

/-- Pack raw codes of a format. -/
def packCodes (f : Nat) (l : List Nat) : Bytes :=
  let b := fmtBits f
  if b < 8 then packBits b (l.length + 1) l else l.flatMap fun v => toLe (b / 8) v

/-- Code limits of R227: the limits of R211 for the narrow formats, none for I32 and the floats. -/
def codeRange (f : Nat) : Int × Int :=
  if f = fmA1 then (0, 1) else if f = fmA4U then (0, 15) else if f = fmA8U then (0, 255)
  else if f = fmA8S then (-128, 127) else (i32Min, i32Max)

/-! ### Weight forms (R213 to R217) -/

/-- The five codes of a WT byte in array form (R213, R215). -/
def wtArray (b : Nat) : List Nat :=
  (List.range 5).map fun i => match b / 3 ^ i % 3 with | 0 => 3 | 1 => 0 | _ => 1

/-- XFORM of R287 on source bytes: 0 copy, 1 WT, 2 W3; every 4 source bytes become 5 (R288). -/
def xformBytes (x : Nat) (src : Bytes) : Bytes :=
  if x = 1 then packCodes fmW2 (src.flatMap fun b => wtArray b.toNat)
  else if x = 2 then
    packCodes fmW4 ((List.range (src.length / 4)).flatMap fun w =>
      (List.range 10).map fun i => wrapN 4 (sext 3 (bitsN (u32 src (4 * w)) (3 * i) 3)))
  else src

/-- 2 × the E2M1 value of a WF4 nibble (R217). -/
def wf4Value (n : Nat) : Int :=
  let e := bitsN n 1 2
  let m := bitsN n 0 1
  let v : Int := if e = 0 then (m : Int) else 2 ^ (e - 1) * (2 + (m : Int))
  if bitN n 3 then -v else v

/-- The code value of array-form bits, with the codebook's k_j (R216). -/
def weightValue (f : Nat) (book : List Int) (v : Nat) : Int :=
  match f with
  | 0 => if v = 1 then 1 else -1
  | 1 => sext 2 v
  | 2 => sext 2 v
  | 3 => book.getD v 0
  | 4 => sext 4 v
  | 5 => sext 4 v
  | 6 => wf4Value v
  | _ => book.getD v 0

/-- Activations covered by one lookup (R243): 1, 2 or 4. -/
def lookupWidth (f : Nat) : Nat := match f with | 0 => 4 | 1 => 2 | 2 => 2 | 3 => 2 | _ => 1

/-! ### Codebooks (R218) -/

/-- A codebook entry that is a NaN, an infinity or a subnormal is refused at load. -/
def bookEntryBad (v : Nat) : Bool := bitsN v 7 8 = 255 || (bitsN v 7 8 = 0 && bitsN v 0 7 ≠ 0)

/-- |x| × 2^−e rounded to the nearest integer. -/
def bookScaled (x : Nat) (e : Int) : Int :=
  match fpOf (bf16W x) with
  | .fin n m k => roundInt n m (k - e)
  | _ => 0

/-- The smallest e with RNE(M × 2^−e) ≤ 127, searched upward from below. -/
def bookShiftFrom (m : Nat) : Nat → Int → Int
  | 0, e => e
  | fuel + 1, e => if bookScaled m e ≤ 127 then e else bookShiftFrom m fuel (e + 1)

/-- The largest magnitude among the entries, as BF16 bits without the sign. -/
def bookMax (xs : List Nat) : Nat := maxNat (xs.map fun x => x % 32768)

/-- e and the k_j of a codebook. -/
def codebook (xs : List Nat) : Int × List Int :=
  let m := bookMax xs
  if m = 0 then (0, xs.map fun _ => 0)
  else
    let e := bookShiftFrom m 300 (-140)
    (e, xs.map fun x => bookScaled x e)

/-- The format shift f of R216. -/
def formatShift (f : Nat) (book : List Nat) : Int :=
  if f = fmWF4 then -1 else if f = fmWC4 || f = fmWC16 then (codebook book).1 else 0

/-! ### Requantisation (R227 to R230) -/

/-- rne_shift of R228. -/
def rneShift (t : Int) (n : Nat) : Int :=
  if n > 31 then 0
  else if n = 0 then t
  else
    let fl := t / 2 ^ n
    let rem := t - fl * 2 ^ n
    let half : Int := 2 ^ (n - 1)
    if rem > half then fl + 1 else if rem = half && fl % 2 = 1 then fl + 1 else fl

/-- The shift step of R227: left with saturation, or rne_shift. -/
def shiftStep (t k : Int) : Int := if 0 ≤ k then sat32 (t * 2 ^ k.toNat) else rneShift t (-k).toNat

/-- What one requantised element gives: its code, whether it counts as a saturation, and as a zero-collapse. -/
structure Requant where
  code : Int
  sat : Bool
  zc : Bool
  deriving DecidableEq, Repr

/-- R227, R229 and R230 for one element: accumulator value, bias, shift k_r, zero point, code limits; `satIn` is the saturation
flag of its accumulator (R253). -/
def requant (v bias k z lo hi : Int) (satIn : Bool) : Requant :=
  let t := sat32 (v + bias)
  let u := shiftStep t k
  let left := decide (0 ≤ k) && decide (t * 2 ^ k.toNat ≠ u)
  let q0 := u + z
  let q := clampI lo hi q0
  let sat := satIn || decide (t ≠ v + bias) || left || decide (q ≠ q0)
  { code := q, sat := sat, zc := !sat && decide (v + bias ≠ 0) && decide (q - z = 0) }

/-- A float output of R296: (v + bias) × 2^k rounded once to FP32, then for BF16 by R222. Zero-collapse as R230, judged on the
value written. -/
def requantFloat (v bias k : Int) (satIn bf16 : Bool) : Word × Requant :=
  let t := sat32 (v + bias)
  let w0 := f32OfScaled t k
  let w := if bf16 then f32ToBf16 w0 else w0
  let sat := satIn || decide (t ≠ v + bias)
  (w, { code := 0, sat := sat, zc := !sat && decide (v + bias ≠ 0) && (fpOf w).eq (.fin false 0 0) })

/-- A channel of a range-mode tile (R235, R236): the values v + bias with their input saturation flags, k_c, SHIFT − SHIFT_MIN,
SHIFT is implied by the record's exponent `shift`. Answers codes, the zero point, the exponent and whether it is degenerate. -/
def rangeChannel (vals : List (Int × Bool)) (k : Int) (dshift : Nat) (shift : Int) (lo hi : Int) :
    List Requant × Int × Int × Bool :=
  let ts := vals.map fun p => sat32 p.1
  let mn := ts.foldl min (ts.headD 0)
  let mx := ts.foldl max (ts.headD 0)
  if mn < mx then
    let z0 := -(shiftStep mn k)
    let z := clampI (-32768) 32767 z0
    let qs := vals.map fun p =>
      let t := sat32 p.1
      let u := shiftStep t k
      let q0 := u + z
      let q := clampI lo hi q0
      let left := decide (0 ≤ k) && decide (t * 2 ^ k.toNat ≠ u)
      let sat := p.2 || decide (t ≠ p.1) || left || decide (q ≠ q0) || decide (z ≠ z0)
      ({ code := q, sat := sat, zc := !sat && decide (p.1 ≠ (0 : Int)) && decide (q - z = 0) } : Requant)
    (qs, z, shift, false)
  else
    let c0 := mn * 2 ^ (k + (dshift : Int)).toNat
    let c := clampI (-32768) 32767 c0
    let csat := decide (c ≠ c0)
    let qs := vals.map fun p =>
      ({ code := 0, sat := p.2 || decide (sat32 p.1 ≠ p.1) || csat, zc := false } : Requant)
    (qs, -c, shift - (dshift : Int), true)

/-! ### One cell of the array (R243 to R247, R255) -/

/-- v mod 3 in the range 0 to 2 (R255). -/
def res3 (v : Int) : Nat := (v % 3).toNat

/-- Add a value, already shifted, into an accumulator: saturating, and an accumulator that has saturated keeps its limit
(R245). `clipped` says that the shift itself saturated. -/
def AccCell.add (c : AccCell) (v : Int) (res : Nat) (clipped : Bool) : AccCell :=
  if c.sat then c
  else
    let t := c.value + v
    let u := sat32 t
    { value := u, sat := clipped || decide (u ≠ t), residue := (c.residue + res) % 3 }

/-- The entries of a run of (d, code value) pairs, `p` pairs to a lookup: entry and residue. -/
def entries (p : Nat) : Nat → List (Int × Int) → List (Int × Nat)
  | 0, _ => []
  | _, [] => []
  | fuel + 1, l =>
    let g := l.take p
    ((g.map fun x => x.1 * x.2).sum, (g.map fun x => res3 x.1 * res3 x.2).sum % 3) :: entries p fuel (l.drop p)

/-- Add the partial of one weight group, shifted left by its code (R245, R255). -/
def AccCell.addGroup (c : AccCell) (es : List (Int × Nat)) (shift : Nat) : AccCell :=
  let part := (es.map (·.1)).sum
  let res := (es.map (·.2)).sum * (if shift % 2 = 0 then 1 else 2) % 3
  let t := part * 2 ^ shift
  c.add (sat32 t) res (decide (sat32 t ≠ t))

/-- The groups of a row in turn, `per` lookups to a group. -/
def AccCell.addGroups (per : Nat) : List Nat → List (Int × Nat) → AccCell → AccCell
  | [], _, c => c
  | g :: gs, es, c => AccCell.addGroups per gs (es.drop per) (c.addGroup (es.take per) g)

/-- One cell over one pass: the pairs of the reduction, lookup width, group shifts (none: every entry straight into the
accumulator) with the group size, the initial value, and for an A8U column operand z_j (R247). -/
def cellPass (pairs : List (Int × Int)) (p : Nat) (groups : Option (Nat × List Nat)) (init : Int) (zCol : Int) : AccCell :=
  let es := entries p pairs.length pairs
  let c0 : AccCell := { value := init, sat := false, residue := res3 init }
  let c1 := match groups with
    | some (g, shifts) => AccCell.addGroups (g / p) shifts es c0
    | none => es.foldl (fun c e => c.add e.1 e.2 false) c0
  if zCol = 0 then c1
  else
    let sd := (pairs.map (·.1)).sum
    c1.add (-(zCol * sd)) (res3 (-(zCol * sd))) false

/-- The cell after `n` lookups of a pass (R254): whole entries, and of the weight groups those whose boundary has been reached; the
column's zero point comes off at the end of the pass alone. An A8 × A8 entry takes two lookups. -/
def cellAfter (n : Nat) (pairs : List (Int × Int)) (p : Nat) (a8 : Bool) (groups : Option (Nat × List Nat)) (init : Int) : AccCell :=
  let e := if a8 then n / 2 else n
  let ps := pairs.take (e * p)
  match groups with
  | some (g, shifts) => cellPass (ps.take (e * p / g * g)) p (some (g, shifts.take (e * p / g))) init 0
  | none => cellPass ps p none init 0

/-- The integer dot product formed as an A8 × A8 product, with the saturation of R245 (R247, R352). -/
def dotA8 (d y : List Int) (zCol : Int) : Int := (cellPass (d.zip y) 1 none 0 zCol).value

end Sys2Proof.Machine
end

