-- ==== Sys2Proof/Machine/Crypto.lean ====
section
/-! DEFINITION. SHA-256 and RSASSA-PSS verification with the parameters of R570, and the key hash of R571. The algorithms are
those of the standards that R570 names (FIPS 180-4 and RFC 8017). -/

namespace Sys2Proof.Machine

/-- The largest number whose `e`-th power is at most `v`, found bit by bit: `r` so far, `n` bits still to decide. -/
def rootFrom (e v : Nat) : Nat → Nat → Nat
  | 0, r => r
  | n + 1, r => rootFrom e v n (if (r + 2 ^ n) ^ e ≤ v then r + 2 ^ n else r)

/-- The first 32 bits behind the point of the `e`-th root of a number below 2^9. -/
def rootFraction (e p : Nat) : Nat := rootFrom e (p * 2 ^ (32 * e)) 37 0 % 2 ^ 32

/-- The first `n` primes. -/
def primes (n : Nat) : List Nat :=
  ((List.range 312).filter fun p => decide (2 ≤ p) && (List.range 18).all fun d => decide (d < 2 ∨ p ≤ d ∨ p % d ≠ 0)).take n

/-- The hash before the first block: the square roots of eight primes, as the two histories that a block carries on. -/
def hashStart : List Nat × List Nat :=
  let h := (primes 8).map (rootFraction 2)
  (h.take 4, h.drop 4)

/-- The exclusive or of a 32-bit word rotated right by the amounts of `by_`. -/
def turns (x : Nat) (by_ : List Nat) : Nat := by_.foldl (fun acc n => acc ^^^ ((x * (2 ^ 32 + 1)) >>> n) % 2 ^ 32) 0

/-- The word that follows sixteen words of a block's schedule, the latest first. -/
def nextWord (w : List Nat) : Nat :=
  let old := w.getD 14 0
  let new := w.getD 1 0
  ((turns old [7, 18] ^^^ old >>> 3) + (turns new [17, 19] ^^^ new >>> 10) + w.getD 15 0 + w.getD 6 0) % 2 ^ 32

/-- One step: the histories of the two halves, the latest word of each first, take in one schedule word with its constant. -/
def hashStep (st : List Nat × List Nat) (kw : Nat) : List Nat × List Nat :=
  let a := fun i => st.1.getD i 0
  let e := fun i => st.2.getD i 0
  let t := e 3 + turns (e 0) [6, 11, 25] + (e 2 ^^^ (e 0 &&& (e 1 ^^^ e 2))) + kw
  let m := a 0 &&& a 1 ||| a 2 &&& (a 0 ||| a 1)
  ((t + turns (a 0) [2, 13, 22] + m) % 2 ^ 32 :: st.1.take 3, (a 3 + t) % 2 ^ 32 :: st.2.take 3)

/-- The steps of one block: constants still to come, the schedule's latest sixteen words (the latest first), the words of the
block not yet taken. -/
def hashSteps : List Nat → List Nat → List Nat → List Nat × List Nat → List Nat × List Nat
  | [], _, _, st => st
  | k :: ks, w, [], st => hashSteps ks (nextWord w :: w.take 15) [] (hashStep st (k + nextWord w))
  | k :: ks, w, x :: xs, st => hashSteps ks (x :: w.take 15) xs (hashStep st (k + x))

/-- The steps' constants: the cube roots of 64 primes. -/
def stepConstants : List Nat := (primes 64).map (rootFraction 3)

/-- A run of bytes as 32-bit words, most significant byte first. -/
def beWordsOf (bs : Bytes) : List Nat := (List.range (bs.length / 4)).map fun i => beNat (sliceB bs (4 * i) 4)

/-- Take in one block of 64 bytes. -/
def hashBlock (ks : List Nat) (st : List Nat × List Nat) (block : Bytes) : List Nat × List Nat :=
  let new := hashSteps ks [] (beWordsOf block) st
  let sum := List.zipWith fun a b => (a + b) % 2 ^ 32
  (sum st.1 new.1, sum st.2 new.2)

/-- SHA-256 (R570): the message, a one bit, zeros, and the message's length in bits, in blocks of 64 bytes. -/
def sha256 (m : Bytes) : Bytes :=
  let msg := m ++ 0x80 :: zeros ((119 - m.length % 64) % 64) ++ toBe 8 (8 * m.length)
  let st := (List.range (msg.length / 64)).foldl (fun st i => hashBlock stepConstants st (sliceB msg (64 * i) 64)) hashStart
  (st.1 ++ st.2).flatMap (toBe 4)

/-- x^(2^k) mod n. -/
def sqMod (n : Nat) : Nat → Nat → Nat
  | 0, x => x
  | k + 1, x => sqMod n k (x * x % n)

/-- x^65537 mod n (R570). -/
def rsaPublic (n x : Nat) : Nat := sqMod n 16 x * x % n

/-- `n` blocks of MGF1 with SHA-256 from counter `c`. -/
def mgf1Blocks (seed : Bytes) : Nat → Nat → Bytes
  | 0, _ => []
  | n + 1, c => sha256 (seed ++ toBe 4 c) ++ mgf1Blocks seed n (c + 1)

def mgf1 (seed : Bytes) (len : Nat) : Bytes := (mgf1Blocks seed (ceilDiv len 32) 0).take len

def xorBytes (a b : Bytes) : Bytes := List.zipWith (· ^^^ ·) a b

/-- EMSA-PSS verification of the 384-byte encoded message (3,071 bits, 32-byte salt, trailer 0xBC). -/
def pssOk (em mHash : Bytes) : Bool :=
  let maskedDb := em.take 351
  let h := (em.drop 351).take 32
  let db0 := xorBytes maskedDb (mgf1 h 351)
  let db := (db0.headD 0 &&& 0x7F) :: db0.drop 1
  decide (u8 em 383 = 0xBC) && decide (u8 maskedDb 0 < 128) && (db.take 318).all (· = 0) &&
    decide (u8 db 318 = 1) && decide (sha256 (zeros 8 ++ mHash ++ db.drop 319) = h)

/-- A signature block's modulus, exponent and signature satisfy R570 over a message. -/
def sigOk (block msg : Bytes) : Bool :=
  let n := beNat (sliceB block 4 384)
  let sg := beNat (sliceB block 392 384)
  decide (n ≥ 2 ^ 3071) && decide (u32 block 388 = 65537) && decide (sg < n) &&
    pssOk (toBe 384 (rsaPublic n sg)) (sha256 msg)

/-! ### OTP (R572) -/

def State.otpBytes (s : State) (off n : Nat) : Bytes := s.sec.otp.read off n
def State.otpByte (s : State) (off : Nat) : Nat := (s.sec.otp.get off).toNat

/-- The OTP hash that a KEY field names, when it is present and not revoked (R571). -/
def State.keyHash (s : State) (key : Nat) : Option Bytes :=
  let h := s.otpBytes (32 * key) 32
  let revoked := match key with
    | 1 => bitN (s.otpByte 104) 0
    | 2 => bitN (s.otpByte 104) 1
    | _ => false
  if key ≤ 2 && h.any (· ≠ 0) && !revoked then some h else none

/-- A signature block verifies over a message (R570, R571). -/
def State.verify (s : State) (block msg : Bytes) : Bool :=
  (s.keyHash (u8 block 0)).any (fun h => h = sha256 (sliceB block 4 388)) && sigOk block msg

/-- The bits set among the low `n` bits. -/
def countBits (v : Nat) : Nat → Nat
  | 0 => 0
  | n + 1 => countBits v n + b2n (bitN v n)

/-- The anti-rollback counter c (R572). -/
def State.rollback (s : State) : Nat := countBits (leNat (s.otpBytes 96 8)) 64

/-! ### Measurement slots (R581) -/

/-- Extend slot `i` by a digest. -/
def State.extendMs (s : State) (i : Nat) (d : Bytes) : State :=
  s.onSec fun c => { c with ms := c.ms.modify i (fun m => sha256 (m ++ d)), extendCount := c.extendCount + 1 }

/-- Extend MS_1 by the present OTP (R582). -/
def State.extendOtp (s : State) : State := s.extendMs 1 (sha256 (s.otpBytes 0 146))

end Sys2Proof.Machine
end

