-- ==== Sys2Proof/Machine/Operands.lean ====
section
/-! DEFINITION. The fields of submission descriptors (R80, R84, R101, R193, R438, R565, R584), the check of a descriptor's form
(R82, R619), and the layouts of the records the LT8 writes (R93, R105, R108). -/

namespace Sys2Proof.Machine

/-! ### Fields of a descriptor -/

def dVer (d : Bytes) : Nat := u8 d 0
def dOp (d : Bytes) : Nat := u8 d 1
def dClient (d : Bytes) : Nat := u8 d 2
def dFence (d : Bytes) : Bool := bitN (u8 d 3) 0
def dKeep (d : Bytes) : Bool := bitN (u8 d 3) 1
def dCq (d : Bytes) : Nat := u8 d 4
def dTag (d : Bytes) : Nat := u32 d 8
def dFolio (d : Bytes) : Nat := u8 d 5
def dKind (d : Bytes) : Nat := u8 d 6
def dBudget (d : Bytes) : Nat := u32 d 12
def dInAddr (d : Bytes) : Nat := u64 d 16
def dInLen (d : Bytes) : Nat := u32 d 24
def dInCount (d : Bytes) : Nat := u16 d 28
def dMaxBytes (d : Bytes) : Nat := u16 d 30
def dOutAddr (d : Bytes) : Nat := u64 d 32
def dOutLen (d : Bytes) : Nat := u32 d 40
def dConfAddr (d : Bytes) : Nat := u64 d 48

/-- PARAM_ADDR, a field of Ronvel 1.1 and later (R84). -/
def dParamAddr (d : Bytes) : Nat := if dVer d ≥ 0x11 then u64 d 56 else 0

/-- The output stride S (R86). -/
def dStride (d : Bytes) : Nat := roundUp (dMaxBytes d) 64

abbrev opNop : Nat := 0
abbrev opRun : Nat := 1
abbrev opCancel : Nat := 2
abbrev opFolioLoad : Nat := 3
abbrev opFolioUnload : Nat := 4
abbrev opBayBist : Nat := 5
abbrev opCapture : Nat := 6
abbrev opAttest : Nat := 7

/-- The opcodes that take a job slot (R81). -/
def takesSlot (d : Bytes) : Bool := dOp d ∈ [opRun, opFolioLoad, opFolioUnload, opBayBist, opCapture, opAttest]

/-- The bytes from `off` for `n` are not all zero. -/
def nonZero (d : Bytes) (off n : Nat) : Bool := (sliceB d off n).any (· ≠ 0)

/-- The checks of the body of each opcode, in order of offset: (offset of the field, the field is at fault). -/
def bodyForm (d : Bytes) : List (Nat × Bool) :=
  match dOp d with
  | 0 => [(5, nonZero d 5 3), (12, nonZero d 12 52)]
  | 1 =>
    [(6, dKind d > 2), (7, nonZero d 7 1), (32, dOutAddr d % 64 ≠ 0), (44, nonZero d 44 4), (48, dConfAddr d % 64 ≠ 0),
     (56, if dVer d ≥ 0x11 then u64 d 56 % 64 ≠ 0 else nonZero d 56 8)]
  | 2 => [(6, nonZero d 6 2), (16, nonZero d 16 48)]
  | 3 =>
    [(7, u8 d 7 / 2 ≠ 0), (12, nonZero d 12 4), (16, u64 d 16 % 64 ≠ 0), (28, nonZero d 28 36)]
  | 4 => [(6, nonZero d 6 2), (12, nonZero d 12 52)]
  | 5 => [(6, u8 d 6 / 32 ≠ 0), (7, nonZero d 7 1), (12, nonZero d 12 52)]
  | 6 =>
    let commit := u8 d 5 = 0
    let cal := u8 d 5 = 1 || u8 d 5 = 2
    [(5, u8 d 5 > 3), (6, u8 d 6 / 16 ≠ 0), (7, if cal then u8 d 7 > 6 else u8 d 7 ≠ 0), (12, nonZero d 12 4),
     (16, if commit then u64 d 16 % 64 ≠ 0 else nonZero d 16 8), (24, !commit && nonZero d 24 4), (28, nonZero d 28 36)]
  | 7 =>
    let extend := u8 d 5 = 1
    [(5, u8 d 5 > 1), (6, if extend then !(5 ≤ u8 d 6 && u8 d 6 ≤ 7) else u8 d 6 ≠ 0), (7, u8 d 7 / 2 ≠ 0),
     (12, nonZero d 12 4), (48, if extend then nonZero d 48 8 else u64 d 48 % 64 ≠ 0),
     (56, extend && nonZero d 56 4), (60, nonZero d 60 4)]
  | _ => []

/-- KEEP is allowed only on a Ronvel 1.1 RUN over Quire records (R80). -/
def keepAllowed (d : Bytes) : Bool := dOp d = opRun && dKind d = 0 && dVer d ≥ 0x11

/-- The offset of the first field at fault of a descriptor, none when its form holds: its version against the agreed range
(R65), its opcode, its reserved and aligned fields (R82, R619). -/
def formFault (verLo verHi : Nat) (d : Bytes) : Option Nat :=
  let common :=
    [(0, decide (dVer d < verLo) || decide (verHi < dVer d)), (1, decide (dOp d > 7)),
     (3, u8 d 3 / 4 ≠ 0 || (dKeep d && !keepAllowed d))]
  ((common ++ bodyForm d).find? (·.2)).map (·.1)

/-! ### Records -/

/-- A completion record in the agreed layout (R93): SLOWDOWN from Ronvel 1.2, DETAIL from Ronvel 1.3 (R64). -/
def cqRecBytes (hi : Nat) (phase : Bool) (r : CqRec) : Bytes :=
  toLe 8 r.sample ++ toLe 4 r.tag ++ toLe 2 r.status ++ toLe 2 (r.flags + (if phase then flPhase else 0)) ++
    toLe 4 r.amount ++ toLe 2 r.index ++ toLe 1 r.sq ++ toLe 1 r.client ++ toLe 2 r.sat ++ toLe 2 r.zc ++
    toLe 2 (if hi ≥ 0x12 then r.slowdown else 0) ++ toLe 2 (if hi ≥ 0x13 then r.detail else 0)

/-- An error record (R105). -/
def errRecBytes (phase : Bool) (r : ErrRec) : Bytes :=
  toLe 1 r.severity ++ [0] ++ toLe 2 r.unit ++ toLe 2 r.kind ++
    toLe 2 (b2n r.lasting + 2 * b2n r.merged + (if phase then flPhase else 0)) ++
    toLe 4 r.count ++ toLe 2 r.context ++ toLe 1 r.client ++ toLe 1 r.sq ++ toLe 4 r.tag ++ toLe 4 r.number ++
    toLe 8 r.detail

/-- A ledger record (R108); ENERGY_UJ and the counts other than PAGES are 0 or others' meanings outside SERVICE (R490). R502 bounds a
32-bit field of one interval only: a held account that has accumulated past 2^32 − 1 shows it modulo 2^32 (DESIGN CHOICE, assumption
27). -/
def ldgRecBytes (phase : Bool) (h : HeldAccount) : Bytes :=
  toLe 1 h.state ++ toLe 1 h.acct.client ++
    toLe 1 (b2n (h.state = 3) + 2 * b2n h.merged + (if phase then 128 else 0)) ++ [0] ++ toLe 4 h.interval ++
    toLe 8 h.acct.array ++ toLe 8 h.acct.vector ++ toLe 4 h.acct.decode ++ toLe 4 h.acct.catalog ++
    toLe 8 h.acct.dram ++ toLe 8 h.acct.pcie ++ toLe 8 h.acct.refill ++ toLe 4 h.energy ++ toLe 4 h.acct.pages

end Sys2Proof.Machine
end

