-- ==== Sys2Proof/Machine/Pages.lean ====
section
/-! DEFINITION. Sequence slots and the pages they hold (R366, R367, R456): looking one up, page holds and free lists, and letting a
slot go. -/

namespace Sys2Proof.Machine

/-- A sequence slot in use. -/
def State.seq? (s : State) (n : Nat) : Option SeqSlot := s.kv.seqs.find? (·.slot = n)

def State.onSeq (s : State) (n : Nat) (f : SeqSlot → SeqSlot) : State :=
  s.onKv fun k => { k with seqs := updFirst (·.slot = n) f k.seqs }

/-- Holds of the page at PAGE value `p` (R366). -/
def State.holds (s : State) (p : Nat) : Nat :=
  (s.kv.seqs.map fun q => (q.table.filter fun e => e.valid && !e.swapped && e.page = p).length).sum

def State.isNode (s : State) (p : Nat) : Bool := s.kv.nodes.any (·.page = p)

/-- Put a page on the free list of its size (R331). -/
def State.freePage (s : State) (p log2 : Nat) : State :=
  s.onKv fun k => { k with free := k.free.modify (log2 - 4) fun l => l ++ [p] }

/-- A page whose holds have reached 0 returns to its list, unless it is a node (R367). -/
def State.dropHold (s : State) (p log2 : Nat) : State :=
  if s.holds p = 0 && !s.isNode p then s.freePage p log2 else s

/-- Free swap units of a swapped entry (R385). -/
def State.freeSwap (s : State) (slot unit : Nat) : State :=
  s.onKv fun k => { k with swapRuns := k.swapRuns.filter fun r => !(r.1 = unit && r.2.2 = slot) }

/-- FLAGS of an entry (R332). -/
def Pte.flags (e : Pte) : Nat := b2n e.valid + 2 * b2n e.shared + 4 * b2n e.pinned + 8 * b2n e.swapped

/-- The 16 bytes of an entry (R332). -/
def Pte.bytes (e : Pte) : Bytes :=
  toLe 4 e.page ++ toLe 1 e.log2 ++ toLe 1 e.flags ++ toLe 2 e.fill ++ toLe 4 e.basePos ++ toLe 2 e.score.toNat ++ toLe 2 0

/-- Change a sequence's table; its entries stand in device DRAM (R333). -/
def State.onTable (s : State) (slot : Nat) (f : List Pte → List Pte) : State :=
  let s := s.onSeq slot fun q => { q with table := f q.table }
  match s.seq? slot with
  | some q => s.dramWrite q.tableAt (q.table.flatMap Pte.bytes)
  | none => s

/-- Change one entry of a table, by BASE_POS. -/
def State.onPte (s : State) (slot base : Nat) (f : Pte → Pte) : State :=
  s.onTable slot (updFirst (·.basePos = base) f)

def SeqSlot.pte? (q : SeqSlot) (base : Nat) : Option Pte := q.table.find? (·.basePos = base)

/-- What an entry holds is let go: its page, or its swap units. -/
def State.dropEntry (s : State) (slot : Nat) (p : Pte) : State :=
  if p.swapped then s.freeSwap slot p.page else if p.valid then s.dropHold p.page p.log2 else s

/-- An entry of a sequence that ends leaves its table, and what it holds is let go. -/
def State.removePte (s : State) (slot base : Nat) : State :=
  match (s.seq? slot).bind (·.pte? base) with
  | none => s
  | some p => (s.onSeq slot fun q => { q with table := q.table.filter (·.basePos ≠ base) }).dropEntry slot p

/-- Release everything a sequence holds in KV memory: its entries, its spare, its swap units. -/
def State.releasePages (s : State) (slot : Nat) : State :=
  match s.seq? slot with
  | none => s
  | some q =>
    let s := (q.table.map (·.basePos)).foldl (fun s b => s.removePte slot b) s
    match q.spare, q.geom with
    | some p, some g => (s.onSeq slot fun q => { q with spare := none }).freePage p g.log2Page
    | _, _ => s

/-- A context that serves a sequence slot which has been let go finds nothing in it for the rest of its run. -/
def Ctx.forget (x : Ctx) (slot : Nat) : Ctx :=
  if slot ∈ x.plan.seqs then
    { x with plan := { x.plan with seqs := x.plan.seqs.filter (· ≠ slot) }, gone := addNew x.gone slot }
  else x

/-- Let a sequence slot go: its pages, its spare, its swap units (R456). -/
def State.releaseSeq (s : State) (slot : Nat) : State :=
  let s := s.releasePages slot
  (s.onKv fun k =>
    { k with seqs := k.seqs.filter (·.slot ≠ slot), swapRuns := k.swapRuns.filter (·.2.2 ≠ slot) }).onSch fun h =>
      { h with ctxs := h.ctxs.map (·.forget slot) }

/-- The sequence slots of a page-side. -/
def State.pageSlots (s : State) (number idx : Nat) : List SeqSlot :=
  s.kv.seqs.filter fun q => q.jobNumber = number && q.idx = idx && !q.row

/-- The sequence record of a page-side is written: its slots go (R456). -/
def State.releasePage (s : State) (number idx : Nat) : State :=
  ((s.pageSlots number idx).map (·.slot)).foldl State.releaseSeq s

end Sys2Proof.Machine
end

