-- ==== Sys2Proof/Machine/Report.lean ====
section
/-! DEFINITION. What every unit reports through: the circulation ledger's accounts (R489 to R492), the outbound mailbox (R56 to
R59), doorbell reads (R75, R76), completion records and job ends (R92 to R100, R231 to R234), error records and what an error
stops (R105 to R107, R551 to R559). Each is ONE shared operation that the commands call. -/

namespace Sys2Proof.Machine

/-! ### Accounts (chapter 15) -/

def Account.zero (client : Nat) : Account := ⟨client, 0, 0, 0, 0, 0, 0, 0, 0⟩

def Account.add (a b : Account) : Account :=
  { a with array := a.array + b.array, vector := a.vector + b.vector, decode := a.decode + b.decode,
           catalog := a.catalog + b.catalog, dram := a.dram + b.dram, pcie := a.pcie + b.pcie,
           refill := a.refill + b.refill, pages := a.pages + b.pages }

def Account.isZero (a : Account) : Bool := a = Account.zero a.client

/-- Add counts to a list of accounts kept in ascending client order (R486). -/
def addAccount (a : Account) : List Account → List Account
  | [] => [a]
  | b :: l =>
    if a.client = b.client then b.add a :: l
    else if a.client < b.client then a :: b :: l
    else b :: addAccount a l

/-- Counts of R489 for a client, made against the state in force when the interval began: in SERVICE as they are, in other
states only PAGES (R490). Nothing is counted while no interval runs (R485). -/
def State.charge (s : State) (a : Account) : State :=
  if s.regB rLdgCtrl 0 then
    let b := if s.ldg.intervalState = .service then a else { Account.zero a.client with pages := a.pages }
    if b.isZero then s else s.onLdg fun l => { l with accounts := addAccount b l.accounts }
  else s

/-- A wait or pre-emption of R490 for a client: queue-wait cycles and pre-emptions, counted outside SERVICE only. -/
def State.chargeWait (s : State) (client cycles preempted : Nat) : State :=
  if s.regB rLdgCtrl 0 && s.ldg.intervalState ≠ .service then
    s.onLdg fun l =>
      { l with accounts := addAccount { Account.zero client with array := cycles, vector := preempted } l.accounts }
  else s

def State.chargeArray (s : State) (c n : Nat) : State := s.charge { Account.zero c with array := n }
def State.chargeVector (s : State) (c n : Nat) : State := s.charge { Account.zero c with vector := n }
def State.chargeDram (s : State) (c n : Nat) : State := s.charge { Account.zero c with dram := n }
/-- Bytes moved to or from the host for a client: over PCIe, or in embedded mode to and from device DRAM (R489, R60). -/
def State.chargePcie (s : State) (c n : Nat) : State :=
  if s.emb then s.chargeDram c n else s.charge { Account.zero c with pcie := n }

/-- Energy coefficient `k` in pJ (R493). -/
def State.coef (s : State) (k : Nat) : Nat := s.regF (rLdgCoef k) 0 16

/-- Work on behalf of no job: `n` units of count `k`, whose energy goes to LDG_DEVICE_UJ (R492). -/
def State.unattributed (s : State) (k n : Nat) : State :=
  s.onLdg fun l => { l with devicePj := l.devicePj + n * s.coef k }

/-- Bytes moved to or from the host on behalf of no job: over PCIe, or in device DRAM in embedded mode (R492, R60). -/
def State.unattributedHost (s : State) (n : Nat) : State := s.unattributed (if s.emb then 4 else 5) n

/-! ### The outbound mailbox (R56 to R59) -/

def mboxBytes (type seq : Nat) (payload : Bytes) : Bytes :=
  toLe 1 type ++ [0] ++ toLe 2 payload.length ++ toLe 4 seq ++ payload

/-- The payload of a message; an ERROR_RECORD carries its record, with PHASE 1 (DESIGN CHOICE, assumption 8). -/
def MboxMsg.body (m : MboxMsg) : Bytes :=
  match m.err with
  | some r => errRecBytes true r
  | none => m.payload

/-- Write a message into the free outbound mailbox; a message Penuo originates takes the next SEQ now (R56). -/
def Mgt.writeOut (g : Mgt) (m : MboxMsg) : Mgt :=
  match m.seq with
  | some q => { g with outbox := some (mboxBytes m.type q m.body) }
  | none =>
    { g with
      outbox := some (mboxBytes m.type g.origSeq m.body)
      origSeq := (g.origSeq + 1) % 2 ^ 32 }

/-- Bytes or-ed with each other, for the bitmaps of merged COMPLETION_NOTICEs. -/
def orBytes (a b : Bytes) : Bytes := List.zipWith (· ||| ·) a b

/-- Hold a message behind the mailbox, merging and replacing as R59 lays down. -/
def holdMsg (m : MboxMsg) (held : List MboxMsg) : List MboxMsg :=
  if m.type = mtCompletion then
    match held.getLast? with
    | some p =>
      if p.type = mtCompletion then held.dropLast ++ [{ p with payload := orBytes p.payload m.payload }]
      else held ++ [m]
    | none => held ++ [m]
  else if m.type = mtLedger && held.any (·.type = mtLedger) then
    updFirst (·.type = mtLedger) (fun p => { p with payload := m.payload }) held
  else held ++ [m]

/-- Post an outbound message: into the mailbox when it is free, else held behind it. -/
def State.post (s : State) (m : MboxMsg) : State :=
  s.onMgt fun g =>
    match g.outbox with
    | none => g.writeOut m
    | some _ => { g with held := holdMsg m g.held }

/-! ### Doorbells (R69 to R76) -/

def recOf : RingId → Nat
  | .sq n => n
  | .cq n => 64 + n
  | .err => 128
  | .ldg => 129

def ringOf (rec : Nat) : Option RingId :=
  if rec < 64 then some (.sq rec)
  else if rec < 128 then some (.cq (rec - 64))
  else if rec = 128 then some .err
  else if rec = 129 then some .ldg
  else none

/-- The control register of a ring. -/
def ringCtrl : RingId → Nat
  | .sq n => rRingSqCtrl n
  | .cq n => rRingCqCtrl n
  | .err => rRingErrCtrl
  | .ldg => rRingLdgCtrl

def ringValid : RingId → Bool
  | .sq n => n < 64
  | .cq n => n < 64
  | _ => true

/-- The base address of a ring. -/
def State.ringBase (s : State) : RingId → Nat
  | .sq n => s.regPair (rRingSqBaseLo n) (rRingSqBaseHi n)
  | .cq n => s.regPair (rRingCqBaseLo n) (rRingCqBaseHi n)
  | .err => s.regPair rRingErrBaseLo rRingErrBaseHi
  | .ldg => s.regPair rRingLdgBaseLo rRingLdgBaseHi

def State.ringEn (s : State) (r : RingId) : Bool := s.regB (ringCtrl r) 0

/-- Entries of a ring: 2^LOG2_SIZE. -/
def State.entries (s : State) (r : RingId) : Nat := 2 ^ s.regF (ringCtrl r) 1 4

def SqRing.empty : SqRing := ⟨0, 0, false, false, false, []⟩
def ProdRing.empty : ProdRing := ⟨0, 0, false, false, false⟩
def CqRing.empty : CqRing := ⟨ProdRing.empty, []⟩

def State.sq (s : State) (n : Nat) : SqRing := s.rings.sqs.getD n SqRing.empty
def State.cq (s : State) (n : Nat) : CqRing := s.rings.cqs.getD n CqRing.empty

def State.onSq (s : State) (n : Nat) (f : SqRing → SqRing) : State :=
  s.onRings fun r => { r with sqs := r.sqs.modify n f }

def State.onCq (s : State) (n : Nat) (f : CqRing → CqRing) : State :=
  s.onRings fun r => { r with cqs := r.cqs.modify n f }

/-- The produced ring of an id; a submission ring has none. -/
def State.prod (s : State) : RingId → ProdRing
  | .sq _ => ProdRing.empty
  | .cq n => (s.cq n).ring
  | .err => s.rings.errRing
  | .ldg => s.rings.ldgRing

def State.onProd (s : State) (r : RingId) (f : ProdRing → ProdRing) : State :=
  match r with
  | .sq _ => s
  | .cq n => s.onCq n fun c => { c with ring := f c.ring }
  | .err => s.onRings fun g => { g with errRing := f g.errRing }
  | .ldg => s.onRings fun g => { g with ldgRing := f g.ldgRing }

/-- The modulus of a ring's free-running counts (R72). -/
def State.countMod (s : State) (r : RingId) : Nat := 2 ^ 16 * s.entries r

/-- (a − b) modulo the ring's count modulus. -/
def modSub (m a b : Nat) : Nat := (a % m + m - b % m) % m

/-- Pending descriptors of a submission ring (R72). -/
def State.pendingDescs (s : State) (n : Nat) : Nat := modSub (s.countMod (.sq n)) (s.sq n).host (s.sq n).own

/-- Occupied entries of a produced ring (R72). -/
def State.occupied (s : State) (r : RingId) : Nat := modSub (s.countMod r) (s.prod r).own (s.prod r).host

/-- Issue a doorbell read, or note one more while one is in flight (R75, R76). -/
def State.readDoorbell (s : State) (r : RingId) : State :=
  match r with
  | .sq n =>
    if (s.sq n).reading then s.onSq n fun q => { q with again := true }
    else (s.onSq n fun q => { q with reading := true }).emit (.doorbellRead (recOf r))
  | _ =>
    if (s.prod r).reading then s.onProd r fun q => { q with again := true }
    else (s.onProd r fun q => { q with reading := true }).emit (.doorbellRead (recOf r))

def allSqs : List RingId := (List.range 64).map .sq
def allProds : List RingId := (List.range 64).map .cq ++ [.err, .ldg]

/-- Doorbell reads of every enabled submission ring. -/
def State.readAllSqs (s : State) : State :=
  (allSqs.filter s.ringEn).foldl State.readDoorbell s

/-- Doorbell reads of every produced ring last found full (R75). -/
def State.readFullProds (s : State) : State :=
  (allProds.filter fun r => s.ringEn r && (s.prod r).full).foldl State.readDoorbell s

/-- Doorbell reads of every enabled ring, on entry into SERVICE (R75). -/
def State.readAllRings (s : State) : State :=
  ((allSqs ++ allProds).filter s.ringEn).foldl State.readDoorbell s

/-- Entry into SERVICE (R75, R78): every enabled ring's doorbell is read, and the kicks held for it are acted on with it. -/
def State.enterService (s : State) : State :=
  let s := s.goto .service
  let s := s.onRings fun r => { r with sqs := r.sqs.map fun q => { q with kickHeld := false } }
  s.readAllRings

/-! ### Jobs -/

def State.job? (s : State) (slot : Nat) : Option Job := s.jobs.find? (·.slot = slot)

def State.jobNum? (s : State) (number : Nat) : Option Job := s.jobs.find? (·.number = number)

def State.onJob (s : State) (slot : Nat) (f : Job → Job) : State :=
  { s with jobs := updFirst (·.slot = slot) f s.jobs }

def State.onJobNum (s : State) (number : Nat) (f : Job → Job) : State :=
  { s with jobs := updFirst (·.number = number) f s.jobs }

def Job.client (j : Job) : Nat := dClient j.desc
def Job.tag (j : Job) : Nat := dTag j.desc

/-- The oldest record of a job that has not been dispatched (R136). -/
def Job.nextIdx (j : Job) : Nat := ((j.walked.head?).map (·.1)).getD j.walkIdx

/-- A job that still works: not ended and not being torn down. -/
def Job.alive (j : Job) : Bool := j.phase ≠ .ended && j.phase ≠ .teardown

/-- The kept page-sides of a job whose job-end record is written become claimable, held from now on (R133, R134). -/
def State.holdKept (s : State) (number : Nat) : State :=
  s.onAcc fun a =>
    { a with
      held := a.held.map fun h =>
        if h.jobNumber = number && !h.captured && !h.claimable then { h with claimable := true, order := a.heldCount } else h
      heldCount := a.heldCount + 1 }

/-- The job has taken more than BUDGET arithmetic cycles since its admission (R482). -/
def State.late (s : State) (j : Job) : Bool := j.admission.any fun a => decide (s.arithNow - a.1 > a.2)

/-- Free a job slot: its job-end record is written. An LC job past its budget is counted then (R482). -/
def State.freeSlot (s : State) (slot : Nat) : State :=
  match s.job? slot with
  | some j =>
    let s := if s.late j then s.bumpSat rSchRefused 16 16 1 else s
    { s.holdKept j.number with jobs := s.jobs.filter (·.slot ≠ slot) }
  | none => s

/-! ### Completion records -/

/-- The agreed RONVEL_HI (R64). -/
def State.ronvelHi (s : State) : Nat := s.regF rHlkVerAgree0 8 8
def State.ronvelLo (s : State) : Nat := s.regF rHlkVerAgree0 0 8

/-- PHASE of the next record of a produced ring (R98). -/
def State.phase (s : State) (r : RingId) : Bool := (s.prod r).own / s.entries r % 2 = 0

/-- The interrupt after a completion record (R100); in embedded mode MGT_INT_STATUS.CQ and a COMPLETION_NOTICE. -/
def State.cqInterrupt (s : State) (n : Nat) (jobEnd : Bool) : State :=
  let mode := s.regF (rRingCqCtrl n) 5 2
  if mode = 2 || (mode = 1 && jobEnd) then
    if s.emb then (s.mgtInt 0).post ⟨mtCompletion, none, toLe 8 (2 ^ n), none⟩
    else s.msix (s.regF (rRingCqCtrl n) 7 6)
  else s

/-- Write a completion record to ring `n` (R68, R98, R100); a sequence record lets its sequence slots go (R456), a job-end record
frees its job slot and causes the doorbell reads of R75. -/
def State.writeCq (s : State) (n : Nat) (r : CqRec) : State :=
  let ring := RingId.cq n
  let own := (s.prod ring).own
  let a := s.ringBase ring + (own % s.entries ring) * 32
  let s1 := s.hostWrite a (cqRecBytes s.ronvelHi (s.phase ring) r) false
  let s2 := s1.onProd ring fun p => { p with own := (own + 1) % s.countMod ring }
  let jobEnd := decide (r.flags.testBit 14)
  let s3 := (s2.cqInterrupt n jobEnd).chargePcie r.client 32
  let s4 := if jobEnd then s3 else s3.charge { Account.zero r.client with pages := 1 }
  let s4 := match r.ofPage with
    | some p => s4.releasePage p.1 p.2
    | none => s4
  let s5 := match r.frees with
    | some slot => s4.freeSlot slot
    | none => s4
  if jobEnd then (s5.readAllSqs).readFullProds else s5

/-- Hand a completion record to ring `n`: written, or held in order behind a full ring (R96, R99). -/
def State.postCq (s : State) (n : Nat) (r : CqRec) : State :=
  if (s.cq n).held ≠ [] || s.occupied (.cq n) ≥ s.entries (.cq n) then
    s.onCq n fun c => { c with held := c.held ++ [r], ring := { c.ring with full := true } }
  else s.writeCq n r

/-- Write held completion records while there is room (R99); `fuel` bounds their number. -/
def State.flushCq : Nat → State → Nat → State
  | 0, s, _ => s
  | fuel + 1, s, n =>
    match (s.cq n).held with
    | [] => s.onProd (.cq n) fun p => { p with full := false }
    | r :: rest =>
      if s.occupied (.cq n) ≥ s.entries (.cq n) then s
      else State.flushCq fuel ((s.onCq n fun c => { c with held := rest }).writeCq n r) n

/-- The ring that takes a descriptor's records: its CQ, or ERR_CQ of its submission ring when that CQ is not enabled (R83). -/
def State.cqFor (s : State) (sq : Nat) (d : Bytes) : Nat :=
  if dCq d < 64 && s.ringEn (.cq (dCq d)) then dCq d else s.regF (rRingSqCtrl sq) 15 6

/-- A job-end record. -/
def jobEndRec (sq : Nat) (d : Bytes) (status flags amount sat zc slowdown detail : Nat) (frees : Option Nat) : CqRec :=
  { sample := 0, tag := dTag d, status := status, flags := flags ||| flJobEnd, amount := amount, index := 0xFFFF,
    sq := sq, client := dClient d, sat := sat, zc := zc, slowdown := slowdown, detail := detail % 65536, frees := frees,
    ofPage := none }

/-- A tensor's quantisation entry in the job's folio (R226). -/
def State.quantEntry (s : State) (j : Job) (tensor : Nat) : Bytes :=
  match s.fol.folios.find? (·.handle = dFolio j.desc) with
  | some f => f.quant.getD tensor []
  | none => []

/-- A tensor is suspect at the job's end (R232). -/
def State.suspect (s : State) (j : Job) (c : TensorCount) : Bool :=
  let q := s.quantEntry j c.tensor
  let satT := u8 q 12
  let zcT := u8 q 13
  (decide (satT ≠ 0) && decide (c.sat * 2 ^ satT > c.elems)) || (decide (zcT ≠ 0) && decide (c.zc * 2 ^ zcT > c.elems))

/-- SLOWDOWN of R495. -/
def Job.slowdown (j : Job) : Nat :=
  if j.runs = 0 || j.sumS = 0 then 0 else min 0xFFFF (256 * j.sumM / j.sumS)

/-- The job-end record of a job in a slot, with the counts of R233 unless R234 leaves them out. It is formed once: the job is
then ended and keeps its slot until the record is written (R92, R99). -/
def State.endJob (s : State) (slot status extraFlags amount detail : Nat) : State :=
  match s.job? slot with
  | none => s
  | some j =>
    let silent := decide (status ∈ [stContextFault, stCancelled, stSwapExhausted])
    let counts := if silent then [] else j.counts
    let sat := (counts.map (·.sat)).sum
    let zc := (counts.map (·.zc)).sum
    let bad := (counts.filter (s.suspect j)).map (·.tensor)
    let flags := extraFlags ||| (if bad ≠ [] then flScaleSuspect else 0) ||| (if sat ≠ 0 then flSaturation else 0)
      ||| (if zc ≠ 0 then flZeroCollapse else 0) ||| (if j.degenerate && !silent then flDegenerate else 0)
    let det :=
      if bad ≠ [] && status = stOk then
        bad.foldl min (bad.headD 0) % 32768 + (if bad.length > 1 then 32768 else 0)
      else detail
    let s := s.onJob slot fun j => { j with phase := .ended }
    s.postCq (s.cqFor j.sq j.desc)
      (jobEndRec j.sq j.desc status flags amount (min sat 0xFFFF) (min zc 0xFFFF)
        (if dOp j.desc = opRun then j.slowdown else 0) det (some slot))

/-- A sequence record of a RUN job (R93): written once per sequence (R97). -/
def State.seqRecord (s : State) (slot idx sample status flags amount detail : Nat) : State :=
  match s.job? slot with
  | none => s
  | some j =>
    if !j.alive || idx ∈ j.ended then s
    else
      let s := s.onJob slot fun j => { j with seqRecs := j.seqRecs + 1, ended := idx :: j.ended }
      s.postCq (s.cqFor j.sq j.desc)
        { sample := sample, tag := j.tag, status := status, flags := flags, amount := amount, index := idx, sq := j.sq,
          client := j.client, sat := 0, zc := 0, slowdown := 0, detail := detail, frees := none,
          ofPage := some (j.number, idx) }

/-! ### Error records (R105 to R107, R551 to R559) -/

/-- T of R557. -/
def State.lastingT (s : State) : Nat :=
  let t := s.regF rErrCtrl 0 4
  if t < 2 then 4 else t

/-- 2^W_LOG2 of R557. -/
def State.lastingW (s : State) : Nat :=
  let w := s.regF rErrCtrl 4 5
  2 ^ (if 10 ≤ w && w ≤ 24 then w else 20)

/-- 2^SUMMARY_LOG2 of R556. -/
def State.summaryGap (s : State) : Nat :=
  let w := s.regF rErrCtrl 9 4
  2 ^ (if 6 ≤ w && w ≤ 15 then w else 10)

/-- Set the lasting mark of a unit (R558): its carrel bit, or its bay, wing or chip bit. -/
def State.markLasting (s : State) (u : Nat) : State :=
  match uaLevel u with
  | 0 => s.flag (rErrLastingC (uaFlatCarrel u / 32)) (uaFlatCarrel u % 32)
  | 1 => s.flag rErrLastingU (uaFlatBay u)
  | 2 => s.flag rErrLastingU (24 + uaWing u)
  | _ => s.flag rErrLastingU 28

/-- The newest event of a pair. -/
def ErrPair.newest (p : ErrPair) : Nat := p.times.headD 0

/-- The pair whose newest event is oldest, which a new pair replaces in a full history (R559). -/
def oldestPair : List ErrPair → Option ErrPair
  | [] => none
  | p :: l =>
    match oldestPair l with
    | none => some p
    | some q => some (if p.newest ≤ q.newest then p else q)

/-- Note one event in the history (R557 to R559): answers the pair before the event (new ones with no times), whether this
event makes it lasting, and the state. -/
def State.noteEvent (s : State) (u kind : Nat) : (ErrPair × Bool) × State :=
  let p := (s.err.pairs.find? fun p => p.unit = u && p.kind = kind).getD ⟨u, kind, [], false, 0, 0⟩
  let known := s.err.pairs.any fun p => p.unit = u && p.kind = kind
  let t := s.lastingT
  let becomes := !p.lasting &&
    (match p.times[t - 2]? with
     | some old => decide (s.aoTime - old < s.lastingW)
     | none => false)
  let full := !known && decide (s.err.pairs.length ≥ 256)
  let others := s.err.pairs.filter fun q => !(q.unit = u && q.kind = kind)
  let kept := if full then
      match oldestPair others with
      | some o => others.erase o
      | none => others
    else others
  let p' := { p with times := (s.aoTime :: p.times).take (t - 1), lasting := p.lasting || becomes }
  let s := s.onErr fun e => { e with pairs := kept ++ [p'] }
  let s := if full then s.flag rErrStatus 1 else s
  let s := if p'.lasting then s.markLasting u else s
  ((p, becomes), s)

/-- Update the summary fields of a pair (R556). -/
def State.onPair (s : State) (u kind : Nat) (f : ErrPair → ErrPair) : State :=
  s.onErr fun e => { e with pairs := updFirst (fun p => p.unit = u && p.kind = kind) f e.pairs }

/-- The next NUMBER, which skips 0 (R105). -/
def nextNumber (n : Nat) : Nat := if n + 1 ≥ 2 ^ 32 then 1 else n + 1

/-- Same unit, kind and severity: records that merge (R106). -/
def ErrRec.same (a b : ErrRec) : Bool := a.unit = b.unit && a.kind = b.kind && a.severity = b.severity

/-- A new event merges into a held record: COUNT adds up and MERGED is set (R106). LASTING is or-ed, and CONTEXT, CLIENT, SQ, TAG and
DETAIL stay those of the held record, of which R106 says nothing (DESIGN CHOICE, assumption 23). -/
def ErrRec.merge (held new : ErrRec) : ErrRec :=
  { held with count := held.count + new.count, merged := true, lasting := held.lasting || new.lasting }

/-- Room in a list of held records for one more of a severity: 64 corrected, 256 others (R106). -/
def roomFor (held : List ErrRec) (sev : Nat) : Bool :=
  if sev = sevCorrected then decide ((held.filter (·.severity = 0)).length < 64)
  else decide ((held.filter (·.severity ≠ 0)).length < 256)

/-- The records held at present: behind the mailbox in embedded mode, else for the error ring. -/
def State.heldErrs (s : State) : List ErrRec := if s.emb then s.mgt.held.filterMap (·.err) else s.err.held

/-- The error ring cannot take a record now: disabled, full, or records wait ahead. -/
def State.errRingBlocked (s : State) : Bool :=
  !s.ringEn .err || s.err.held ≠ [] || decide (s.occupied .err ≥ s.entries .err)

/-- Write one record to the error ring (R68, R98, IRQ_EN), and show its NUMBER in ERR_NUMBER. -/
def State.writeErr (s : State) (r : ErrRec) : State :=
  let own := (s.prod .err).own
  let a := s.ringBase .err + (own % s.entries .err) * 32
  let s1 := s.hostWrite a (errRecBytes (s.phase .err) r) false
  let s2 := s1.onProd .err fun p => { p with own := (own + 1) % s.countMod .err }
  let s3 := (s2.setRegF rErrNumber 0 32 r.number).unattributedHost 32
  if s3.regB rRingErrCtrl 11 then s3.msix (s3.regF rRingErrCtrl 5 6) else s3

/-- Merge a record into the held ERROR_RECORD message of the same unit, kind and severity (R59). -/
def mergeMsgs (r : ErrRec) : List MboxMsg → List MboxMsg :=
  updFirst (fun m => m.err.any r.same) (fun m => { m with err := m.err.map (·.merge r) })

/-- A record meets held records: it merges into one, is held, is dropped with ERR_LOST when corrected, or stops fetching
(R106, R107). A merged event takes no NUMBER; every other takes the next, which is why the record is built from a number. -/
def State.holdErr (s : State) (mk : Nat → ErrRec) : State :=
  let r := mk (nextNumber s.err.number)
  if s.heldErrs.any r.same then
    if s.emb then
      s.onMgt fun g => { g with held := mergeMsgs r g.held }
    else s.onErr fun e => { e with held := updFirst r.same (·.merge r) e.held }
  else
    let s := s.onErr fun e => { e with number := r.number }
    if roomFor s.heldErrs r.severity then
      if s.emb then s.onMgt fun g => { g with held := g.held ++ [⟨mtErrorRecord, none, [], some r⟩] }
      else s.onErr fun e => { e with held := e.held ++ [r] }
    else if r.severity = sevCorrected then s.flag rRingStatus 3
    else s.onErr fun e => { e with stuck := e.stuck ++ [r] }

/-- Issue a record: to the error ring, or to the mailbox in embedded mode (R60), or held (R106). -/
def State.issueRec (s : State) (mk : Nat → ErrRec) : State :=
  if s.emb then
    match s.mgt.outbox with
    | none =>
      let r := mk (nextNumber s.err.number)
      ((s.onErr fun e => { e with number := r.number }).setRegF rErrNumber 0 32 r.number).onMgt fun g =>
        g.writeOut ⟨mtErrorRecord, none, [], some r⟩
    | some _ => s.holdErr mk
  else if s.errRingBlocked then
    (s.onProd .err fun p => { p with full := decide (s.occupied .err ≥ s.entries .err) }).holdErr mk
  else
    let r := mk (nextNumber s.err.number)
    (s.onErr fun e => { e with number := r.number }).writeErr r

/-- NUMBER `a` was given before NUMBER `b`: the count wraps, and far fewer records wait than half of it. -/
def numberBefore (a b : Nat) : Bool := decide (modSub (2 ^ 32) b a < 2 ^ 31) && decide (a ≠ b)

/-- A record takes its place among held ones in order of NUMBER (R107). -/
def insertErr (r : ErrRec) : List ErrRec → List ErrRec
  | [] => [r]
  | h :: l => if numberBefore r.number h.number then r :: h :: l else h :: insertErr r l

/-- The same behind the outbound mailbox, whose messages leave in the order they were produced (R59). -/
def insertMsg (r : ErrRec) : List MboxMsg → List MboxMsg
  | [] => [⟨mtErrorRecord, none, [], some r⟩]
  | m :: l =>
    if m.err.any fun h => numberBefore r.number h.number then ⟨mtErrorRecord, none, [], some r⟩ :: m :: l
    else m :: insertMsg r l

/-- Records that stopped fetching move into room that has returned (R107, R59). -/
def State.unstick : Nat → State → State
  | 0, s => s
  | fuel + 1, s =>
    match s.err.stuck with
    | [] => s
    | r :: rest =>
      if roomFor s.heldErrs r.severity then
        let s := s.onErr fun e => { e with stuck := rest }
        State.unstick fuel
          (if s.emb then
            match s.mgt.outbox with
            | none => s.onMgt fun g => g.writeOut ⟨mtErrorRecord, none, [], some r⟩
            | some _ => s.onMgt fun g => { g with held := insertMsg r g.held }
          else s.onErr fun e => { e with held := insertErr r e.held })
      else s

/-- Write held error records while the ring has room, in order of NUMBER (R106); a ring found full is noted (R75). -/
def State.flushErr : Nat → State → State
  | 0, s => s
  | fuel + 1, s =>
    match s.err.held with
    | [] => s.onProd .err fun p => { p with full := false }
    | r :: rest =>
      if !s.ringEn .err then s
      else if s.occupied .err ≥ s.entries .err then s.onProd .err fun p => { p with full := true }
      else State.flushErr fuel (State.unstick 1 ((s.onErr fun e => { e with held := rest }).writeErr r))

/-- Embedded mode begins: the records held for the error ring go the mailbox's way (R60, R59). -/
def State.errsToMailbox (s : State) : State :=
  let rs := s.err.held
  rs.foldl (fun s r =>
      match s.mgt.outbox with
      | none =>
        (s.setRegF rErrNumber 0 32 r.number).onMgt fun g => g.writeOut ⟨mtErrorRecord, none, [], some r⟩
      | some _ => s.onMgt fun g => { g with held := g.held ++ [⟨mtErrorRecord, none, [], some r⟩] })
    (s.onErr fun e => { e with held := [] })

/-! ### What an error stops (R551) -/

/-- A context sits in, or is spilled to, a bay. -/
def Ctx.inBay (c : Ctx) (b : Nat) : Bool := c.bay = b

/-- Job slots of the jobs that hold something in a bay: a context resident or spilled there, with its streams and grants, or a source
plane on its shelf. -/
def State.jobsInBay (s : State) (b : Nat) : List Nat :=
  ((s.sch.ctxs.filter (·.inBay b)).filterMap fun c => (s.jobNum? c.jobNumber).map (·.slot)) ++
    (s.kv.seqs.filter fun q => q.shelfBay = some b).map (·.jobSlot)

/-- Job slots of the jobs that hold something in a wing: anything in one of its bays, or a sequence held by its catalog
unit. -/
def State.jobsInWing (s : State) (w : Nat) : List Nat :=
  ((List.range 6).flatMap fun b => s.jobsInBay (6 * w + b)) ++
    (s.kv.seqs.filter fun q => match q.cat with | some c => c.wing = some w | none => false).map (·.jobSlot)

/-- FOLIO_LOADs before their commit write that run on the cores of wing `w`: those with HANDLE mod 4 = w (R442). -/
def State.loadsOnWing (s : State) (w : Nat) : List Nat :=
  (s.jobs.filter fun j => (j.phase = .loadFetch || j.phase = .loadCommit) && dFolio j.desc % 4 = w).map (·.slot)

/-- Mark a job for its teardown (R499), once; DETAIL will name the first record (R501). Its contexts stop at once. -/
def State.chargeJob (s : State) (slot number : Nat) : State :=
  match s.job? slot with
  | none => s
  | some j =>
    if j.alive then
      (s.onJob slot fun j => { j with phase := .teardown, errNumber := number }).onSch fun h =>
        { h with ctxs := h.ctxs.map fun c => if c.jobNumber = j.number then { c with stopped := true } else c }
    else s

/-- Stop a bay or a wing (R551): it takes no work until a reset that reaches it is released. -/
def State.stopUnit (s : State) (u : Nat) : State :=
  s.onSch fun h =>
    if uaLevel u = 2 then { h with stoppedWings := addNew h.stoppedWings (uaWing u) }
    else if uaLevel u = 1 then { h with stoppedBays := addNew h.stoppedBays (uaFlatBay u) }
    else h

/-- A bay takes no work: stopped itself, or in a stopped wing (R551). -/
def State.bayStopped (s : State) (b : Nat) : Bool := b ∈ s.sch.stoppedBays || b / 6 ∈ s.sch.stoppedWings

/-- Job slots of the jobs that hold anything in the unit that a unit-fatal error stops; a load holds the wing whose cores run it. -/
def State.jobsInUnit (s : State) (u : Nat) : List Nat :=
  if uaLevel u = 2 then s.jobsInWing (uaWing u) ++ s.loadsOnWing (uaWing u)
  else if uaLevel u = 1 then s.jobsInBay (uaFlatBay u)
  else []

/-- The consequence of an error record with NUMBER `n` (R551, R555, R27, R31). A forced unit is already in reset. -/
def State.consequence (s : State) (sev : Nat) (ev : ErrEvent) (n : Nat) : State :=
  if sev = sevCorrected then s
  else if sev = sevContained then
    match ev.job with
    | some slot => s.chargeJob slot n
    | none => s
  else if sev = sevUnitFatal then
    let slots := (s.jobsInUnit ev.unit ++ ev.job.toList).eraseDups
    let s := if ev.kind = ekForcedReset then s else s.stopUnit ev.unit
    slots.foldl (fun s k => s.chargeJob k n) s
  else
    let s := s.flag rErrStatus 0
    let s := (s.jobs.map (·.slot)).foldl (fun s k => s.chargeJob k n) s
    if s.dev.state.serves then
      let s := if s.dev.req.isSome then s.sysEvent 9 else s
      let s := if s.dev.state = .recovery then s.onDev fun d => { d with req := none } else s.goto .recovery
      (s.onDev fun d => { d with fatalEntry := true }).mgtInt 3
    else s

/-- Form the record of a detected event and act on its severity: the one operation every error goes through (R551 to R559).
A corrected event gives a record when it is the first of a pair that is not tracked yet, when the summary gap has passed, or when it makes the pair
lasting (R556). -/
def State.reportError (s : State) (ev : ErrEvent) : State :=
  let s0 := s
  let j := ev.job.bind s.job?
  let sev := severityOf ev.kind ev.job.isSome
  let noted := s.noteEvent ev.unit ev.kind
  let p := noted.1.1
  let becomes := noted.1.2
  let s := noted.2
  let first := !(s0.err.pairs.any fun q => q.unit = ev.unit && q.kind = ev.kind)
  let due := first || becomes || decide (s.aoTime - p.lastRecord ≥ s.summaryGap)
  let count := if sev = sevCorrected then p.since + 1 else 1
  if sev = sevCorrected && !due then s.onPair ev.unit ev.kind fun q => { q with since := q.since + 1 }
  else
    let mk := fun number : Nat =>
      ({ severity := sev, unit := ev.unit, kind := ev.kind, lasting := p.lasting || becomes, merged := false,
         count := count, context := ev.context.getD 0xFFFF, client := (j.map Job.client).getD 0,
         sq := (j.map (·.sq)).getD 0xFF, tag := (j.map Job.tag).getD 0, number := number,
         detail := ev.detail } : ErrRec)
    let blocked := if s.emb then s.mgt.outbox.isSome else s.errRingBlocked
    let into := if blocked then (s.heldErrs.find? (mk 0).same).map (·.number) else none
    let s := s.issueRec mk
    let s := s.onPair ev.unit ev.kind fun q => { q with lastRecord := s.aoTime, since := 0 }
    let n := into.getD s.err.number
    s.consequence sev ev n

/-- A summary starts its way up (R552): the contexts of the job charged stop in the cycle of detection. -/
def State.raise (s : State) (ev : ErrEvent) : State :=
  let s := s.onErr fun e => { e with pending := e.pending ++ [ev] }
  match ev.job.bind s.job? with
  | some j =>
    if severityOf ev.kind true = sevCorrected then s
    else s.onSch fun h =>
      { h with ctxs := h.ctxs.map fun c => if c.jobNumber = j.number then { c with stopped := true } else c }
  | none => s

end Sys2Proof.Machine
end

