-- ==== Sys2Proof/Machine/Boot.lean ====
section
/-! DEFINITION. Penuo images, flash slots and the boot ROM (R63, R574 to R578), host boot (R43, R575) and the recovery loader
(R522, R523). -/

namespace Sys2Proof.Machine

/-! ### Flash layout (R63) -/

def dirCopy0 : Nat := 0
def dirCopy1 : Nat := 0x10000

def State.slotBase (s : State) (b : Bool) : Nat := if b then s.sec.flashBytes / 2 else 0x100000

/-- Bytes of the smaller slot (R63, R574): A runs from 0x10_0000 to half the device, B from there to its end. -/
def State.smallSlot (s : State) : Nat := s.sec.flashBytes / 2 - 0x100000

def State.flashRead (s : State) (a n : Nat) : Bytes := s.flash.read a n

def State.flashWrite (s : State) (a : Nat) (bs : Bytes) : State := { s with flash := s.flash.write a bs }

/-! ### Images (R574, R575) -/

def imgLength (img : Bytes) : Nat := u32 img 8
def imgSigOff (img : Bytes) : Nat := u32 img 12
def imgSvn (img : Bytes) : Nat := u8 img 5

/-- The header of a Penuo image holds (R574). -/
def State.imgHeader (s : State) (img : Bytes) : Bool :=
  decide (u32 img 0 = 0x554E4550) && decide (u8 img 4 = 0x10) && decide (imgSvn img ≤ 64) && !nonZero img 6 2 &&
    decide (imgLength img % 64 = 0) && decide (imgLength img ≤ s.smallSlot) && decide (imgSigOff img % 64 = 0) &&
    decide (imgSigOff img ≥ 64) && decide (imgLength img = roundUp (imgSigOff img + 776) 64) && !nonZero img 24 40

/-- Header, presented length and signature hold: R575 without the SVN. -/
def State.imgSigned (s : State) (img : Bytes) (presented : Nat) : Bool :=
  s.imgHeader img && decide (imgLength img = presented) &&
    (let block := sliceB img (imgSigOff img) 776
     decide (u8 block 0 = 0) && s.verify block (img.take (imgSigOff img)))

/-- An image is acceptable (R575). -/
def State.imgOk (s : State) (img : Bytes) (presented : Nat) : Bool :=
  s.imgSigned img presented && decide (imgSvn img ≥ s.rollback)

/-! ### The directory (R576) -/

/-- A commit record of a slot is valid (R576). -/
def recordValid (b : Bool) (r : Bytes) : Bool :=
  decide (u32 r 0 = 0x52494450) && decide (u8 r 4 = b2n b) && decide (u8 r 5 = 0x5A) && decide (u32 r 60 = crc32c (r.take 60))

/-- The valid records of a slot in both copies. -/
def State.slotRecords (s : State) (b : Bool) : List Bytes :=
  ([dirCopy0, dirCopy1].map fun d => s.flashRead (d + 64 * b2n b) 64).filter (recordValid b)

/-- The slot's record of highest SEQ, when the slot is committed. -/
def State.slotRecord (s : State) (b : Bool) : Option Bytes :=
  (s.slotRecords b).foldl (fun best r => match best with
    | none => some r
    | some q => if u32 q 8 < u32 r 8 then some r else some q) none

/-- The highest valid SEQ in either copy, 0 when there is none. -/
def State.highSeq (s : State) : Nat := maxNat ((s.slotRecords false ++ s.slotRecords true).map fun r => u32 r 8)

def commitRecord (b : Bool) (seq length svn : Nat) (digest : Bytes) : Bytes :=
  let r := toLe 4 0x52494450 ++ [BitVec.ofNat 8 (b2n b), 0x5A] ++ zeros 2 ++ toLe 4 seq ++ toLe 4 length ++
    toLe 1 svn ++ zeros 3 ++ digest ++ zeros 8
  r ++ toLe 4 (crc32c r)

/-- Rewrite both copies without a record for a slot, the copy at 0x0001_0000 first (R522, R578): the record's bytes become
erased bytes. -/
def State.dropRecord (s : State) (b : Bool) : State :=
  (s.flashWrite (dirCopy1 + 64 * b2n b) (List.replicate 64 0xFF)).flashWrite (dirCopy0 + 64 * b2n b)
    (List.replicate 64 0xFF)

/-- Write a slot's record to the copy at 0x0001_0000, then to the copy at 0x0000_0000 (R523, R578). -/
def State.putRecord (s : State) (b : Bool) (r : Bytes) : State :=
  (s.flashWrite (dirCopy1 + 64 * b2n b) r).flashWrite (dirCopy0 + 64 * b2n b) r

/-! ### Booting (R577) -/

/-- The committed slots in the order the boot ROM tries them: descending SEQ, A first when equal. -/
def State.bootOrder (s : State) : List (Bool × Bytes) :=
  match s.slotRecord false, s.slotRecord true with
  | some a, some b => if u32 a 8 ≥ u32 b 8 then [(false, a), (true, b)] else [(true, b), (false, a)]
  | some a, none => [(false, a)]
  | none, some b => [(true, b)]
  | none, none => []

/-- A slot passes: its bytes have the record's DIGEST and the image is acceptable. -/
def State.slotPasses (s : State) (b : Bool) (r : Bytes) : Bool :=
  let img := s.flashRead (s.slotBase b) (u32 r 12)
  decide (sha256 img = sliceB r 20 32) && s.imgOk img (u32 r 12)

/-- Penuo is loaded: MS_0 takes the image's digest (R582). -/
def State.loadPenuo (s : State) (src : BootSrc) (img : Bytes) : State :=
  (s.extendMs 0 (sha256 img)).onDev fun d => { d with penuo := some src, hostBoot := false }

/-- Try slots in order; the first that passes boots. `failed` says that a slot of higher SEQ failed (FALLBACK). -/
def State.bootFrom (s : State) : List (Bool × Bytes) → Bool → Option State
  | [], _ => none
  | (b, r) :: rest, failed =>
    if s.slotPasses b r then
      let img := s.flashRead (s.slotBase b) (u32 r 12)
      some (s.loadPenuo { slotB := b, host := false, fallback := failed, svn := imgSvn img } img)
    else s.bootFrom rest true

/-- Step 4 of R515: MS_1 takes the OTP digest; Penuo comes from flash, or the ROM waits for the host (R43, R577). -/
def State.bootStep4 (s : State) : State :=
  let s := (s.extendOtp).onDev fun d => { d with step4 := true }
  let wait := fun s : State => (s.setRegF rHlkBoot 29 2 0).onDev fun d => { d with hostBoot := true }
  if s.link.bootSel = 1 then wait s
  else
    match s.bootFrom s.bootOrder false with
    | some t => t
    | none => if s.link.bootSel = 2 then wait s else s

/-! ### Host boot (R43, R575) -/

/-- HOST_BOOT_GO: GO while the ROM waits, or has rejected an image, starts verification of `length` bytes from window offset
0; a GO while VERIFYING or ACCEPTED is ignored. -/
def State.hostBootGo (s : State) (length : Nat) : State :=
  let st := s.regF rHlkBoot 29 2
  if s.fabricHidden rHlkBoot then s
  else
    let s := s.setRegF rHlkBoot 0 28 length
    if s.dev.hostBoot && s.dev.state = .bringUp && (st = 0 || st = 3) then
      (s.setRegF rHlkBoot 29 2 1).onDev fun d => { d with hostLen := length }
    else s

/-- The DRAM address of window offset 0 (R41). -/
def State.windowBase (s : State) : Nat := s.regF rHlkBar4Base 0 8 * 2 ^ 28

/-- HOST_BOOT_VERIFY_DONE: the image in DRAM from the BAR4 window's start is accepted and runs, or is rejected. -/
def State.hostBootVerifyDone (s : State) : State :=
  if s.dev.hostBoot && s.dev.state = .bringUp && s.regF rHlkBoot 29 2 = 1 then
    let len := s.dev.hostLen
    let img := s.dramRead s.windowBase len
    if s.imgOk img len then
      (s.setRegF rHlkBoot 29 2 2).loadPenuo
        { slotB := false, host := true, fallback := s.link.bootSel = 2 && s.bootOrder ≠ [], svn := imgSvn img } img
    else s.setRegF rHlkBoot 29 2 3
  else s

/-! ### Recovery loader (R522, R523) -/

/-- The slot that does not hold the committed image of highest SEQ, or A when neither is committed. -/
def State.targetSlot (s : State) : Bool :=
  match s.bootOrder with
  | [] => false
  | (b, _) :: _ => !b

/-- MGT_RCV_DATA: one block of 256 bytes at image offset 256 × `block`. Offset 0 starts a new image. A block out of order, or
while PROG_BUSY is 1, is discarded and the image abandoned until the next offset 0. -/
def State.rcvBlock (s : State) (block : Nat) (data : Bytes) : State :=
  if s.sec.rcvBusy then s.onSec fun c => { c with rcvOverrun := true, rcvNext := none }
  else if block = 0 then
    let b := s.targetSlot
    let s := (s.dropRecord b).onSec fun c =>
      { c with rcvNext := some 1, rcvBusy := true, rcvOverrun := false, rcvSeqErr := false, rcvResult := 0, rcvSlotB := b }
    (s.flashWrite (s.slotBase b) data).onDev fun d => { d with bflReset := true }
  else if s.sec.rcvNext = some block then
    (s.flashWrite (s.slotBase s.sec.rcvSlotB + 256 * block) data).onSec fun c =>
      { c with rcvNext := some (block + 1), rcvBusy := true }
  else s.onSec fun c => { c with rcvSeqErr := true, rcvNext := none }

/-- RCV_PROGRAM_DONE: PROG_BUSY clears. -/
def State.rcvProgramDone (s : State) : State := s.onSec fun c => { c with rcvBusy := false }

/-- MGT_RCV_COMMIT: the loader starts reading back `len` bytes; RESULT reads VERIFYING. -/
def State.rcvCommit (s : State) (len : Nat) : State := s.onSec fun c => { c with rcvLen := some len, rcvResult := 1 }

/-- RCV_COMMIT_DONE: the image passes and its record is committed, or RESULT becomes REJECTED. -/
def State.rcvCommitDone (s : State) : State :=
  match s.sec.rcvLen with
  | none => s
  | some len =>
    let b := s.sec.rcvSlotB
    let img := s.flashRead (s.slotBase b) len
    if s.sec.rcvNext.isSome && s.imgOk img len then
      (s.putRecord b (commitRecord b (s.highSeq + 1) len (imgSvn img) (sha256 img))).onSec fun c =>
        { c with rcvLen := none, rcvResult := 2 }
    else s.onSec fun c => { c with rcvLen := none, rcvResult := 3 }

/-- The slot that Penuo was not booted from; after a host boot, the slot of R522. -/
def State.updateSlot (s : State) : Bool :=
  match s.dev.penuo with
  | some p => if p.host then s.targetSlot else !p.slotB
  | none => s.targetSlot

/-- A reset of any reach during a slot update, before its commit point, leaves the target slot uncommitted: a Penuo update's slot has no
record, and the recovery loader's image is abandoned, so that its commit rejects it (R522, R524, R578). -/
def State.abandonUpdate (s : State) : State :=
  let s := s.onSec fun c => { c with rcvNext := none }
  if s.sec.fwu.isSome then s.dropRecord s.updateSlot else s

/-- A Bay or Wing reset, which returns no register to its reset value, ends a Penuo update; no rule states the STATUS that it then reads:
it is free (log entry 19). -/
def State.endUpdate (s : State) : State :=
  let s := s.abandonUpdate
  if s.sec.fwu.isSome then
    let r := s.drawBytes 1
    r.2.onSec fun c => { c with fwu := none, fwuStatus := leNat r.1 % 8 }
  else s

/-! ### Meanings -/

def execHostBootGo (length : Nat) (s : State) : Result := .next (s.whenOn fun s => s.hostBootGo length)
def execHostBootVerifyDone (s : State) : Result := .next (s.whenOn State.hostBootVerifyDone)

def execRcvProgramDone (s : State) : Result := .next (s.whenOn State.rcvProgramDone)

def execRcvCommitDone (s : State) : Result := .next (s.whenOn State.rcvCommitDone)

end Sys2Proof.Machine
end

