-- ==== Sys2Proof/Machine/Ledger.lean ====
section
/-! DEFINITION. The circulation ledger's intervals, records and slow events (chapter 15, R108, R109). -/

namespace Sys2Proof.Machine

/-- E of R493 in pJ over an account's counts, without the carry. -/
def State.energyPj (s : State) (a : Account) : Nat :=
  a.array * s.coef 0 + a.vector * s.coef 1 + a.decode * s.coef 2 + a.catalog * s.coef 3 + a.dram * s.coef 4 +
    a.pcie * s.coef 5 + a.refill * s.coef 6

/-- The carry of a client's account (R493). -/
def State.carry (s : State) (client : Nat) : Nat :=
  ((s.ldg.carries.find? (·.1 = client)).map (·.2)).getD 0

def State.setCarry (s : State) (client v : Nat) : State :=
  s.onLdg fun l => { l with carries := (l.carries.filter (·.1 ≠ client)) ++ [(client, v)] }

/-- The ledger ring cannot take a record now (R109). -/
def State.ldgBlocked (s : State) : Bool :=
  !s.ringEn .ldg || s.ldg.held ≠ [] || decide (s.occupied .ldg ≥ s.entries .ldg)

/-- Write one ledger record (R68, R98), send its interrupt, and in embedded mode post a LEDGER_NOTICE with the new tail. -/
def State.writeLdg (s : State) (h : HeldAccount) : State :=
  let own := (s.prod .ldg).own
  let a := s.ringBase .ldg + (own % s.entries .ldg) * 64
  let s1 := s.hostWrite a (ldgRecBytes (s.phase .ldg) h) false
  let s2 := s1.onProd .ldg fun p => { p with own := (own + 1) % s.countMod .ldg }
  let s3 := (s2.mgtInt 2).unattributedHost 64
  if s3.emb then s3.post ⟨mtLedger, none, toLe 4 ((own + 1) % s.entries .ldg), none⟩
  else if s3.regB rRingLdgCtrl 11 then s3.msix (s3.regF rRingLdgCtrl 5 6)
  else s3

/-- Merge an account into the one held for its client and state, or hold it (R109). -/
def holdAccount (h : HeldAccount) : List HeldAccount → List HeldAccount
  | [] => [{ h with merged := true }]
  | k :: l =>
    if k.acct.client = h.acct.client && k.state = h.state then
      { k with energy := k.energy + h.energy, acct := k.acct.add h.acct } :: l
    else k :: holdAccount h l

/-- Hand a closed account to the ring: written, or held (R109). -/
def State.issueAccount (s : State) (h : HeldAccount) : State :=
  if s.ldgBlocked then
    (s.onProd .ldg fun p => { p with full := decide (s.occupied .ldg ≥ s.entries .ldg) }).onLdg fun l =>
      { l with held := holdAccount h l.held }
  else s.writeLdg h

/-- One account's record at the close of an interval (R486, R493). -/
def State.closeAccount (s : State) (a : Account) : State :=
  let billable := s.ldg.intervalState = .service
  let e := if billable then s.energyPj a + s.carry a.client else 0
  let s := if billable then s.setCarry a.client (e % 10 ^ 6) else s
  s.issueAccount
    { state := s.ldg.intervalState.code, interval := s.regF rLdgInterval 0 32, merged := false, energy := e / 10 ^ 6,
      acct := a }

/-- Close the open interval: one record per client with a count, in ascending client order; the counts restart at 0 (R486). -/
def State.closeInterval (s : State) : State :=
  let accts := s.ldg.accounts
  let s := (accts.filter (!·.isZero)).foldl State.closeAccount s
  s.onLdg fun l => { l with accounts := [] }

/-- AO cycles of an interval that begins now: 2^INTERVAL_LOG2, a value outside 8 to 13 being treated as 13 (R485, R488). -/
def State.intervalLen (s : State) : Nat :=
  let n := s.regF rLdgCtrl 1 4
  2 ^ (if 8 ≤ n && n ≤ 13 then n else 13)

/-- Interval `n` begins, against the state now in force and with the length now asked for (R485, R503). -/
def State.beginInterval (s : State) (n : Nat) : State :=
  (s.setRegF rLdgInterval 0 32 n).onLdg fun l =>
    { l with accounts := [], intervalState := s.dev.state, openedAt := s.aoTime, length := s.intervalLen }

/-- The next interval begins with the next number (R485). -/
def State.openInterval (s : State) : State := s.beginInterval (s.regF rLdgInterval 0 32 + 1)

/-- Write held accounts while the ring has room (R109); a ring found full is noted (R75). -/
def State.flushLdg : Nat → State → State
  | 0, s => s
  | fuel + 1, s =>
    match s.ldg.held with
    | [] => s.onProd .ldg fun p => { p with full := false }
    | h :: rest =>
      if !s.ringEn .ldg then s
      else if s.occupied .ldg ≥ s.entries .ldg then s.onProd .ldg fun p => { p with full := true }
      else State.flushLdg fuel ((s.onLdg fun l => { l with held := rest }).writeLdg h)

/-- LEDGER_INTERVAL_CLOSE: the open interval ends, its length after it began (R485, R486, R488). None runs in STANDBY (R487). -/
def State.ledgerIntervalClose (s : State) : State :=
  if s.regB rLdgCtrl 0 && s.dev.state ≠ .standby then
    ({ s with aoTime := max s.aoTime (s.ldg.openedAt + s.ldg.length) }).closeInterval.openInterval
  else s

/-- LEDGER_ENABLE: a write that sets EN starts interval 0, or is refused while the ledger ring is not enabled (R485, R503). -/
def State.ledgerEnable (s : State) (v : Word) : State :=
  if !wbit v 0 then s
  else if s.regB rLdgCtrl 0 then s.writeWord rLdgCtrl v
  else if !s.ringEn .ldg then s.flag rLdgCtrl 5
  else (s.writeWord rLdgCtrl v).beginInterval 0

/-- LEDGER_DISABLE: a write that clears EN closes the open interval early (R487). -/
def State.ledgerDisable (s : State) (v : Word) : State :=
  if wbit v 0 then s
  else if s.regB rLdgCtrl 0 then (s.closeInterval).writeWord rLdgCtrl v
  else s.writeWord rLdgCtrl v

/-- LDG_SLOW_POP: remove the oldest slow event (R497). -/
def State.slowPop (s : State) : State := s.onLdg fun l => { l with slow := l.slow.drop 1 }

/-- The energy of unattributed work in µJ (R492). -/
def State.deviceUj (s : State) : Nat := s.ldg.devicePj / 10 ^ 6

/-- LDG_DEVICE_UJ_LO_READ: the low word is returned and the high word latched (R593). -/
def State.deviceUjRead (s : State) : State :=
  let uj := s.deviceUj % 2 ^ 64
  (s.onLdg fun l => { l with latchedHi := uj / 2 ^ 32 }).emit (.bar0Data (BitVec.ofNat 32 uj))

/-- A slow event after a completed run of a job (R496, R497). -/
def State.slowCheck (s : State) (slot : Nat) : State :=
  match s.job? slot with
  | none => s
  | some j =>
    let th := s.regF rLdgSlowCtrl 0 16
    let ratio := if j.sumS = 0 then 0 else 256 * j.sumM / j.sumS
    if th ≠ 0 && decide (ratio ≥ th) && decide (j.runs ≥ s.regF rLdgSlowCtrl 16 4) && !j.slowRaised then
      let s := s.onJob slot fun j => { j with slowRaised := true }
      if s.ldg.slow.length ≥ 16 then s.flag rLdgSlowInfo 28
      else
        let s := s.onLdg fun l => { l with slow := l.slow ++ [⟨min ratio 0xFFFF, j.sq, j.tag⟩] }
        if s.regB rLdgSlowCtrl 26 then s.msix (s.regF rLdgSlowCtrl 20 6) else s
    else s

end Sys2Proof.Machine
end

