-- ==== Sys2Proof/Machine/Reset.lean ====
section
/-! DEFINITION. The reset controller (R504 to R514), bring-up and the start window (R515 to R519), the reset-cause log (R528)
and the resets' effects on every unit. -/

namespace Sys2Proof.Machine

/-! ### Reaches -/

/-- The code of R504. -/
def Reach.code : Reach → Nat
  | .bay _ => 0
  | .wing _ => 1
  | .fabric => 2
  | .warm => 3
  | .cold => 4

/-- The bit of SOURCES (R528). -/
def RstSource.bit : RstSource → Nat
  | .powerOn => 0
  | .brownOut => 1
  | .resetN => 2
  | .watchdog => 3
  | .software => 4
  | .debug => 5
  | .clockFailure => 6
  | .lockUp => 7

/-- A reach covers a unit (R504). -/
def Reach.covers (r : Reach) (u : RstUnit) : Bool :=
  match r, u with
  | .bay b, .bay c => b = c
  | .bay _, _ => false
  | .wing w, .bay c => c / 6 = w
  | .wing w, .wing v => w = v
  | .wing _, _ => false
  | _, _ => true

/-- SUB-coded unit address of a reset unit (R25): a bay or wing as a whole, or the part of the chip. -/
def unitOf : RstUnit → Nat
  | .bay b => unitBay b 31
  | .wing w => unitWing w 31
  | .spine => unitChip 4
  | .accession => unitChip 0
  | .collation => unitChip 1
  | .dramCtl => unitChip 2
  | .pcieApp => unitChip 3

def Rst.unit? (r : Rst) (u : RstUnit) : Option UnitRst := r.units.find? (·.unit = u)

/-- The phase of a unit. -/
def State.phaseOf (s : State) (u : RstUnit) : RstPhase := ((s.rst.unit? u).map (·.phase)).getD .run

def State.onUnit (s : State) (u : RstUnit) (f : UnitRst → UnitRst) : State :=
  s.onRst fun r => { r with units := updFirst (·.unit = u) f r.units }

/-- HS_TIMEOUT, SOURCES and the Reset layout of DETAIL (R554). -/
def sourcesMask (l : List RstSource) : Nat := bitmap (l.map RstSource.bit)

/-! ### What a reset clears -/

/-- Transports after a reset: decommitted, no page-side open, nothing pending; a Fabric reset keeps the counters (R203). Input
levels are the board's. -/
def Transport.cleared (keep : Bool) (t : Transport) : Transport :=
  { Transport.reset with
    pos := if keep then t.pos else 0, page := if keep then t.page else 0, encA := t.encA, encB := t.encB,
    leadActive := t.leadActive, ilkClosed := t.ilkClosed, ilkHeld := keep && t.ilkHeld, encErrs := if keep then t.encErrs else 0 }

def Col.cleared (keep : Bool) (c : Col) : Col :=
  { Col.reset with transports := c.transports.map (Transport.cleared keep) }

/-- The registers that stay after a Fabric reset; the W1C bits of HLK_STATUS reset (R504). -/
def fabricRegs (regs : RegFile) : RegFile :=
  (regs.filter fun e => keptByFabric e.1).map fun e =>
    if e.1 = rHlkStatus then (e.1, e.2 &&& 0xFFFFCFFF#32) else e

/-- Keep the register list canonical after a map: drop entries at their reset value. -/
def canonRegs (regs : RegFile) : RegFile := regs.filter fun e => e.2 ≠ regReset e.1

/-- A committed folio after a Fabric reset: no unload of it is under way. -/
def Folio.settled (f : Folio) : Folio := { f with unloading := false, loaderSlot := none }

/-- Fabric reach (R504, R110, R203, R375, R558): every job ends without a record, every held record is discarded, the fabric's
units lose their state, the concordance is empty; DRAM, committed folios and the kept registers stay. A folio whose unload the reset
ends stays committed and usable (DEDUCED, assumption 44). The open ledger interval
is discarded and the next number begins (R487). -/
def State.fabricClear (s : State) : State :=
  let s := s.abandonUpdate
  let s := { s with
    regs := canonRegs (fabricRegs s.regs)
    rings := Rings.reset
    jobs := []
    acc := { Acc.reset with heldCount := 0 }
    col := s.col.cleared true
    fol := { s.fol with folios := (s.fol.folios.filter Folio.committed).map Folio.settled, shards := [], refills := [] }
    sch := Sch.reset
    kv := Kv.reset
    err := { Errs.reset with number := s.err.number }
    mgt := { s.mgt with held := [] }
    sec := { s.sec with attest := [], otpBusy := none, rbBusy := none, fwu := none, fwuStatus := 0, response := none } }
  let s := s.onLdg fun l => { l with accounts := [], held := [] }
  if s.regB rLdgCtrl 0 then s.openInterval else s

/-- Registers that a Warm reset keeps (R596, R549, R519, R529): PWR_ and CLK_, and the reset-cause log with its head. -/
def keptByWarm (off : Nat) : Bool :=
  (0x1800 ≤ off && off < 0x2000) || off = rRstLogHead || (rRstLog 0 ≤ off && off ≤ rRstLog 15)

/-- Warm reach: every unit outside the always-on domain (R504, R596). Kept are the reset controller and its log, the power and
clock registers, the failed debug responses, the management port's mode and mailboxes (R45, R618). -/
def State.warmClear (s : State) : State :=
  let s := s.abandonUpdate
  { s with
    regs := s.regs.filter fun e => keptByWarm e.1
    dev := { s.dev with
      req := none, power := .active, waking := false, colReady := false, idleFor := 0, locked := 0, domains := 0,
      wdog := none, dramReset := false, selfRefresh := false, bflReset := false, hostBoot := false, penuo := none,
      dramSize := 0, step2 := false, step3Dram := false, step3Link := false, step4 := false, fatalEntry := false }
    link := { Link.reset with perstLow := s.link.perstLow }
    mgt := { s.mgt with dwinBusy := false, dwinOp := none, held := [] }
    rings := Rings.reset
    jobs := []
    acc := Acc.reset
    col := s.col.cleared false
    fol := Fol.reset
    sch := Sch.reset
    kv := Kv.reset
    ldg := Ldg.reset
    err := Errs.reset
    sec := { Sec.reset with
      otp := s.sec.otp, fails := s.sec.fails, challengeCount := s.sec.challengeCount, flashBytes := s.sec.flashBytes }
    dram := [] }

/-- Cold reach: the always-on domain too, except what the brown-out row of R505 keeps (the failed-start count lies in `rst`, the
log in its registers). -/
def State.coldClear (s : State) : State :=
  let w := s.warmClear
  { w with
    regs := w.regs.filter fun e => !(0x1800 ≤ e.1 && e.1 < 0x2000)
    dev := { w.dev with prev := .off, thermArmed := true, step := 0 }
    mgt := Mgt.reset
    sec := { w.sec with fails := 0, challengeCount := 0 } }

/-! ### Sources (R505 to R507) -/

/-- RST_CTRL.HS_TIMEOUT in AO cycles; 0 is treated as 33 (R506). -/
def State.hsTimeout (s : State) : Nat :=
  let n := s.regF rRstCtrl 2 8
  if n = 0 then 33 else n

/-- A unit's transition when a covering source asserts, with the handshake's time (R506). -/
def UnitRst.covered (hs : Nat) (r : Reach) (u : UnitRst) : UnitRst :=
  if r.covers u.unit then
    let warm := r.code ≥ 3
    let phase := match u.phase with
      | .run => if warm then RstPhase.held else .idleReq
      | .idleReq => if warm then .held else .idleReq
      | .forced => .forced
      | .held => .held
      | .releasing => .held
    { u with
      phase := phase, widest := if u.phase = .run then r.code else max u.widest r.code
      left := if u.phase = .run && !warm then hs else u.left }
  else u

/-- The reach of a bring-up that has units left to bring back, 0 for none. In CLOSED_STACKS no bring-up runs. -/
def Rst.cutShort (r : Rst) (prior : DeviceState) : Nat :=
  if prior = .closedStacks then 0
  else ((r.units.filter fun u => decide (u.phase ≠ .run) && decide (u.widest ≥ 3)).map (·.widest)).foldl max 0

/-- The chip-wide episode takes note of a source (R528). One that cuts a bring-up short costs a release of the bring-up's reach,
from its first step (R507). -/
def Rst.note (r : Rst) (src : RstSource) (reach : Reach) (prior : DeviceState) : Rst :=
  if r.epOpen then { r with epSources := addNew r.epSources src, epWidest := max r.epWidest reach.code }
  else if reach.code ≥ 2 then
    { r with epOpen := true, epSources := [src], epWidest := max reach.code (r.cutShort prior), epForced := false, epPrior := prior,
             epFailed := false }
  else r

/-- A start under way ends without START_OK in a way that counts (R518): the count rises, saturating at 7. -/
def State.countStart (s : State) (src : RstSource) (windowExpired : Bool) : State :=
  if s.rst.windowRun && (windowExpired || src = .brownOut || src = .clockFailure || src = .lockUp) then
    s.onRst fun r => { r with starts := min 7 (r.starts + 1), epFailed := true }
  else s

/-- RUN jobs at work whose folio has a list that may run in wing `w` alone (R514, R433). -/
def State.boundToWing (s : State) (w : Nat) : List Nat :=
  (s.jobs.filter fun j =>
    dOp j.desc = opRun && (j.phase = .running || j.phase = .admission) &&
      s.fol.folios.any fun f => f.handle = dFolio j.desc && f.stages.any fun g => g.wingParts = 4 && g.listLen ≠ 0 && decide (w < 4)).map
    (·.slot)

/-- Sources that cover a unit, as SOURCES of R528. -/
def State.sourcesOn (s : State) (u : RstUnit) : Nat := sourcesMask ((s.rst.asserted.filter fun e => e.2.covers u).map (·.1))

/-- The context that a UNIT_RESET record of a job names: its lowest one resident in the unit, else its lowest resident one, by carrel
and slot (DEDUCED, assumption 22). -/
def State.resetCtx (s : State) (slot : Nat) (covered : Nat → Bool) : Option Nat :=
  let mine := s.sch.ctxs.filter fun c => (s.jobNum? c.jobNumber).any (·.slot = slot)
  let at_ := fun l : List Ctx => (l.filterMap fun c => c.place.map fun p => 4 * p.1 + p.2).min?
  (at_ (mine.filter fun c => covered c.bay)).orElse fun _ => at_ mine

/-- The UNIT_RESET events of a Bay or Wing source (R514): one per job that holds something there, or one that names none. -/
def State.unitResetEvents (s : State) (reach : Reach) (fresh : Bool) : State :=
  let go := fun (u : RstUnit) (covered : Nat → Bool) (slots : List Nat) =>
    let detail := reach.code + 8 * s.sourcesOn u
    if slots = [] then if fresh then s.raise ⟨ekUnitReset, unitOf u, none, none, detail⟩ else s
    else slots.foldl (fun s k => s.raise ⟨ekUnitReset, unitOf u, some k, s.resetCtx k covered, detail⟩) s
  match reach with
  | .bay b => go (.bay b) (· = b) (s.jobsInBay b).eraseDups
  | .wing w => go (.wing w) (· / 6 = w) (s.jobsInWing w ++ s.boundToWing w ++ s.loadsOnWing w).eraseDups
  | _ => s

/-- The reserve shelves of bays are empty: their shards leave the directories (R453). -/
def State.dropShards (s : State) (p : Nat → Bool) : State :=
  s.onFol fun g => { g with shards := g.shards.filter fun d => !p d.bay }

/-- Append an entry to the reset-cause log (R528). -/
def State.appendLog (s : State) : State :=
  let r := s.rst
  let entry := sourcesMask r.epSources + 2 ^ 8 * r.epWidest + 2 ^ 11 * b2n r.epFailed + 2 ^ 12 * r.epPrior.code +
    2 ^ 16 * r.starts + 2 ^ 19 * b2n r.epForced + 2 ^ 20 * (r.logSeq % 4096)
  let i := s.regF rRstLogHead 0 4
  let s := (s.setReg (rRstLog i) (BitVec.ofNat 32 entry)).setRegF rRstLogHead 0 4 ((i + 1) % 16)
  let s := if i = 15 then s.flag rRstLogHead 4 else s
  s.onRst fun r => { r with logSeq := r.logSeq + 1 }

/-- N of R519: START_LIMIT, 3 when it is 0. -/
def State.startLimit (s : State) : Nat :=
  let n := s.otpByte 105 % 8
  if n = 0 then 3 else n

/-- The start window in AO cycles, by OTP field START_WINDOW (R517). -/
def State.startWindow (s : State) : Nat :=
  match bitsN (s.otpByte 104) 4 2 with
  | 0 => 2 ^ 16
  | 1 => 2 ^ 17
  | 2 => 2 ^ 18
  | _ => 2 ^ 15

/-- Step 1 of R515: the count is compared with N, the device enters BRING_UP or CLOSED_STACKS, the log takes its entry, and the
start window begins. -/
def State.bringUpStep1 (s : State) : State :=
  let cold := decide (s.rst.epWidest ≥ 4)
  let closed := decide (s.rst.starts ≥ s.startLimit)
  let s := s.goto (if closed then .closedStacks else .bringUp)
  let s := s.onDev fun d =>
    { d with prev := if cold then .off else d.prev, power := if closed then .standby else .active, hostBoot := false,
             penuo := none, step2 := false, step3Dram := false, step3Link := false, step4 := false }
  let s := s.appendLog
  s.onRst fun r =>
    { r with
      epOpen := false
      windowRun := !closed
      windowLeft := if closed then 0 else s.startWindow
      units := r.units.map fun u => { u with phase := if closed then .held else .releasing } }

/-- Sources that are released once every unit they cover is HELD (R505). -/
def RstSource.auto : RstSource → Bool
  | .watchdog => true
  | .software => true
  | .clockFailure => true
  | .lockUp => true
  | _ => false

/-- Release what can be released: automatic sources whose units are all HELD, then every HELD unit that no source covers leaves
HELD for the widest reach of its episode (R506, R507). At the last release of a Warm or Cold episode bring-up begins; at that
of a Fabric episode the log takes its entry (R528). -/
def State.settle (s : State) : State :=
  let r := s.rst
  let done := fun e : RstSource × Reach =>
    e.1.auto && r.units.all fun u => !e.2.covers u.unit || u.phase = .held
  let left := r.asserted.filter fun e => !done e
  let s := s.onRst fun r =>
    { r with asserted := left, reqBusy := r.reqBusy && left.any fun e => e.1 = .software }
  let wide := left.any fun e => decide (e.2.code ≥ 3)
  if s.rst.epOpen && decide (s.rst.epWidest ≥ 3) then
    if wide || left.any (fun e => e.2.code = 2) then s
    else if s.dev.state = .off && s.rst.epWidest < 4 then s
    else s.bringUpStep1
  else
    let free := fun u : UnitRst => u.phase = .held && !(left.any fun e => e.2.covers u.unit)
    let fabricGo := s.rst.epOpen && s.rst.epWidest = 2 && left.all (fun e => e.2.code ≠ 2) &&
      s.rst.units.any (fun u => u.unit = .spine && free u)
    let s := if fabricGo then (s.appendLog).onRst fun r => { r with epOpen := false } else s
    s.onRst fun r =>
      { r with units := r.units.map fun u => if free u && s.dev.state ≠ .closedStacks then { u with phase := .releasing } else u }

/-- Assert a source (R505, R506). Warm and Cold reach clear at once; Fabric reach ends the fabric's work at once (R110, R526);
Bay and Wing reach report the jobs they end (R514) and end a slot update (R524). A transition into STANDBY under way is abandoned (R620). -/
def State.assertSource (s : State) (src : RstSource) (reach : Reach) (windowExpired : Bool) : State :=
  let fresh := s.rst.units.any fun u => reach.covers u.unit && u.phase = .run
  let s := s.onRst fun r => r.note src reach s.dev.state
  let s := if reach.code ≥ 3 then s.countStart src windowExpired else s
  let s := s.onRst fun r =>
    { r with asserted := addNew r.asserted (src, reach), units := r.units.map (UnitRst.covered s.hsTimeout reach) }
  let s :=
    if s.dev.req = some .standby && decide (reach.code ≤ 2) then
      (s.onDev fun d => { d with req := none }).sysEvent 9
    else s
  let s := match reach with
    | .bay b => (s.endUpdate.unitResetEvents reach fresh).dropShards (· = b)
    | .wing w => (s.endUpdate.unitResetEvents reach fresh).dropShards (· / 6 = w)
    | .fabric =>
      if s.rst.fabricRelease then s
      else s.fabricClear.onRst fun r => { r with fabricRelease := decide (s.dev.state ≠ DeviceState.closedStacks) }
    | .warm => s.warmClear.onRst fun r => { r with windowRun := false, fabricRelease := false }
    | .cold => s.coldClear.onRst fun r => { r with windowRun := false, fabricRelease := false }
  s.settle

/-- Release a source whose release is its own event. -/
def State.releaseSource (s : State) (src : RstSource) : State :=
  if s.rst.asserted.any (fun e => e.1 = src) then
    (s.onRst fun r => { r with asserted := r.asserted.filter fun e => e.1 ≠ src }).settle
  else s

/-! ### The handshake (R506, R510, R511) -/

def State.unitIdleAck (s : State) (u : RstUnit) : State :=
  if s.phaseOf u = .idleReq then
    let s := s.onUnit u fun x => { x with phase := .held }
    (if u = .dramCtl then s.onDev fun d => { d with selfRefresh := true } else s).settle
  else s

def State.handshakeTimeout (s : State) (u : RstUnit) : State :=
  if s.phaseOf u = .idleReq then
    (s.onUnit u fun x => { x with phase := .forced }).onRst fun r => { r with epForced := r.epForced || r.epOpen }
  else s

/-- FORCED ends: the unit is HELD and a FORCED_RESET record is due (R511). -/
def State.forcedResetApplied (s : State) (u : RstUnit) : State :=
  if s.phaseOf u = .forced then
    let widest := ((s.rst.unit? u).map (·.widest)).getD 0
    let detail := widest + 8 * s.sourcesOn u
    ((s.onUnit u fun x => { x with phase := .held }).raise ⟨ekForcedReset, unitOf u, none, none, detail⟩).settle
  else s

/-! ### Releases (R512, R515) -/

/-- A bay's own release: the shelf and every scratch unit clear, the bay returns to placement (R512, R264, R551). -/
def State.bayRelease (s : State) (b : Nat) : State :=
  (s.onSch fun h =>
    { h with
      shelves := h.shelves.set b []
      carrels := h.carrels.mapIdx fun i c => if i / 8 = b then Carrel.reset else c
      stoppedBays := h.stoppedBays.filter (· ≠ b) }).onDev fun d => { d with domains := d.domains ||| 2 ^ b }

def State.wingRelease (s : State) (w : Nat) : State :=
  (s.onSch fun h =>
    { h with
      stoppedWings := h.stoppedWings.filter (· ≠ w)
      coreL1 := h.coreL1.mapIdx fun i c => if i / 4 = w then ([], []) else c
      wingL2 := h.wingL2.set w [] }).onDev fun d =>
    { d with domains := d.domains ||| 2 ^ (24 + w) }

/-- BAR4 is present (R40). -/
def State.bar4Present (s : State) (bootSel : Nat) : Bool := bootSel = 1 || bootSel = 2 || bitN (s.otpByte 104) 2

/-- The release of a unit of a Warm or Cold episode: steps 2 to 5 of R515 in their order. A step that is not due yet does
nothing. -/
def State.bringUpUnit (s : State) (u : RstUnit) (boot : BootReport) : State × Bool :=
  match u with
  | .spine =>
    ((s.onDev fun d =>
      { d with step2 := true, locked := 0x1F, domains := d.domains ||| 2 ^ 29 ||| 2 ^ 24, bflReset := true }).onLink fun l =>
      { l with txActive := !l.perstLow }, true)
  | .dramCtl =>
    if s.dev.step2 && !s.dev.step3Dram then
      let s := s.onDev fun d =>
        { d with step3Dram := true, dramSize := min 3 boot.dramSize, dramReset := true, selfRefresh := false }
      (if s.dev.step3Link then s.bootStep4 else s, true)
    else (s, false)
  | .pcieApp =>
    if s.dev.step2 && !s.dev.step3Link then
      let up := decide (boot.speed ≠ 0) && !s.link.perstLow
      let s := (s.onDev fun d => { d with step3Link := true }).onLink fun l =>
        { l with bootSel := boot.bootSel % 4, bar4 := s.bar4Present (boot.bootSel % 4), txActive := !l.perstLow,
                 up := up, speed := if up then boot.speed else 0, width := if up then boot.width else 0 }
      (if s.dev.step3Dram then s.bootStep4 else s, true)
    else (s, false)
  | .accession =>
    if s.dev.penuo.isSome then (s.onDev fun d => { d with domains := d.domains ||| 2 ^ 28 }, true) else (s, false)
  | .collation =>
    if s.dev.penuo.isSome then (s.onDev fun d => { d with domains := d.domains ||| 2 ^ 28, colReady := true }, true)
    else (s, false)
  | .bay b => if s.dev.penuo.isSome then (s.bayRelease b, true) else (s, false)
  | .wing w => if s.dev.penuo.isSome then (s.wingRelease w, true) else (s, false)

/-- UNIT_RELEASE_DONE: a unit's release sequence completes and it returns to RUN (R506, R512). When the last unit of a Fabric
release is back, the release is complete (R513). -/
def State.unitReleaseDone (s : State) (u : RstUnit) (boot : BootReport) : State :=
  if s.phaseOf u = .releasing then
    let widest := ((s.rst.unit? u).map (·.widest)).getD 0
    let r := if widest ≥ 3 then s.bringUpUnit u boot
      else
        match u with
        | .bay b => (s.bayRelease b, true)
        | .wing w => (s.wingRelease w, true)
        | .dramCtl => (s.onDev fun d => { d with selfRefresh := decide (d.state = .standby) }, true)
        | .collation => (s.onDev fun d => { d with colReady := true }, true)
        | _ => (s, true)
    if r.2 then
      let s := r.1.onUnit u fun x => { x with phase := .run }
      if s.rst.fabricRelease && s.rst.units.all (fun x => x.phase = .run) then
        (s.onRst fun r => { r with fabricRelease := false }).onDev fun d =>
          if d.power = .standby then d else { d with power := .active, domains := 0x3FFFFFFF }
      else s
    else s
  else s

/-- START_OK (R516, R27): Penuo runs, the window has not expired, every unit has been released. The failed-start count is 0
and the device goes to SERVICE, or to RECOVERY with FATAL_ENTRY when a device-fatal error was reported. -/
def State.startOk (s : State) : State :=
  if s.dev.state = .bringUp && s.rst.windowRun && s.dev.penuo.isSome && s.rst.units.all (fun u => u.phase = .run) then
    let s := (s.onRst fun r => { r with starts := 0, windowRun := false }).flag rRstStart 0
    if s.regB rErrStatus 0 then
      ((s.goto .recovery).onDev fun d => { d with fatalEntry := true }).mgtInt 3
    else s.enterService
  else s

/-- START_WINDOW_EXPIRY (R518): the count rises and the watchdog asserts at Warm reach. -/
def State.startWindowExpiry (s : State) : State :=
  if s.rst.windowRun then s.assertSource .watchdog .warm true else s

/-! ### Software requests (R509, R530) -/

/-- RST_STATUS.REQ_REFUSED. -/
def State.refuseReset (s : State) : State := s.flag rRstStatus 10

/-- A software reset request, or its refusal (R509, R530). -/
def State.requestReset (s : State) (reach : Reach) : State :=
  let bad := match reach with
    | .bay b => decide (b > 23) || s.dev.state = .bringUp || s.dev.state = .closedStacks
    | .wing w => decide (w > 3) || s.dev.state = .bringUp || s.dev.state = .closedStacks
    | .cold => true
    | _ => false
  if bad || s.rst.reqBusy then s.refuseReset
  else (s.onRst fun r => { r with reqBusy := true }).assertSource .software reach false

/-- A link event of R44 as a software request of Fabric reach, outside embedded mode. In CLOSED_STACKS every unit is HELD already: the
request is released at once, logged, and the part stays there (R521; DEDUCED, assumption 22). -/
def State.linkReset (s : State) : State :=
  if s.emb then s
  else (s.onRst fun r => { r with reqBusy := true }).assertSource .software .fabric false

/-! ### Meanings -/

/-- POWER_ON: VDD_AO rises from absence (R505). The count is 0 and the log is empty (R519, R529). -/
def State.powerOn (s : State) : State :=
  if s.dev.state = .off then
    let s := s.coldClear
    { s with
      regs := []
      dev := { Dev.reset with state := .off, aoFallback := false, thermN := s.dev.thermN }
      rst := Rst.reset }
  else s

/-- POWER_ON_RELEASE (R505, R606): with VDD_CORE or VDD_SRAM low, the brown-out source asserts in the same AO cycle. -/
def State.powerOnRelease (s : State) (coreLow : Bool) : State :=
  if s.rst.asserted.any (fun e => e.1 = .powerOn) then
    let s := if coreLow then
        s.onRst fun r => { r with asserted := addNew r.asserted (.brownOut, .cold), epSources := addNew r.epSources .brownOut }
      else s
    s.releaseSource .powerOn
  else s

/-- VDD_AO_LOST: OFF from any state; what the chip held is gone. The board's flash and the OTP stay. -/
def State.vddAoLost (s : State) : State :=
  let c := s.coldClear
  { c with
    regs := []
    dev := { Dev.reset with state := .off }
    rst := { Rst.reset with asserted := [], epOpen := false, epSources := [] } }

def execStartOk (s : State) : Result := .next (s.whenOn State.startOk)
def execStartWindowExpiry (s : State) : Result := .next (s.whenOn State.startWindowExpiry)
def execPowerOn (s : State) : Result := .next s.powerOn
def execPowerOnRelease (coreLow : Bool) (s : State) : Result := .next (s.powerOnRelease coreLow)
def execVddAoLost (s : State) : Result := .next s.vddAoLost
def execBrownOut (s : State) : Result := .next (s.whenPowered fun s => s.assertSource .brownOut .cold false)
def execBrownOutRelease (s : State) : Result := .next (s.whenPowered fun s => s.releaseSource .brownOut)
def execResetNAssert (s : State) : Result := .next (s.whenPowered fun s => s.assertSource .resetN .warm false)
def execResetNRelease (s : State) : Result := .next (s.whenPowered fun s => s.releaseSource .resetN)

/-- DEBUG_RESET_REQUEST: only while the debug scope for reset requests is unlocked (R505, R587). -/
def execDebugResetRequest (warm : Bool) (s : State) : Result :=
  .next (s.whenOn fun s =>
    if bitN s.sec.scope 2 then s.assertSource .debug (if warm then .warm else .fabric) false else s)

def execDebugResetWithdraw (s : State) : Result := .next (s.whenOn fun s => s.releaseSource .debug)

/-- CLOCK_FAILURE (R543): PLL `pll` is lost, or REF_CLK (5), which unlocks the arithmetic, fabric, core and DRAM PLLs. A PLL
that is not meant to run is not monitored. -/
def State.clockFailure (s : State) (pll : Nat) : State :=
  let lost := if pll = 5 then 0xF else if pll < 5 then 2 ^ pll else 0
  if s.dev.locked &&& lost = 0 then s
  else
    let s := s.setRegF rClkFail 0 5 (s.regF rClkFail 0 5 ||| lost)
    let s := if pll = 5 then s.flag rClkFail 5 else s
    s.assertSource .clockFailure .warm false

/-- LOCK_UP (R505): a wing core or wing-hub port names its wing, unless RST_CTRL.LOCKUP_WARM is 1; any other port is of Warm
reach. -/
def State.lockUp (s : State) (wing : Option Nat) : State :=
  match wing with
  | some w =>
    if w > 3 then s
    else s.assertSource .lockUp (if s.regB rRstCtrl 1 then .warm else .wing w) false
  | none => s.assertSource .lockUp .warm false

def execClockFailure (pll : Nat) (s : State) : Result := .next (s.whenOn fun s => s.clockFailure pll)
def execLockUp (wing : Option Nat) (s : State) : Result := .next (s.whenOn fun s => s.lockUp wing)
def execUnitIdleAck (u : RstUnit) (s : State) : Result := .next (s.whenOn fun s => s.unitIdleAck u)
def execHandshakeTimeout (u : RstUnit) (s : State) : Result := .next (s.whenOn fun s => s.handshakeTimeout u)
def execForcedResetApplied (u : RstUnit) (s : State) : Result := .next (s.whenOn fun s => s.forcedResetApplied u)

/-- WATCHDOG_RESTART (R621). -/
def State.watchdogRestart (s : State) : State :=
  if s.regB rRstWdog 0 && s.dev.state.serves then s.onDev fun d => { d with wdog := some s.wdogPeriod } else s

/-- WATCHDOG_EXPIRY (R621, R505): Fabric reach when RST_CTRL.WDOG_FABRIC is 1, else Warm. -/
def State.watchdogExpiry (s : State) : State :=
  if s.regB rRstWdog 0 && s.dev.state.serves then
    (s.onDev fun d => { d with wdog := some s.wdogPeriod }).assertSource .watchdog
      (if s.regB rRstCtrl 0 then .fabric else .warm) false
  else s

def execWatchdogRestart (s : State) : Result := .next (s.whenOn State.watchdogRestart)
def execWatchdogExpiry (s : State) : Result := .next (s.whenOn State.watchdogExpiry)

end Sys2Proof.Machine
end

