-- ==== Sys2Proof/Machine/Power.lean ====
section
/-! DEFINITION. Device state requests (R27 to R32), power states and waking (R531 to R540), clocks (R541 to R544), temperature
(R545 to R548), and the tick of the always-on clock. -/

namespace Sys2Proof.Machine

/-- Every switched domain on. -/
def allDomains : Nat := 0x3FFFFFFF

/-- The bays' shelves and the reserve shelf's contents are lost when bay domains go off (R533, R531). -/
def State.baysOff (s : State) : State :=
  (s.onSch fun h => { h with shelves := List.replicate 24 [], carrels := List.replicate 192 Carrel.reset }).onFol fun f =>
    { f with shards := [], refills := [] }

/-- The wing cores' memories are lost when the wing domains go off (R531). -/
def State.wingsOff (s : State) : State :=
  s.onSch fun h => { h with coreL1 := List.replicate 16 ([], []), wingL2 := List.replicate 4 [] }

/-! ### Device state requests -/

/-- A transport is capturing: a page-side is open (R27). -/
def State.capturing (s : State) : Bool := s.col.transports.any fun t => t.sides ≠ []

/-- The table of R27 allows a requested transition from the present state, and its condition holds. For STANDBY that is: no job slot
is held at the request. A kick whose doorbell read or descriptor fetch is outstanding holds none yet, so it does not refuse the
request, and `standbyEntryDone` does not look again (DESIGN CHOICE, assumption 28). -/
def State.reqAllowed (s : State) (st : DeviceState) : Bool :=
  match s.dev.state, st with
  | .service, .test => true
  | .recovery, .test => true
  | .test, .service => true
  | .recovery, .service => !s.regB rErrStatus 0
  | .service, .recovery => true
  | .test, .recovery => true
  | .service, .standby => s.jobs = [] && !s.capturing
  | _, _ => false

/-- A SYS_STATE_REQ write (R27, R28, R30): the transition begins with BUSY set, or is refused with REQ_REFUSED. -/
def State.stateReq (s : State) (st : DeviceState) : State :=
  if s.dev.req.isSome || !s.reqAllowed st then s.sysEvent 9
  else s.onDev fun d => { d with req := some st }

/-- STATE_TRANSITION_DONE (R29): a transition other than into STANDBY takes effect. -/
def State.stateTransitionDone (s : State) : State :=
  match s.dev.req with
  | some .service => s.enterService
  | some .test => (s.goto .test).onDev fun d => { d with domains := allDomains }
  | some .recovery => (s.goto .recovery).onDev fun d => { d with fatalEntry := false, domains := allDomains }
  | _ => s

/-- STANDBY_ENTRY_DONE (R536, R487): the open ledger interval closes, the domains go off, DRAM rests in self-refresh. Capture
configurations, references and Penuo's state are saved, so they stay. -/
def State.standbyEntryDone (s : State) : State :=
  if s.dev.req = some .standby then
    let s := if s.regB rLdgCtrl 0 then s.closeInterval else s
    let s := s.baysOff.wingsOff
    (s.goto .standby).onDev fun d =>
      { d with power := .standby, domains := 0, selfRefresh := true, locked := 0, colReady := false, idleFor := 0 }
  else s

/-! ### Waking (R537, R539, R532) -/

/-- Bits of PWR_WAKE_CAUSE. -/
inductive WakeCause where
  | host
  | mgt
  | lead (n : Nat)
  | enc (n : Nat)
  | timer
  deriving DecidableEq, Repr

def WakeCause.bit : WakeCause → Nat
  | .host => 0
  | .mgt => 1
  | .lead n => 2 + n
  | .enc n => 6 + n
  | .timer => 10

/-- The source is enabled in PWR_WAKE_EN; host and management wakes are not maskable (R537). -/
def State.wakeEnabled (s : State) : WakeCause → Bool
  | .host => true
  | .mgt => true
  | .lead n => s.regB rPwrWakeEn n
  | .enc n => s.regB rPwrWakeEn (4 + n)
  | .timer => s.regB rPwrWakeEn 8

/-- An event ends READY_IDLE (R534). -/
def State.exitIdle (s : State) : State :=
  if s.dev.power = .readyIdle then s.onDev fun d => { d with power := .exiting, idleFor := 0 } else s

/-- A wake source fires: it aborts an entry into STANDBY (R32), starts the wake from STANDBY (R539), or ends READY_IDLE (R534);
PWR_WAKE_CAUSE records it, also while the idling ends. A part that is awake has nothing to wake. -/
def State.wake (s : State) (c : WakeCause) : State :=
  if !s.wakeEnabled c then s
  else if s.dev.req = some .standby then
    ((s.onDev fun d => { d with req := none }).sysEvent 10).flag rPwrWakeCause c.bit
  else if s.dev.state = .standby then
    (s.onDev fun d => { d with power := .exiting, waking := true }).flag rPwrWakeCause c.bit
  else if s.dev.power = .readyIdle || s.dev.power = .exiting then (s.flag rPwrWakeCause c.bit).exitIdle
  else s

/-- WAKE_COMPLETE, but for the accesses that waited (R539, R75, R487): the domains are on, the device is in SERVICE, and the
next ledger interval begins. -/
def State.wakeUp (s : State) : State :=
  if s.dev.waking && s.dev.state = .standby then
    let s := s.onDev fun d =>
      { d with waking := false, power := .active, domains := allDomains, selfRefresh := false, locked := 0x1F }
    let s := s.enterService
    if s.regB rLdgCtrl 0 then s.openInterval else s
  else s

/-! ### Ready-idle (R533 to R535) -/

/-- The conditions of R533, whose change ends READY_IDLE (R534): SERVICE, no job slot in use and no record held under R99, R106 or
R109, no page-side open and no calibration, no load, refill, swap or edit application. -/
def State.quiet (s : State) : Bool :=
  s.dev.state = .service && s.jobs = [] && s.rings.cqs.all (fun c => c.held = []) && s.err.held = [] &&
    s.mgt.held.all (·.err.isNone) && s.ldg.held = [] && !s.capturing && s.col.calib = [] && s.fol.refills = [] &&
    !s.kv.seqs.any (·.applying)

/-- The conditions of R533 but for the time they must hold; none is counted while the part idles already, or while a requested
transition or a reset is under way (DESIGN CHOICE, assumption 28). -/
def State.idle (s : State) : Bool :=
  s.regB rPwrIdle 0 && s.quiet && s.dev.power = .active && s.dev.req = none && s.fabricUp

/-- An event that is no access and no wake ends READY_IDLE when it changes a condition of R533 (R534). -/
def State.endsIdle (s : State) (f : State → State) : State :=
  let t := f s
  if s.quiet && !t.quiet then t.exitIdle else t

/-- PWR_IDLE.HOLD; 0 is treated as 33. -/
def State.idleHold (s : State) : Nat :=
  let h := s.regF rPwrIdle 1 8
  if h = 0 then 33 else h

/-- READY_IDLE_ENTRY (R533, R535): the entry completes and the bays' shelves are lost, or an exit event aborts it. -/
def State.readyIdleEntry (s : State) (aborted : Bool) : State :=
  if s.idle && decide (s.dev.idleFor ≥ s.idleHold) then
    if aborted then (s.onDev fun d => { d with idleFor := 0 }).flag rPwrStatus 3
    else
      s.baysOff.onDev fun d =>
        { d with power := .readyIdle, domains := d.domains &&& 0x3F000000, selfRefresh := true, idleFor := 0 }
  else s

/-- READY_IDLE_EXIT_DONE (R534). A request may have moved the device on from SERVICE meanwhile (R27). -/
def State.readyIdleExitDone (s : State) : State :=
  if s.dev.power = .exiting && !s.dev.waking then
    s.onDev fun d => { d with power := .active, domains := allDomains, selfRefresh := false }
  else s

/-! ### The wake counter and clocks -/

/-- WAKE_TIMER_EXPIRY (R540): the counter reaches 0 and stops; it wakes the part if enabled. -/
def State.wakeTimerExpiry (s : State) : State :=
  if s.regF rPwrWakeTimer 0 24 = 0 then s else (s.setRegF rPwrWakeTimer 0 24 0).wake .timer

/-- CLK_ARITH_STEP (R542, R549): ignored outside SERVICE, TEST and RECOVERY, and while locked. 0b11 is treated as 0b00. -/
def State.clkArithStep (s : State) (v : Word) : State :=
  if s.locked then s.access 2 rClkArith
  else if s.dev.state.serves then
    let s := s.writeWord rClkArith v
    s.onDev fun d => { d with step := if wbits v 0 2 = 3 then 0 else wbits v 0 2 }
  else s

/-- AO_CLOCK_FALLBACK (R544): one AO_CLOCK record, until the next power-on. -/
def State.aoClockFallback (s : State) : State :=
  if s.dev.aoFallback then s
  else (s.onDev fun d => { d with aoFallback := true }).raise ⟨ekAoClock, unitChip 7, none, none, 0⟩

/-! ### Temperature -/

/-- The domain that powers a sensor (R545): wing sensors 0 to 3, chip sensors 4 to 7 with the spine, the always-on sensor 8. -/
def State.sensorOn (s : State) (k : Nat) : Bool :=
  if k < 4 then bitN s.dev.domains (24 + k) else if k < 8 then bitN s.dev.domains 29 else k = 8

/-- The highest reading, and the lowest-numbered sensor that gives it. -/
def hottest : List (Nat × Int) → Option (Nat × Int)
  | [] => none
  | p :: l =>
    match hottest l with
    | none => some p
    | some q => some (if p.2 > q.2 || (p.2 = q.2 && p.1 < q.1) then p else q)

/-- TEMP_UPDATE (R545 to R547): TEMP and SENSOR, one warning for each rise through WARN_C, re-armed 5 °C below it; THERM_N low
at 115 °C and released once every sensor reads below 110 °C. Nothing else changes (R548). -/
def State.tempUpdate (s : State) (readings : List (Nat × Int)) : State :=
  let on := readings.filter fun p => s.sensorOn p.1
  match hottest on with
  | none => s
  | some (k, t) =>
    let s := (s.setRegF rPwrThermStatus 0 8 (wrapN 8 t)).setRegF rPwrThermStatus 8 4 k
    let warn := (s.regF rPwrThermCtrl 0 8 : Int)
    let s :=
      if s.dev.thermArmed && decide (t ≥ warn) then
        let s := ((s.onDev fun d => { d with thermArmed := false }).flag rPwrThermStatus 12).mgtInt 4
        if s.regB rPwrThermCtrl 14 then s.msix (s.regF rPwrThermCtrl 8 6) else s
      else if t ≤ warn - 5 then s.onDev fun d => { d with thermArmed := true }
      else s
    s.onDev fun d =>
      { d with thermN := if on.any (fun p => p.2 ≥ 115) then true else if on.all (fun p => p.2 < 110) then false else d.thermN }

/-! ### The tick -/

/-- One AO cycle with no command waiting (DESIGN CHOICE, assumption 2): the AO time advances, the wake counter counts down to 1
(WAKE_TIMER_EXPIRY is its last step), the service watchdog, the start window, the idle handshakes and a self-test's drain count down,
and the idle cycles of R533 are counted. -/
def State.tick (s : State) : State :=
  if s.dev.state = .off then s
  else
    let s := { s with aoTime := s.aoTime + 1 }
    let c := s.regF rPwrWakeTimer 0 24
    let s := if c > 1 then s.setRegF rPwrWakeTimer 0 24 (c - 1) else s
    let s := s.onRst fun r =>
      { r with
        windowLeft := if r.windowRun then r.windowLeft - 1 else r.windowLeft
        units := r.units.map fun u => if u.phase = .idleReq then { u with left := u.left - 1 } else u }
    let s := s.onSch fun h => { h with bistLeft := h.bistLeft - 1 }
    let s := s.onDev fun d => { d with wdog := if s.regB rRstWdog 0 then d.wdog.map (· - 1) else d.wdog }
    s.onDev fun d => { d with idleFor := if s.idle then d.idleFor + 1 else 0 }

/-! ### Register accesses -/

/-- An access to a register of the always-on blocks, from either port: it ends READY_IDLE (R534, R595) and acts at once. -/
def State.whenReg (s : State) (f : State → State) : State := s.whenOn fun s => f s.exitIdle

/-- A host access that waits for SERVICE while the part wakes (R44, R616). -/
def State.hostWaits (s : State) (a : HostAccess) : State :=
  (s.wake .host).onLink fun l => { l with waiting := l.waiting ++ [a] }

/-- A host write of `v` to a register that only BAR0 reaches in STANDBY: there it wakes the part and waits for SERVICE (R595,
R616); in READY_IDLE it ends the idling. -/
def State.whenHost (s : State) (off : Nat) (v : Word) (f : State → State) : State :=
  s.whenOn fun s =>
    if s.dev.state = .standby then s.hostWaits (.write off [(v, 15#4)]) else f s.exitIdle

/-! ### Meanings -/

def execStateReqStandby (s : State) : Result := .next (s.whenReg fun s => s.stateReq .standby)
def execStateReqService (s : State) : Result := .next (s.whenReg fun s => s.stateReq .service)
def execStateReqTest (s : State) : Result := .next (s.whenReg fun s => s.stateReq .test)
def execStateReqRecovery (s : State) : Result := .next (s.whenReg fun s => s.stateReq .recovery)
def execRstReqBay (bay : Nat) (s : State) : Result := .next (s.whenReg fun s => s.requestReset (.bay bay))
def execRstReqWing (wing : Nat) (s : State) : Result := .next (s.whenReg fun s => s.requestReset (.wing wing))
def execRstReqFabric (s : State) : Result := .next (s.whenReg fun s => s.requestReset .fabric)
def execRstReqWarm (s : State) : Result := .next (s.whenReg fun s => s.requestReset .warm)
def execStateTransitionDone (s : State) : Result := .next (s.whenOn State.stateTransitionDone)
def execStandbyEntryDone (s : State) : Result := .next (s.whenOn State.standbyEntryDone)
def execReadyIdleEntry (aborted : Bool) (s : State) : Result := .next (s.whenOn fun s => s.readyIdleEntry aborted)
def execClkArithStep (v : Word) (s : State) : Result := .next (s.whenReg fun s => s.clkArithStep v)

/-- WAKE_TIMER_WRITE (R540): a write starts the counter from its value, or stops it with 0. -/
def execWakeTimerWrite (v : Word) (s : State) : Result := .next (s.whenReg fun s => s.writeWord rPwrWakeTimer v)

def execWakeTimerExpiry (s : State) : Result := .next (s.whenOn State.wakeTimerExpiry)
def execTempUpdate (readings : List (Nat × Int)) (s : State) : Result := .next (s.whenOn fun s => s.tempUpdate readings)
def execAoClockFallback (s : State) : Result := .next (s.whenOn State.aoClockFallback)

/-- SYS_LOCK (R597): LOCK is 1 until a Warm or Cold reset. -/
def execSysLock (s : State) : Result := .next (s.whenReg fun s => s.flag rSysLock 0)

end Sys2Proof.Machine
end

