-- ==== Sys2Proof/Machine/Rings.lean ====
section
/-! DEFINITION. Kicks and doorbells (R74 to R78), fetching (R88 to R91), the beginning of a descriptor (R80 to R83, R619), NOP,
and the ring controls (R111 to R114). -/

namespace Sys2Proof.Machine

/-! ### Kicks -/

/-- A kick of rings in the present device state (R75, R78): held in STANDBY and BRING_UP, discarded in CLOSED_STACKS; else the
doorbells of the enabled ones and of every produced ring last found full are read. The doorbell of a submission ring that is not
enabled is not read (DESIGN CHOICE, assumption 23: R75 does not limit the kicked ring to enabled ones). -/
def State.kickRings (s : State) (rs : List Nat) (c : WakeCause) : State :=
  let s := s.wake c
  let on := rs.filter fun n => n < 64 && s.ringEn (.sq n)
  match s.dev.state with
  | .standby => on.foldl (fun s n => s.onSq n fun q => { q with kickHeld := true }) s
  | .bringUp => on.foldl (fun s n => s.onSq n fun q => { q with kickHeld := true }) s
  | .service => if s.fabricUp then (on.foldl (fun s n => s.readDoorbell (.sq n)) s).readFullProds else s
  | .test => if s.fabricUp then (on.foldl (fun s n => s.readDoorbell (.sq n)) s).readFullProds else s
  | .recovery => if s.fabricUp then (on.foldl (fun s n => s.readDoorbell (.sq n)) s).readFullProds else s
  | _ => s

/-- The rings that a kick-page offset names (R74). -/
def kickTargets (off : Nat) : List Nat := if off % 4 = 0 && off < 256 then [off / 4] else List.range 64

/-- A write to the kick page. In STANDBY one that comes behind other accesses that wait is served behind them too, so that it never
acts ahead of a register write (R36). -/
def State.kick (s : State) (off : Nat) : State :=
  let s' := s.kickRings (kickTargets off) .host
  if s.dev.state = .standby && s.link.waiting ≠ [] then s'.onLink fun l => { l with waiting := l.waiting ++ [.kick off] } else s'

/-! ### Doorbell data -/

/-- Release the record of each CANCEL whose cancelled jobs have all had their job-end records written (R104). A completion ring that was
disabled meanwhile takes the record all the same: a CANCEL holds no slot, so R114 did not refuse (DESIGN CHOICE, assumption 23). -/
def State.releaseCancels (s : State) : State :=
  let ready := fun e : Nat × CqRec × List Nat => e.2.2.all fun k => (s.jobNum? k).isNone
  let go := s.rings.cancels.filter ready
  let s := s.onRings fun r => { r with cancels := r.cancels.filter fun e => !ready e }
  go.foldl (fun s e => s.postCq e.1 e.2.1) s

/-- INDEX and GEN of a doorbell record: the data read, or in embedded mode the record in device DRAM (R70, R60). -/
def State.doorbellData (s : State) (rec index gen : Nat) : Nat × Nat :=
  if s.emb then
    let b := s.dramRead (s.regPair rRingDbBaseLo rRingDbBaseHi + 64 * rec) 4
    (u16 b 0, u16 b 2)
  else (index % 65536, gen % 65536)

/-- Take a good host count, or keep the last good one and set DB_RANGE (R72, R73). -/
def State.takeCount (s : State) (r : RingId) (index gen : Nat) : State :=
  let n := s.entries r
  let host := (gen * n + index) % s.countMod r
  let own := match r with
    | .sq k => (s.sq k).own
    | _ => (s.prod r).own
  let gap := match r with
    | .sq _ => modSub (s.countMod r) host own
    | _ => modSub (s.countMod r) own host
  if index ≥ n || gap > n then s.flag rRingStatus 0
  else
    match r with
    | .sq k => s.onSq k fun q => { q with host := host }
    | _ => s.onProd r fun p => { p with host := host }

/-- Write what was held for a produced ring, now that it may have room. -/
def State.flushRing (s : State) (r : RingId) : State :=
  match r with
  | .sq _ => s
  | .cq n => State.flushCq ((s.cq n).held.length + 1) s n
  | .err => (s.flushErr (s.err.held.length + s.err.stuck.length + 1)).unstick (s.err.stuck.length)
  | .ldg => s.flushLdg (s.ldg.held.length + 1)

/-- DOORBELL_READ_DONE (R72, R73, R76, R99): the count is taken, held records are written while there is room, and a read noted
meanwhile is issued. -/
def State.doorbellReadDone (s : State) (rec index gen : Nat) : State :=
  match ringOf rec with
  | none => s
  | some r =>
    let busy := match r with
      | .sq n => (s.sq n).reading
      | _ => (s.prod r).reading
    let again := match r with
      | .sq n => (s.sq n).again
      | _ => (s.prod r).again
    if !busy then s
    else
      let s := match r with
        | .sq n => s.onSq n fun q => { q with reading := false, again := false }
        | _ => s.onProd r fun p => { p with reading := false, again := false }
      let d := s.doorbellData rec index gen
      let s := s.unattributedHost 4
      let s := if s.ringEn r then (s.takeCount r d.1 d.2).flushRing r else s
      let s := s.releaseCancels
      if again && s.ringEn r then s.readDoorbell r else s

/-! ### Fetching (R88 to R91) -/

/-- The ring is LC (RING_SQ_CTRL.CLASS). -/
def State.ringLc (s : State) (n : Nat) : Bool := s.regB (rRingSqCtrl n) 5

/-- Jobs of a ring that hold slots (INFLIGHT). -/
def State.inflight (s : State) (n : Nat) : Nat := (s.jobs.filter (·.sq = n)).length

/-- A slot-taking descriptor of ring `n` may be fetched now (R88). -/
def State.maySlot (s : State) (n : Nat) : Bool :=
  s.ringEn (.sq n) && decide (s.inflight n < s.regF (rRingSqCtrl n) 6 9) && decide (s.jobs.length < 256) &&
    (s.ringLc n || decide (s.jobs.length < 256 - s.regF rRingSlots 16 8))

/-- FETCH_STOP: a record of severity contained or worse waits for room (R107, R59). -/
def State.fetchStop (s : State) : Bool := s.err.stuck ≠ []

/-- The lowest free job slot. -/
def State.freeJobSlot (s : State) : Option Nat := (List.range 256).find? fun k => (s.job? k).isNone

/-- A ring competes for a turn: it has descriptors pending and meets R88. -/
def State.competes (s : State) (n : Nat) : Bool := decide (s.pendingDescs n > 0) && s.maySlot n

/-- The ring whose turn it is in its class: the first that competes after the last one served, LC before BE (R89). -/
def State.turn (s : State) : Option Nat :=
  let from_ := fun last => (List.range 64).map fun i => (last + 1 + i) % 64
  match (from_ s.rings.lastLc).find? (fun n => s.ringLc n && s.competes n) with
  | some n => some n
  | none => (from_ s.rings.lastBe).find? (fun n => !s.ringLc n && s.competes n)

/-- The checks that come before any other step of a descriptor: its form (R65, R82, R619), then its completion ring (R83).
Answers status and DETAIL. -/
def State.descFault (s : State) (d : Bytes) : Option (Nat × Nat) :=
  match formFault s.ronvelLo s.ronvelHi d with
  | some off => some (stVersion, off)
  | none => if dCq d < 64 && s.ringEn (.cq (dCq d)) then none else some (stResources, 4)

/-- The folio that a descriptor names is committed and accepts RUNs (R440, R444). -/
def State.folioTakes (s : State) (d : Bytes) : Bool :=
  s.fol.folios.any fun f => f.handle = dFolio d && f.committed && !f.unloading

/-- At the fetch of a FOLIO_UNLOAD its handle stops accepting RUNs (R443). -/
def State.noteUnload (s : State) (slot : Nat) (d : Bytes) (ok : Bool) : State :=
  if dOp d = opFolioUnload && ok then
    s.onFol fun g =>
      { g with
        folios := updFirst (fun f => f.handle = dFolio d && f.committed && !f.unloading)
          (fun f => { f with unloading := true, loaderSlot := some slot }) g.folios }
  else s

def newJob (slot number sq : Nat) (lc : Bool) (d : Bytes) (folioOk : Bool) : Job :=
  { slot := slot, number := number, sq := sq, lc := lc, desc := d, phase := .queued, seqRecs := 0, ended := [],
    walkOff := 0, walkIdx := 0, walked := [], nextGrant := 0, param := [], counts := [], degenerate := false,
    signals := List.replicate 64 0, stripeSigs := [], sumM := 0, sumS := 0, runs := 0, stageRuns := [], slowRaised := false, plan := none, admission := none,
    folioOk := folioOk, errNumber := 0 }

/-- Fetch descriptors in ring order, up to the first that a bound stops (R88, R90). -/
def State.fetchDescs (s : State) (n : Nat) : List Bytes → State
  | [] => s
  | d :: rest =>
    if s.pendingDescs n = 0 then s
    else
      let adv := fun (s : State) (slot : Option Nat) =>
        (s.onSq n fun q =>
          { q with own := (q.own + 1) % s.countMod (.sq n), fetched := q.fetched ++ [(d, slot)] }).chargePcie (dClient d) 64
      if takesSlot d then
        match s.freeJobSlot with
        | some slot =>
          if s.maySlot n then
            let s := { s with jobs := s.jobs ++ [newJob slot s.jobCount n (s.ringLc n) d (s.folioTakes d)], jobCount := s.jobCount + 1 }
            ((adv s (some slot)).noteUnload slot d (s.descFault d).isNone).fetchDescs n rest
          else s
        | none => s
      else (adv s none).fetchDescs n rest

/-- The descriptors of a fetch turn: the operand's, or in embedded mode those in device DRAM from the ring's head (R60). -/
def State.turnDescs (s : State) (n : Nat) (descs : List Bytes) : List Bytes :=
  if s.emb then
    (List.range 8).map fun i =>
      s.dramRead (s.ringBase (.sq n) + 64 * (((s.sq n).own + i) % s.entries (.sq n))) 64
  else (descs.take 8).map fun d => sliceB d 0 64

/-! ### The beginning of a descriptor -/

/-- Refuse or end a descriptor with a job-end record of its own; its slot frees when the record is written (R92). -/
def State.finishDesc (s : State) (n : Nat) (d : Bytes) (slot : Option Nat) (status detail amount : Nat) : State :=
  let s := match slot with
    | some k => s.onJob k fun j => { j with phase := .ended }
    | none => s
  s.postCq (s.cqFor n d) (jobEndRec n d status 0 amount 0 0 0 detail slot)

/-- A descriptor that no row of the table begins: unknown opcode, CAPTURE_CONFIG or ATTEST with an unknown action. -/
def rowless (d : Bytes) : Bool := dOp d > 7 || (dOp d = opCapture && u8 d 5 > 3) || (dOp d = opAttest && u8 d 5 > 1)

/-- A record is a job-end record of a descriptor of ring `n`. -/
def CqRec.endsOn (r : CqRec) (n : Nat) : Bool := r.sq = n && r.flags.testBit 14

/-- Every earlier job from the ring has its job-end record written (FENCE of R80). Jobs of the ring that are not among the
descriptors still waiting to begin are earlier, and so is every CANCEL and NOP of the ring whose record waits under R104 or is
held (R99). -/
def State.fenceOpen (s : State) (n : Nat) : Bool :=
  (s.jobs.all fun j => j.sq ≠ n || (s.sq n).fetched.any fun e => e.2 = some j.slot) &&
    !(s.rings.cancels.any fun e => e.2.1.endsOn n) && !(s.rings.cqs.any fun c => c.held.any fun r => r.endsOn n)

/-- The descriptor at the head of those fetched from ring `n`, when it may begin. -/
def State.head? (s : State) (n : Nat) : Option (Bytes × Option Nat) :=
  match (s.sq n).fetched with
  | [] => none
  | (d, slot) :: _ => if s.running && (!dFence d || s.fenceOpen n) then some (d, slot) else none

def State.popHead (s : State) (n : Nat) : State := s.onSq n fun q => { q with fetched := q.fetched.drop 1 }

/-- Refuse the descriptors at the head that no row begins (R82); `fuel` bounds their number. -/
def State.drainRowless : Nat → State → Nat → State
  | 0, s, _ => s
  | fuel + 1, s, n =>
    match s.head? n with
    | some (d, slot) =>
      if rowless d then
        let f := (s.descFault d).getD (stVersion, 1)
        State.drainRowless fuel ((s.popHead n).finishDesc n d slot f.1 f.2 0) n
      else s
    | none => s

/-- Begin the descriptor at the head of ring `n` when it is one of the wanted kind: refuse it, or run its own effect. -/
def State.beginDesc (s : State) (n : Nat) (want : Bytes → Bool) (run : State → Bytes → Option Nat → State) : State :=
  let s := s.drainRowless ((s.sq n).fetched.length) n
  match s.head? n with
  | none => s
  | some (d, slot) =>
    if !want d then s
    else
      let s := s.popHead n
      let s := match s.descFault d with
        | some f => s.finishDesc n d slot f.1 f.2 0
        | none => run s d slot
      s.drainRowless ((s.sq n).fetched.length) n

/-- The reads of `k` consecutive descriptors of ring `n` from the LT8's head on, which wrap at the ring's end. -/
def State.readDescs (s : State) (n k : Nat) : State :=
  let e := s.entries (.sq n)
  let h := (s.sq n).own % e
  let a := s.ringBase (.sq n)
  (s.hostRead (a + 64 * h) (64 * min k (e - h))).hostRead a (64 * (k - (e - h)))

/-- DESCRIPTOR_FETCH: a fetch turn of a ring (R88 to R91). Descriptors that take no slot are fetched whatever the bounds; those
that take one only in the ring's turn, which the ring then has had. -/
def State.descriptorFetch (s : State) (n : Nat) (descs : List Bytes) : State :=
  if !s.running || s.fetchStop || !s.ringEn (.sq n) || n ≥ 64 then s
  else
    let all := s.turnDescs n descs
    let ds := if s.turn = some n then all else all.takeWhile fun d => !takesSlot d
    let t := s.fetchDescs n ds
    let t' := (s.readDescs n (modSub (s.countMod (.sq n)) (t.sq n).own (s.sq n).own)).out
    let t := { t with out := t' }
    if t.jobCount ≠ s.jobCount then t.onRings fun r => if s.ringLc n then { r with lastLc := n } else { r with lastBe := n }
    else t

/-- NOP (R81): completes with OK. -/
def State.nop (s : State) (n : Nat) : State :=
  s.beginDesc n (fun d => dOp d = opNop) fun s d slot => s.finishDesc n d slot stOk 0 0

/-! ### Ring controls (R111 to R114) -/

/-- A write that sets EN must be refused (R113). -/
def State.enableRefused (s : State) (r : RingId) (v : Word) : Bool :=
  let size := wbits v 1 4
  let badSize := decide (size < 4) || decide (size > 12)
  match r with
  | .sq n =>
    badSize || decide (wbits v 6 9 = 0) || decide (wbits v 6 9 > 256) || !s.ringEn (.cq (wbits v 15 6)) ||
      s.jobs.any (·.sq = n)
  | _ => badSize

/-- REFUSED of a ring's control register. -/
def refusedBit : RingId → Nat
  | .sq _ => 21
  | .cq _ => 14
  | _ => 13

/-- RING_ENABLE: a write with EN 1. On a disabled ring it is refused under R113, or takes effect and sets the LT8's count to 0
(R112); what was held for the error or ledger ring is then written. On an enabled ring only a W1C bit can change (R111). A NOP or
CANCEL that was fetched before the ring was disabled and has not begun holds no slot, so R113 does not refuse: it is dropped with
no record (DESIGN CHOICE, assumption 23). -/
def State.ringEnable (s : State) (r : RingId) (v : Word) : State :=
  let c := ringCtrl r
  if !ringValid r || !wbit v 0 || s.fabricHidden c then s
  else if s.ringEn r then
    if wbit v (refusedBit r) then s.setRegF c (refusedBit r) 1 0 else s
  else if s.enableRefused r v then s.flag c (refusedBit r)
  else
    let s := s.writeWord c v
    match r with
    | .sq n => s.onSq n fun _ => SqRing.empty
    | .cq n => s.onCq n fun _ => CqRing.empty
    | .err => (s.onProd .err fun _ => ProdRing.empty).flushRing .err
    | .ldg => (s.onProd .ldg fun _ => ProdRing.empty).flushRing .ldg

/-- A write with EN 0 to an enabled ring changes EN and W1C bits only (R111). -/
def State.clearEn (s : State) (r : RingId) (v : Word) : State :=
  let c := ringCtrl r
  let s := if wbit v (refusedBit r) then s.setRegF c (refusedBit r) 1 0 else s
  s.setRegF c 0 1 0

/-- SQ_RING_DISABLE (R114): fetching stops at once; the ring's jobs run on. On a disabled ring the fields are written. -/
def State.sqDisable (s : State) (n : Nat) (v : Word) : State :=
  let c := rRingSqCtrl n
  if n ≥ 64 || wbit v 0 || s.fabricHidden c then s
  else if s.ringEn (.sq n) then (s.clearEn (.sq n) v).onSq n fun q => { q with kickHeld := false }
  else s.writeWord c v

/-- CQ_RING_DISABLE (R114): refused while a job in a slot or an enabled submission ring's ERR_CQ names the ring, or records are
held for it. -/
def State.cqDisable (s : State) (n : Nat) (v : Word) : State :=
  let c := rRingCqCtrl n
  if n ≥ 64 || wbit v 0 || s.fabricHidden c then s
  else if s.ringEn (.cq n) then
    let used := s.jobs.any (fun j => dCq j.desc = n) ||
      (List.range 64).any (fun k => s.ringEn (.sq k) && s.regF (rRingSqCtrl k) 15 6 = n) || (s.cq n).held ≠ []
    if used then s.flag c 14 else s.clearEn (.cq n) v
  else s.writeWord c v

/-! ### Meanings -/

def execKick (off : Nat) (s : State) : Result := .next (s.whenOn fun s => s.kick off)
def execDoorbellReadDone (rec index gen : Nat) (s : State) : Result :=
  .next (s.whenOn fun s => s.doorbellReadDone rec index gen)
def execDescriptorFetch (sq : Nat) (descs : List Bytes) (s : State) : Result :=
  .next (s.whenOn fun s => s.descriptorFetch sq descs)
def execNop (sq : Nat) (s : State) : Result := .next (s.whenOn fun s => s.nop sq)
def execRingEnable (r : RingId) (v : Word) (s : State) : Result :=
  .next (s.whenHost (ringCtrl r) v fun s => s.ringEnable r v)
def execSqRingDisable (n : Nat) (v : Word) (s : State) : Result :=
  .next (s.whenHost (rRingSqCtrl n) v fun s => s.sqDisable n v)
def execCqRingDisable (n : Nat) (v : Word) (s : State) : Result :=
  .next (s.whenHost (rRingCqCtrl n) v fun s => s.cqDisable n v)

end Sys2Proof.Machine
end

