-- ==== Sys2Proof/Machine/Carrel.lean ====
section
/-! DEFINITION. What every command of a command list shares: the context in a slot, slot-local scratch (R263), far addresses (R270,
R271, R450, R451), stream handles (R289 to R291), scratch operands (R272), the issue port and engines (R276 to R281, R464 to R466),
the charge of a command's cycles and bytes (R489, R491), injected errors (R267), and fetching command lines (R269). -/

namespace Sys2Proof.Machine

/-! ### Contexts and slots -/

def Carrel.none : Carrel :=
  { slots := [], scratch := [], bad := [], clearUntil := 0, accSets := [], lastIssue := 0, switching := Option.none }

def State.carrel (s : State) (c : Nat) : Carrel := s.sch.carrels.getD c Carrel.none

def State.onCarrel (s : State) (c : Nat) (f : Carrel → Carrel) : State :=
  s.onSch fun h => { h with carrels := h.carrels.modify c f }

def State.ctx? (s : State) (id : Nat) : Option Ctx := s.sch.ctxs.find? (·.id = id)

def State.onCtx (s : State) (id : Nat) (f : Ctx → Ctx) : State :=
  s.onSch fun h => { h with ctxs := updFirst (·.id = id) f h.ctxs }

/-- The scratch units of a slot in map order, and the context it holds. -/
def State.slotOf (s : State) (c k : Nat) : List Nat × Option Nat := (s.carrel c).slots.getD k ([], none)

def State.ctxAt (s : State) (c k : Nat) : Option Ctx := (s.slotOf c k).2.bind s.ctx?

/-- The contexts resident on a carrel, with their slots. -/
def State.residents (s : State) (c : Nat) : List (Nat × Ctx) :=
  (List.range 4).filterMap fun k => (s.ctxAt c k).map fun x => (k, x)

/-- The unit map of a placed context. -/
def State.unitMap (s : State) (x : Ctx) : List Nat :=
  match x.place with
  | some (c, k) => (s.slotOf c k).1
  | none => []

/-- Bytes of a context's slot-local space (R263). -/
def State.localSize (s : State) (x : Ctx) : Nat := 8192 * (s.unitMap x).length

/-- Physical scratch address of a local address (R263). -/
def physAddr (map : List Nat) (a : Nat) : Nat := map.getD (a / 8192) 0 * 8192 + a % 8192

/-- The bank that a physical scratch byte lies in (R262). -/
def bankOf (a : Nat) : Nat := a / 16 % 16

/-- The 64-bit words of physical scratch that local bytes `a` to `a + n − 1` touch. -/
def scratchWords (map : List Nat) (a n : Nat) : List Nat :=
  if n = 0 then [] else (List.range ((a + n + 7) / 8 - a / 8)).map fun i => physAddr map (8 * (a / 8 + i)) / 8

/-- Those of them that a write covers only in part: it reads each first (R266). -/
def narrowWords (map : List Nat) (a n : Nat) : List Nat :=
  if n = 0 then []
  else
    ((if a % 8 ≠ 0 then [a] else []) ++ (if (a + n) % 8 ≠ 0 then [a + n - 1] else [])).map fun b => physAddr map b / 8

def State.scratchOf (s : State) (x : Ctx) : Mem :=
  match x.place with
  | some (c, _) => (s.carrel c).scratch
  | none => []

/-- `n` bytes of a context's local space. -/
def State.locRead (s : State) (x : Ctx) (a n : Nat) : Bytes :=
  let m := s.unitMap x
  let mem := s.scratchOf x
  (List.range n).map fun i => mem.get (physAddr m (a + i))

def locPut (map : List Nat) (m : Mem) (a : Nat) : Bytes → Mem
  | [] => m
  | b :: bs => locPut map (m.put (physAddr map a) b) (a + 1) bs

/-- A write to local scratch: the words it touches hold valid check bits again (R266). -/
def State.locWrite (s : State) (x : Ctx) (a : Nat) (bs : Bytes) : State :=
  match x.place with
  | some (c, _) => s.onCarrel c fun r =>
    { r with
      scratch := locPut (s.unitMap x) r.scratch a bs
      bad := r.bad.filter fun e => !(e.1 ∈ scratchWords (s.unitMap x) a bs.length) }
  | none => s

/-- The first local address outside the space, when `n` bytes from `a` leave it. -/
def State.locFault (s : State) (x : Ctx) (a : Int) (n : Nat) : Option Nat :=
  let size := s.localSize x
  if n = 0 then none
  else if a < 0 then some (wrapN 40 a)
  else if a.toNat + n ≤ size then none
  else some (max a.toNat size)

/-- The first fault among several local ranges. -/
def State.locFaults (s : State) (x : Ctx) (l : List (Nat × Nat)) : Option Nat :=
  l.findSome? fun p => s.locFault x p.1 p.2

def State.jobOf (s : State) (x : Ctx) : Option Job := s.jobNum? x.jobNumber

def State.folioOf (s : State) (x : Ctx) : Option Folio :=
  (s.jobOf x).bind fun j => s.fol.folios.find? (·.handle = dFolio j.desc)

def State.stageOf (s : State) (x : Ctx) : Option Stage := (s.folioOf x).bind fun f => f.stages[x.plan.stage]?

def State.clientOf (s : State) (x : Ctx) : Nat := ((s.jobOf x).map Job.client).getD 0

/-! ### Charging (R489, R491) -/

/-- Positions that each client's sequences put into the step a context serves, in ascending client order. -/
def State.shares (s : State) (x : Ctx) : List (Nat × Nat) :=
  let add := fun (l : List (Nat × Nat)) (c n : Nat) =>
    if l.any (·.1 = c) then l.map fun p => if p.1 = c then (c, p.2 + n) else p
    else (l.filter fun p => decide (p.1 < c)) ++ [(c, n)] ++ l.filter fun p => decide (c < p.1)
  x.plan.seqs.foldl (fun l k =>
    match s.seq? k with
    | some q => add l (((s.job? q.jobSlot).map Job.client).getD 0) (max 1 q.chunk)
    | none => l) []

/-- Charge `n` of a command's cycles or bytes: whole to the job's client, or split by positions, the remainder to the lowest
client (R491). -/
def State.chargeCtx (s : State) (x : Ctx) (n : Nat) (mk : State → Nat → Nat → State) : State :=
  match s.shares x with
  | a :: b :: rest =>
    let all := a :: b :: rest
    let p := (all.map (·.2)).sum
    let parts := all.map fun e => (e.1, n * e.2 / p)
    let left := n - (parts.map (·.2)).sum
    let s := parts.foldl (fun s e => mk s e.1 e.2) s
    mk s a.1 left
  | [a] => mk s a.1 n
  | [] => mk s (s.clientOf x) n

/-! ### Far addresses (R270, R271) -/

/-- What a base names: device DRAM, the bay's own shelf, or a sequence's output and confidence areas, in the host's memory or in
embedded mode in device DRAM. -/
inductive FarKind where
  | dram
  | shelf
  | host
  | areas
  deriving DecidableEq, Repr

/-- First address and extent in bytes; `tail`: the offset from which the bytes lie elsewhere, and where. -/
structure Far where
  kind : FarKind
  addr : Nat
  extent : Nat
  tail : Option (Nat × Nat)
  deriving DecidableEq, Repr

/-- The one or two runs of addresses that `n` bytes from offset `o` lie at. -/
def Far.pieces (f : Far) (o n : Nat) : List (Nat × Nat) :=
  match f.tail with
  | none => [(f.addr + o, n)]
  | some (t, a) =>
    let k := min n (t - o)
    ([(f.addr + o, k), (a + (o + k - t), n - k)]).filter (·.2 ≠ 0)

/-- The base index and the byte offset of a far address. -/
def farBase (v : Nat) : Nat := bitsN v 36 4
def farOff (v : Nat) : Nat := bitsN v 0 36

/-- A 5-byte far address of a command. -/
def u40 (d : Bytes) (off : Nat) : Nat := leNat (sliceB d off 5)

/-- The binding kind of a base in a context's stage (R435). -/
def State.bindKind (s : State) (x : Ctx) (b : Nat) : Option Nat :=
  (s.folioOf x).bind fun f => (f.bindings.find? fun e => e.1 = x.plan.stage && e.2.1 = b).map (·.2.2.1)

/-- Base `b` of a context's table. A RESULT base reaches the sequence's output area, and behind its stride the confidence area
(R86, R435). -/
def State.far (s : State) (x : Ctx) (b : Nat) : Far :=
  if b = 0 || b = 14 then
    match s.folioOf x with
    | some f => ⟨.dram, f.addr, f.len, none⟩
    | none => ⟨.dram, 0, 0, none⟩
  else if b = 15 then ⟨.shelf, 0, 1536 * 1024, none⟩
  else if s.bindKind x b = some 4 then
    match x.expand with
    | some g => ⟨.shelf, g.1, g.2, none⟩
    | none => ⟨.shelf, 0, 0, none⟩
  else
    match x.bases.find? (·.1 = b) with
    | some e =>
      if s.bindKind x b = some 5 then
        ⟨if s.emb then .areas else .host, e.2.1, e.2.2, (s.jobOf x).map fun j =>
          let stride := dStride j.desc
          (stride, dConfAddr j.desc + 2 * stride * ((e.2.1 - dOutAddr j.desc) / max 1 stride))⟩
      else ⟨.dram, e.2.1, e.2.2, none⟩
    | none => ⟨.dram, 0, 0, none⟩

/-- The far address at fault, 40 bits, when `n` bytes from offset `o` of base `b` leave its extent (R271). -/
def State.farFault (s : State) (x : Ctx) (b : Nat) (o : Int) (n : Nat) : Option Nat :=
  let f := s.far x b
  if n = 0 then none
  else if 0 ≤ o && o.toNat + n ≤ f.extent then none
  else some (wrapN 36 o + b * 2 ^ 36)

def State.shelfOf (s : State) (b : Nat) : Mem := s.sch.shelves.getD b []

def State.onShelf (s : State) (b : Nat) (f : Mem → Mem) : State :=
  s.onSch fun h => { h with shelves := h.shelves.modify b f }

/-- Far bytes. The host's memory is not the machine's state: what is read there is free. -/
def State.farRead (s : State) (x : Ctx) (b o n : Nat) : Bytes × State :=
  let f := s.far x b
  match f.kind with
  | .dram => (s.dramRead (f.addr + o) n, s)
  | .shelf => ((s.shelfOf x.bay).read (f.addr + o) n, s)
  | .host => s.drawBytes n
  | .areas => ((f.pieces o n).flatMap fun p => s.dramRead p.1 p.2, s)

def State.farWrite (s : State) (x : Ctx) (b o : Nat) (bs : Bytes) : State :=
  let f := s.far x b
  match f.kind with
  | .dram => s.dramWrite (f.addr + o) bs
  | .shelf => s.onShelf x.bay fun m => m.write (f.addr + o) bs
  | .host =>
    ((f.pieces o bs.length).foldl (fun (e : State × Bytes) p => (e.1.hostWrite p.1 (e.2.take p.2) true, e.2.drop p.2))
      (s, bs)).1.chargeCtx x bs.length State.chargePcie
  | .areas =>
    ((f.pieces o bs.length).foldl (fun (e : State × Bytes) p => (e.1.dramWrite p.1 (e.2.take p.2), e.2.drop p.2)) (s, bs)).1

/-! ### The reserve shelf as base 14 reads it (R450, R451) -/

/-- The wings in which part `w` of a stage can run. -/
def Stage.parts (g : Stage) : List (Nat × Nat) :=
  if g.wingParts = 4 then (List.range 4).map fun w => (w, w)
  else (List.range 4).map fun w => (0, w)

/-- Shard numbers of part `p`'s shelf set. -/
def Stage.shelfSet (g : Stage) (p : Nat) : List Nat :=
  (List.range g.shelfShards).map fun i => g.shelfOff / 65536 + p * g.shelfShards + i

/-- Shards of a folio that are cacheable in wing `w` (R450). -/
def Folio.cacheable (f : Folio) (w : Nat) : List Nat :=
  (f.stages.flatMap fun g => (g.parts.filter (·.2 = w)).flatMap fun p => g.shelfSet p.1).eraseDups

/-- RESERVE in force (R448, MDL_SHELF_SPLIT: 5 to 7 are taken as 4). -/
def State.reserve (s : State) : Nat := min 4 (s.regF rMdlShelfSplit 0 3)

/-- Shards that one bay's reserve shelf holds: 16 + RESERVE. -/
def State.bayShards (s : State) : Nat := 16 + s.reserve

/-- A bay under BIST serves no shard and takes none (R453). -/
def State.underBist (s : State) (b : Nat) : Bool := match s.sch.bist with | some p => p.1 = b | none => false

def State.shardsOf (s : State) (w : Nat) : List Shard := s.fol.shards.filter (·.wing = w)

def State.resident (s : State) (w h n : Nat) : Bool :=
  s.fol.shards.any fun d => d.wing = w && d.handle = h && d.number = n && !s.underBist d.bay

/-- Bytes of shard `n` of a folio. -/
def Folio.shardBytes (f : Folio) (n : Nat) : Nat := min 65536 (f.len - 65536 * n)

/-- Bays of a wing, 0 to 5, that take shards: not under BIST, and working (R453, R551, R562). -/
def State.shelfBays (s : State) (w : Nat) : List Nat :=
  (List.range 6).filter fun i =>
    let b := 6 * w + i
    !s.underBist b && !s.regB rErrFenceB b && !s.bayStopped b && s.phaseOf (.bay b) = .run && s.phaseOf (.wing w) = .run

def State.shardsIn (s : State) (b : Nat) : List Shard := s.fol.shards.filter (·.bay = b)

/-- Places of a wing's reserve shelf that a refill may take: free ones, and those of unpinned shards (R452). -/
def State.shelfPlaces (s : State) (w : Nat) : Nat :=
  ((s.shelfBays w).map fun i => s.bayShards - ((s.shardsIn (6 * w + i)).filter (·.pinned)).length).sum

/-- Every resident shard of the wing's working bays is pinned and no place is free: no refill is made (R452). -/
def State.shelfStuck (s : State) (w : Nat) : Bool := s.shelfPlaces w = 0

/-- A read of one shard of the image through base 14 (R451): answers whether it is served from DRAM. -/
def State.readShard (s : State) (x : Ctx) (f : Folio) (n : Nat) : Bool × State :=
  let w := x.bay / 6
  if s.resident w f.handle n then
    (false, s.onFol fun g =>
      { g with
        reads := g.reads + 1
        shards := updFirst (fun d => d.wing = w && d.handle = f.handle && d.number = n)
          (fun d => { d with lastRead := g.reads + 1 }) g.shards })
  else
    let s := s.bumpSat rMdlMissCount 0 32 1
    if n ∈ f.cacheable w && !(s.fol.refills.any fun r => r = (w, f.handle, n)) && !s.shelfStuck w then
      let s := s.onFol fun g => { g with refills := g.refills ++ [(w, f.handle, n)] }
      let s := s.bumpSat rMdlRefillCount 0 32 1
      (true, s.charge { Account.zero (s.clientOf x) with refill := f.shardBytes n })
    else (true, s)

/-- Account for far bytes read or written: DRAM traffic to the client (R489), base-14 reads against the directory. -/
def State.farTouch (s : State) (x : Ctx) (b o n : Nat) : State :=
  if n = 0 then s
  else if b = 14 then
    match s.folioOf x with
    | none => s
    | some f =>
      let first := o / 65536
      let last := (o + n - 1) / 65536
      (List.range (last + 1 - first)).foldl (fun s i =>
        let k := first + i
        let lo := max o (65536 * k)
        let hi := min (o + n) (65536 * (k + 1))
        let r := s.readShard x f k
        if r.1 then r.2.chargeCtx x (hi - lo) State.chargeDram else r.2) s
  else
    match (s.far x b).kind with
    | .dram | .areas => s.chargeCtx x n State.chargeDram
    | _ => s

/-! ### Commands at issue -/

/-- How an issue turns out. -/
inductive Eff where
  | ok (s : State)
  /-- An error found at issue: kind, unit, 64-bit DETAIL; the state carries what the check itself changed. -/
  | err (s : State) (kind unit detail : Nat)
  /-- It cannot issue now. -/
  | wait

def cmdOp (d : Bytes) : Nat := u8 d 0
def cmdLive (d : Bytes) : Nat := bitsN (u16 d 2) 0 10

abbrev coNop : Nat := 0x00
abbrev coLoad : Nat := 0x01
abbrev coStore : Nat := 0x02
abbrev coStream : Nat := 0x03
abbrev coExpand : Nat := 0x04
abbrev coTmac : Nat := 0x05
abbrev coVec : Nat := 0x06
abbrev coReq : Nat := 0x07
abbrev coAttn : Nat := 0x08
abbrev coKvapp : Nat := 0x09
abbrev coArgmax : Nat := 0x0A
abbrev coPack : Nat := 0x0B
abbrev coCathand : Nat := 0x0C
abbrev coFence : Nat := 0x0D
abbrev coSignal : Nat := 0x0E
abbrev coWaitsig : Nat := 0x0F

/-- The engine class of R275 as bits: 1 D, 2 A, 4 V, 8 C; 0 for S. -/
def opClass (op : Nat) : Nat :=
  match op with
  | 0x01 => 1 | 0x02 => 1 | 0x03 => 1 | 0x04 => 1 | 0x0B => 1
  | 0x05 => 2 | 0x07 => 2 | 0x09 => 2
  | 0x06 => 4 | 0x0A => 4
  | 0x08 => 6
  | 0x0C => 8
  | _ => 0

def OutCmd.in (o : OutCmd) (mask : Nat) : Bool := o.cls &&& mask ≠ 0

/-- The context has a command outstanding in the classes of a mask. -/
def Ctx.busy (x : Ctx) (mask : Nat) : Bool := x.outstanding.any (·.in mask)

/-- TMAC with DRAIN 0, whose pair follows it (R279). -/
def pairedTmac (d : Bytes) : Bool := cmdOp d = coTmac && !bitN (u8 d 25) 4

/-- The engines of a carrel are free for a context: none of its own in the class (R277), and no other resident context's, except
those that an LC command has taken from BE ones (R465). -/
def State.engineFree (s : State) (c : Nat) (x : Ctx) (mask : Nat) : Bool :=
  !x.busy mask &&
    (s.residents c).all fun p =>
      p.2.id = x.id || !p.2.busy mask || (x.lc && !p.2.lc && p.2.outstanding.all fun o =>
        !o.in mask || (o.cls &&& mask &&& 2 = 0 || p.2.taken.testBit 0) && (o.cls &&& mask &&& 4 = 0 || p.2.taken.testBit 1))

/-- Descriptors held by the DMA engine that serves a carrel (R466). -/
def State.dmaHeld (s : State) (c : Nat) : Nat :=
  let first := c / 4 * 4
  (((List.range 4).flatMap fun i => s.residents (first + i)).map fun p =>
    (p.2.outstanding.filter (·.in 1)).length).sum

/-- The mask of FENCE and SIGNAL as class bits: bit 0 D, 1 A, 2 V, 3 C (R304). -/
def fenceMask (op : Nat) (d : Bytes) : Nat := if op = coFence then u8 d 4 % 16 else u8 d 5 % 16

def handleOf (x : Ctx) (h : Nat) : Option StreamH := x.handles.find? (·.handle = h)

/-- A counter meets the condition of a WAITSIG (R304). -/
def Job.sigMeets (j : Job) (d : Bytes) (sig : Nat) : Bool :=
  let v := j.signals.getD sig 0
  if u8 d 6 = 0 then decide (v ≥ u32 d 8) else decide (v = u32 d 8)

/-- WAITSIG's condition holds (R304). A stripe that passes over its stage's own list waits for the counter of each stripe whose rows
it reads, and for no other (R323). -/
def State.sigHolds (s : State) (x : Ctx) (d : Bytes) : Bool :=
  match s.jobOf x with
  | some j =>
    if x.rows.isSome && x.producers ≠ [] then
      x.producers.all fun p =>
        j.stripeSigs.any fun e => e.1 = p.1 && e.2.1 = p.2.1 && e.2.2.1 = p.2.2 && j.sigMeets d e.2.2.2
    else j.sigMeets d (u8 d 4)
  | none => false

/-- The engine of a command's class accepts it now (R276 to R281, R291, R466). -/
def State.accepts (s : State) (c : Nat) (x : Ctx) (d : Bytes) : Bool :=
  let op := cmdOp d
  if op = coReq || op = coKvapp then x.drain.isSome && !x.kvWait
  else if x.drain.isSome then false
  else if op = coTmac then s.engineFree c x 2
  else if op = coVec || op = coArgmax then s.engineFree c x 4
  else if op = coAttn then
    s.engineFree c x 6 && !((s.seq? (u16 d 16 % 4096)).any (·.applying))
  else if op = coCathand then !x.busy 8
  else if op = coFence || op = coSignal then !x.busy (fenceMask op d)
  else if op = coWaitsig then s.sigHolds x d
  else if opClass op = 1 then
    decide (s.dmaHeld c < 32) &&
      (op ≠ coStream || match handleOf x (u8 d 4 % 4) with
        | some h => decide (h.consumed ≥ h.total)
        | none => true)
  else op = coNop

/-- A switch under way brings this context in (R470). -/
def Carrel.entering (r : Carrel) (id : Nat) : Bool := r.switching.any fun w => w.entering = some id

/-- The context's next command can issue now. -/
def State.canIssue (s : State) (c : Nat) (x : Ctx) : Bool :=
  !x.stopped && !x.idle && !(s.carrel c).entering x.id && s.fabricUp &&
    match x.queue with
    | d :: _ => s.accepts c x d
    | [] => false

/-- The slot whose command the issue port takes: the second half of a pair first (R279), then LC before BE, round-robin from the
slot after the last (R464). -/
def State.issueTurn (s : State) (c : Nat) : Option Nat :=
  let order := (List.range 4).map fun i => ((s.carrel c).lastIssue + 1 + i) % 4
  let can := fun (want : Ctx → Bool) k => match s.ctxAt c k with
    | some x => want x && s.canIssue c x
    | none => false
  match order.find? (can fun x => x.drain.isSome) with
  | some k => some k
  | none =>
    match order.find? (can (·.lc)) with
    | some k => some k
    | none => order.find? (can fun _ => true)

/-- A command as a stripe meets it in a pass over its stage's own list (R321, R323): the rows of an EXPAND are the stripe's and end
with its last one, an EXPAND wholly below that row has none and is a NOP, and a SIGNAL goes to the counter that Penuo assigned. -/
def Ctx.passCmd (x : Ctx) (d : Bytes) : Bytes :=
  match x.rows with
  | none => d
  | some (first, last) =>
    if cmdOp d = coExpand then
      let y := first + u16 d 24
      if y > last then 0 :: (d.drop 1).take 3 ++ zeros 28
      else d.take 24 ++ toLe 2 y ++ toLe 2 (min (u16 d 26) (last + 1 - y)) ++ d.drop 28
    else if cmdOp d = coSignal then d.set 4 (BitVec.ofNat 8 x.plan.counter)
    else d

/-- The command at list index `i` of a context's list (R268). -/
def State.listCmd (s : State) (x : Ctx) (i : Nat) : Bytes :=
  if x.listAt.base = 15 then (s.shelfOf x.bay).read (x.listAt.off + 32 * i) 32
  else
    let first := if x.listAt.base = 14 then ((s.folioOf x).map (·.addr)).getD 0 else 0
    x.passCmd (s.dramRead (first + x.listAt.off + 32 * i) 32)

/-- LIVE in force (R285): the largest of the commands issued and not completed, and of the next to issue, fetched or not. -/
def State.liveOf (s : State) (x : Ctx) : Nat :=
  let next := match x.queue with
    | d :: _ => [cmdLive d]
    | [] => if x.nextIssue < x.listLen then [cmdLive (s.listCmd x x.nextIssue)] else []
  maxNat ((x.outstanding.map fun o => cmdLive o.cmd) ++ next)

/-- DETAIL in the command layout of R554. -/
def cmdDetail (x : Ctx) (d : Bytes) (addr : Nat) : Nat := x.nextIssue % 65536 + cmdOp d * 65536 + addr % 2 ^ 40 * 2 ^ 24

/-- The context field of an error record: 4 × flat carrel + slot. -/
def ctxNumber (c k : Nat) : Nat := 4 * c + k

def scratchErr (s : State) (x : Ctx) (c : Nat) (d : Bytes) (addr : Nat) : Eff :=
  .err (s.bumpSat (rCarErrcnt c) 24 8 1) ekScratchRange (unitCarrel c 3) (cmdDetail x d addr)

def commandErr (s : State) (x : Ctx) (c : Nat) (d : Bytes) (addr : Nat) : Eff :=
  .err s ekCommand (unitCarrel c 4) (cmdDetail x d addr)

/-- FAR_RANGE names the DMA engine of the carrel: 1 for carrels 0 to 3 of the bay, 2 for 4 to 7 (R466). -/
def farErr (s : State) (x : Ctx) (c : Nat) (d : Bytes) (addr : Nat) : Eff :=
  .err s ekFarRange (unitBay (c / 8) (1 + c % 8 / 4)) (cmdDetail x d addr)

/-- Note an error in a stored word of scratch (R266). -/
def Carrel.markBad (r : Carrel) (word : Nat) (double : Bool) : Carrel :=
  { r with bad := (word, double) :: r.bad.filter (·.1 ≠ word) }

/-- An injected scratch error acts on the next read of scratch on the carrel named (R267): the first word read holds it. -/
def State.injectRead (s : State) (c : Nat) (words : List Nat) : State :=
  let kind := s.regF rCarInject 8 2
  match words with
  | [] => s
  | w :: _ =>
    if s.regB rCarInject 10 && s.regF rCarInject 0 8 = c && (kind = 1 || kind = 2) then
      (s.setRegF rCarInject 10 1 0).onCarrel c fun r => r.markBad w (kind = 2)
    else s

/-- One word is read (R266): a single-bit error is corrected, counted and summarised; a double-bit one is counted, and DETAIL of its
record answered. Syndrome and bit number are free: the code is not in the spec. -/
def State.readWord64 (s : State) (x : Ctx) (c w : Nat) : State × Option Nat :=
  match (s.carrel c).bad.find? (·.1 = w) with
  | none => (s, none)
  | some e =>
    let r := s.drawBytes 2
    let syn := (r.1.headD 0).toNat
    let bit := (r.1.getD 1 0).toNat % 72
    if e.2 then (r.2.bumpSat (rCarErrcnt c) 8 8 1, some (8 * w + syn * 2 ^ 48 + 0xFF * 2 ^ 56))
    else
      ((r.2.bumpSat (rCarErrcnt c) 0 8 1).raise
        ⟨ekScratchCe, unitCarrel c 3, (s.jobOf x).map (·.slot), x.place.map fun p => ctxNumber p.1 p.2,
          8 * w + syn * 2 ^ 48 + bit * 2 ^ 56⟩, none)

/-- Read words in turn, up to the first double-bit error. -/
def State.readWords64 (s : State) (x : Ctx) (c : Nat) : List Nat → State × Option Nat
  | [] => (s, none)
  | w :: ws =>
    match s.readWord64 x c w with
    | (s, some d) => (s, some d)
    | (s, none) => State.readWords64 s x c ws

/-- The words that a command reads: those of its source ranges, and those that its writes cover in part (R266). -/
def State.sensed (s : State) (x : Ctx) (reads writes : List (Nat × Nat)) : List Nat :=
  let m := s.unitMap x
  (reads.flatMap fun p => scratchWords m p.1 p.2) ++ writes.flatMap fun p => narrowWords m p.1 p.2

/-- Meet the errors in the words that an access reads, with an injected one first: the state, and DETAIL of a double-bit error. -/
def State.sense (s : State) (x : Ctx) (c : Nat) (reads writes : List (Nat × Nat)) : State × Option Nat :=
  let ws := s.sensed x reads writes
  (s.injectRead c ws).readWords64 x c ws

/-- Run an effect that reads and writes the local ranges named, unless a word it reads holds a double-bit error: then no write takes
place (R266). -/
def touching (s : State) (x : Ctx) (c : Nat) (reads writes : List (Nat × Nat)) (run : State → Eff) : Eff :=
  match s.sense x c reads writes with
  | (s, some detail) => .err s ekScratchUe (unitCarrel c 3) detail
  | (s, none) => run s

/-- The same for what happens while a command or a switch is under way: a double-bit error is raised against the context. -/
def State.accessing (s : State) (x : Ctx) (c : Nat) (reads writes : List (Nat × Nat)) (run : State → State) : State :=
  match s.sense x c reads writes with
  | (s, some detail) =>
    s.raise ⟨ekScratchUe, unitCarrel c 3, (s.jobOf x).map (·.slot), x.place.map fun p => ctxNumber p.1 p.2, detail⟩
  | (s, none) => run s

/-- The context's next command could issue, but contexts of other jobs hold its engine (R490). -/
def State.heldByOthers (s : State) (c : Nat) (x : Ctx) : Bool :=
  !s.canIssue c x &&
    (s.onSch fun h =>
      { h with ctxs := h.ctxs.map fun y => if y.jobNumber = x.jobNumber then y else { y with outstanding := [] } }).canIssue c x

/-- Queue-wait cycles by client from the latest arithmetic count known up to `now` (R490): of each context whose engine another job
holds, and of each that waits for a slot under R461 or R462. -/
def State.queueWaits (s : State) (now : Nat) : List (Nat × Nat) :=
  let n := now - s.arithNow
  if n = 0 || s.ldg.intervalState = .service then []
  else
    ((s.sch.ctxs.filter fun x => x.place.any fun p => s.heldByOthers p.1 x).map fun x => (s.clientOf x, n)) ++
      s.sch.waiting.filterMap fun w => (s.jobNum? w.jobNumber).map fun j => (j.client, n)

/-- The cycle in which slot `k` of a carrel issues is a queue-wait cycle of each context of another job there that could issue too
(R490). -/
def State.portWaits (s : State) (c k : Nat) (x : Ctx) : List (Nat × Nat) :=
  if s.ldg.intervalState = .service then []
  else
    ((s.residents c).filter fun p => p.1 ≠ k && p.2.jobNumber ≠ x.jobNumber && s.canIssue c p.2).map fun p => (s.clientOf p.2, 1)

def State.chargeWaits (s : State) (l : List (Nat × Nat)) : State := l.foldl (fun s e => s.chargeWait e.1 e.2 0) s

/-- The arithmetic count moves on to `now`, with what `was`, the state until then, had waiting (R490). -/
def State.advance (s was : State) (now : Nat) : State :=
  { s.chargeWaits (was.queueWaits now) with arithNow := max s.arithNow now }

/-- Take the head of a context's queue as issued: out of the queue, outstanding unless it completes on issue. The last command
of a list stays until COMMAND_COMPLETE, which ends the run (assumption 11). -/
def State.issued (s : State) (c k now : Nat) (x : Ctx) (d : Bytes) (stays : Bool) : State :=
  let s := s.onCtx x.id fun y =>
    { y with
      queue := y.queue.drop 1
      nextIssue := y.nextIssue + 1
      runStart := if y.runStart.isNone then some now else y.runStart
      outstanding :=
        if stays || decide (y.nextIssue + 1 = y.listLen) then
          y.outstanding ++ [⟨x.nextIssue, d, opClass (cmdOp d), s.sch.issueCount⟩]
        else y.outstanding }
  let s := s.onSch fun h => { h with issueCount := h.issueCount + 1 }
  { s.onCarrel c (fun r => { r with lastIssue := k }) with arithNow := max s.arithNow now }

/-- Issue the command at the head of a slot's queue when it has opcode `op` and the issue port takes it: its effect, or the error
it meets, which stops its context (R263, R271, R552). `stays`: it is outstanding until its completion point (R280). -/
def State.issue (s : State) (c k now op : Nat) (stays : Bool) (run : State → Ctx → Bytes → Eff) : State :=
  match s.ctxAt c k with
  | none => s
  | some x =>
    match x.queue with
    | [] => s
    | d :: _ =>
      if cmdOp d ≠ op || s.issueTurn c ≠ some k then s
      else
        match run s x d with
        | .ok s' => ((s'.issued c k now x d stays).chargeWaits (s.portWaits c k x)).chargeWaits (s.queueWaits now)
        | .wait => s
        | .err s' kind unit detail =>
          (s'.raise ⟨kind, unit, (s.jobOf x).map (·.slot), some (ctxNumber c k), detail⟩).advance s now

/-! ### Streams and operands -/

/-- Source offset of byte `k` of a stream from its base (R289), as an offset that may be negative. -/
def streamOff (d : Bytes) (k : Nat) : Int :=
  let rb := u16 d 14
  let c1 := u16 d 20
  let row := if rb = 0 then 0 else k / rb
  let i1 := if c1 = 0 then 0 else row % c1
  let i2 := if c1 = 0 then 0 else row / c1
  (farOff (u40 d 8) : Int) + s32 d 24 * i2 + s32 d 16 * i1 + (if rb = 0 then 0 else k % rb : Nat)

def streamSource (d : Bytes) : Nat := u16 d 14 * u16 d 20 * u16 d 22

/-- Bytes that a stream delivers after XFORM (R288). -/
def streamTotal (d : Bytes) : Nat := if u8 d 5 = 0 then streamSource d else streamSource d / 4 * 5

/-- Source bytes `k` to `k + n − 1` of a stream. -/
def State.streamSrc (s : State) (x : Ctx) (d : Bytes) (k n : Nat) : Bytes × State :=
  (List.range n).foldl (fun p i =>
    let r := p.2.farRead x (farBase (u40 d 8)) (streamOff d (k + i)).toNat 1
    (p.1 ++ r.1, r.2)) ([], s)

/-- Bytes `a` to `a + n − 1` that a stream delivers, after XFORM. -/
def State.streamBytes (s : State) (x : Ctx) (d : Bytes) (a n : Nat) : Bytes × State :=
  if u8 d 5 = 0 then s.streamSrc x d a n
  else
    let g := a / 5
    let last := (a + n + 4) / 5
    let r := s.streamSrc x d (4 * g) (4 * (last - g))
    (sliceB (xformBytes (u8 d 5) r.1) (a - 5 * g) n, r.2)

/-- The bytes pass through the stream's scratch ring in order (R290). -/
def State.ringWrite (s : State) (x : Ctx) (d : Bytes) (a : Nat) (bs : Bytes) : State :=
  let size := 2 ^ u8 d 13
  let start := 256 * u16 d 28
  (bs.zipIdx).foldl (fun s p => s.locWrite x (start + (a + p.2) % size) [p.1]) s

/-- An operand word: STREAM, handle, local address (R272). -/
def opStream (w : Nat) : Bool := bitN w 17
def opHandle (w : Nat) : Nat := bitsN w 18 2
def opAddr (w : Nat) : Nat := bitsN w 0 17

/-- An operand's local range, for the range check; a stream operand has none. -/
def opRange (w n : Nat) : List (Nat × Nat) := if opStream w then [] else [(opAddr w, n)]

/-- A stream operand's handle has `n` bytes left. -/
def opReady (x : Ctx) (w n : Nat) : Bool :=
  !opStream w || match handleOf x (opHandle w) with
    | some h => decide (h.consumed + n ≤ h.total)
    | none => false

/-- The local address from which an operand's bytes are read: a stream's lie in its scratch ring (R290). -/
def opScr (x : Ctx) (w : Nat) : Nat :=
  if opStream w then
    match handleOf x (opHandle w) with
    | some h => 256 * u16 h.cmd 28 + h.consumed % 2 ^ u8 h.cmd 13
    | none => 0
  else opAddr w

/-- Where a stream's bytes `a` to `a + n − 1` lie in its ring: one local range, or two around the ring's end. -/
def ringRanges (d : Bytes) (a n : Nat) : List (Nat × Nat) :=
  let size := 2 ^ u8 d 13
  let start := 256 * u16 d 28
  let n := min n size
  let o := a % size
  if o + n ≤ size then [(start + o, n)] else [(start + o, size - o), (start, n - (size - o))]

/-- Local ranges that an operand of `n` bytes reads first: its own, or what its stream holds in the ring. -/
def opReads (x : Ctx) (w n : Nat) : List (Nat × Nat) :=
  if opStream w then
    match handleOf x (opHandle w) with
    | some h => ringRanges h.cmd h.consumed (min n (h.ringed - h.consumed))
    | none => []
  else [(opAddr w, n)]

/-- The prefetcher of a stream (R290): it fetches while what is fetched and not consumed stays at or below WIN × 1,024, and moves
bytes into the ring, in order, as far as the ring has space. -/
def State.pump (s : State) (x : Ctx) (h : StreamH) : StreamH × State :=
  let got := h.ringed + h.ahead.length
  let want := min (1024 * u16 h.cmd 6 - (got - h.consumed)) (h.total - got)
  let r := s.streamBytes x h.cmd got want
  let ahead := h.ahead ++ r.1
  let n := min (2 ^ u8 h.cmd 13 - (h.ringed - h.consumed)) ahead.length
  ({ h with ringed := h.ringed + n, ahead := ahead.drop n }, r.2.ringWrite x h.cmd h.ringed (ahead.take n))

/-- Take the next `n` bytes of a stream from its ring, which the prefetcher refills as they go; `fuel` bounds the refills. -/
def State.takeStream (x : Ctx) : Nat → State → StreamH → Nat → Bytes → Bytes × StreamH × State
  | 0, s, h, _, acc => (acc, h, s)
  | fuel + 1, s, h, n, acc =>
    let m := min n (h.ringed - h.consumed)
    if m = 0 then (acc, h, s)
    else
      let bs := (ringRanges h.cmd h.consumed m).flatMap fun p => s.locRead x p.1 p.2
      let r := s.pump x { h with consumed := h.consumed + m }
      State.takeStream x fuel r.2 r.1 (n - m) (acc ++ bs)

/-- Read an operand of `n` bytes; a stream's are taken in order and free their ring space (R290). -/
def State.opRead (s : State) (x : Ctx) (w n : Nat) : Bytes × State :=
  if opStream w then
    match handleOf x (opHandle w) with
    | some h =>
      let p := s.pump x h
      let r := State.takeStream x (n + 1) p.2 p.1 n []
      (r.1, r.2.2.onCtx x.id fun y => { y with handles := updFirst (·.handle = h.handle) (fun _ => r.2.1) y.handles })
    | none => (zeros n, s)
  else (s.locRead x (opAddr w) n, s)

/-! ### Fetching command lines (R269) -/

/-- CMD_LINE_FETCH: the next aligned 256-byte line of a slot's list, from where the list lies (R268), when the slot has 8 free entries. The first line may hold
fewer commands, since a list starts on a 64-byte boundary. -/
def State.cmdLineFetch (s : State) (c k : Nat) : State :=
  match s.ctxAt c k with
  | none => s
  | some x =>
    if x.queue ≠ [] || x.idle || x.stopped || decide (x.nextFetch ≥ x.listLen) || !s.fabricUp then s
    else
      let o := x.listAt.off + 32 * x.nextFetch
      let n := min (8 - o / 32 % 8) (x.listLen - x.nextFetch)
      let cmds := (List.range n).map fun i => s.listCmd x (x.nextFetch + i)
      let s := if x.listAt.base = 14 then s.farTouch x 14 o (32 * n)
        else if x.listAt.base = 15 then s
        else s.chargeCtx x (32 * n) State.chargeDram
      s.onCtx x.id fun y => { y with queue := cmds, nextFetch := y.nextFetch + n }

/-! ### Taking an engine (R465) -/

/-- The pass of a TMAC at work at an arithmetic count, and its lookups done by then (R249): none before its first and after its last. -/
def TmacRun.at (r : TmacRun) (now : Nat) : Option (PassIn × Nat) :=
  let t := r.ran + (now - r.start)
  let per := max r.lookups 8
  if t < r.lead then none else (r.passes[(t - r.lead) / per]?).map fun p => (p, min ((t - r.lead) % per) r.lookups)

/-- The 256 cells after `n` lookups of a pass (R254). -/
def PassIn.after (p : PassIn) (width n : Nat) (a8 : Bool) : List AccCell :=
  (List.range 16).flatMap fun i => (List.range 16).map fun j =>
    let v0 := p.init.getD (16 * i + j) 0
    match p.ds[i]?, p.ws[j]? with
    | some d, some w => cellAfter n (d.zip w.1) width a8 w.2 v0
    | _, _ => ⟨v0, false, res3 v0⟩

/-- The accumulators of an unfinished pass go to the save area that the TMAC names, element (i, j) at byte 4 × (16 i + j), with their
flags and residues beside (R254). -/
def State.savePass (s : State) (x : Ctx) : State :=
  match x.tmac, x.outstanding.find? fun o => cmdOp o.cmd = coTmac with
  | some r, some o =>
    if r.saved.isSome then s
    else
      let stop := fun (s : State) (f : Option (List (Bool × Nat))) =>
        s.onCtx x.id fun y =>
          { y with tmac := some { r with ran := r.ran + (s.arithNow - r.start), start := s.arithNow, saved := f } }
      match r.at s.arithNow with
      | some (p, n) =>
        let cells := p.after r.width n r.a8
        stop (s.locWrite x (1024 * u8 o.cmd 26) (cells.flatMap fun c => toLe 4 (wrapN 32 c.value)))
          (some (cells.map fun c => (c.sat, c.residue)))
      | none => stop s (some [])
  | _, _ => s

/-- The pass goes on: its accumulators are loaded from the save area again (R254). -/
def State.loadPass (s : State) (x : Ctx) (c : Nat) : State :=
  match x.tmac, x.outstanding.find? fun o => cmdOp o.cmd = coTmac with
  | some r, some o =>
    match r.saved with
    | none => s
    | some f =>
      let area := s.locRead x (1024 * u8 o.cmd 26) 1024
      let cells := f.zipIdx.map fun e => (⟨s32 area (4 * e.2), e.1.1, e.1.2⟩ : AccCell)
      let s := if f = [] then s else s.onCarrel c fun k => { k with accSets := (cells :: k.accSets).take 2 }
      s.onCtx x.id fun y => { y with tmac := some { r with start := s.arithNow, saved := none } }
  | _, _ => s

/-- ENGINE_PREEMPT: the LC context in the slot takes the array or the vector unit from the BE contexts that run on it; an ATTN takes
and yields both together. Each context that yields is a pre-emption suffered (R490), and a pass of the array is saved (R254). -/
def State.enginePreempt (s : State) (c k : Nat) (vec : Bool) : State :=
  match s.ctxAt c k with
  | none => s
  | some x =>
    match x.queue with
    | [] => s
    | d :: _ =>
      let need := opClass (cmdOp d)
      let mask := if need = 6 then 6 else if vec then 4 else 2
      if !x.lc || x.stopped || x.idle || need &&& mask = 0 || x.busy mask then s
      else
        let victims := (s.residents c).filter fun p => !p.2.lc && p.2.busy mask && p.2.id ≠ x.id
        victims.foldl (fun s p =>
          let both := p.2.outstanding.any fun o => o.cls = 6
          let bits := if both then 3 else (if mask &&& 2 ≠ 0 && p.2.busy 2 then 1 else 0) ||| (if mask &&& 4 ≠ 0 && p.2.busy 4 then 2 else 0)
          let s := if bits &&& 1 ≠ 0 then s.savePass p.2 else s
          (s.onCtx p.2.id fun y => { y with taken := y.taken ||| bits }).chargeWait (s.clientOf p.2) 0 1) s

/-- A context has a command at work on an engine of a mask: outstanding, and its engine not taken. -/
def Ctx.runsOn (x : Ctx) (mask : Nat) : Bool :=
  x.outstanding.any fun o =>
    (o.cls &&& mask &&& 2 ≠ 0 && !x.taken.testBit 0) || (o.cls &&& mask &&& 4 ≠ 0 && !x.taken.testBit 1)

/-- An LC context of the carrel runs on an engine of a mask, waits for it, or has it taken from it. -/
def State.lcNeeds (s : State) (c mask : Nat) : Bool :=
  (s.residents c).any fun p =>
    p.2.lc && (p.2.busy mask ||
      (!p.2.idle && !p.2.stopped && match p.2.queue with | d :: _ => opClass (cmdOp d) &&& mask ≠ 0 | [] => false))

/-- A context gets its taken engines back: for a BE one once no LC command of the carrel needs them, and only from a context that is
not running on them (R465). An ATTN gets both together; a saved pass goes on (R254). -/
def State.returnTo (s : State) (c id : Nat) : State :=
  match s.ctx? id with
  | none => s
  | some x =>
    if x.taken = 0 then s
    else
      let held := fun mask => (!x.lc && s.lcNeeds c mask) || (s.residents c).any fun p => p.2.id ≠ id && p.2.runsOn mask
      let both := x.outstanding.any fun o => o.cls = 6
      let keepA := held 2 || (both && held 4)
      let keepV := held 4 || (both && held 2)
      let s := s.onCtx id fun y =>
        { y with taken := (if keepA then y.taken &&& 1 else 0) ||| (if keepV then y.taken &&& 2 else 0) }
      if keepA then s else s.loadPass x c

/-- Every context of a carrel gets the engines back that nothing holds from it any more (R465). -/
def State.returnEngines (s : State) (c : Nat) : State :=
  ((s.residents c).map (·.2.id)).foldl (fun s id => s.returnTo c id) s

/-! ### Meanings -/

def execCmdLineFetch (c k : Nat) (s : State) : Result := .next (s.whenOn fun s => s.cmdLineFetch c k)
def execEnginePreempt (c k : Nat) (vec : Bool) (s : State) : Result := .next (s.whenOn fun s => s.enginePreempt c k vec)

end Sys2Proof.Machine
end

