-- ==== Sys2Proof/Machine/Move.lean ====
section
/-! DEFINITION. The data-movement and synchronisation commands: LOAD and STORE (R287), STREAM (R289), EXPAND (R302, R307 to R316),
PACK (R303), FENCE, SIGNAL, WAITSIG and NOP (R281 to R284, R304). A command's data moves when it issues (assumption 10). -/

namespace Sys2Proof.Machine

/-! ### LOAD and STORE -/

/-- Far offset of row `i` of a LOAD or STORE. -/
def rowFar (d : Bytes) (i : Nat) : Int := (farOff (u40 d 4) : Int) + s32 d 16 * i

/-- Local address of row `i`. -/
def rowScr (d : Bytes) (i : Nat) : Int := (opAddr (u32 d 20) : Int) + s32 d 24 * i

/-- Scratch bytes of one row (R288). -/
def rowScrBytes (d : Bytes) : Nat := if u8 d 9 = 0 then u16 d 12 else u16 d 12 / 4 * 5

/-- The first fault of a two-dimensional transfer: on the far side, then on the scratch side. -/
def State.farRowsFault (s : State) (x : Ctx) (d : Bytes) : Option Nat :=
  (List.range (u16 d 10)).findSome? fun i => s.farFault x (farBase (u40 d 4)) (rowFar d i) (u16 d 12)

def State.scrRowsFault (s : State) (x : Ctx) (d : Bytes) : Option Nat :=
  (List.range (u16 d 10)).findSome? fun i => s.locFault x (rowScr d i) (rowScrBytes d)

/-- The local ranges of the rows, once they are known to lie inside the space. -/
def scrRows (d : Bytes) : List (Nat × Nat) := (List.range (u16 d 10)).map fun i => ((rowScr d i).toNat, rowScrBytes d)

/-- Tiles that a transfer overlays are no tiles of their tensors any more. -/
def Ctx.dropTiles (x : Ctx) (l : List (Nat × Nat)) : Ctx :=
  { x with tiles := x.tiles.filter fun t => l.all fun p => decide (t.addr + t.bytes ≤ p.1) || decide (p.1 + p.2 ≤ t.addr) }

/-- LOAD (R287, R288): rows from far memory to scratch, in array form when XFORM asks. -/
def State.load (s : State) (c : Nat) (x : Ctx) (d : Bytes) : Eff :=
  let b := farBase (u40 d 4)
  match s.farRowsFault x d, s.scrRowsFault x d with
  | some a, _ => farErr s x c d a
  | none, some a => scratchErr s x c d a
  | none, none =>
    touching s x c [] (scrRows d) fun s =>
      .ok (((List.range (u16 d 10)).foldl (fun s i =>
        let o := (rowFar d i).toNat
        let s := s.farTouch x b o (u16 d 12)
        let r := s.farRead x b o (u16 d 12)
        r.2.locWrite x (rowScr d i).toNat (xformBytes (u8 d 9) r.1)) s).onCtx x.id fun y => y.dropTiles (scrRows d))

/-- STORE (R287): rows from scratch to far memory. -/
def State.store (s : State) (c : Nat) (x : Ctx) (d : Bytes) : Eff :=
  let b := farBase (u40 d 4)
  match s.farRowsFault x d, s.scrRowsFault x d with
  | some a, _ => farErr s x c d a
  | none, some a => scratchErr s x c d a
  | none, none =>
    touching s x c (scrRows d) [] fun s =>
      .ok ((List.range (u16 d 10)).foldl (fun s i =>
        let o := (rowFar d i).toNat
        let bs := s.locRead x (rowScr d i).toNat (u16 d 12)
        (s.farTouch x b o (u16 d 12)).farWrite x b o bs) s)

/-! ### STREAM -/

/-- The far offsets of a stream's rows, for its range check and its traffic. -/
def streamRows (d : Bytes) : List Int :=
  (List.range (u16 d 22)).flatMap fun i2 => (List.range (u16 d 20)).map fun i1 =>
    (farOff (u40 d 8) : Int) + s32 d 24 * i2 + s32 d 16 * i1

/-- STREAM (R289 to R291): opens the handle on a prefetcher and a scratch ring. -/
def State.stream (s : State) (c : Nat) (x : Ctx) (d : Bytes) : Eff :=
  let b := farBase (u40 d 8)
  match (streamRows d).findSome? fun o => s.farFault x b o (u16 d 14) with
  | some a => farErr s x c d a
  | none =>
    match s.locFault x (256 * u16 d 28 : Nat) (2 ^ u8 d 13) with
    | some a => scratchErr s x c d a
    | none =>
      let s := (streamRows d).foldl (fun s o => s.farTouch x b o.toNat (u16 d 14)) s
      let h := u8 d 4 % 4
      let ring := [(256 * u16 d 28, 2 ^ u8 d 13)]
      touching s x c [] ring fun s =>
        let p := s.pump x ⟨h, d, streamTotal d, 0, 0, []⟩
        .ok (p.2.onCtx x.id fun y => { y.dropTiles ring with handles := y.handles.filter (·.handle ≠ h) ++ [p.1] })

/-! ### EXPAND -/

def exFmt (d : Bytes) : Nat := u8 d 9
def exKh (d : Bytes) : Nat := bitsN (u8 d 10) 0 4
def exKw (d : Bytes) : Nat := bitsN (u8 d 10) 4 4
def exSh (d : Bytes) : Nat := bitsN (u8 d 11) 0 4
def exSw (d : Bytes) : Nat := bitsN (u8 d 11) 4 4
def exPt (d : Bytes) : Nat := bitsN (u16 d 12) 0 3
def exPb (d : Bytes) : Nat := bitsN (u16 d 12) 3 3
def exPl (d : Bytes) : Nat := bitsN (u16 d 12) 6 3
def exPr (d : Bytes) : Nat := bitsN (u16 d 12) 9 3
def exW (d : Bytes) : Nat := u16 d 14
def exH (d : Bytes) : Nat := u16 d 16
def exCh (d : Bytes) : Nat := u16 d 18
def exPitch (d : Bytes) : Nat := u32 d 20
def exY0 (d : Bytes) : Nat := u16 d 24
def exRows (d : Bytes) : Nat := u16 d 26
def exDst (d : Bytes) : Nat := u32 d 28

/-- floor((size + pads − kernel) / stride) + 1 (R307). -/
def outSize (size pads kernel stride : Nat) : Int := ((size : Int) + pads - kernel) / (stride : Int) + 1

def exOutH (d : Bytes) : Int := outSize (exH d) (exPt d + exPb d) (exKh d) (exSh d)
def exOutW (d : Bytes) : Int := outSize (exW d) (exPl d + exPr d) (exKw d) (exSw d)

/-- BP: bytes of one pixel's codes (R313). -/
def exBp (d : Bytes) : Nat := fmtBytes (exFmt d) (exCh d)

/-- K and RP of R312. -/
def exK (d : Bytes) : Nat := exKh d * exKw d * exCh d
def exRp (d : Bytes) : Nat := roundUp (fmtBytes (exFmt d) (exK d)) 32

/-- PADLEN of R314. -/
def exPadLen (d : Bytes) : Nat := roundUp (exBp d) 64

/-- Source row or column covered by tap `k` of output index `o` (R312). -/
def exSrcAt (o stride pad k : Nat) : Int := (o : Int) * stride - pad + k

def inImage (size : Nat) (v : Int) : Bool := decide (0 ≤ v) && decide (v < size)

/-- The source rows that an EXPAND reads, and the columns, without the padded ones (R315). -/
def exCovered (o0 n stride pad kernel size : Nat) : List Nat :=
  (((List.range n).flatMap fun i => (List.range kernel).filterMap fun k =>
    let v := exSrcAt (o0 + i) stride pad k
    if inImage size v then some v.toNat else none)).eraseDups

/-- Bytes requested for one covered row: the 32-byte granules that the covered pixels touch (R315). -/
def exRowTraffic (d : Bytes) (rowOff : Nat) (cols : List Nat) : Nat :=
  32 * ((cols.flatMap fun c =>
    let a := rowOff + c * exBp d
    (List.range ((a + exBp d + 31) / 32 - a / 32)).map fun i => a / 32 + i)).eraseDups.length

/-- The codes of one pixel: from the plane, or from the pad pixel outside it (R313). -/
def State.exPixel (s : State) (x : Ctx) (d : Bytes) (y v : Int) : List Nat × State :=
  let bp := exBp d
  if inImage (exH d) y && inImage (exW d) v then
    let o := farOff (u40 d 4) + y.toNat * exPitch d + v.toNat * bp
    let r := s.farRead x (farBase (u40 d 4)) o bp
    ((List.range (exCh d)).map (rawAt (exFmt d) r.1), r.2)
  else
    let first := match x.expand with | some g => g.1 | none => 0
    ((List.range (exCh d)).map (rawAt (exFmt d) ((s.shelfOf x.bay).read first bp)), s)

/-- One expanded row: the codes of every tap with no gap between taps, zero to the end of RP (R312). -/
def State.exRow (s : State) (x : Ctx) (d : Bytes) (oy ox : Nat) : Bytes × State :=
  let taps := (List.range (exKh d)).flatMap fun ky => (List.range (exKw d)).map fun kx => (ky, kx)
  let r := taps.foldl (fun p t =>
    let q := p.2.exPixel x d (exSrcAt oy (exSh d) (exPt d) t.1) (exSrcAt ox (exSw d) (exPl d) t.2)
    (p.1 ++ q.1, q.2)) (([] : List Nat), s)
  let bs := packCodes (exFmt d) r.1
  (bs ++ zeros (exRp d - bs.length), r.2)

/-- The base that the stage binds to its expansion grant (R311, R435). -/
def State.grantBase (s : State) (x : Ctx) : Nat :=
  ((s.folioOf x).bind fun f => (f.bindings.find? fun e => e.1 = x.plan.stage && e.2.2.1 = 4).map (·.2.1)).getD 0

/-- EXPAND (R307 to R316): the windows of OUT_ROWS output rows into the expansion grant. -/
def State.expand (s : State) (c : Nat) (x : Ctx) (d : Bytes) : Eff :=
  let b := farBase (u40 d 4)
  let grant := x.expand.getD (0, 0)
  let outW := (exOutW d).toNat
  let rows := exRows d
  let last := exDst d + rows * outW * exRp d
  if rows = 0 || (exY0 d + rows : Int) > exOutH d || exDst d < exPadLen d then farErr s x c d (u40 d 4)
  else if last > grant.2 then farErr s x c d (s.grantBase x * 2 ^ 36 + max (exDst d) grant.2)
  else
    let ys := exCovered (exY0 d) rows (exSh d) (exPt d) (exKh d) (exH d)
    let xs := exCovered 0 outW (exSw d) (exPl d) (exKw d) (exW d)
    let base := farOff (u40 d 4)
    match ys.findSome? fun y => xs.findSome? fun v => s.farFault x b (base + y * exPitch d + v * exBp d : Nat) (exBp d) with
    | some a => farErr s x c d a
    | none =>
      let s := ys.foldl (fun s y =>
        let o := base + y * exPitch d
        s.farTouch x b (o + (xs.foldl min (xs.headD 0)) * exBp d)
          (exRowTraffic d ((s.far x b).addr + o) xs)) s
      .ok ((List.range rows).foldl (fun s i => (List.range outW).foldl (fun s ox =>
        let r := s.exRow x d (exY0 d + i) ox
        r.2.onShelf x.bay fun m => m.write (grant.1 + exDst d + (i * outW + ox) * exRp d) r.1) s) s)

/-! ### PACK (R303, R151, R152) -/

/-- Offsets in a packed row: the segment table, the segment index, the positions. -/
def rowSegEntry (g : Nat) : Nat := 64 + 16 * g
def rowIndexOff : Nat := 1088
def rowPosOff : Nat := 5184

/-- PACK: positions of a line image, their SEG_INDEX bytes, and START, LENGTH, LINE and PIECE of the segment entry. -/
def State.pack (s : State) (c : Nat) (x : Ctx) (d : Bytes) : Eff :=
  let w := u16 d 10
  let n := ceilDiv w 8
  let start := u16 d 22
  let src := u40 d 4
  let row := u40 d 16
  let seg := u8 d 21
  let so := fun r : Nat => farOff src + u32 d 12 * r
  if n > 1024 || start + n > 4096 then commandErr s x c d row
  else
    let ro := farOff row
    let rb := farBase row
    let wr := [(ro + rowPosOff + 256 * start, 256 * n), (ro + rowIndexOff + start, n), (ro + rowSegEntry seg, 13)]
    match (List.range 32).findSome? fun r => s.farFault x (farBase src) (so r : Nat) w with
    | some a => farErr s x c d a
    | none =>
      match wr.findSome? fun p => s.farFault x rb (p.1 : Nat) p.2 with
      | some a => farErr s x c d a
      | none =>
        let p := (List.range 32).foldl (fun (p : List Bytes × State) r =>
          let s := p.2.farTouch x (farBase src) (so r) w
          let q := s.farRead x (farBase src) (so r) w
          (p.1 ++ [q.1], q.2)) ([], s)
        let lines := p.1
        let pos := (List.range n).flatMap fun k => (List.range 256).map fun b =>
          let col := 8 * k + b % 8
          if col < w then (lines.getD (b / 8) []).getD col 0 else 0xFF
        let s := wr.foldl (fun s e => s.farTouch x rb e.1 e.2) p.2
        let s := s.farWrite x rb (ro + rowPosOff + 256 * start) pos
        let s := s.farWrite x rb (ro + rowIndexOff + start) (List.replicate n (BitVec.ofNat 8 seg))
        let s := s.farWrite x rb (ro + rowSegEntry seg) (toLe 2 start ++ toLe 2 n)
        let s := s.farWrite x rb (ro + rowSegEntry seg + 6) (toLe 2 (u16 d 24))
        .ok (s.farWrite x rb (ro + rowSegEntry seg + 12) (toLe 1 (u8 d 26)))

/-! ### FENCE, SIGNAL, WAITSIG, NOP: they issue once their condition holds, which `accepts` checks -/

/-- SIGNAL (R282, R283, R304): adds to a counter modulo 2^32, or sets it. -/
def State.signal (s : State) (x : Ctx) (d : Bytes) : Eff :=
  .ok (s.onJobNum x.jobNumber fun j =>
    { j with signals := j.signals.modify (u8 d 4) fun v =>
        if u8 d 6 = 0 then (v + u32 d 8) % 2 ^ 32 else u32 d 8 })

/-! ### Meanings -/

def execLoad (c k now : Nat) (s : State) : Result :=
  .next (s.whenOn fun s => s.issue c k now coLoad true fun s x d => s.load c x d)
def execStore (c k now : Nat) (s : State) : Result :=
  .next (s.whenOn fun s => s.issue c k now coStore true fun s x d => s.store c x d)
def execStream (c k now : Nat) (s : State) : Result :=
  .next (s.whenOn fun s => s.issue c k now coStream true fun s x d => s.stream c x d)
def execExpand (c k now : Nat) (s : State) : Result :=
  .next (s.whenOn fun s => s.issue c k now coExpand true fun s x d => s.expand c x d)
def execPack (c k now : Nat) (s : State) : Result :=
  .next (s.whenOn fun s => s.issue c k now coPack true fun s x d => s.pack c x d)
def execFence (c k now : Nat) (s : State) : Result :=
  .next (s.whenOn fun s => s.issue c k now coFence false fun s _ _ => .ok s)
def execSignal (c k now : Nat) (s : State) : Result :=
  .next (s.whenOn fun s => s.issue c k now coSignal false fun s x d => s.signal x d)
def execWaitsig (c k now : Nat) (s : State) : Result :=
  .next (s.whenOn fun s => s.issue c k now coWaitsig false fun s _ _ => .ok s)
def execCmdNop (c k now : Nat) (s : State) : Result :=
  .next (s.whenOn fun s => s.issue c k now coNop false fun s _ _ => .ok s)

end Sys2Proof.Machine
end

