-- ==== Sys2Proof/Machine/Array.lean ====
section
/-! DEFINITION. The array and vector commands: TMAC (R241 to R256, R293 to R295), REQ (R296), VEC (R298 to R300) and ARGMAX (R302,
R326, R328). -/

namespace Sys2Proof.Machine

/-! ### Zero points and codebooks of a TMAC's operands

A TMAC does not name its tensors. An operand in scratch that a REQ of the context has written is that REQ's tensor; otherwise the
folio's KVEC fix-up for the output tensor of its REQ names the input tensor and the scale table (R436). Where neither settles one,
the value is free (assumption 12). -/

/-- The input tensor and scale table of an output tensor, when every KVEC fix-up for it agrees. -/
def Folio.link (f : Folio) (tensor : Nat) : Option (Nat × Nat) :=
  let c := (f.fixups.filter fun e => e.1 = 0 && e.2.2.1 = tensor).map fun e => (e.2.1, e.2.2.2.1)
  match c with
  | [] => none
  | a :: rest => if rest.all (· = a) then some a else none

/-- The tensor number that a TMAC's drain is counted against: its own ACCT, or TENSOR of its pair (R293, R296). -/
def State.drainTensor (s : State) (x : Ctx) (d : Bytes) : Nat :=
  if bitN (u8 d 25) 4 then u16 d 28 else u16 (s.listCmd x (x.nextIssue + 1)) 18

/-- The tile in a context's scratch that holds an operand's first byte. -/
def Ctx.tileAt (x : Ctx) (w : Nat) : Option Tile :=
  if opStream w then none else x.tiles.find? fun t => decide (t.addr ≤ opAddr w) && decide (opAddr w < t.addr + t.bytes)

/-- The static zero point of channel `c` of a tensor entry (R219, R226). -/
def State.staticZero (s : State) (f : Folio) (q : Bytes) (c : Nat) : Int :=
  if bitN (u8 q 1) 0 then ((u16 (s.dramRead (f.addr + u32 q 8 + 2 * (c % max 1 (u16 q 6))) 2) 0 : Nat) : Int)
  else ((u16 q 4 : Nat) : Int)

/-- d of a code of a range-mode tile (R242), by the channel records of R237: of `cols` channels, the one of reduction index `k`. -/
def rangeD (recs : Bytes) (cols dshift k : Nat) (q : Int) : Int :=
  let o := 4 * (k % cols)
  if bitN (u8 recs (o + 3)) 0 then rneShift (-(s16 recs o)) dshift else q - s16 recs o

/-- The tensor that the row operand of a TMAC holds, with its entry. -/
def State.rowTensor (s : State) (x : Ctx) (d : Bytes) : Option (Folio × Bytes) :=
  (s.folioOf x).bind fun f =>
    let n : Option Nat := match x.tileAt (u32 d 4) with
      | some t => some t.tensor
      | none => (f.link (s.drainTensor x d)).map fun e => e.1
    n.map fun n => (f, f.quant.getD n [])

/-- d of a code of the row operand at a reduction index (R219, R242). -/
def State.rowDiff (s : State) (x : Ctx) (d : Bytes) (afmt : Nat) : (Nat → Int → Int) × State :=
  match s.rowTensor x d with
  | some (f, q) =>
    if bitN (u8 q 1) 1 then
      let ds := (s8 q 2 - s8 q 3).toNat
      match (x.tileAt (u32 d 4)).bind fun t => t.recs.map fun a => (a, max 1 t.cols) with
      | some (a, cols) => (rangeD (s.locRead x a (4 * cols)) cols ds, s)
      | none =>
        let ch := max 1 (u16 q 6)
        let r := s.drawBytes (4 * ch)
        (rangeD r.1 ch ds, r.2)
    else (fun k v => v - s.staticZero f q k, s)
  | none =>
    if afmt = fmA8S then (fun _ v => v, s)
    else
      let r := s.drawBytes 1
      (fun _ v => v - ((r.1.headD 0).toNat % ((codeRange afmt).2.toNat + 1) : Int), r.2)

/-- The codebook of WC4 and WC16 weights (R218). -/
def State.tmacBook (s : State) (x : Ctx) (d : Bytes) (wfmt : Nat) : List Int × State :=
  if wfmt ≠ fmWC4 && wfmt ≠ fmWC16 then ([], s)
  else
    match (s.folioOf x).bind fun f => (f.link (s.drainTensor x d)).map fun e => (f, e.2) with
    | some (f, scale) =>
      let t := s.dramRead (f.addr + scale + 16) 32
      ((codebook ((List.range 16).map fun i => u16 t (2 * i))).2, s)
    | none =>
      let r := s.drawBytes 16
      (r.1.map fun b => clampI (-127) 127 (sext 8 b.toNat), r.2)

/-- z_j of an A8U column operand by output column (R246, R247): of its tile's tensor; free where no tile says which tensor it is. -/
def State.colZero (s : State) (x : Ctx) (d : Bytes) (wfmt : Nat) : (Nat → Int) × State :=
  if wfmt = fmA8U then
    match (s.folioOf x).bind fun f => (x.tileAt (u32 d 8)).map fun t => (f, f.quant.getD t.tensor []) with
    | some (f, q) => (s.staticZero f q, s)
    | none =>
      let r := s.drawBytes (u16 d 18)
      (fun n => ((r.1.getD n 0).toNat : Int), r.2)
  else (fun _ => 0, s)

/-! ### TMAC -/

def tmM (d : Bytes) : Nat := u16 d 16
def tmN (d : Bytes) : Nat := u16 d 18
def tmK (d : Bytes) : Nat := u32 d 20
def tmWfmt (d : Bytes) : Nat := bitsN (u8 d 24) 0 4
def tmAfmt (d : Bytes) : Nat := bitsN (u8 d 24) 4 4
def tmInit (d : Bytes) : Bool := bitN (u8 d 25) 2
def tmA8 (d : Bytes) : Bool := bitN (u8 d 25) 3
def tmDrain (d : Bytes) : Bool := bitN (u8 d 25) 4

/-- Group size G, 0 for none (R293). -/
def tmGroup (d : Bytes) : Nat := match bitsN (u8 d 25) 0 2 with | 0 => 0 | 1 => 32 | 2 => 64 | _ => 128

def tmMt (d : Bytes) : Nat := ceilDiv (tmM d) 16
def tmNt (d : Bytes) : Nat := ceilDiv (tmN d) 16

/-- Row pitches of R273. -/
def tmPitchA (d : Bytes) : Nat := roundUp (fmtBytes (tmAfmt d) (tmK d)) 32
def tmPitchW (d : Bytes) : Nat := roundUp (fmtBytes (tmWfmt d) (tmK d)) 32
def tmPitchG (d : Bytes) : Nat := roundUp (ceilDiv (ceilDiv (tmK d) (tmGroup d)) 2) 16

/-- Lookups of one pass and the cycles of the command (R249). -/
def tmLookups (d : Bytes) : Nat := if tmA8 d then 2 * tmK d else ceilDiv (tmK d) (lookupWidth (tmWfmt d))
def tmCycles (d : Bytes) : Nat := 2 + (if tmInit d then 8 else 0) + tmMt d * tmNt d * max (tmLookups d) 8

/-- Rows of tile `t` of `n` rows. -/
def tileRows (n t : Nat) : Nat := min 16 (n - 16 * t)

/-- Bytes that the whole command takes of a streamed A and W operand (R294). -/
def tmStreamA (d : Bytes) : Nat := tmNt d * tmM d * tmPitchA d
def tmStreamW (d : Bytes) : Nat := tmMt d * tmN d * tmPitchW d

/-- Where row `i` of row tile `mt` lies in the A bytes of pass (mt, nt); W likewise (R294). -/
def tmRowA (d : Bytes) (stream : Bool) (mt nt i : Nat) : Nat :=
  ((if stream then nt * tmM d else 0) + 16 * mt + i) * tmPitchA d
def tmRowW (d : Bytes) (stream : Bool) (mt nt j : Nat) : Nat :=
  (if stream then 16 * nt * tmMt d + mt * tileRows (tmN d) nt + j else 16 * nt + j) * tmPitchW d

/-- What a pass needs besides its place: the operand bytes, d by reduction index, codebook, group shifts, z_j by output column. -/
structure TmacIn where
  a : Bytes
  w : Bytes
  aStream : Bool
  wStream : Bool
  diff : Nat → Int → Int
  book : List Int
  gsh : Bytes
  zCol : Nat → Int

/-- The d of one row of A (R242). -/
def TmacIn.rowD (t : TmacIn) (d : Bytes) (mt nt i : Nat) : List Int :=
  let row := (t.a.drop (tmRowA d t.aStream mt nt i)).take (tmPitchA d)
  (List.range (tmK d)).map fun k => t.diff k (codeAt (tmAfmt d) row k)

/-- The code values of one row of W (R216), or the codes of an A8 column operand (R247). -/
def TmacIn.rowW (t : TmacIn) (d : Bytes) (mt nt j : Nat) : List Int :=
  let row := (t.w.drop (tmRowW d t.wStream mt nt j)).take (tmPitchW d)
  (List.range (tmK d)).map fun k =>
    if tmA8 d then codeAt (tmWfmt d) row k else weightValue (tmWfmt d) t.book (rawAt (tmWfmt d) row k)

/-- The group shifts g − m_r of output row `n` (R224, R273). -/
def TmacIn.shifts (t : TmacIn) (d : Bytes) (n : Nat) : Option (Nat × List Nat) :=
  if tmGroup d = 0 then none
  else
    let row := (t.gsh.drop (n * tmPitchG d)).take (tmPitchG d)
    some (tmGroup d, (List.range (ceilDiv (tmK d) (tmGroup d))).map fun g => bitsN (u8 row (g / 2)) (4 * (g % 2)) 4)

/-- The operands of pass (mt, nt) (R252, R294). -/
def State.tmPass (s : State) (x : Ctx) (d : Bytes) (t : TmacIn) (mt nt : Nat) : PassIn :=
  let init := if tmInit d then s.locRead x (256 * u16 d 30 + 1024 * (nt * tmMt d + mt)) 1024 else zeros 1024
  { ds := (List.range (tileRows (tmM d) mt)).map fun i => t.rowD d mt nt i
    ws := (List.range (tileRows (tmN d) nt)).map fun j => (t.rowW d mt nt j, t.shifts d (16 * nt + j))
    init := (List.range 256).map fun e => s32 init (4 * e) }

/-- Products to a lookup. -/
def tmWidth (d : Bytes) : Nat := if tmA8 d then 1 else lookupWidth (tmWfmt d)

/-- The 16 × 16 cells of a whole pass of column tile `nt`, row by row; idle cells keep their initial value (R245, R247, R294). -/
def PassIn.cells (p : PassIn) (width nt : Nat) (zCol : Nat → Int) : List AccCell :=
  (List.range 16).flatMap fun i => (List.range 16).map fun j =>
    let v0 := p.init.getD (16 * i + j) 0
    match p.ds[i]?, p.ws[j]? with
    | some d, some w => cellPass (d.zip w.1) width w.2 v0 (zCol (16 * nt + j))
    | _, _ => ⟨v0, false, res3 v0⟩

/-- Count one REQ, or one drain to registers, against a tensor of the job (R231, R253). -/
def State.countTensor (s : State) (jobNumber tensor sat zc elems : Nat) : State :=
  s.onJobNum jobNumber fun j =>
    let cap := fun a b => satAdd (2 ^ 32 - 1) a b
    if j.counts.any (·.tensor = tensor) then
      { j with counts := j.counts.map fun c =>
          if c.tensor = tensor then ⟨tensor, cap c.sat sat, cap c.zc zc, c.elems + elems⟩ else c }
    else { j with counts := j.counts ++ [⟨tensor, min sat (2 ^ 32 - 1), min zc (2 ^ 32 - 1), elems⟩] }

/-- An injected residue error corrupts the residue of cell (0, 0) at the next drain (R267): the first drained cell, and the state
with the injection spent. -/
def State.injectResidue (s : State) (c : Nat) (cells : List AccCell) : List AccCell × State :=
  if s.regB rCarInject 10 && s.regF rCarInject 0 8 = c && s.regF rCarInject 8 2 = 3 then
    let r := (s.setRegF rCarInject 10 1 0).drawBytes 1
    match cells with
    | a :: rest => ({ a with residue := (a.residue + 1 + (r.1.headD 0).toNat % 2) % 3 } :: rest, r.2)
    | [] => ([], r.2)
  else (cells, s)

/-- The first drained cell whose residue does not match, skipping saturated ones, as DETAIL of R554 (R256); cells of a matrix
with `cols` columns, tile coordinates. -/
def residueFault (cols : Nat) (cells : List AccCell) : Option Nat :=
  (cells.zipIdx.find? fun p => !p.1.sat && res3 p.1.value ≠ p.1.residue).map fun p =>
    p.2 / cols % 16 + p.2 % cols % 16 * 16 + p.1.residue * 256 + res3 p.1.value * 1024

/-- The record of a residue mismatch; the drained set is not written anywhere (R256). -/
def residueErr (s : State) (c detail : Nat) : Eff :=
  .err (s.bumpSat (rCarErrcnt c) 16 8 1) ekResidue (unitCarrel c 1) detail

/-- DRAIN 1 (R251, R253): row i of the tile goes to lanes 16 × (i mod 2) + j of register VREG + i div 2. -/
def State.drainRegs (s : State) (x : Ctx) (c : Nat) (d : Bytes) (cells : List AccCell) : Eff :=
  let r := s.injectResidue c cells
  match residueFault 16 r.1 with
  | some det => residueErr r.2 c det
  | none =>
    let v := u8 d 27
    let sats := ((List.range (tmM d)).flatMap fun i => (List.range (tmN d)).map fun j =>
      b2n ((r.1[16 * i + j]?).any (·.sat))).sum
    let s := r.2.countTensor x.jobNumber (u16 d 28) sats 0 0
    .ok (s.onCtx x.id fun y =>
      { y with vregs := (List.range 8).foldl (fun l q =>
          l.set (v + q) ((List.range 32).map fun lane =>
            BitVec.ofInt 32 (((r.1[32 * q + lane]?).map (·.value)).getD 0))) y.vregs })

/-- TMAC (R241 to R254, R293 to R295). With DRAIN 0 the drained matrix waits for its REQ or KVAPP. -/
def State.tmac (s : State) (c now : Nat) (x : Ctx) (d : Bytes) : Eff :=
  let opA := u32 d 4
  let opW := u32 d 8
  let nA := if opStream opA then tmStreamA d else tmM d * tmPitchA d
  let nW := if opStream opW then tmStreamW d else tmN d * tmPitchW d
  let nG := if tmGroup d = 0 then 0 else tmN d * tmPitchG d
  let ranges := opRange opA nA ++ opRange opW nW ++ [(opAddr (u32 d 12), nG), (1024 * u8 d 26, 1024),
    (256 * u16 d 30, if tmInit d then 1024 * tmMt d * tmNt d else 0)]
  match s.locFaults x ranges with
  | some a => scratchErr s x c d a
  | none =>
    if !opReady x opA nA || !opReady x opW nW then .wait
    else
      let reads := opReads x opA nA ++ opReads x opW nW ++ [(opAddr (u32 d 12), nG),
        (256 * u16 d 30, if tmInit d then 1024 * tmMt d * tmNt d else 0)]
      touching s x c reads [] fun s =>
        let ra := s.opRead x opA nA
        let rw := ra.2.opRead ((ra.2.ctx? x.id).getD x) opW nW
        let rz := rw.2.rowDiff x d (tmAfmt d)
        let rb := rz.2.tmacBook x d (tmWfmt d)
        let rc := if tmA8 d then rb.2.colZero x d (tmWfmt d) else (fun _ => 0, rb.2)
        let s := rc.2
        let t : TmacIn :=
          { a := ra.1, w := rw.1, aStream := opStream opA, wStream := opStream opW, diff := rz.1, book := rb.1,
            gsh := s.locRead x (opAddr (u32 d 12)) nG, zCol := rc.1 }
        let ins := (List.range (tmNt d)).flatMap fun nt => (List.range (tmMt d)).map fun mt => (nt, s.tmPass x d t mt nt)
        let passes := ins.map fun p => p.2.cells (tmWidth d) p.1 t.zCol
        let s := s.onCtx x.id fun y =>
          { y with
            tmac := some
              { start := max s.arithNow now, ran := 0, lead := 2 + (if tmInit d then 8 else 0), lookups := tmLookups d,
                width := tmWidth d, a8 := tmA8 d, passes := ins.map (·.2), saved := none } }
        let s := (s.onCarrel c fun r => { r with accSets := (passes.reverse ++ r.accSets).take 2 }).chargeCtx x
          (tmCycles d) State.chargeArray
        if tmDrain d then (s.chargeCtx x 8 State.chargeArray).drainRegs x c d (passes.headD [])
        else
          let cells := (List.range (tmM d)).flatMap fun i => (List.range (tmN d)).map fun j =>
            ((passes.getD (j / 16 * tmMt d + i / 16) [])[16 * (i % 16) + j % 16]?).getD ⟨0, false, 0⟩
          .ok (s.onCtx x.id fun y => { y with drain := some ⟨tmM d, tmN d, cells⟩ })

/-! ### REQ -/

def rqOfmt (d : Bytes) : Nat := bitsN (u8 d 16) 0 4
def rqPerChannel (d : Bytes) : Bool := bitN (u8 d 16) 4
def rqRange (d : Bytes) : Bool := bitN (u8 d 16) 5
def rqNoBias (d : Bytes) : Bool := bitN (u8 d 16) 6

/-- The operands of a requantisation besides the drain. -/
structure ReqIn where
  k : Bytes
  bias : Bytes
  zvec : Bytes
  /-- Free bytes, two for each channel: a zero point of 32,768, which does not fit the record of R237, stands as these. -/
  open16 : Bytes

/-- One element of a REQ outside range mode (R227, R296). -/
def ReqIn.elem (r : ReqIn) (d : Bytes) (n : Nat) (c : AccCell) : Nat × Requant :=
  let f := rqOfmt d
  let bias := if rqNoBias d then 0 else s32 r.bias (4 * n)
  let k := s8 r.k n
  if f = fmBF16 || f = fmFP32 then
    let p := requantFloat c.value bias k c.sat (f = fmBF16)
    (if f = fmBF16 then bf16Code p.1 else p.1.toNat, p.2)
  else
    let z : Int :=
      if f = fmI32 then 0 else if rqPerChannel d then ((u16 r.zvec (2 * n) : Nat) : Int) else ((u16 d 24 : Nat) : Int)
    let lim := codeRange f
    let q := requant c.value bias k z lim.1 lim.2 c.sat
    (wrapN 32 q.code, q)

/-- The requantised matrix outside range mode: raw codes row by row, saturations, zero-collapses. -/
def ReqIn.plain (r : ReqIn) (d : Bytes) (m : Drain) : List (List Nat) × Nat × Nat :=
  let cells := (List.range m.rows).map fun i => (List.range m.cols).map fun n =>
    r.elem d n ((m.cells[i * m.cols + n]?).getD ⟨0, false, 0⟩)
  (cells.map fun l => l.map (·.1), (cells.map fun l => (l.filter (·.2.sat)).length).sum,
    (cells.map fun l => (l.filter (·.2.zc)).length).sum)

/-- The requantised matrix: raw codes row by row, saturations, zero-collapses, and in range mode the channel records (R235 to
R237) with whether any channel is degenerate. An I32, BF16 or FP32 output has z 0 and no clamp in range mode too (R296): each record
then says zero point 0 and exponent SHIFT (DESIGN CHOICE, assumption 12). -/
def ReqIn.apply (r : ReqIn) (d : Bytes) (m : Drain) (shift : Int) : List (List Nat) × Nat × Nat × Bytes × Bool :=
  if rqRange d && decide (rqOfmt d ≥ fmI32) then
    let q := r.plain d m
    (q.1, q.2.1, q.2.2, (List.range m.cols).flatMap fun _ => [0, 0] ++ toLe 1 (wrapN 8 shift) ++ [0], false)
  else if rqRange d then
    let lim := codeRange (rqOfmt d)
    let chans := (List.range m.cols).map fun n =>
      let bias := if rqNoBias d then 0 else s32 r.bias (4 * n)
      let vals := (List.range m.rows).map fun i =>
        let c := (m.cells[i * m.cols + n]?).getD ⟨0, false, 0⟩
        (c.value + bias, c.sat)
      rangeChannel vals (s8 r.k n) (u8 d 26) shift lim.1 lim.2
    let rows := (List.range m.rows).map fun i => chans.map fun ch => wrapN 8 (((ch.1[i]?).map (·.code)).getD 0)
    let sat := (chans.map fun ch => (ch.1.filter (·.sat)).length).sum
    let zc := (chans.map fun ch => (ch.1.filter (·.zc)).length).sum
    let recs := chans.zipIdx.flatMap fun p =>
      let ch := p.1
      (if ch.2.1 > 32767 then sliceB r.open16 (2 * p.2) 2 else toLe 2 (wrapN 16 ch.2.1)) ++ toLe 1 (wrapN 8 ch.2.2.1) ++ toLe 1 (b2n ch.2.2.2)
    (rows, sat, zc, recs, chans.any (·.2.2.2))
  else
    let q := r.plain d m
    (q.1, q.2.1, q.2.2, [], false)

/-- Row pitch of a REQ output (R273). -/
def rqPitch (d : Bytes) (n : Nat) : Nat := roundUp (fmtBytes (rqOfmt d) n) 32

/-- The local ranges of a REQ's operands for `n` columns: KVEC, BIAS, ZVEC. -/
def rqRanges (d : Bytes) (n : Nat) : List (Nat × Nat) :=
  [(opAddr (u32 d 8), n), (opAddr (u32 d 12), if rqNoBias d then 0 else 4 * n),
   (opAddr (u32 d 20), if rqRange d then 4 * n else if rqPerChannel d then 2 * n else 0)]

def State.rqIn (s : State) (x : Ctx) (d : Bytes) (n : Nat) : ReqIn :=
  { k := s.locRead x (opAddr (u32 d 8)) n
    bias := if rqNoBias d then [] else s.locRead x (opAddr (u32 d 12)) (4 * n)
    zvec := if rqPerChannel d then s.locRead x (opAddr (u32 d 20)) (2 * n) else []
    open16 := [] }

/-- A REQ has written a tile of its tensor; a tile that it overlays is gone. -/
def Ctx.putTile (x : Ctx) (t : Tile) : Ctx :=
  { x with tiles := t :: x.tiles.filter fun o => decide (o.addr + o.bytes ≤ t.addr) || decide (t.addr + t.bytes ≤ o.addr) }

/-- REQ (R227 to R231, R235 to R237, R296). -/
def State.req (s : State) (c : Nat) (x : Ctx) (d : Bytes) : Eff :=
  match x.drain with
  | none => .wait
  | some m =>
    let pitch := rqPitch d m.cols
    let out := opAddr (u32 d 4)
    match s.locFaults x ((out, m.rows * pitch) :: rqRanges d m.cols) with
    | some a => scratchErr s x c d a
    | none =>
      let recs := opAddr (u32 d 20)
      let tile : Tile := ⟨u16 d 18, out, m.rows * pitch, m.cols, if rqRange d then some recs else none⟩
      touching s x c (if rqRange d then (rqRanges d m.cols).take 2 else rqRanges d m.cols)
          ((out, m.rows * pitch) :: if rqRange d then [(recs, 4 * m.cols)] else []) fun s =>
        let r := s.injectResidue c m.cells
        match residueFault m.cols r.1 with
        | some det => residueErr r.2 c det
        | none =>
          let s := r.2
          let shift := match s.jobOf x with
            | some j => s8 (s.quantEntry j (u16 d 18)) 2
            | none => 0
          let f := if rqRange d then s.drawBytes (2 * m.cols) else ([], s)
          let s := f.2
          let q := ({ s.rqIn x d m.cols with open16 := f.1 } : ReqIn).apply d m shift
          let s := (q.1.zipIdx).foldl (fun s p => s.locWrite x (out + p.2 * pitch) (packCodes (rqOfmt d) p.1)) s
          let s := if rqRange d then s.locWrite x recs q.2.2.2.1 else s
          let s := s.countTensor x.jobNumber (u16 d 18) q.2.1 q.2.2.1 (m.rows * m.cols)
          let s := if q.2.2.2.2 then s.onJobNum x.jobNumber fun j => { j with degenerate := true } else s
          let s := s.chargeCtx x 8 State.chargeArray
          .ok (s.onCtx x.id fun y => { y.putTile tile with drain := none })

/-! ### VEC -/

/-- Bytes that a register takes in scratch for each TYPE (R257, R300). -/
def veBytes (ty : Nat) : Nat := match ty with | 0 => 128 | 1 => 64 | 2 => 128 | _ => 32

def viOp (i : Bytes) : Nat := u8 i 0
def viVd (i : Bytes) : Nat := bitsN (u8 i 1) 0 5
def viTy (i : Bytes) : Nat := bitsN (u8 i 1) 5 3
def viAddr (i : Bytes) : Nat := bitsN (u24 i 2) 0 17
def viStep (i : Bytes) : Int := s16 i 5
def viA (i : Bytes) : Nat := bitsN (u8 i 2) 0 5
def viB (i : Bytes) : Nat := bitsN (u8 i 3) 0 5
def viC (i : Bytes) : Nat := bitsN (u8 i 4) 0 5
def viImm (i : Bytes) : Nat := u8 i 5

/-- Lanes loaded from `bs` (R257, R300): BF16 widened, U8 and S8 widened to INT32. -/
def veLoad (ty : Nat) (bs : Bytes) : List Word :=
  (List.range 32).map fun l =>
    match ty with
    | 1 => bf16W (u16 bs (2 * l))
    | 3 => BitVec.ofNat 32 (u8 bs l)
    | 4 => BitVec.ofInt 32 (s8 bs l)
    | _ => BitVec.ofNat 32 (u32 bs (4 * l))

/-- Bytes stored for a register. -/
def veStore (ty : Nat) (v : List Word) : Bytes :=
  v.flatMap fun w =>
    match ty with
    | 1 => toLe 2 (bf16Code w)
    | 3 => toLe 1 w.toNat
    | 4 => toLe 1 w.toNat
    | _ => toLe 4 w.toNat

/-- A float result in its TYPE: FP32, or rounded to BF16 (R259). -/
def veRound (ty : Nat) (w : Word) : Word := if ty = 1 then f32ToBf16 w else w

def boolW (b : Bool) : Word := if b then 1 else 0

/-- CVT (R222, R300): a lane of TYPE `ty` to type `dst`; none where the spec gives no conversion. -/
def veConvert (ty dst : Nat) (w : Word) : Option Word :=
  let asInt := decide (ty ≥ 2)
  match dst with
  | 0 => some (if asInt then f32OfInt w.toInt else (fpOf w).pack 24)
  | 1 => some (if asInt then f32ToBf16 (f32OfInt w.toInt) else f32ToBf16 w)
  | 2 => some (if asInt then w else BitVec.ofInt 32 (f32ToInt w))
  | _ => none

/-- One lane of a lane-wise operation on VA, VB, VC (R259, R300); none where the spec gives no result. -/
def veLane (op ty imm : Nat) (a b c : Word) : Option Word :=
  let sh := imm % 32
  match op with
  | 0x10 => some (veRound ty (f32Add a b))
  | 0x11 => some (veRound ty (f32Sub a b))
  | 0x12 => some (veRound ty (f32Mul a b))
  | 0x13 => some (veRound ty (f32Fma a b c))
  | 0x14 => some (veRound ty (f32Min a b))
  | 0x15 => some (veRound ty (f32Max a b))
  | 0x16 => some (veRound ty (f32Abs a))
  | 0x17 => some (veRound ty (f32Neg a))
  | 0x18 => some (boolW ((fpOf a).lt false (fpOf b)))
  | 0x19 => some (boolW ((fpOf a).eq (fpOf b)))
  | 0x1A => some (let v := if c ≠ 0 then a else b; if ty ≤ 1 then veRound ty ((fpOf v).pack 24) else v)
  | 0x1B => veConvert ty (imm % 8) a
  | 0x20 => some (a + b)
  | 0x21 => some (a - b)
  | 0x22 => some (BitVec.ofInt 32 (sat32 (a.toInt + b.toInt)))
  | 0x23 => some (a * b)
  | 0x24 => some (a <<< sh)
  | 0x25 => some (a.sshiftRight sh)
  | 0x26 => some (a >>> sh)
  | 0x27 => some (a &&& b)
  | 0x28 => some (a ||| b)
  | 0x29 => some (a ^^^ b)
  | 0x2A => some (if a.toInt ≤ b.toInt then a else b)
  | 0x2B => some (if a.toInt ≤ b.toInt then b else a)
  | 0x2C => some (boolW (decide (a.toInt < b.toInt)))
  | 0x30 => some (veRound ty (f32Exp2 a))
  | 0x31 => some (veRound ty (f32Recip a))
  | _ => none

/-- The operator of a reduction in its TYPE (R261). -/
def veReduceOp (op ty : Nat) (a b : Word) : Word :=
  if ty ≥ 2 then
    match op with
    | 0x38 => a + b
    | 0x39 => if a.toInt ≤ b.toInt then b else a
    | _ => if a.toInt ≤ b.toInt then a else b
  else
    match op with
    | 0x38 => veRound ty (f32Add a b)
    | 0x39 => veRound ty (f32Max a b)
    | _ => veRound ty (f32Min a b)

def vreg (x : Ctx) (n : Nat) : List Word := x.vregs.getD n (List.replicate 32 0)

def State.setVreg (s : State) (x : Ctx) (n : Nat) (v : List Word) : State :=
  s.onCtx x.id fun y => { y with vregs := y.vregs.set n v }

/-- Free words for lanes the spec leaves open. -/
def State.drawWords (s : State) (n : Nat) : List Word × State :=
  let r := s.drawBytes (4 * n)
  ((List.range n).map fun i => BitVec.ofNat 32 (u32 r.1 (4 * i)), r.2)

/-- One vector instruction in iteration `t` (R298 to R300). -/
def State.vecInstr (s : State) (id t : Nat) (i : Bytes) : State :=
  match s.ctx? id with
  | none => s
  | some x =>
    let op := viOp i
    let ty := viTy i
    let a := (viAddr i : Int) + viStep i * t
    if op = 0 then s
    else if op = 1 then s.setVreg x (viVd i) (veLoad ty (s.locRead x a.toNat (veBytes ty)))
    else if op = 2 then s.locWrite x a.toNat (veStore ty (vreg x (viVd i)))
    else
      let va := vreg x (viA i)
      let vb := vreg x (viB i)
      let vc := vreg x (viC i)
      if op = 0x38 || op = 0x39 || op = 0x3A then
        s.setVreg x (viVd i) (reduce32 (veReduceOp op ty) va :: List.replicate 31 0)
      else if op = 0x1A && bitN (viImm i) 7 then
        s.setVreg x (viVd i) (List.replicate 32 (if ty ≤ 1 then veRound ty ((fpOf (va.headD 0)).pack 24) else va.headD 0))
      else
        let out := (List.range 32).map fun l => veLane op ty (viImm i) (va.getD l 0) (vb.getD l 0) (vc.getD l 0)
        if out.all (·.isSome) then s.setVreg x (viVd i) (out.map (·.getD 0))
        else
          let r := s.drawWords 32
          r.2.setVreg x (viVd i) r.1

/-- The instructions of a VEC. -/
def vecInstrs (d : Bytes) : List Bytes := (List.range (min 3 (u8 d 4))).map fun k => (d.drop (8 + 8 * k)).take 8

/-- The local ranges that a VEC's loads and stores reach, signed addresses. -/
def vecRanges (d : Bytes) : List (Int × Nat) :=
  (List.range (u16 d 6)).flatMap fun t => (vecInstrs d).filterMap fun i =>
    if viOp i = 1 || viOp i = 2 then some ((viAddr i : Int) + viStep i * t, veBytes (viTy i)) else none

/-- The local ranges of its loads (VOP 1) or stores (VOP 2), inside the space. -/
def vecTouch (d : Bytes) (op : Nat) : List (Nat × Nat) :=
  (List.range (u16 d 6)).flatMap fun t => (vecInstrs d).filterMap fun i =>
    if viOp i = op then some (((viAddr i : Int) + viStep i * t).toNat, veBytes (viTy i)) else none

/-- Issue cycles of one instruction (R258). -/
def viCycles (i : Bytes) : Nat := if viOp i = 0x30 || viOp i = 0x31 then 4 else 1

/-- VEC (R298 to R300): the group of instructions, REPEAT times. -/
def State.vec (s : State) (c : Nat) (x : Ctx) (d : Bytes) : Eff :=
  match (vecRanges d).findSome? fun p => s.locFault x p.1 p.2 with
  | some a => scratchErr s x c d a
  | none =>
    let go := fun s : State =>
      let is_ := vecInstrs d
      let s := (List.range (u16 d 6)).foldl (fun s t => is_.foldl (fun s i => s.vecInstr x.id t i) s) s
      Eff.ok (s.chargeCtx x (u16 d 6 * (is_.map viCycles).sum) State.chargeVector)
    touching s x c (vecTouch d 1) (vecTouch d 2) go

/-! ### ARGMAX -/

/-- The value of channel `ch` as the exact comparison of R326 needs it: a float word, or an integer with an exponent. -/
def amValue (d : Bytes) (px zvec : Bytes) (ch : Nat) : Int × Int :=
  let f := u8 d 16
  let q := codeAt f px ch
  if f = fmA4U || f = fmA8U then
    match u8 d 17 with
    | 0 => (q - ((u16 d 18 : Nat) : Int), 0)
    | 1 => (q - ((u16 zvec (2 * ch) : Nat) : Int), 0)
    | _ => (q - s16 zvec (4 * ch), s8 zvec (4 * ch + 2))
  else (q, 0)

/-- (v, e) < (w, g) as v × 2^e < w × 2^g. -/
def scaledLt (a b : Int × Int) : Bool :=
  let low := min a.2 b.2
  decide (a.1 * 2 ^ (a.2 - low).toNat < b.1 * 2 ^ (b.2 - low).toNat)

/-- The class of a pixel: the lowest channel among those of the largest value (R326). -/
def amClass (d : Bytes) (px zvec : Bytes) : Nat :=
  let f := u8 d 16
  let n := u16 d 14
  if f = fmBF16 || f = fmFP32 then
    let word := fun ch => if f = fmBF16 then bf16W (rawAt f px ch) else BitVec.ofNat 32 (rawAt f px ch)
    (List.range n).foldl (fun best ch => if exactLt (word best) (word ch) then ch else best) 0
  else
    (List.range n).foldl (fun best ch => if scaledLt (amValue d px zvec best) (amValue d px zvec ch) then ch else best) 0

/-- Bytes of the ZVEC operand of an ARGMAX. -/
def amZbytes (d : Bytes) : Nat := match u8 d 17 with | 0 => 0 | 1 => 2 * u16 d 14 | _ => 4 * u16 d 14

/-- ARGMAX (R302, R326, R328). Each pixel's channels occupy a whole number of bytes. -/
def State.argmax (s : State) (c : Nat) (x : Ctx) (d : Bytes) : Eff :=
  let n := u16 d 12
  let bp := fmtBytes (u8 d 16) (u16 d 14)
  let src := opAddr (u32 d 4)
  let dst := opAddr (u32 d 8)
  match s.locFaults x [(src, n * bp), (dst, n), (opAddr (u32 d 20), amZbytes d)] with
  | some a => scratchErr s x c d a
  | none =>
    touching s x c [(src, n * bp), (opAddr (u32 d 20), amZbytes d)] [(dst, n)] fun s =>
      let z := s.locRead x (opAddr (u32 d 20)) (amZbytes d)
      let out := (List.range n).map fun p => BitVec.ofNat 8 (amClass d (s.locRead x (src + p * bp) bp) z)
      .ok ((s.locWrite x dst out).chargeCtx x (ceilDiv (n * u16 d 14) 32 + 16) State.chargeVector)

/-! ### Meanings -/

def execTmac (c k now : Nat) (s : State) : Result :=
  .next (s.whenOn fun s => s.issue c k now coTmac true fun s x d => s.tmac c now x d)
def execReq (c k now : Nat) (s : State) : Result :=
  .next (s.whenOn fun s => s.issue c k now coReq true fun s x d => s.req c x d)
def execVec (c k now : Nat) (s : State) : Result :=
  .next (s.whenOn fun s => s.issue c k now coVec true fun s x d => s.vec c x d)
def execArgmax (c k now : Nat) (s : State) : Result :=
  .next (s.whenOn fun s => s.issue c k now coArgmax true fun s x d => s.argmax c x d)

end Sys2Proof.Machine
end

