-- ==== Sys2Proof/Machine/Kv.lean ====
section
/-! DEFINITION. KV pages (R329 to R331), page tables and edits (R332, R344 to R346), holds (R366, R367), the concordance (R368 to
R375), free lists, swap and eviction (R379 to R387), card summaries (R389, R390) and KVAPP (R334 to R338, R350). -/

namespace Sys2Proof.Machine

/-! ### Geometry and addresses -/

/-- LB for a page of S positions (R330). -/
def KvDecl.lb (g : KvDecl) (size : Nat) : Nat := 2 * g.heads * g.hdim * size

/-- Bytes of a page of 2^log2 positions. -/
def KvDecl.pageBytes (g : KvDecl) (log2 : Nat) : Nat := g.layers * g.lb (2 ^ log2)

/-- Byte of a key code in its page (R330). -/
def KvDecl.keyAt (g : KvDecl) (size layer h j d : Nat) : Nat := layer * g.lb size + (h * size + j) * g.hdim + d

/-- Byte of a value code in its page (R330). -/
def KvDecl.valueAt (g : KvDecl) (size layer h j d : Nat) : Nat :=
  layer * g.lb size + g.heads * g.hdim * size + (h * g.hdim + d) * size + j

def Pte.size (e : Pte) : Nat := 2 ^ e.log2

/-- DRAM address of an entry's page. -/
def Pte.addr (e : Pte) : Nat := e.page * 4096

/-- One tick of the order of KV happenings. -/
def State.kvTick (s : State) : State := s.onKv fun k => { k with clock := k.clock + 1 }

def SeqSlot.emptyPte : Pte :=
  { page := 0, log2 := 4, valid := true, shared := false, pinned := false, swapped := false, fill := 0, basePos := 0,
    score := 0, card := none }

/-! ### Free lists -/

/-- Bytes carved for a page. -/
def State.pageSize (s : State) (p : Nat) : Nat := ((s.kv.pageBytes.find? (·.1 = p)).map (·.2)).getD 0

/-- Free pages of 2^log2 positions that hold `bytes`. -/
def State.freePages (s : State) (log2 bytes : Nat) : List Nat :=
  (s.kv.free.getD (log2 - 4) []).filter fun p => decide (s.pageSize p ≥ bytes)

/-- Take the first free page of a size. -/
def State.takePage (s : State) (log2 bytes : Nat) : Option (Nat × State) :=
  match s.freePages log2 bytes with
  | [] => none
  | p :: _ => some (p, s.onKv fun k => { k with free := k.free.modify (log2 - 4) fun l => l.erase p })

/-! ### Edits (R344, R345) -/

/-- An entry as it is inserted: its SCORE is +0 (R377), its summary is not built. -/
def newPte (e : EntryFields) : Pte :=
  { page := e.page, log2 := e.log2, valid := bitN e.flags 0, shared := bitN e.flags 1, pinned := bitN e.flags 2, swapped := false,
    fill := e.fill, basePos := e.basePos, score := 0, card := none }

/-- Insert an entry by BASE_POS. -/
def insertPte (e : Pte) (t : List Pte) : List Pte :=
  t.takeWhile (fun p => decide (p.basePos ≤ e.basePos)) ++ e :: t.dropWhile fun p => decide (p.basePos ≤ e.basePos)

/-- The table after an edit (R344). -/
def editTable (t : List Pte) : Edit → List Pte
  | .remove b => t.filter (·.basePos ≠ b)
  | .insert e => insertPte (newPte e) t
  | .replace b e => insertPte (newPte e) (t.filter (·.basePos ≠ b))
  | .setLog2 b k => updFirst (·.basePos = b) (fun p => { p with log2 := k }) t
  | .setBase b n => updFirst (·.basePos = b) (fun p => { p with basePos := n }) t
  | .setValid b v => updFirst (·.basePos = b) (fun p => { p with valid := v }) t
  | .setShared b v => updFirst (·.basePos = b) (fun p => { p with shared := v }) t
  | .setPinned b v => updFirst (·.basePos = b) (fun p => { p with pinned := v }) t
  | .setSwapped b u => updFirst (·.basePos = b) (fun p => { p with swapped := true, page := u }) t
  | .setResident b page => updFirst (·.basePos = b) (fun p => { p with swapped := false, page := page }) t

/-- The most entries of a table (R333). -/
abbrev tableMax : Nat := 65535

/-- A table as R333 has it: at most 65,535 entries in strictly ascending BASE_POS, no position covered twice. -/
def tableOk (t : List Pte) : Bool :=
  decide (t.length ≤ tableMax) && t.all (fun p => decide (4 ≤ p.log2) && decide (p.log2 ≤ 11)) &&
    (t.zip (t.drop 1)).all fun e => decide (e.1.basePos + e.1.size ≤ e.2.basePos)

/-- An edit that moves entries or changes what they cover. -/
def editMoves : Edit → Bool
  | .insert _ => true
  | .replace _ _ => true
  | .setLog2 _ _ => true
  | .setBase _ _ => true
  | _ => false

/-- What an entry holds: a page in DRAM or units of the swap area, none without VALID. -/
def Pte.held (p : Pte) : Option (Bool × Nat) := if p.valid then some (p.swapped, p.page) else none

/-- The effect of one edit on a table, and on the pages and swap units that it takes and lets go. Penuo requests no edit that would
break R333. -/
def State.editOne (s : State) (slot : Nat) (e : Edit) : State :=
  match s.seq? slot with
  | none => s
  | some q =>
    let t := editTable q.table e
    if editMoves e && !tableOk t then s
    else
      let gone := q.table.filter fun p => t.all fun r => r.held ≠ p.held
      let took := (t.filter fun r => r.valid && !r.swapped && q.table.all fun p => p.held ≠ r.held).map (·.page)
      let s := s.onTable slot fun t => editTable t e
      let s := s.onKv fun k => { k with free := k.free.map fun l => l.filter fun p => !(p ∈ took) }
      gone.foldl (fun s p => s.dropEntry slot p) s

/-- An edit application: the edits together, GEN up by 1 once (R345). -/
def State.applyEdits (s : State) (slot : Nat) (es : List Edit) : State :=
  if es = [] then s
  else (es.foldl (fun s e => s.editOne slot e) s).onSeq slot fun q => { q with gen := (q.gen + 1) % 2 ^ 32 }

/-- Request edits together: queued while a step is open, else applied at once, behind an application that runs (R345). -/
def State.requestEdits (s : State) (slot : Nat) (es : List Edit) : State :=
  match s.seq? slot with
  | none => s
  | some q =>
    if q.stepOpen > 0 then s.onSeq slot fun q => { q with edits := q.edits ++ es }
    else if q.applying then s.onSeq slot fun q => { q with after := q.after ++ [es] }
    else s.applyEdits slot es

/-- EDIT_APPLY: an edit that Penuo requests, or the end of the application that runs: of the edits queued during a step that has
closed, then of those requested since. -/
def State.editApply (s : State) (slot : Nat) (e : Option Edit) : State :=
  match s.seq? slot, e with
  | some _, some e => s.requestEdits slot [e]
  | some q, none =>
    if q.applying then
      (s.applyEdits slot q.edits).onSeq slot fun q =>
        { q with edits := q.after.headD [], after := q.after.drop 1, applying := q.after ≠ [] }
    else s
  | none, _ => s

/-! ### The concordance (R368 to R375) -/

def rotl64 (v n : Nat) : Nat := (v <<< n ||| v >>> (64 - n)) % 2 ^ 64

/-- The hash of a chunk from the hash before it (R369). -/
def chunkHash (h : Nat) (tokens : List Nat) : Nat :=
  (List.range (tokens.length / 8)).foldl (fun h j =>
    let w := leNat (((tokens.drop (8 * j)).take 8).map (BitVec.ofNat 8))
    ((rotl64 h 16 ^^^ w) + 0x9E3779B97F4A7C15) % 2 ^ 64) h

/-- Chunk k of a prompt, of S tokens. -/
def chunkOf (prompt : List Nat) (size k : Nat) : List Nat := (prompt.drop (k * size)).take size

/-- The chunk lies wholly in the prompt and its tokens are bytes (R368). -/
def chunkOk (prompt : List Nat) (size k : Nat) : Bool :=
  let c := chunkOf prompt size k
  decide (c.length = size) && c.all (· < 256)

/-- h_k of a prompt (R369). -/
def hashUpTo (seed : Nat) (prompt : List Nat) (size k : Nat) : Nat :=
  (List.range (k + 1)).foldl (fun h i => chunkHash h (chunkOf prompt size i)) seed

/-- The folio of a sequence's job, and its DECODE stage. -/
def State.seqFolio (s : State) (q : SeqSlot) : Option Folio :=
  (s.job? q.jobSlot).bind fun j => s.fol.folios.find? (·.handle = dFolio j.desc)

def Folio.decode (f : Folio) : Option Stage := f.stages.find? (·.kind = 3)

/-- Matching and insertion are enabled: KVC_CONC_CTRL.EN and the folio's CONC (R375, R433). -/
def State.concOn (s : State) (f : Folio) : Bool :=
  s.regB rKvcConcCtrl 0 && f.decode.any (·.conc)

/-- The node that matches chunk k of a prompt under a parent (R370). -/
def State.matchNode (s : State) (f : Folio) (log2 k : Nat) (prompt : List Nat) (parent : Option Nat) : Option Node :=
  let size := 2 ^ log2
  let h := hashUpTo f.prefixSeed prompt size k
  s.kv.nodes.find? fun n => n.folio = f.handle && n.log2 = log2 && n.hash = BitVec.ofNat 64 h && n.parent = parent &&
    n.tokens = chunkOf prompt size k

/-- The nodes that match chunks 0, 1, 2 and so on (R371). -/
def State.matchChain (s : State) (f : Folio) (log2 : Nat) (prompt : List Nat) : Nat → Nat → Option Nat → List Node
  | 0, _, _ => []
  | fuel + 1, k, parent =>
    if !chunkOk prompt (2 ^ log2) k then []
    else
      match s.matchNode f log2 k prompt parent with
      | none => []
      | some n => n :: s.matchChain f log2 prompt fuel (k + 1) (some n.id)

/-- PREFIX_MATCH (R368, R371, R373): the prompt is known; shared entries are added, C moves to the end of what matched. -/
def State.prefixMatch (s : State) (slot : Nat) (prompt : List Nat) : State :=
  match s.seq? slot with
  | none => s
  | some q =>
    if q.started || q.table ≠ [] || q.prompt ≠ [] then s
    else
      let s := s.onSeq slot fun q => { q with prompt := prompt }
      match s.seqFolio q, q.geom with
      | some f, some g =>
        if q.row || !s.concOn f then s
        else
          let ns := s.matchChain f g.log2Page prompt (min tableMax (prompt.length + 1)) 0 none
          if ns = [] then s
          else
            let s := s.kvTick
            let now := s.kv.clock
            let ids := ns.map (·.id)
            let s := s.onKv fun k =>
              { k with nodes := k.nodes.map fun n => if n.id ∈ ids then { n with lastMatch := now } else n }
            let size := 2 ^ g.log2Page
            let entries := ns.zipIdx.map fun p =>
              { SeqSlot.emptyPte with page := p.1.page, log2 := g.log2Page, shared := true, fill := size, basePos := p.2 * size }
            ((s.bumpSat rKvcConcCount 0 16 ns.length).onSeq slot fun q =>
              { q with cursor := ns.length * size, shared := ns.length, gen := (q.gen + 1) % 2 ^ 32 }).onTable slot fun _ => entries
      | _, _ => s

/-- A node that may be reclaimed: idle, and no other node's parent (R374). -/
def State.idleLeaf (s : State) (n : Node) : Bool :=
  s.holds n.page = 0 && s.kv.nodes.all fun m => m.parent ≠ some n.id

def State.removeNode (s : State) (n : Node) : State :=
  let s := s.onKv fun k => { k with nodes := k.nodes.filter (·.id ≠ n.id) }
  if s.holds n.page = 0 then s.freePage n.page n.log2 else s

/-- The least recently matched of a list of nodes. -/
def oldestNode : List Node → Option Node
  | [] => none
  | n :: l =>
    match oldestNode l with
    | none => some n
    | some m => some (if n.lastMatch ≤ m.lastMatch then n else m)

/-- Reclaim the least recently matched idle leaf of a size (R374). -/
def State.reclaimLeaf (s : State) (log2 : Nat) : Option State :=
  (oldestNode (s.kv.nodes.filter fun n => n.log2 = log2 && s.idleLeaf n)).map s.removeNode

/-- Reclaim every idle node, leaves first, until none is left (R374). -/
def State.reclaimAll : Nat → State → State
  | 0, s => s
  | fuel + 1, s =>
    match oldestNode (s.kv.nodes.filter s.idleLeaf) with
    | some n => State.reclaimAll fuel (s.removeNode n)
    | none => s

/-- FLUSH: KVC_CONC_CTRL.FLUSH. -/
def State.concFlush (s : State) : State :=
  if s.fabricHidden rKvcConcCtrl then s else s.reclaimAll (s.kv.nodes.length + 1)

/-- Insert a node for a page that a KVAPP has just filled (R372). -/
def State.nodeInsert (s : State) (slot base : Nat) : State :=
  match s.seq? slot with
  | none => s
  | some q =>
    match s.seqFolio q, q.geom, q.pte? base with
    | some f, some g, some e =>
      let size := e.size
      let k := base / size
      if q.row || !s.concOn f || base % size ≠ 0 || e.log2 ≠ g.log2Page || e.shared || !chunkOk q.prompt size k || !q.insertOk
          || k ≠ q.shared then s
      else
        let parentNode := if k = 0 then none else
          (q.pte? (base - size)).bind fun p => s.kv.nodes.find? fun n => n.page = p.page && n.folio = f.handle
        let parent := parentNode.map (·.id)
        if k ≠ 0 && parent.isNone then s
        else
          let s := s.kvTick
          let stop := fun s : State => s.onSeq slot fun q => { q with insertOk := false }
          if (s.matchNode f g.log2Page k q.prompt parent).isSome then stop s
          else
            let room := if s.kv.nodes.length < 65536 then some s else s.reclaimLeaf g.log2Page
            match room with
            | none => stop s
            | some s =>
              let n : Node :=
                { id := s.kv.nextNode, folio := f.handle, log2 := g.log2Page,
                  hash := BitVec.ofNat 64 (hashUpTo f.prefixSeed q.prompt size k), parent := parent,
                  tokens := chunkOf q.prompt size k, page := e.page, lastMatch := s.kv.clock }
              let s := s.onKv fun v => { v with nodes := v.nodes ++ [n], nextNode := v.nextNode + 1 }
              let s := (s.bumpSat rKvcConcCount 16 16 1).onSeq slot fun q => { q with shared := k + 1 }
              s.requestEdits slot [.setShared base true]
    | _, _, _ => s

/-! ### Restocking (R331, R382) -/

def State.arenaBase (s : State) : Nat := s.regPair rKvcArenaBaseLo rKvcArenaBaseHi
def State.arenaBytes (s : State) : Nat := s.regF rKvcArenaSize 0 16 * 2 ^ 20
def State.lowWater (s : State) (k : Nat) : Nat := s.regF (rKvcFree k) 16 16
def State.freeCount (s : State) (k : Nat) : Nat := (s.kv.free.getD k []).length

/-- Bytes to carve for a page of list `k`: the largest that a committed folio's geometry of that page size needs, in whole
4 KiB units; 0 when none uses it. -/
def State.carveBytes (s : State) (k : Nat) : Nat :=
  let need := (s.fol.folios.filter (·.committed)).flatMap fun f =>
    (f.kvs.filter (·.log2Page = k + 4)).map fun g => g.pageBytes (k + 4)
  roundUp (maxNat need) 4096

/-- Carve one page from unused arena space. -/
def State.carve (s : State) (k : Nat) : Option State :=
  let n := s.carveBytes k
  if n = 0 || s.kv.carved + n > s.arenaBytes then none
  else
    let p := (s.arenaBase + s.kv.carved) / 4096
    some ((s.onKv fun v => { v with carved := v.carved + n, pageBytes := v.pageBytes ++ [(p, n)] }).freePage p (k + 4))

/-- A sequence with pages of list `k` has no spare, and the list no page for it: it is restocked whatever its LOW_WATER (DESIGN CHOICE,
assumption 34). -/
def State.spareShort (s : State) (k : Nat) : Bool :=
  s.kv.seqs.any fun q => q.spare.isNone && !q.ended && q.geom.any fun g =>
    g.log2Page = k + 4 && s.freePages g.log2Page (g.pageBytes g.log2Page) = []

/-- Restock list `k` until it is at LOW_WATER: arena space first, then idle leaves (R382). -/
def State.restockTo (k : Nat) : Nat → State → State
  | 0, s => s
  | fuel + 1, s =>
    if s.freeCount k ≥ s.lowWater k && !s.spareShort k then s
    else
      match s.carve k with
      | some s' => State.restockTo k fuel s'
      | none =>
        match s.reclaimLeaf (k + 4) with
        | some s' => State.restockTo k fuel s'
        | none => s

/-- FREE_LIST_RESTOCK. -/
def State.restock (s : State) (k : Nat) : State :=
  if k ≥ 8 then s else s.restockTo k (s.lowWater k + s.kv.nodes.length + 2)

/-- SPARE_TAKE (R336): a sequence without a spare takes one from the free list of its page size. -/
def State.spareTake (s : State) (slot : Nat) : State :=
  match s.seq? slot with
  | none => s
  | some q =>
    match q.spare, q.geom with
    | none, some g =>
      match s.takePage g.log2Page (g.pageBytes g.log2Page) with
      | some r => r.2.onSeq slot fun q => { q with spare := some r.1 }
      | none => s
    | _, _ => s

/-! ### Eviction (R379 to R381) -/

/-- Pinned entries of a table (R379). -/
def pinnedPte (n : Nat) (table : List Pte) (i : Nat) (e : Pte) : Bool :=
  e.pinned || i = 0 || decide (i + n ≥ table.length)

/-- H of R380. -/
def heldPositions (table : List Pte) : Nat := ((table.filter (·.valid)).map Pte.size).sum

/-- The unpinned entry of lowest SCORE, lowest BASE_POS among equals, that no queued removal names. -/
def evictPick (n : Nat) (table : List Pte) (gone : List Nat) : Option Pte :=
  let cands := (table.zipIdx.filter fun p => p.1.valid && !pinnedPte n table p.2 p.1 && !(p.1.basePos ∈ gone)).map (·.1)
  cands.foldl (fun best e =>
    match best with
    | none => some e
    | some b =>
      let sb := bf16W b.score.toNat
      let se := bf16W e.score.toNat
      if numLt se sb then some e else some b) none

/-- The removals that bring H to the budget. -/
def evictList (n budget : Nat) (table : List Pte) : Nat → List Nat → List Nat
  | 0, gone => gone
  | fuel + 1, gone =>
    let left := ((table.filter fun e => e.valid && !(e.basePos ∈ gone)).map Pte.size).sum
    if left ≤ budget then gone
    else
      match evictPick n table gone with
      | some e => evictList n budget table fuel (gone ++ [e.basePos])
      | none => gone

/-- EVICTION, at a spare append (R380). -/
def State.evict (s : State) (slot : Nat) : State :=
  match s.seq? slot with
  | none => s
  | some q =>
    match q.geom with
    | none => s
    | some g =>
      if g.budgetPos = 0 then s
      else
        let queued := (q.edits ++ q.after.flatten).filterMap fun e => match e with | .remove b => some b | _ => none
        let all := evictList g.pinRecent g.budgetPos q.table (q.table.length + 1) queued
        let new := all.drop queued.length
        (new.foldl (fun s b => s.requestEdits slot [.remove b]) s).bumpSat rKvcEvictCount 0 32 new.length

/-! ### KVAPP (R334 to R338) -/

def kaSeq (d : Bytes) : Nat := u16 d 4 % 4096
def kaLayer (d : Bytes) : Nat := u8 d 6
def kaValues (d : Bytes) : Bool := bitN (u8 d 7) 0
def kaAdvance (d : Bytes) : Bool := bitN (u8 d 7) 1

/-- First position past the last entry's page. -/
def SeqSlot.tableEnd (q : SeqSlot) : Nat := match q.table.getLast? with | some e => e.basePos + e.size | none => 0

/-- The spare that an append may take: a full table takes none (R333). -/
def SeqSlot.nextSpare (q : SeqSlot) : Option Nat := if q.table.length < tableMax then q.spare else none

/-- The entry whose page holds a position. -/
def SeqSlot.covering (q : SeqSlot) (p : Nat) : Option Pte :=
  q.table.find? fun e => e.valid && decide (e.basePos ≤ p) && decide (p < e.basePos + e.size)

/-- One of `n` positions from `p` lies in no entry's page, so that their writing needs the spare (R336, R337). -/
def SeqSlot.needsSpare (q : SeqSlot) (p n : Nat) : Bool := (List.range n).any fun i => (q.covering (p + i)).isNone

/-- Write the codes of one row at position `p` of the entry's page (R330, R334), and raise FILL (R335). -/
def State.kvPut (s : State) (slot : Nat) (g : KvDecl) (e : Pte) (d : Bytes) (p : Nat) (codes : List Nat) : State :=
  let j := p - e.basePos
  let size := e.size
  let layer := kaLayer d
  let s :=
    if kaValues d then
      (codes.zipIdx).foldl (fun s c =>
        s.dramWrite (e.addr + g.valueAt size layer (c.2 / g.hdim) j (c.2 % g.hdim)) [BitVec.ofNat 8 c.1]) s
    else
      (List.range g.heads).foldl (fun s h =>
        s.dramWrite (e.addr + g.keyAt size layer h j 0)
          (((codes.drop (h * g.hdim)).take g.hdim).map (BitVec.ofNat 8))) s
  let fills := decide (e.fill < size) && decide (j + 1 = size)
  let s := s.onPte slot e.basePos fun t => { t with fill := max t.fill (j + 1) }
  if fills then s.nodeInsert slot e.basePos else s

/-- Append the spare's entry (R336), and ask for evictions (R380). -/
def State.appendSpare (s : State) (slot page log2 base : Nat) : State :=
  ((s.onSeq slot fun q => { q with spare := none }).onTable slot fun t =>
    t ++ [{ SeqSlot.emptyPte with page := page, log2 := log2, basePos := base }]).evict slot

/-- Write drained rows from row `i` on; answers how many rows are written when the spare is needed and absent. -/
def State.kvRows (slot : Nat) (g : KvDecl) (d : Bytes) (c0 : Nat) : Nat → List (List Nat) → State → Nat × State
  | i, [], s => (i, s)
  | i, row :: rest, s =>
    match s.seq? slot with
    | none => (i, s)
    | some q =>
      let p := c0 + i
      match q.covering p with
      | some e => State.kvRows slot g d c0 (i + 1) rest (s.kvPut slot g e d p row)
      | none =>
        match q.nextSpare with
        | none => (i, s)
        | some page =>
          let base := q.tableEnd
          let s := s.appendSpare slot page g.log2Page base
          match (s.seq? slot).bind fun q => q.covering p with
          | some e => State.kvRows slot g d c0 (i + 1) rest (s.kvPut slot g e d p row)
          | none => (i, s)

/-- KVAPP at issue, or as it resumes after a wait (R337): requantise, write from the cursor, and advance. For a sequence of the
batch that has ended meanwhile nothing is left to write. -/
def State.kvapp (s : State) (c : Nat) (x : Ctx) (d : Bytes) : Eff :=
  match x.drain with
  | none => .wait
  | some m =>
    match if kaSeq d ∈ x.gone then none else s.seq? (kaSeq d) with
    | none =>
      if kaSeq d ∈ x.gone then .ok (s.onCtx x.id fun y => { y with drain := none, kvWait := false, kvDone := 0 })
      else commandErr s x c d 0
    | some q =>
      match q.geom with
      | none => commandErr s x c d 0
      | some g =>
        let past := decide (q.cursor + m.rows > 2 ^ 32) || (kaAdvance d && decide (q.cursor + m.rows > 2 ^ 32 - 1))
        let sharedHit := q.table.any fun e => e.valid && e.shared && decide (e.basePos < q.cursor + m.rows) &&
          decide (q.cursor + x.kvDone < e.basePos + e.size)
        if rqOfmt d ≠ g.fmt || m.cols ≠ g.heads * g.hdim || kaLayer d ≥ g.layers || past || sharedHit then commandErr s x c d 0
        else
          match s.locFaults x (rqRanges d m.cols) with
          | some a => scratchErr s x c d a
          | none =>
            if q.needsSpare (q.cursor + x.kvDone) (m.rows - x.kvDone) && q.nextSpare.isNone then
              .ok (s.onCtx x.id fun y => { y with kvWait := true })
            else
              touching s x c (rqRanges d m.cols) [] fun s =>
                let r := if x.kvDone = 0 then s.injectResidue c m.cells else (m.cells, s)
                match residueFault m.cols r.1 with
                | some det => residueErr r.2 c det
                | none =>
                  let s := r.2
                  let out := (s.rqIn x d m.cols).apply d m 0
                  let w := State.kvRows (kaSeq d) g d q.cursor x.kvDone (out.1.drop x.kvDone) s
                  let rows := w.1 - x.kvDone
                  let s := w.2.chargeCtx x (rows * m.cols) State.chargeDram
                  if w.1 < m.rows then .ok (s.onCtx x.id fun y => { y with kvWait := true, kvDone := w.1 })
                  else
                    let s := s.countTensor x.jobNumber (u16 d 18) out.2.1 out.2.2.1 (m.rows * m.cols)
                    let s := s.chargeCtx x 8 State.chargeArray
                    let s := if kaAdvance d then
                        s.onSeq (kaSeq d) fun q => { q with cursor := q.cursor + m.rows } else s
                    .ok (s.onCtx x.id fun y => { y with drain := none, kvWait := false, kvDone := 0 })

/-- KVAPP_RESUME: the waiting KVAPP of a slot goes on once Penuo has supplied a spare (R337). -/
def State.kvappResume (s : State) (c k : Nat) : State :=
  match s.ctxAt c k with
  | none => s
  | some x =>
    if !x.kvWait || x.stopped then s
    else
      match x.outstanding.find? fun o => cmdOp o.cmd = coKvapp with
      | none => s
      | some o =>
        match s.seq? (kaSeq o.cmd) with
        | none => if kaSeq o.cmd ∈ x.gone then s.onCtx x.id fun y => { y with drain := none, kvWait := false, kvDone := 0 } else s
        | some q =>
          if q.nextSpare.isNone && !(kaSeq o.cmd ∈ x.gone) then s
          else
            match s.kvapp c x o.cmd with
            | .ok s' => s'
            | .wait => s
            | .err s' kind unit detail =>
              s'.raise ⟨kind, unit, (s.jobOf x).map (·.slot), some (ctxNumber c k), detail / 65536 * 65536 + o.idx % 65536⟩

/-! ### Swap (R382 to R387) -/

/-- Unshared pages of a sequence that are not swapped. -/
def SeqSlot.swappable (q : SeqSlot) : List Pte := q.table.filter fun e => e.valid && !e.shared && !e.swapped

def SeqSlot.footprint (q : SeqSlot) : Nat :=
  match q.geom with
  | some g => ((q.swappable).map fun e => g.pageBytes e.log2).sum
  | none => 0

def State.seqLc (s : State) (q : SeqSlot) : Bool := ((s.job? q.jobSlot).map (·.lc)).getD false

/-- The sequence whose KVAPP waits for a spare. -/
def State.waitingSeq (s : State) : Option SeqSlot :=
  (s.sch.ctxs.find? fun x => x.kvWait && !x.stopped).bind fun x =>
    (x.outstanding.find? fun o => cmdOp o.cmd = coKvapp).bind fun o => s.seq? (kaSeq o.cmd)

/-- The next swap victim of R383 for a waiting sequence. -/
def State.swapVictim (s : State) : Option SeqSlot :=
  match s.waitingSeq with
  | none => none
  | some w =>
    match w.geom with
    | none => none
    | some g =>
      let cands := s.kv.seqs.filter fun q =>
        q.slot ≠ w.slot && q.fresh && q.swappable.any (·.log2 = g.log2Page)
      let be := cands.filter fun q => !s.seqLc q
      let better := fun (a b : SeqSlot) =>
        if be ≠ [] then
          decide (a.footprint > b.footprint) || (a.footprint = b.footprint && decide (a.slot < b.slot))
        else decide (a.startedAt > b.startedAt) || (a.startedAt = b.startedAt && decide (a.slot < b.slot))
      (if be ≠ [] then be else cands).foldl (fun best q =>
        match best with
        | none => some q
        | some b => if better q b then some q else some b) none

/-- 4 KiB units of the swap area (R385). -/
def State.swapUnits (s : State) : Nat := s.regF rKvcSwapSize 0 16 * 256

def State.swapBase (s : State) : Nat := s.regPair rKvcSwapBaseLo rKvcSwapBaseHi

/-- Units that a page takes (R385). -/
def KvDecl.swapUnits (g : KvDecl) (log2 : Nat) : Nat := ceilDiv (g.pageBytes log2) 4096

/-- The lowest free run of `n` units among runs in use. -/
def firstRun (total n : Nat) (used : List (Nat × Nat)) : Option Nat :=
  let starts := (0 :: used.map fun r => r.1 + r.2).filter fun a =>
    decide (a + n ≤ total) && used.all fun r => decide (a + n ≤ r.1) || decide (r.1 + r.2 ≤ a)
  starts.foldl (fun best a => match best with | none => some a | some b => some (min a b)) none

/-- Units for each of a list of entries, lowest first. -/
def State.placeSwap (s : State) (slot : Nat) (g : KvDecl) : List Pte → List (Nat × Nat × Nat) →
    Option (List (Pte × Nat) × List (Nat × Nat × Nat))
  | [], used => some ([], used)
  | e :: rest, used =>
    let n := g.swapUnits e.log2
    match firstRun s.swapUnits n (used.map fun r => (r.1, r.2.1)) with
    | none => none
    | some u =>
      match s.placeSwap slot g rest (used ++ [(u, n, slot)]) with
      | none => none
      | some r => some ((e, u) :: r.1, r.2)

/-- Why a waiting KVAPP cannot be helped: DETAIL of R387, none while it can. -/
def State.swapFail (s : State) : Option Nat :=
  match s.waitingSeq with
  | none => none
  | some _ =>
    if s.regF rKvcSwapSize 0 16 = 0 then some 3
    else
      match s.swapVictim with
      | none => some 2
      | some v =>
        match v.geom with
        | none => some 2
        | some g => if (s.placeSwap v.slot g v.swappable s.kv.swapRuns).isNone then some 1 else none

/-- The waiting sequence could still be supplied from a free list, the arena or an idle leaf (R382). -/
def State.spareAhead (s : State) (w : SeqSlot) : Bool :=
  match w.geom with
  | none => true
  | some g =>
    let k := g.log2Page - 4
    s.freePages g.log2Page (g.pageBytes g.log2Page) ≠ [] || (s.carve k).isSome || (s.reclaimLeaf g.log2Page).isSome

/-- Write a victim's pages to the swap area, in table order, and edit its entries to SWAPPED (R384). -/
def State.swapPages (s : State) (client slot : Nat) (g : KvDecl) (placed : List (Pte × Nat)) : State :=
  placed.foldl (fun s p =>
    let n := g.pageBytes p.1.log2
    let s := s.hostWrite (s.swapBase + 4096 * p.2) (s.dramRead p.1.addr n) true
    let s := (s.chargePcie client n).chargeDram client n
    (s.bumpSat rKvcSwapCount 0 16 1).editOne slot (.setSwapped p.1.basePos p.2)) s

/-- SWAP_OUT: the next victim of a waiting KVAPP goes to the swap area, once it has no step open. -/
def State.swapOut (s : State) (exhausted : State → Nat → Nat → State) : State :=
  match s.waitingSeq with
  | none => s
  | some w =>
    if w.spare.isSome || s.spareAhead w then s
    else
      match s.swapFail with
      | some detail => exhausted s w.jobSlot detail
      | none =>
        match s.swapVictim with
        | none => s
        | some v =>
          match v.geom with
          | none => s
          | some g =>
            if v.stepOpen > 0 || v.applying then s
            else
              match s.placeSwap v.slot g v.swappable s.kv.swapRuns with
              | none => s
              | some r =>
                let client := ((s.job? w.jobSlot).map Job.client).getD 0
                let s := s.kvTick
                let s := s.onKv fun k => { k with swapRuns := r.2 }
                let s := s.swapPages client v.slot g r.1
                s.onSeq v.slot fun q =>
                  { q with gen := (q.gen + 1) % 2 ^ 32, swappedAt := some s.kv.clock, fresh := false }

/-- The swapped entries of a sequence, in table order. -/
def SeqSlot.swappedPtes (q : SeqSlot) : List Pte := q.table.filter (·.swapped)

/-- The job of a sequence has work for it: a step that it could take, were its pages resident (R386). -/
def State.hasWork (s : State) (q : SeqSlot) : Bool :=
  !q.ended && (s.job? q.jobSlot).any (·.phase = .running) && match q.cat with
    | some c => c.feed ≠ [] || q.prompt = [] || decide (q.cursor < q.prompt.length)
    | none => true

/-- A swapped sequence may come back: its job has work for it, and every page it needs is free (R386). -/
def State.canSwapIn (s : State) (q : SeqSlot) : Bool :=
  s.hasWork q && match q.geom with
  | none => false
  | some g =>
    (List.range 8).all fun k =>
      decide ((q.swappedPtes.filter (·.log2 = k + 4)).length ≤ (s.freePages (k + 4) (g.pageBytes (k + 4))).length)

/-- A swapped sequence goes before another (R386). -/
def State.swapBefore (s : State) (a b : SeqSlot) : Bool :=
  (s.seqLc a && !s.seqLc b) || (s.seqLc a = s.seqLc b && decide (a.swappedAt.getD 0 < b.swappedAt.getD 0))

/-- SWAP_IN (R386): the sequence's entries become resident again in free pages, its units free. -/
def State.swapIn (s : State) (slot : Nat) (data : Bytes) : State :=
  match s.seq? slot with
  | none => s
  | some q =>
    match q.geom, q.swappedAt with
    | some g, some _ =>
      if !s.canSwapIn q || s.kv.seqs.any (fun o => o.swappedAt.isSome && s.swapBefore o q && s.canSwapIn o) then s
      else
        let client := ((s.job? q.jobSlot).map Job.client).getD 0
        let r := q.swappedPtes.foldl (fun (p : Nat × State) e =>
          let n := g.pageBytes e.log2
          match p.2.takePage e.log2 n with
          | none => p
          | some t =>
            let s := t.2
            let r := s.fetchHost (s.swapBase + 4096 * e.page) n (sliceB data p.1 n)
            let s := (r.2.dramWrite (t.1 * 4096) r.1).chargePcie client n
            let s := (s.chargeDram client n).bumpSat rKvcSwapCount 16 16 1
            (p.1 + n, s.editOne slot (.setResident e.basePos t.1))) (0, s)
        r.2.onSeq slot fun q => { q with gen := (q.gen + 1) % 2 ^ 32, swappedAt := none, fresh := false }
    | _, _ => s

/-! ### Cards (R389, R390) -/

/-- The summary of an entry's page: per layer and head, the rounded mean of each key element (R389). -/
def State.cardOf (s : State) (g : KvDecl) (e : Pte) : Bytes :=
  let codes := (List.range g.layers).flatMap fun l => (List.range g.heads).flatMap fun h => (List.range g.hdim).map fun d =>
    let sum := ((List.range e.size).map fun j =>
      codeAt g.fmt [s.dram.get (e.addr + g.keyAt e.size l h j d)] 0).sum
    BitVec.ofNat 8 (wrapN 8 (rneShift sum e.log2))
  codes ++ zeros (roundUp codes.length 64 - codes.length)

/-- CARD_SUMMARY_BUILD. -/
def State.cardBuild (s : State) (slot base : Nat) : State :=
  match s.seq? slot with
  | none => s
  | some q =>
    match q.geom, q.pte? base, (s.seqFolio q).bind Folio.decode with
    | some g, some e, some st =>
      if st.card && e.card.isNone && e.fill = e.size && !e.swapped then
        s.onSeq slot fun q => { q with table := updFirst (·.basePos = base) (fun t => { t with card := some (s.cardOf g e) }) q.table }
      else s
    | _, _, _ => s

/-! ### Meanings -/

def execKvapp (c k now : Nat) (s : State) : Result :=
  .next (s.whenOn fun s => s.issue c k now coKvapp true fun s x d => s.kvapp c x d)
def execKvappResume (c k : Nat) (s : State) : Result := .next (s.whenOn fun s => s.kvappResume c k)
def execEditApply (seq : Nat) (e : Option Edit) (s : State) : Result := .next (s.whenOn fun s => s.editApply seq e)
def execPrefixMatch (seq : Nat) (prompt : List Nat) (s : State) : Result :=
  .next (s.whenOn fun s => s.prefixMatch seq prompt)
def execFlush (s : State) : Result := .next (s.whenHost rKvcConcCtrl (s.reg rKvcConcCtrl ||| 2#32) fun s => s.concFlush)
def execFreeListRestock (k : Nat) (s : State) : Result := .next (s.whenOn fun s => s.restock k)
def execSpareTake (seq : Nat) (s : State) : Result := .next (s.whenOn fun s => s.spareTake seq)
def execSwapIn (seq : Nat) (data : Bytes) (s : State) : Result := .next (s.whenOn fun s => s.swapIn seq data)
def execCardSummaryBuild (seq base : Nat) (s : State) : Result := .next (s.whenOn fun s => s.cardBuild seq base)

end Sys2Proof.Machine
end

