-- ==== Sys2Proof/Machine/Attn.lean ====
section
/-! DEFINITION. ATTN (R301, R339 to R360), page scores (R376 to R378), the card index's selection (R391, R392) and the collective
combine of a spread head (R361, R362). -/

namespace Sys2Proof.Machine

/-! ### Fields (R301, R347, R348) -/

def atQ (d : Bytes) : Nat := opAddr (u32 d 4)
def atO (d : Bytes) : Nat := opAddr (u32 d 8)
def atBias (d : Bytes) : Nat := opAddr (u32 d 12)
def atSeq (d : Bytes) : Nat := u16 d 16 % 4096
def atHead (d : Bytes) : Nat := u8 d 18
def atRows (d : Bytes) : Nat := u8 d 19
def atDim (d : Bytes) : Nat := u16 d 20
def atQfmt (d : Bytes) : Nat := bitsN (u8 d 22) 0 4
def atKfmt (d : Bytes) : Nat := bitsN (u8 d 22) 4 4
def atCausal (d : Bytes) : Bool := bitN (u8 d 23) 0
def atSegment (d : Bytes) : Bool := bitN (u8 d 23) 1
def atPadding (d : Bytes) : Bool := bitN (u8 d 23) 2
def atBiasMode (d : Bytes) : Nat := bitsN (u8 d 23) 3 2
def atScore (d : Bytes) : Bool := bitN (u8 d 23) 5
def atCard (d : Bytes) : Bool := bitN (u8 d 23) 6
def atQpos (d : Bytes) : Nat := u32 d 24
def atMode (d : Bytes) : Nat := bitsN (u8 d 28) 0 2
def atPick (d : Bytes) : Nat := bitsN (u8 d 28) 2 6 + 1
def atOfmt (d : Bytes) : Nat := u8 d 29
def atSeg (d : Bytes) : Nat := 256 * u16 d 30

/-- Offsets in the O area (R347). -/
def atMoff (d : Bytes) : Nat := atO d + 4 * atRows d * atDim d
def atLoff (d : Bytes) : Nat := atMoff d + 4 * atRows d
def atPoff (d : Bytes) : Nat := atO d + roundUp (4 * atRows d * atDim d + 8 * atRows d) 64

/-- Row pitch of the query rows (R273). -/
def atQpitch (d : Bytes) : Nat := roundUp (fmtBytes (atQfmt d) (atDim d)) 32

/-- A zero point within R220 for a format. -/
def zeroOk (f z : Nat) : Bool := if f = fmA8S then decide (z = 0) else decide ((z : Int) ≤ (codeRange f).2)

/-- PART and PARTS as Penuo writes them at placement (R348). -/
def Ctx.part (x : Ctx) : Nat := x.plan.spread.1
def Ctx.partCount (x : Ctx) : Nat := x.plan.spread.2

/-- The parameter block holds R348, given PARTS and PART, and DECAY holds R378. -/
def paramOk (d p : Bytes) (g : KvDecl) (part parts live : Nat) : Bool :=
  let scale := u32 p 0
  bitsN scale 23 8 ≠ 255 && scale % 2 ^ 31 ≠ 0 && zeroOk (atQfmt d) (u16 p 4) && zeroOk g.fmt (u16 p 6) &&
    zeroOk g.fmt (u16 p 8) && 1 ≤ parts && parts ≤ 16 && part < parts && u8 p 13 < g.layers &&
    12 ≤ u8 p 16 && u8 p 16 ≤ 16 && 256 * atDim d ≤ 2 ^ u8 p 16 && u8 p 17 = 0 && !nonZero p 20 44 &&
    (!atScore d || u16 p 18 ≤ 0x3F80) && atHead d < g.heads && (atMode d ≠ 0 || parts = 1) &&
    256 * u16 p 14 + 2 ^ u8 p 16 ≤ 256 * live

/-! ### The snapshot (R339, R340, R391) -/

/-- E of R339. -/
def atExtent (d : Bytes) (cursor : Nat) : Nat :=
  if atCausal d then max cursor (atQpos d + atRows d) else cursor

/-- Positions of an entry that the walk covers. -/
def walkCount (e : Pte) (ext : Nat) : Nat := if e.valid then min e.fill (ext - e.basePos) else 0

def atQrow (s : State) (x : Ctx) (d p : Bytes) (i : Nat) : List Int :=
  let row := s.locRead x (atQ d + i * atQpitch d) (atQpitch d)
  (List.range (atDim d)).map fun k => codeAt (atQfmt d) row k - ((u16 p 4 : Nat) : Int)

/-- The score of a card for one ATTN: the largest over its query rows (R391). -/
def cardScore (g : KvDecl) (d p card : Bytes) (qs : List (List Int)) : Int :=
  let off := (u8 p 13 * g.heads + atHead d) * g.hdim
  let ys := (List.range g.hdim).map fun k => codeAt g.fmt card (off + k)
  let vals := qs.map fun q => dotA8 q ys ((u16 p 6 : Nat) : Int)
  vals.foldl max (vals.headD 0)

/-- The `n` best of scored candidates, lowest BASE_POS first among equals: their BASE_POS values. -/
def bestCards : Nat → List (Int × Nat) → List Nat
  | 0, _ => []
  | _, [] => []
  | n + 1, a :: l =>
    let b := (a :: l).foldl (fun b e => if e.1 > b.1 || (e.1 = b.1 && decide (e.2 < b.2)) then e else b) a
    b.2 :: bestCards n ((a :: l).erase b)

/-- The entries that R339 takes, with their place in the table. -/
def walkTaken (d : Bytes) (q : SeqSlot) : List (Pte × Nat) :=
  q.table.zipIdx.filter fun e => decide (walkCount e.1 (atExtent d q.cursor) > 0)

/-- The candidates of the card index: summarised and unpinned (R391). -/
def cardCands (d : Bytes) (q : SeqSlot) (g : KvDecl) : List (Pte × Nat) :=
  (walkTaken d q).filter fun e => e.1.card.isSome && !pinnedPte g.pinRecent q.table e.2 e.1

/-- The entries the walk takes, in table order. -/
def State.walkEntries (s : State) (x : Ctx) (d p : Bytes) (q : SeqSlot) (g : KvDecl) : List Pte :=
  let all := (walkTaken d q).map (·.1)
  if atCard d then
    let cand := cardCands d q g
    let qs := (List.range (atRows d)).map fun i => atQrow s x d p i
    let best := bestCards (atPick d) (cand.map fun e => (cardScore g d p (e.1.card.getD []) qs, e.1.basePos))
    all.filter fun e => !(cand.any fun c => c.1.basePos = e.basePos) || e.basePos ∈ best
  else all

/-- The pages of a part (R340). -/
def State.walkPages (s : State) (x : Ctx) (d p : Bytes) (q : SeqSlot) (g : KvDecl) : List WalkPage :=
  let es := s.walkEntries x d p q g
  let parts := max 1 x.partCount
  (es.zipIdx.filter fun e => e.2 % parts = x.part).map fun e =>
    ⟨e.1.basePos, e.1.page, walkCount e.1 (atExtent d q.cursor)⟩

/-- Selection cycles of R392: array part and vector part. -/
def selCycles (d : Bytes) (nc : Nat) : Nat × Nat :=
  (ceilDiv (atRows d) 16 * ceilDiv nc 16 * max (2 * atDim d) 8, ceilDiv nc 32 + 16)

/-- Local ranges of an ATTN's scratch operands (R348). -/
def atRanges (d p : Bytes) : List (Nat × Nat) :=
  let seg := if atBiasMode d = 2 then 12288 else if atSegment d || atPadding d then 4096 else 0
  [(atQ d, atRows d * atQpitch d), (atO d, atPoff d + 64 - atO d), (atBias d, if atBiasMode d = 0 then 0 else 2048),
   (atSeg d, seg), (256 * u16 p 14, 2 ^ u8 p 16)]

/-- A position at or above 4,096 where the segment arrays are read (R356). -/
def atBeyond (d : Bytes) (pages : List WalkPage) : Bool :=
  (atSegment d || atPadding d || atBiasMode d = 2) &&
    (decide (atQpos d + atRows d > 4096) || pages.any fun w => decide (w.basePos + w.count > 4096))

/-- The FP32 words of the largest finite value and of −inf. -/
def maxFinite : Word := 0x7F7FFFFF
def negInf : Word := 0xFF800000

def words (l : List Word) : Bytes := l.flatMap fun w => toLe 4 w.toNat

def State.locWord (s : State) (x : Ctx) (a : Nat) : Word := BitVec.ofNat 32 (u32 (s.locRead x a 4) 0)

/-- ATTN at issue (R339, R349 to R351, R356, R378): its checks, its snapshot, O +0, m −inf, l +0 in every row. -/
def State.attn (s : State) (c : Nat) (x : Ctx) (d : Bytes) : Eff :=
  match if atSeq d ∈ x.gone then none else (s.seq? (atSeq d)).bind fun q => q.geom.map fun g => (q, g) with
  | none =>
    if atSeq d ∈ x.gone then
      .ok (s.onCtx x.id fun y => { y with walk := some ⟨atSeq d, x.nextIssue, [], 0, 0, [], false, false⟩ })
    else commandErr s x c d 0
  | some (q, g) =>
    if atDim d ≠ g.hdim || atKfmt d ≠ g.fmt then commandErr s x c d 0
    else
      match s.locFault x (atPoff d : Nat) 64 with
      | some a => scratchErr s x c d a
      | none =>
        let s := s.locWrite x (atPoff d + 11) [BitVec.ofNat 8 x.partCount, BitVec.ofNat 8 x.part]
        let p := s.locRead x (atPoff d) 64
        if !paramOk d p g x.part x.partCount (max (s.liveOf x) (cmdLive d)) then commandErr s x c d (atPoff d)
        else
          match s.locFaults x (atRanges d p) with
          | some a => scratchErr s x c d a
          | none =>
            touching s x c [(atPoff d, 64)] [] fun s =>
              let pages := s.walkPages x d p q g
              if atBeyond d pages then commandErr s x c d (atSeg d)
              else
                let n := atRows d
                let s := s.locWrite x (atO d) (zeros (4 * n * atDim d))
                let s := s.locWrite x (atMoff d) (words (List.replicate n negInf))
                let s := s.locWrite x (atLoff d) (zeros (4 * n))
                let s :=
                  if atCard d then
                    let nc := (cardCands d q g).length
                    let cy := selCycles d nc
                    let s := s.chargeCtx x cy.1 State.chargeArray
                    let s := s.chargeCtx x cy.2 State.chargeVector
                    s.chargeCtx x (nc * atDim d) State.chargeDram
                  else s
                .ok (s.onCtx x.id fun y =>
                  { y with walk := some ⟨atSeq d, x.nextIssue, pages, 0, 0, [], false, false⟩ })

/-! ### One block (R352 to R357) -/

/-- The bias of R353 for query position `qp` and key position `k`, NaN and +inf taken as −inf (R355). -/
def State.atBiasAt (s : State) (x : Ctx) (d : Bytes) (qp k : Nat) : Word :=
  let clampD := fun (lim v : Int) => clampI (-lim) lim v
  let entry : Nat :=
    if atBiasMode d = 1 then (clampD 511 ((k : Int) - qp) + 511).toNat
    else
      let at_ := fun pos => u16 (s.locRead x (atSeg d + 4096 + 2 * pos) 2) 0
      let ck := at_ k
      let cq := at_ qp
      let dx := clampD 15 ((bitsN ck 0 10 : Nat) - (bitsN cq 0 10 : Nat))
      let dy := clampD 15 ((bitsN ck 10 6 : Nat) - (bitsN cq 10 6 : Nat))
      ((dy + 15) * 32 + (dx + 15)).toNat
  let w := bf16W (u16 (s.locRead x (atBias d + 2 * entry) 2) 0)
  match fpOf w with
  | .nan _ => negInf
  | .inf n => if n then negInf else negInf
  | _ => w

def State.segAt (s : State) (x : Ctx) (d : Bytes) (pos : Nat) : Nat := u8 (s.locRead x (atSeg d + pos) 1) 0

/-- Key position `k` is masked for a query position (R354). -/
def State.masked (s : State) (x : Ctx) (d : Bytes) (qp k : Nat) : Bool :=
  (atCausal d && decide (k > qp)) ||
    (atSegment d && s.segAt x d k ≠ s.segAt x d qp) ||
    (atPadding d && s.segAt x d k = 0xFF)

/-- The logit of R352 and R355. -/
def logit (score : Int) (scale bias : Word) : Word :=
  let t := f32Fma (f32OfInt score) scale bias
  if t = infW false then maxFinite else t

/-- Keys and values of one block: for each position, its key codes and value codes. -/
structure Block where
  first : Nat
  keys : List (List Int)
  values : List (List Int)

/-- Read block `b` of a page: up to 64 positions from page-relative position 64b. -/
def State.readBlock (s : State) (g : KvDecl) (layer head : Nat) (w : WalkPage) (size b : Nat) : Block :=
  let n := min 64 (w.count - 64 * b)
  let base := w.page * 4096
  let code := fun a => codeAt g.fmt [s.dram.get (base + a)] 0
  { first := w.basePos + 64 * b
    keys := (List.range n).map fun i => (List.range g.hdim).map fun e => code (g.keyAt size layer head (64 * b + i) e)
    values := (List.range n).map fun i => (List.range g.hdim).map fun e => code (g.valueAt size layer head (64 * b + i) e) }

/-- The row of partial results after one block, with the block's sum and the running maximum (R357). `ts`: the logits. -/
def blockRow (r : PartRow) (ts : List Word) (values : List (List Int)) (vzero vshift : Int) : PartRow × (Word × Word) :=
  let bm := ts.foldl f32Max (ts.headD negInf)
  if bm = negInf then (r, (0, r.m))
  else
    let mNew := f32Max r.m bm
    let alpha := f32Exp2 (f32Sub r.m mNew)
    let cs : List Int := ts.map fun t => min 255 (f32ToInt (f32Mul (f32Exp2 (f32Sub t mNew)) 0x43800000))
    let s := f32OfScaled cs.sum (-8)
    let l := f32Fma r.l alpha s
    let o := (r.o.zipIdx).map fun p =>
      let acc := dotA8 cs (values.map fun v => v.getD p.2 0) vzero
      f32Fma p.1 alpha (f32OfScaled acc (vshift - 8))
    (⟨mNew, l, o⟩, (s, mNew))

/-- The row of partial results of query row `i`, in the O area (R347). -/
def State.partRow (s : State) (x : Ctx) (d : Bytes) (i : Nat) : PartRow :=
  { m := s.locWord x (atMoff d + 4 * i)
    l := s.locWord x (atLoff d + 4 * i)
    o := (List.range (atDim d)).map fun k => s.locWord x (atO d + 4 * (i * atDim d + k)) }

def State.setPartRow (s : State) (x : Ctx) (d : Bytes) (i : Nat) (r : PartRow) : State :=
  let s := s.locWrite x (atMoff d + 4 * i) (toLe 4 r.m.toNat)
  let s := s.locWrite x (atLoff d + 4 * i) (toLe 4 r.l.toNat)
  s.locWrite x (atO d + 4 * i * atDim d) (words r.o)

/-- One block over every query row; answers the (s, m) of each row. -/
def State.attnBlock (s : State) (x : Ctx) (d p : Bytes) (b : Block) : List (Word × Word) × State :=
  (List.range (atRows d)).foldl (fun (acc : List (Word × Word) × State) i =>
    let s := acc.2
    let qp := atQpos d + i
    let q := atQrow s x d p i
    let ts := b.keys.zipIdx.map fun k =>
      let pos := b.first + k.2
      if s.masked x d qp pos then negInf
      else
        logit (dotA8 q k.1 ((u16 p 6 : Nat) : Int)) (BitVec.ofNat 32 (u32 p 0))
          (if atBiasMode d = 0 then 0 else s.atBiasAt x d qp pos)
    let r := blockRow (s.partRow x d i) ts b.values ((u16 p 8 : Nat) : Int) (s8 p 10)
    (acc.1 ++ [r.2], s.setPartRow x d i r.1)) ([], s)

/-- Array and vector cycles of a block of `n` positions (R360). -/
def blockCycles (d : Bytes) (n : Nat) : Nat × Nat :=
  (ceilDiv (atRows d) 16 * (ceilDiv n 16 * max (2 * atDim d) 8 + atDim d / 16 * max (2 * n) 8),
   ceilDiv (atRows d * n) 8 + ceilDiv (atRows d * atDim d) 32 + 14)

/-- Finish cycles F of R360. -/
def finishCycles (d : Bytes) : Nat :=
  if atMode d = 0 then ceilDiv (atRows d) 8 + ceilDiv (atRows d * atDim d) 32 + 12
  else ceilDiv (atRows d * (atDim d + 2)) 32

/-- The page at index `i` of the walk is consumed: its blocks in turn. -/
def State.consumePage (s : State) (id : Nat) (d : Bytes) (i : Nat) : State :=
  match s.ctx? id with
  | none => s
  | some x =>
    match x.walk.bind fun w => (w.pages[i]?).map fun pg => (w, pg) with
    | none => s
    | some (w, pg) =>
      match (s.seq? w.seq).bind fun q => q.geom.map fun g => (q, g) with
      | none => s
      | some (q, g) =>
        let p := s.locRead x (atPoff d) 64
        let size := ((q.pte? pg.basePos).map Pte.size).getD (2 ^ g.log2Page)
        let r := (List.range (ceilDiv pg.count 64)).foldl (fun (acc : List (List (Word × Word)) × State) b =>
          let blk := acc.2.readBlock g (u8 p 13) (atHead d) pg size b
          let o := acc.2.attnBlock x d p blk
          let cy := blockCycles d blk.keys.length
          let s := o.2.chargeCtx x cy.1 State.chargeArray
          let s := s.chargeCtx x cy.2 State.chargeVector
          (acc.1 ++ [o.1], s.chargeCtx x (2 * g.hdim * blk.keys.length) State.chargeDram)) ([], s)
        r.2.onCtx id fun y => { y with walk := y.walk.map fun w => { w with blocks := w.blocks ++ [r.1] } }

/-- An injected residue error at a drain of the array by an ATTN (R267, R256): the sum of cell (0, 0), query row 0 and the first key
of the page, with its corrupted residue, as the record has them. -/
def State.attnResidue (s : State) (x : Ctx) (c : Nat) (v : Int) : Option State :=
  let r := s.injectResidue c [⟨v, false, res3 v⟩]
  (residueFault 16 r.1).map fun det =>
    (r.2.bumpSat (rCarErrcnt c) 16 8 1).raise
      ⟨ekResidue, unitCarrel c 1, (s.jobOf x).map (·.slot), x.place.map fun p => ctxNumber p.1 p.2, det⟩

/-- The first score of a page: query row 0 with its first key. -/
def State.firstScore (s : State) (x : Ctx) (d : Bytes) (i : Nat) : Int :=
  match x.walk.bind fun w => (w.pages[i]?).map fun pg => (w, pg) with
  | none => 0
  | some (w, pg) =>
    match (s.seq? w.seq).bind fun q => q.geom.map fun g => (q, g) with
    | none => 0
    | some (q, g) =>
      let p := s.locRead x (atPoff d) 64
      let size := ((q.pte? pg.basePos).map Pte.size).getD (2 ^ g.log2Page)
      dotA8 (atQrow s x d p 0) ((s.readBlock g (u8 p 13) (atHead d) pg size 0).keys.headD []) ((u16 p 6 : Nat) : Int)

/-- One page of a resident ATTN is consumed, after what its reads of scratch and its drains meet (R266, R267). -/
def State.takePageOf (s : State) (x : Ctx) (d : Bytes) (i : Nat) : State :=
  match x.place with
  | none => s
  | some (c, _) =>
    let p := s.locRead x (atPoff d) 64
    s.accessing x c ((atRanges d p).take 4) [] fun s =>
      (s.attnResidue x c (s.firstScore x d i)).getD (s.consumePage x.id d i)

/-- Consume the pages whose descriptors wait in the queue, while nothing stops the context. -/
def State.consumeQueued (s : State) (id : Nat) (d : Bytes) : State :=
  match (s.ctx? id).bind (·.walk) with
  | none => s
  | some w =>
    let s := (List.range w.queued).foldl (fun s k =>
      match s.ctx? id with
      | some x => if x.stopped then s else s.takePageOf x d (w.emitted - w.queued + k)
      | none => s) s
    s.onCtx id fun y => { y with walk := y.walk.map fun w => { w with queued := 0 } }

/-- The ATTN outstanding in a context. -/
def Ctx.attnCmd (x : Ctx) : Option OutCmd := x.outstanding.find? fun o => cmdOp o.cmd = coAttn

/-- An ATTN that has its engines consumes what waits in its queue (R341, R465). -/
def State.attnGoesOn (s : State) (id : Nat) : State :=
  match (s.ctx? id).bind fun x => x.attnCmd.map fun o => (x, o) with
  | some (x, o) => if x.taken ≠ 0 || x.stopped || x.walk.all (·.queued = 0) then s else s.consumeQueued id o.cmd
  | none => s

/-- The contexts of a carrel get taken engines back, and an ATTN among them goes on (R465, R341). -/
def State.giveBack (s : State) (c : Nat) : State :=
  ((s.residents c).map (·.2.id)).foldl State.attnGoesOn (s.returnEngines c)

/-- KV_DESCRIPTOR_EMIT (R340 to R342): the next page's descriptor reaches the queue, which holds 8. An ATTN with its engines
consumes at once; one whose engines an LC command has taken leaves it waiting. -/
def State.kvEmit (s : State) (c k : Nat) : State :=
  match s.ctxAt c k with
  | none => s
  | some x =>
    match x.walk, x.attnCmd with
    | some w, some _ =>
      if x.stopped || decide (w.emitted ≥ w.pages.length) || decide (w.queued ≥ 8) ||
          (s.seq? w.seq).any (·.applying) then s
      else
        let s := s.onCtx x.id fun y =>
          { y with walk := y.walk.map fun w => { w with emitted := w.emitted + 1, queued := w.queued + 1 } }
        s.attnGoesOn x.id
    | _, _ => s

/-! ### The end of an ATTN (R358, R376, R377) -/

/-- The final output row of a row of results: O × recip(l), +0 for a row whose keys were all masked and for a padded query
row (R354, R358). -/
def outRow (ofmt : Nat) (padded : Bool) (r : PartRow) : Bytes :=
  let rl := f32Recip r.l
  let zero := padded || (fpOf r.l).eq (.fin false 0 0)
  r.o.flatMap fun o =>
    let w := if zero then 0 else f32Mul o rl
    if ofmt = fmBF16 then toLe 2 (bf16Code (f32ToBf16 w)) else toLe 4 w.toNat

/-- The whole output of an ATTN from its rows. -/
def State.attnOut (s : State) (x : Ctx) (d : Bytes) (rows : List PartRow) : Bytes :=
  (rows.zipIdx).flatMap fun p =>
    outRow (atOfmt d) (atPadding d && s.segAt x d (atQpos d + p.2) = 0xFF) p.1

/-- The mass of a page (R376): `blocks` of the page, the final rows. -/
def pageMass (d : Bytes) (parts : Nat) (blocks : List (List (Word × Word))) (rows : List PartRow) : Word :=
  let total := rows.zipIdx.foldl (fun acc p =>
    if (fpOf p.1.l).eq (.fin false 0 0) then acc
    else
      let inner := blocks.foldl (fun a b =>
        let e := b.getD p.2 (0, negInf)
        f32Add a (f32Mul e.1 (f32Exp2 (f32Sub e.2 p.1.m)))) 0
      f32Add acc (f32Mul inner (f32Recip p.1.l))) 0
  let m := f32Div total (f32OfInt (atRows d))
  if atMode d = 0 then m else f32Div m (f32OfInt parts)

/-- SCORE of a page after an ATTN (R377). -/
def newScore (decay score : Nat) (mass : Word) : BitVec 16 :=
  let dw := bf16W decay
  let w := f32Fma dw (bf16W score) (f32Mul mass (f32Sub 0x3F800000 dw))
  BitVec.ofNat 16 (bf16Code (f32ToBf16 w))

/-- Update the SCORE of each page that the ATTN read. -/
def State.scorePages (s : State) (x : Ctx) (d : Bytes) (w : Walk) (rows : List PartRow) : State :=
  if atScore d then
    let decay := u16 (s.locRead x (atPoff d) 64) 18
    (w.pages.zipIdx).foldl (fun s p =>
      let mass := pageMass d x.partCount (w.blocks.getD p.2 []) rows
      s.onPte w.seq p.1.basePos fun t => { t with score := newScore decay t.score.toNat mass }) s
  else s

/-- Every page of the walk is consumed. -/
def Walk.done (w : Walk) : Bool := decide (w.emitted = w.pages.length) && decide (w.queued = 0)

/-- An ATTN may complete now (R280, R362). -/
def Ctx.attnReady (x : Ctx) (d : Bytes) : Bool :=
  match x.walk with
  | none => false
  | some w => w.done && (if atMode d = 0 then true else if x.part = 0 then w.written else w.handed)

/-- The rows of partial results are read from scratch, with what the read meets (R266). -/
def State.readingRows (s : State) (x : Ctx) (d : Bytes) (run : State → State) : State :=
  match x.place with
  | some (c, _) => s.accessing x c [(atO d, 4 * atRows d * atDim d + 8 * atRows d)] [] run
  | none => run s

/-- The completion of an ATTN: the final output in MODE 0, the scores. -/
def State.attnComplete (s : State) (x : Ctx) (d : Bytes) : State :=
  s.readingRows x d fun s =>
  match x.walk with
  | none => s
  | some w =>
    let rows := (List.range (atRows d)).map fun i => s.partRow x d i
    let s' := s.scorePages x d w rows
    let s' := if atMode d = 0 then s'.locWrite x (atO d) (s.attnOut x d rows) else s'
    (s'.chargeCtx x (finishCycles d) State.chargeVector).onCtx x.id fun y => { y with walk := none }

/-! ### The combiner (R361, R362) -/

/-- One fold of two rows. -/
def combineRow (a b : PartRow) : PartRow :=
  let m := f32Max a.m b.m
  if m = negInf then a
  else
    let fa := f32Exp2 (f32Sub a.m m)
    let fb := f32Exp2 (f32Sub b.m m)
    { m := m
      l := f32Fma a.l fa (f32Mul b.l fb)
      o := (a.o.zip b.o).map fun p => f32Fma p.1 fa (f32Mul p.2 fb) }

/-- Fold the parts' rows in ascending PART. -/
def combineAll (parts : Nat) (rows : List (Nat × List PartRow)) : List PartRow :=
  let get := fun k => ((rows.find? (·.1 = k)).map (·.2)).getD []
  (List.range (parts - 1)).foldl (fun acc k => List.zipWith combineRow acc (get (k + 1))) (get 0)

def Combiner.matches (b : Combiner) (x : Ctx) (idx : Nat) : Bool :=
  b.jobNumber = x.jobNumber && b.stage = x.plan.stage && b.seqs = x.plan.seqs && b.idx = idx

/-- Part 0 of a spread head: the context that runs the same list for the same sequences as part 0. -/
def State.partZero (s : State) (x : Ctx) : Option Ctx :=
  s.sch.ctxs.find? fun y => y.jobNumber = x.jobNumber && y.plan.stage = x.plan.stage && y.plan.seqs = x.plan.seqs &&
    y.plan.stripe = x.plan.stripe && y.part = 0 && y.partCount = x.partCount

/-- The combiner writes the final output over the start of part 0's O area, or holds it while part 0 is switched out. -/
def State.combineDone (s : State) (x : Ctx) (idx : Nat) (rows : List PartRow) (d : Bytes) : State :=
  match s.partZero x with
  | none => s
  | some z =>
    let out := s.attnOut x d rows
    let s := s.onSch fun h => { h with combiners := h.combiners.filter fun b => !b.matches x idx }
    let s := match z.place with
      | some _ => s.locWrite z (atO d) out
      | none => s.onCtx z.id fun y => { y with heldOut := some (atO d, out) }
    s.onCtx z.id fun y => { y with walk := y.walk.map fun w => { w with written := z.place.isSome } }

/-- COMBINE_PART: the rows of the ATTN in a slot reach the combiner. -/
def State.combinePart (s : State) (c k : Nat) : State :=
  match s.ctxAt c k with
  | none => s
  | some x =>
    match x.walk, x.attnCmd with
    | some w, some o =>
      let d := o.cmd
      if atMode d ≠ 1 || !w.done || w.handed || x.stopped then s
      else s.readingRows x d fun s =>
        let rows := (List.range (atRows d)).map fun i => s.partRow x d i
        let s := s.onCtx x.id fun y => { y with walk := y.walk.map fun w => { w with handed := true } }
        let s := s.onSch fun h =>
          if h.combiners.any (·.matches x o.idx) then
            { h with combiners := updFirst (·.matches x o.idx) (fun b => { b with rows := b.rows ++ [(x.part, rows)] }) h.combiners }
          else
            { h with combiners := h.combiners ++ [⟨x.jobNumber, x.plan.stage, x.plan.seqs, o.idx, x.partCount, [(x.part, rows)]⟩] }
        match s.sch.combiners.find? (·.matches x o.idx) with
        | some b => if b.rows.length = b.parts then s.combineDone x o.idx (combineAll b.parts b.rows) d else s
        | none => s
    | _, _ => s

/-! ### Meanings -/

def execAttn (c k now : Nat) (s : State) : Result :=
  .next (s.whenOn fun s => s.issue c k now coAttn true fun s x d => s.attn c x d)
def execKvDescriptorEmit (c k : Nat) (s : State) : Result := .next (s.whenOn fun s => s.kvEmit c k)
def execCombinePart (c k : Nat) (s : State) : Result := .next (s.whenOn fun s => s.combinePart c k)

end Sys2Proof.Machine
end

