-- ==== Sys2Proof/Machine/Jobs.lean ====
section
/-! DEFINITION. The ends of things: references and pool granules (R130, R131, R209, R324, R325, R435), contexts (R456), sequences
(R96, R97, R138, R456), jobs (R92, R96, R479, R482), CANCEL (R101 to R104), teardown (R499 to R501) and SWAP_OUT (R387). -/

namespace Sys2Proof.Machine

/-! ### The two pools -/

def State.accPoolBase (s : State) : Nat := s.regPair rAccPoolBaseLo rAccPoolBaseHi
def State.colPoolBase (s : State) : Nat := s.regPair rColPoolBaseLo rColPoolBaseHi
def State.accGranules (s : State) : Nat := s.regF rAccPoolSize 0 16
def State.colGranules (s : State) : Nat := s.regF rColPoolSize 0 16

/-- Granules of 64 KiB that `n` bytes take. -/
def granules (n : Nat) : Nat := ceilDiv n 65536

def poolRuns (l : List PoolAlloc) : List (Nat × Nat) := l.map fun p => (p.first, p.count)

/-- DRAM address of an allocation of the plane pool. -/
def State.accAddr (s : State) (p : PoolAlloc) : Nat := s.accPoolBase + 65536 * p.first

/-- DRAM address of an allocation of the capture pool. -/
def State.colAddr (s : State) (p : PoolAlloc) : Nat := s.colPoolBase + 65536 * p.first

/-- Take granules of the plane pool for `bytes`, lowest first: the address. -/
def State.poolTake (s : State) (bytes : Nat) (owner : PoolOwner) (refs : Nat) : Option (Nat × State) :=
  let n := granules bytes
  match firstRun s.accGranules n (poolRuns s.acc.pool) with
  | none => none
  | some f => some (s.accPoolBase + 65536 * f, s.onAcc fun a => { a with pool := a.pool ++ [⟨f, n, owner, refs⟩] })

/-- An allocation may take room now: none waits ahead of it (R131). -/
def State.poolFirst (s : State) (owner : PoolOwner) : Bool := s.acc.poolQueue.head?.all (· = owner)

/-- An allocation that finds no room waits behind those that wait. -/
def State.poolWaits (s : State) (owner : PoolOwner) : State := s.onAcc fun a => { a with poolQueue := addNew a.poolQueue owner }

/-- An allocation waits no more. -/
def State.poolDone (s : State) (p : PoolOwner → Bool) : State :=
  s.onAcc fun a => { a with poolQueue := a.poolQueue.filter fun o => !p o }

/-- The planes or buffers of a job, of one page-side of it where `idx` is given. -/
def PoolOwner.ofJob (number : Nat) (idx : Option Nat) : PoolOwner → Bool
  | .planes j i => j = number && idx.all (· = i)
  | .buffer j i _ _ => j = number && idx.all (· = i)
  | _ => false

/-- The address of the plane-pool allocation of an owner. -/
def State.poolOf (s : State) (owner : PoolOwner) : Option Nat := (s.acc.pool.find? (·.owner = owner)).map s.accAddr

def State.readBy (s : State) (addr : Nat) : Bool := s.sch.ctxs.any fun x => addr ∈ x.reads

/-- A held page-side at an address that no job has claimed keeps its planes (R133, R209). -/
def State.keptAt (s : State) (addr : Nat) : Bool :=
  s.acc.held.any fun h => h.planes.addr = addr && h.claimedBy.isNone && h.fate = .held

/-- Return to their pools the buffers whose reference count is 0 and that no context reads (R324); a claimed page-side whose
planes go is consumed, and never held again (R135). -/
def State.sweepPools (s : State) : State :=
  let keep := fun (addr refs : Nat) => refs > 0 || s.readBy addr || s.keptAt addr
  let accKeep := s.acc.pool.filter fun p => keep (s.accAddr p) p.refs
  let colKeep := s.col.pool.filter fun p => keep (s.colAddr p) p.refs
  let left := accKeep.map s.accAddr ++ colKeep.map s.colAddr
  let s := s.onCol fun c => { c with pool := colKeep }
  s.onAcc fun a =>
    { a with
      pool := accKeep
      held := a.held.filter fun h => h.claimedBy.isNone || h.planes.addr ∈ left }

/-- Change the reference count of the buffer at an address. -/
def State.onRefs (s : State) (addr : Nat) (f : Nat → Nat) : State :=
  let base := s.accPoolBase
  let cbase := s.colPoolBase
  (s.onAcc fun a =>
    { a with pool := a.pool.map fun p => if base + 65536 * p.first = addr then { p with refs := f p.refs } else p }).onCol
    fun c => { c with pool := c.pool.map fun p => if cbase + 65536 * p.first = addr then { p with refs := f p.refs } else p }

/-- One reader of each buffer lets it go (R324). -/
def State.dropRefs (s : State) (addrs : List Nat) : State :=
  (addrs.foldl (fun s a => s.onRefs a (· - 1)) s).sweepPools

/-- Nobody will read the buffers of a page-side any more: its planes, its OUTPUT and its WORK buffers. -/
def State.dropPageBuffers (s : State) (number idx : Nat) (planes : List Nat) : State :=
  let s := s.onAcc fun a =>
    { a with
      pool := a.pool.map fun p =>
        match p.owner with
        | .planes j i => if j = number && i = idx then { p with refs := 0 } else p
        | .buffer j i _ _ => if j = number && i = idx then { p with refs := 0 } else p
        | _ => p }
  (planes.foldl (fun s a => s.onRefs a fun _ => 0) s).sweepPools

/-! ### Contexts -/

/-- Empty a slot of a carrel. -/
def Carrel.emptySlot (r : Carrel) (k : Nat) : Carrel := { r with slots := r.slots.set k ([], Option.none) }

/-- A context ends: its slot, its units, its references and its spill image are free (R456, R324), and the engines that it had
taken are given back (R465). A switch under way runs to its end (R471). -/
def State.endCtx (s : State) (id : Nat) : State :=
  match s.ctx? id with
  | none => s
  | some x =>
    let s := match x.place with
      | some (c, k) => s.onCarrel c fun r => r.emptySlot k
      | none => s
    let s := s.onSch fun h =>
      { h with ctxs := h.ctxs.filter (·.id ≠ id) }
    let s := s.onAcc fun a => { a with pool := a.pool.filter fun p => p.owner ≠ .spill id }
    let s := match x.place with
      | some (c, _) => s.giveBack c
      | none => s
    s.dropRefs x.reads

/-! ### Sequences -/

/-- A page-side whose record is formed and still held takes no further step (R456). -/
def State.retirePage (s : State) (number idx : Nat) : State :=
  s.onKv fun k =>
    { k with seqs := k.seqs.map fun q =>
        if q.jobNumber = number && q.idx = idx && !q.row then { q with ended := true } else q }

/-- A member leaves its encoder batch (R149). -/
def State.leaveBatch (s : State) (number idx : Nat) : State :=
  s.onAcc fun a =>
    { a with
      batches := a.batches.map fun b =>
        if b.jobNumber = number && !b.packed then { b with members := b.members.filter (· ≠ idx) } else b }

/-! ### Jobs -/

/-- The job's charges leave, and every slack that its admission reduced rises again (R479). -/
def State.dropPlan (s : State) (j : Job) : State :=
  match j.plan with
  | none => s
  | some p =>
    let s := p.deltas.foldl (fun s d =>
      s.onJobNum d.1 fun k => { k with plan := k.plan.map fun q => { q with slack := q.slack + d.2 } }) s
    s.onJob j.slot fun k => { k with plan := none }

/-- A step that a context had under way for another job's sequence is abandoned: it opens again at a later placement. -/
def State.abandonStep (s : State) (slot : Nat) : State :=
  s.onSeq slot fun q => { q with stepOpen := 0, stepRan := [], chunk := 0, applying := q.edits ≠ [] }

/-- Everything that a job holds besides its job slot is released (R325, R441, R479, R499). -/
def State.releaseJob (s : State) (slot : Nat) : State :=
  match s.job? slot with
  | none => s
  | some j =>
    let mine := s.sch.ctxs.filter (·.jobNumber = j.number)
    let others := (mine.filter (!·.idle)).flatMap fun x => x.plan.seqs.filter fun q =>
      (s.seq? q).any fun z => z.jobNumber ≠ j.number
    let s := mine.foldl (fun s x => s.endCtx x.id) s
    let s := others.foldl State.abandonStep s
    let s := ((s.kv.seqs.filter (·.jobNumber = j.number)).map (·.slot)).foldl State.releaseSeq s
    let s := s.onSch fun h =>
      { h with
        combiners := h.combiners.filter (·.jobNumber ≠ j.number)
        waiting := h.waiting.filter (·.jobNumber ≠ j.number)
        spillNeed := h.spillNeed.filter (·.2.2 ≠ j.number)
        bist := match h.bist with | some b => if b.2 = slot then none else some b | none => none
        bistQueue := h.bistQueue.filter (· ≠ slot) }
    let claimed := (s.acc.held.filter fun h => h.claimedBy = some j.number).map (·.planes.addr)
    let s := s.onAcc fun a =>
      { a with
        lanes := a.lanes.map fun l => match l with | some r => if r.jobNumber = j.number then none else some r | none => none
        batches := a.batches.filter (·.jobNumber ≠ j.number)
        pool := a.pool.map fun p =>
          match p.owner with
          | .planes n _ => if n = j.number then { p with refs := 0 } else p
          | .buffer n _ _ _ => if n = j.number then { p with refs := 0 } else p
          | _ => p }
    let s := ((claimed.foldl (fun s a => s.onRefs a fun _ => 0) s).poolDone (PoolOwner.ofJob j.number none)).sweepPools
    let s := s.onFol fun g =>
      { g with
        refills := g.refills.filter fun r =>
          !(g.folios.any fun f => f.handle = r.2.1 && f.loaderSlot = some slot && !f.committed)
        shards := g.shards.filter fun d =>
          !(g.folios.any fun f => f.handle = d.handle && f.loaderSlot = some slot && !f.committed)
        folios := (g.folios.filter fun f => !(f.loaderSlot = some slot && !f.committed)).map fun f =>
          if f.loaderSlot = some slot then { f with unloading := false, loaderSlot := none } else f }
    let s := s.onCol fun c =>
      { c with queue := c.queue.filter (·.1 ≠ slot), calib := c.calib.filter (·.slot ≠ slot) }
    let s := s.onSec fun c => { c with attest := c.attest.filter (·.slot ≠ slot) }
    let s := s.onRings fun r =>
      { r with sqs := r.sqs.map fun q => { q with fetched := q.fetched.filter (·.2 ≠ some slot) } }
    s.dropPlan j

/-- End a job: what it holds is released, and its job-end record follows its sequence records (R96). -/
def State.closeJob (s : State) (slot status flags detail : Nat) : State :=
  match s.job? slot with
  | none => s
  | some j =>
    ((s.releaseJob slot).endJob slot status flags j.seqRecs detail).releaseCancels

/-- A RUN job whose sequences have all ended and that has no run under way ends with OK (R96, R97). -/
def State.jobEndCheck (s : State) (slot : Nat) : State :=
  match s.job? slot with
  | none => s
  | some j =>
    if dOp j.desc = opRun && j.phase = .running && decide (j.ended.length ≥ dInCount j.desc) &&
        !(s.sch.ctxs.any fun x => x.jobNumber = j.number && !x.idle) then s.closeJob slot stOk 0 0
    else s

/-- A sequence ends: its record is written, its slots and buffers go, it leaves its encoder batch, and the job may end. -/
def State.endSequence (s : State) (slot idx sample status flags amount detail : Nat) : State :=
  match s.job? slot with
  | none => s
  | some j =>
    if !j.alive || idx ∈ j.ended then s
    else
      let planes := ((s.pageSlots j.number idx).filterMap (·.planes)).map (·.addr)
      let s := (s.seqRecord slot idx sample status flags amount detail).retirePage j.number idx
      let s := (s.dropPageBuffers j.number idx planes).leaveBatch j.number idx
      let s := s.poolDone (PoolOwner.ofJob j.number (some idx))
      s.jobEndCheck slot

/-- JOB_TEARDOWN (R499): the job charged with an error is torn down. -/
def State.jobTeardown (s : State) (slot : Nat) : State :=
  match s.job? slot with
  | none => s
  | some j =>
    if j.phase = .teardown then
      (s.closeJob slot stContextFault flVoid (j.errNumber % 65536)).bumpSat rLdgFaultCount 0 16 1
    else s

/-! ### CANCEL (R101 to R104) -/

def dTargetSq (d : Bytes) : Nat := u8 d 5
def dTargetTag (d : Bytes) : Nat := u32 d 12

/-- The job-end record of the job in a slot is held behind a full ring and not CANCELLED already. -/
def State.endHeld (s : State) (slot : Nat) : Bool :=
  s.rings.cqs.any fun c => c.held.any fun r => r.frees = some slot && r.status ≠ stCancelled

/-- The jobs that a CANCEL ends: those that hold a slot and whose job-end record is neither written nor started (R102, R103), a job
under teardown apart (R499). -/
def State.cancelTargets (s : State) (d : Bytes) : List Job :=
  s.jobs.filter fun j =>
    j.sq = dTargetSq d && j.tag = dTargetTag d && (j.alive || (j.phase = .ended && s.endHeld j.slot))

/-- A held job-end record becomes that of a cancelled job (R102, R234). -/
def CqRec.cancelled (r : CqRec) : CqRec :=
  { r with status := stCancelled, flags := flJobEnd, sat := 0, zc := 0, detail := 0 }

/-- One target of a CANCEL ends: closed now, or its held record changed. -/
def State.cancelOne (s : State) (j : Job) : State :=
  if j.alive then s.closeJob j.slot stCancelled 0 0
  else
    s.onRings fun r =>
      { r with
        cqs := r.cqs.map fun c =>
          { c with held := c.held.map fun e => if e.frees = some j.slot then e.cancelled else e } }

/-- A CANCEL executes: its targets end with CANCELLED, and its own record follows theirs. -/
def State.cancelDesc (s : State) (n : Nat) (d : Bytes) : State :=
  let ts := s.cancelTargets d
  let rec_ := jobEndRec n d stOk 0 ts.length 0 0 0 0 none
  let s := ts.foldl State.cancelOne s
  (s.onRings fun r => { r with cancels := r.cancels ++ [(s.cqFor n d, rec_, ts.map (·.number))] }).releaseCancels

def State.cancel (s : State) (n : Nat) : State :=
  s.beginDesc n (fun d => dOp d = opCancel) fun s d _ => s.cancelDesc n d

/-! ### Meanings -/

def execSwapOut (s : State) : Result :=
  .next (s.whenOn fun s => s.swapOut fun s slot detail => s.closeJob slot stSwapExhausted 0 detail)

end Sys2Proof.Machine
end

