-- ==== Sys2Proof/Machine/Catalog.lean ====
section
/-! DEFINITION. Byte decoding and the catalog unit (chapter 12): grammar images and configurations (R396 to R403), the parameter
block (R406, R407), taking a token (R408 to R413), delivery (R414, R415), the confidence stream (R421 to R424) and the choice
(R416 to R420). -/

namespace Sys2Proof.Machine

/-! ### Grammar images (R396 to R400): `m` holds the image at address `a` -/

def Mem.u8 (m : Mem) (a : Nat) : Nat := (m.get a).toNat
def Mem.u16 (m : Mem) (a : Nat) : Nat := leNat (m.read a 2)
def Mem.u32 (m : Mem) (a : Nat) : Nat := leNat (m.read a 4)

def gClasses (m : Mem) (a : Nat) : Nat := m.u16 (a + 6)
def gStates (m : Mem) (a : Nat) : Nat := m.u32 (a + 8)
def gSymbols (m : Mem) (a : Nat) : Nat := m.u16 (a + 12)
def gDepth (m : Mem) (a : Nat) : Nat := m.u16 (a + 14)
def gPairs (m : Mem) (a : Nat) : Nat := m.u32 (a + 16)
def gMasks (m : Mem) (a : Nat) : Nat := m.u32 (a + 20)
def gActionRows (m : Mem) (a : Nat) : Nat := m.u32 (a + 24)
def gPushes (m : Mem) (a : Nat) : Nat := m.u32 (a + 28)
def gLength (m : Mem) (a : Nat) : Nat := m.u32 (a + 32)

/-- Offsets of the sections (R397). -/
def goClassMap : Nat := 64
def goText : Nat := 384
def goState : Nat := 448
def goPair (m : Mem) (a : Nat) : Nat := goState + roundUp (8 * gStates m a) 64
def goMask (m : Mem) (a : Nat) : Nat := goPair m a + roundUp (8 * gPairs m a) 64
def goAction (m : Mem) (a : Nat) : Nat := goMask m a + roundUp (48 * gMasks m a) 64
def goPush (m : Mem) (a : Nat) : Nat := goAction m a + roundUp (8 * gClasses m a * gActionRows m a) 64
def goEnd (m : Mem) (a : Nat) : Nat := goPush m a + roundUp (2 * gPushes m a) 64

def gClassOf (m : Mem) (a t : Nat) : Nat := m.u8 (a + goClassMap + t)

/-- Address of pair entry `i`. -/
def gPairAt (m : Mem) (a i : Nat) : Nat := a + goPair m a + 8 * i

/-- The pair entries of a state. -/
def gPairsOf (m : Mem) (a st : Nat) : List Nat :=
  let e := a + goState + 8 * st
  (List.range (m.u16 (e + 4))).map fun i => gPairAt m a (m.u32 e + i)

/-- The pair entry of a configuration (R401). -/
def gPair (m : Mem) (a st : Nat) (stack : List Nat) : Option Nat :=
  let want := stack.headD 0xFFFF
  let es := gPairsOf m a st
  (es.find? fun e => m.u16 e = want).orElse fun _ => es.find? fun e => m.u16 e = 0xFFFE

/-- The action entry of a token in a pair entry (R402). -/
def gAction (m : Mem) (a pair t : Nat) : Nat :=
  a + goAction m a + 8 * (gClasses m a * (m.u32 (pair + 4) % 2 ^ 24) + gClassOf m a t)

def aNext (m : Mem) (e : Nat) : Nat := m.u16 e
def aFlags (m : Mem) (e : Nat) : Nat := m.u8 (e + 2)
def aPop (m : Mem) (e : Nat) : Nat := m.u8 (e + 3) % 16
def aPush (m : Mem) (e : Nat) : Nat := m.u8 (e + 3) / 16
def aPushIdx (m : Mem) (e : Nat) : Nat := m.u32 (e + 4) % 2 ^ 24

/-- Bit `t` of a mask row (R399). -/
def gMaskBit (m : Mem) (a row t : Nat) : Bool := bitN (m.u8 (a + goMask m a + 48 * row + t / 8)) (t % 8)

/-- The mask in force of a configuration: the tokens allowed, ascending (R403). -/
def gMask (m : Mem) (a st : Nat) (stack : List Nat) : List Nat :=
  match gPair m a st stack with
  | none => []
  | some p =>
    (List.range 264).filter fun t =>
      let e := gAction m a p t
      gMaskBit m a (m.u16 (p + 2)) t && decide (aPop m e ≤ stack.length) &&
        decide (stack.length - aPop m e + aPush m e ≤ gDepth m a)

/-- The configuration after an action (R402). -/
def gStep (m : Mem) (a e : Nat) (stack : List Nat) : Nat × List Nat :=
  let pushed := (List.range (aPush m e)).map fun i => m.u16 (a + goPush m a + 2 * (aPushIdx m e + i))
  (aNext m e, pushed.reverse ++ stack.drop (aPop m e))

abbrev tokEnd : Nat := 0x100

/-- Output bytes of a token (R394, R397). -/
def tokenBytes (m : Mem) (a t : Nat) : Bytes :=
  if t < 0x100 then [BitVec.ofNat 8 t]
  else if 0x101 ≤ t && t ≤ 0x103 then
    let e := a + goText + 16 * (t - 0x101)
    m.read (e + 1) (m.u8 e)
  else []

/-! ### The parameter block (R406) -/

def pGrammar (b : Bytes) : Nat := u8 b 0
def pTopk (b : Bytes) : Bool := bitN (u8 b 1) 0
def pK (b : Bytes) : Nat := u8 b 2
def pTempShift (b : Bytes) : Int := s8 b 3
def pStops (b : Bytes) : Nat := u8 b 4
def pInclude (b : Bytes) (n : Nat) : Bool := bitN (u8 b 5) n
def pMargin (b : Bytes) : Nat := u16 b 6
def pSeed (b : Bytes) : Nat := u64 b 8
def pStop (b : Bytes) (n : Nat) : Bytes := sliceB b (40 + 40 * n) (u8 b (32 + 40 * n))

/-- The built-in default block. -/
def builtinParams : Bytes := 0xFF :: zeros 351

/-- The checks of R406 in order of offset: (offset, at fault). -/
def paramChecks (b : Bytes) : List (Nat × Bool) :=
  [(0, decide (pGrammar b > 127) && decide (pGrammar b ≠ 0xFF)), (1, decide (u8 b 1 > 1)),
   (2, if pTopk b then decide (pK b = 0) || decide (pK b > 8) else decide (pK b ≠ 0)),
   (3, if pTopk b then decide (pTempShift b < -4) || decide (4 < pTempShift b) else decide (u8 b 3 ≠ 0)),
   (4, decide (pStops b > 8)),
   (6, (decide (pMargin b ≥ 0x8000) && decide (pMargin b ≠ 0x8000)) || decide (bitsN (pMargin b) 7 8 = 255)),
   (16, nonZero b 16 16)] ++
  (List.range 8).flatMap fun n =>
    let o := 32 + 40 * n
    if n < pStops b then
      [(o, decide (u8 b o = 0) || decide (u8 b o > 32)), (o + 1, nonZero b (o + 1) 7),
       (o + 8, nonZero b (o + 8 + u8 b o) (32 - u8 b o))]
    else [(o, decide (u8 b o ≠ 0)), (o + 1, nonZero b (o + 1) 7), (o + 8, nonZero b (o + 8) 32)]

/-- Committed grammar images: handle, address of the image in DRAM, size. -/
def State.grammars (s : State) : List (Nat × Nat × Nat) :=
  (s.fol.folios.filter (·.committed)).flatMap fun f =>
    f.grammars.zipIdx.map fun p => (f.grammarBase + p.2, f.addr + p.1.1, p.1.2)

/-- The grammar handle that a block names for a folio (R406, R430). -/
def grammarHandle (f : Folio) (b : Bytes) : Option Nat :=
  if pGrammar b ≠ 0xFF then some (pGrammar b)
  else if f.defaultGrammar = 0xFF then none
  else some (f.grammarBase + f.defaultGrammar)

def State.grammarOf (s : State) (f : Folio) (b : Bytes) : Option (Nat × Nat × Nat) :=
  (grammarHandle f b).bind fun h => s.grammars.find? (·.1 = h)

/-- Why a job's block is refused: status and DETAIL (R407). -/
def State.paramFault (s : State) (f : Folio) (b : Bytes) : Option (Nat × Nat) :=
  match (paramChecks b).find? (·.2) with
  | some e => some (stVersion, 0x200 + e.1)
  | none => if (s.grammarOf f b).isNone then some (stResources, 0x200) else none

/-! ### A sequence's catalog state -/

abbrev goldenRatio : Nat := 0x9E3779B97F4A7C15

/-- The first generator state of sequence `i` (R420). -/
def seedOf (seed i : Nat) : Dword :=
  let x := seed ^^^ (i * goldenRatio % 2 ^ 64)
  BitVec.ofNat 64 (if x = 0 then goldenRatio else x)

/-- xorshift64 (R419). -/
def xorshift (x : Dword) : Dword :=
  let a := x ^^^ (x <<< 13)
  let b := a ^^^ (a >>> 7)
  b ^^^ (b <<< 17)

def newCat (grammarAddr seed idx : Nat) : CatSeq :=
  { wing := none, grammarAddr := grammarAddr, state := 0, stack := [], mask := none, token := none, emitted := [],
    written := 0, openField := none, fields := [], run := 0, paused := false, rng := seedOf seed idx, feed := [],
    row := none, rowAt := 0 }

/-- +inf in BF16, the margin of a forced token (R421). -/
abbrev marginInf : BitVec 16 := 0x7F80

def State.onCat (s : State) (slot : Nat) (f : CatSeq → CatSeq) : State :=
  s.onSeq slot fun q => { q with cat := q.cat.map f }

/-! ### Delivery (R414, R415) -/

/-- One byte of the unit parser: the bytes lying in complete units, the continuation bytes an open unit lacks, bytes seen. -/
def unitStep (p : Nat × Nat × Nat) (b : Byte) : Nat × Nat × Nat :=
  let i := p.2.2 + 1
  let v := b.toNat
  if 0x80 ≤ v && v < 0xC0 then
    if p.2.1 = 0 then (i, 0, i)
    else if p.2.1 = 1 then (i, 0, i)
    else (p.1, p.2.1 - 1, i)
  else if v < 0x80 || v ≥ 0xF8 then (i, 0, i)
  else if v < 0xE0 then (i - 1, 1, i)
  else if v < 0xF0 then (i - 1, 2, i)
  else (i - 1, 3, i)

/-- Bytes of a stream that lie in complete units, and whether it ends in an unfinished one. -/
def unitsOf (bs : Bytes) : Nat × Bool :=
  let r := bs.foldl unitStep (0, 0, 0)
  (r.1, r.2.1 ≠ 0)

/-- E of R415. -/
def stopLag (b : Bytes) : Nat :=
  let lens := ((List.range (pStops b)).filter fun n => !pInclude b n).map fun n => u8 b (32 + 40 * n)
  max 1 (maxNat lens)

/-- Bytes that may be written while the sequence goes on. -/
def deliverable (b : Bytes) (bs : Bytes) : Nat := min (unitsOf bs).1 (bs.length + 1 - stopLag b)

/-! ### The confidence stream (R421 to R424) -/

/-- The least of a list of margins. -/
def leastMargin : List (BitVec 16) → BitVec 16
  | [] => marginInf
  | m :: l => l.foldl (fun a b => if numLt (bf16W b.toNat) (bf16W a.toNat) then b else a) m

def fieldMin (emitted : List (Byte × BitVec 16)) (f : Nat × Nat) : BitVec 16 :=
  leastMargin (((emitted.drop f.1).take (f.2 + 1 - f.1)).map (·.2))

/-- Entry `n` of the confidence area (R422): the margin, or the negated minimum of the field that closes there. -/
def confEntry (emitted : List (Byte × BitVec 16)) (fields : List (Nat × Nat)) (n : Nat) : Nat :=
  match fields.find? (·.2 = n) with
  | some f => (fieldMin emitted f).toNat ^^^ 0x8000
  | none => ((emitted.getD n (0, 0)).2).toNat

/-- The fields as they stand when `n` bytes survive (R423). -/
def closedFields (c : CatSeq) (n : Nat) : List (Nat × Nat) :=
  let all := c.fields ++ c.openField.toList.map fun st => (st, n - 1)
  (all.filter fun f => decide (f.1 < n)).map fun f => (f.1, min f.2 (n - 1))

/-- LOW_CONFIDENCE (R424). -/
def lowConfidence (b : Bytes) (emitted : List (Byte × BitVec 16)) (fields : List (Nat × Nat)) : Bool :=
  pMargin b % 0x8000 ≠ 0 && fields.any fun f => numLt (bf16W (fieldMin emitted f).toNat) (bf16W (pMargin b))

/-- Write output bytes `lo` to `hi − 1` of a sequence with their confidence entries, and again the entries at `redo`, which a field
that closes among the bytes already written has changed (R86, R415, R422). -/
def State.deliver (s : State) (j : Job) (idx lo hi : Nat) (emitted : List (Byte × BitVec 16)) (fields : List (Nat × Nat))
    (redo : List Nat) : State :=
  let d := j.desc
  let stride := dStride d
  let bs := ((emitted.drop lo).take (hi - lo)).map (·.1)
  let s := if bs = [] then s else (s.hostWrite (dOutAddr d + idx * stride + lo) bs true).chargePcie j.client bs.length
  if dConfAddr d = 0 then s
  else
    let base := dConfAddr d + idx * 2 * stride
    let put := fun (s : State) (n : Nat) (es : Bytes) =>
      (s.hostWrite (base + 2 * n) es true).chargePcie j.client es.length
    let s := redo.foldl (fun s n => put s n (toLe 2 (confEntry emitted fields n))) s
    let es := (List.range (hi - lo)).flatMap fun i => toLe 2 (confEntry emitted fields (lo + i))
    if es = [] then s else put s lo es

/-- The closing bytes among those already written of fields that have just closed. -/
def redoOf (old new : List (Nat × Nat)) (written : Nat) : List Nat :=
  ((new.filter fun f => !(f ∈ old) && decide (f.2 < written)).map (·.2)).eraseDups

/-! ### The end of a sequence (R412) -/

/-- End a sequence at its catalog unit with `n` surviving bytes. -/
def State.catEnd (s : State) (slot status detail n : Nat) : State :=
  match s.seq? slot with
  | none => s
  | some q =>
    match q.cat, s.job? q.jobSlot with
    | some c, some j =>
      let fields := closedFields c n
      let s := s.deliver j q.idx c.written n c.emitted fields (redoOf c.fields fields c.written)
      let bytes := (c.emitted.take n).map (·.1)
      let flags := (if lowConfidence j.param c.emitted fields then flLowConfidence else 0) |||
        (if (unitsOf bytes).2 then flPartialUtf8 else 0)
      let s := if status = stDeadEnd then s.bumpSat rCatEnds 0 16 1 else if status = stOkStop then s.bumpSat rCatEnds 16 16 1 else s
      s.endSequence q.jobSlot q.idx q.sample status flags n detail
    | _, _ => s

/-- A token that is taken goes back into the decoder, unless it is END (R410). -/
def CatSeq.take (c : CatSeq) (t : Nat) (margin : BitVec 16) : CatSeq :=
  { c with token := some (t, margin), feed := if t = tokEnd then c.feed else c.feed ++ [t] }

/-- A paused run goes on with its next forced token (R410). -/
def CatSeq.resume (c : CatSeq) : CatSeq :=
  match c.mask.bind List.head? with
  | some t => { c.take t marginInf with paused := false, run := 0 }
  | none => { c with paused := false, run := 0 }

/-- The mask of a new configuration comes into force (R408, R409, R411): nothing allowed ends the sequence, one token is
forced, and a run that holds 256 tokens pauses. -/
def State.catMask (s : State) (slot : Nat) : State :=
  match (s.seq? slot).bind (·.cat) with
  | none => s
  | some c =>
    match gMask s.dram c.grammarAddr c.state c.stack with
    | [] => s.catEnd slot stDeadEnd (c.state % 65536) c.emitted.length
    | [t] =>
      if c.run ≥ 256 then
        (s.bumpSat rCatPauses 0 16 1).onCat slot fun c => { c with mask := some [t], paused := true }
      else s.onCat slot fun c => { c.take t marginInf with mask := some [t] }
    | m => s.onCat slot fun c => { c with mask := some m, run := 0 }

/-! ### Taking a token (R408) -/

/-- The stop string that completes at the end of the emitted bytes, lowest first (R413). -/
def stopAt (b : Bytes) (bytes : Bytes) : Option Nat :=
  (List.range (pStops b)).find? fun n => (pStop b n).isSuffixOf bytes

/-- How the emission of a token's bytes turns out: all emitted, or ended by a stop string or at MAX_BYTES. -/
inductive Emit where
  | all (emitted : List (Byte × BitVec 16))
  | stop (emitted : List (Byte × BitVec 16)) (n : Nat)
  | limit (emitted : List (Byte × BitVec 16))

def emitBytes (b : Bytes) (maxBytes : Nat) (margin : BitVec 16) : Bytes → List (Byte × BitVec 16) → Emit
  | [], out => .all out
  | x :: rest, out =>
    let out := out ++ [(x, margin)]
    match stopAt b (out.map (·.1)) with
    | some n => .stop out n
    | none => if out.length ≥ maxBytes then .limit out else emitBytes b maxBytes margin rest out

/-- CATALOG_ADVANCE (R408): the token that the sequence's catalog unit holds is taken. -/
def State.catAdvance (s : State) (slot : Nat) : State :=
  match s.seq? slot with
  | none => s
  | some q =>
    match q.cat, s.job? q.jobSlot with
    | some c, some j =>
      match c.token with
      | none => s
      | some (t, margin) =>
        if q.ended || !j.alive || !s.fabricUp then s
        else
          match gPair s.dram c.grammarAddr c.state c.stack with
          | none => s
          | some p =>
            let a := c.grammarAddr
            let e := gAction s.dram a p t
            let forced := c.mask = some [t]
            let s := s.charge { Account.zero j.client with catalog := 4 }
            let s := if forced then s.bumpSat rCatForced 0 32 1 else s
            if t = tokEnd then
              (s.onCat slot fun c => { c with token := none }).catEnd slot stOkEnd 0 c.emitted.length
            else
              let opened := if bitN (aFlags s.dram e) 1 then some c.emitted.length else c.openField
              let put := fun (out : List (Byte × BitVec 16)) (s : State) =>
                s.onCat slot fun c => { c with emitted := out, openField := opened, token := none }
              match emitBytes j.param (dMaxBytes j.desc) margin (tokenBytes s.dram a t) c.emitted with
              | .stop out n =>
                (put out s).catEnd slot stOkStop n
                  (if pInclude j.param n then out.length else out.length - u8 j.param (32 + 40 * n))
              | .limit out => (put out s).catEnd slot stLengthLimit 0 out.length
              | .all out =>
                let closes := bitN (aFlags s.dram e) 2
                let fields := match opened with
                  | some st => if closes && decide (st < out.length) then c.fields ++ [(st, out.length - 1)] else c.fields
                  | none => c.fields
                let hi := max c.written (deliverable j.param (out.map (·.1)))
                let g := gStep s.dram a e c.stack
                let s := s.deliver j q.idx c.written hi out fields (redoOf c.fields fields c.written)
                let s := s.onCat slot fun c =>
                  { c with
                    emitted := out
                    written := hi
                    openField := if closes then none else opened
                    fields := fields
                    state := g.1
                    stack := g.2
                    token := none
                    mask := none
                    run := if forced then c.run + 1 else 0 }
                s.catMask slot
    | _, _ => s

/-- The token chosen for a sequence will leave it with a choice again, or end it: no rubric run follows it (R408, R409). -/
def State.plainAdvance (s : State) (c : CatSeq) (t : Nat) : Bool :=
  match gPair s.dram c.grammarAddr c.state c.stack with
  | none => false
  | some p =>
    let e := gAction s.dram c.grammarAddr p t
    let g := gStep s.dram c.grammarAddr e c.stack
    t ≠ tokEnd && (gMask s.dram c.grammarAddr g.1 g.2).length ≠ 1

/-! ### Choosing a token (R416 to R421) -/

/-- A logit as it ranks: a NaN is −inf (R416). -/
def logitOf (w : Word) : Word := if (fpOf w).isNan then 0xFF800000 else w

/-- Tokens in rank order: higher logit first, lower index among equals. -/
def ranked (x : Nat → Word) (allowed : List Nat) : List Nat :=
  allowed.foldl (fun acc t =>
    (acc.takeWhile fun u => !numLt (x u) (x t)) ++ [t] ++ (acc.dropWhile fun u => !numLt (x u) (x t))) []

/-- The margin of a choice (R421). -/
def choiceMargin (x : Nat → Word) (rank : List Nat) : BitVec 16 :=
  match rank with
  | a :: b :: _ =>
    if x a = 0xFF800000 then 0
    else if x b = 0xFF800000 then marginInf
    else BitVec.ofNat 16 (bf16Code (f32ToBf16 (f32Sub (x a) (x b))))
  | _ => marginInf

abbrev log2e : Word := 0x3FB8AA3B

/-- The running sums of R418 over the candidates. -/
def cumWeights (x : Nat → Word) (shift : Int) (top : Nat) : List Nat → Word → List Word
  | [], _ => []
  | t :: rest, c =>
    let d := f32Mul (f32Sub (x t) (x top)) (f32OfScaled 1 (-shift))
    let c := f32Add c (f32Exp2 (f32Mul d log2e))
    c :: cumWeights x shift top rest c

/-- The token chosen from a row, and the generator after it (R417, R418). -/
def chooseToken (b : Bytes) (x : Nat → Word) (allowed rank : List Nat) (rng : Dword) : Nat × Dword :=
  if !pTopk b then (rank.headD 0, rng)
  else
    let cand := (rank.filter fun t => x t ≠ 0xFF800000).take (pK b)
    match cand with
    | [] => (allowed.headD 0, rng)
    | top :: _ =>
      let cum := cumWeights x (pTempShift b) top cand 0
      let r := xorshift rng
      let u := f32OfScaled (r.toNat / 2 ^ 40 : Nat) (-24)
      let target := f32Mul u (cum.getLastD 0)
      let pick := (cand.zip cum).find? fun p => numLt target p.2
      ((pick.map (·.1)).getD (cand.getLastD 0), r)

/-- A row that waits in a catalog unit can be used now: its mask is ready and its last token taken (R428). -/
def CatSeq.choosable (c : CatSeq) : Bool := c.row.isSome && c.mask.isSome && c.token.isNone

/-- The unit of a wing takes rows LC first and then BE, in order of arrival within a class (R466); a row that cannot be used yet does
not hold up those behind it. -/
def State.rowTurn (s : State) (c : CatSeq) (lc : Bool) : Bool :=
  s.kv.seqs.all fun q => q.cat.all fun d =>
    !d.choosable || d.wing ≠ c.wing || q.ended ||
      match s.job? q.jobSlot with
      | some k => if k.lc = lc then decide (c.rowAt ≤ d.rowAt) else lc
      | none => true

/-- TOKEN_CHOICE: a row that waits meets its mask. The row of a paused run is ignored, and the run resumes at the step that feeds its
tokens back (R410). -/
def State.tokenChoice (s : State) (slot : Nat) : State :=
  match s.seq? slot with
  | none => s
  | some q =>
    match q.cat, s.job? q.jobSlot with
    | some c, some j =>
      match c.row, c.mask, c.token with
      | some row, some m, none =>
        if q.ended || !j.alive || !s.fabricUp || !s.rowTurn c j.lc then s
        else if c.paused then
          s.onCat slot fun c =>
            { (if c.feed.length ≤ q.chunkFed then c.resume else c) with row := none }
        else
          let x := fun t => logitOf (row.getD t 0xFF800000)
          let rank := ranked x m
          let r := chooseToken j.param x m rank c.rng
          (s.bumpSat rCatSampled 0 32 1).onCat slot fun c =>
            { c.take r.1 (choiceMargin x rank) with row := none, rng := r.2 }
      | _, _, _ => s
    | _, _ => s

/-! ### CATHAND (R302) -/

def chRows (d : Bytes) : Nat := u8 d 12
def chPitch (d : Bytes) : Nat := roundUp (264 * (if u8 d 13 = fmBF16 then 2 else 4)) 32

/-- The sequence slots of a CATHAND's SEQLIST. -/
def State.chSeqs (s : State) (x : Ctx) (d : Bytes) : List Nat :=
  (List.range (chRows d)).map fun r => u16 (s.locRead x (opAddr (u32 d 8) + 2 * r) 2) 0 % 4096

/-- A row for a sequence that the run serves still. -/
def Ctx.serves (x : Ctx) (n : Nat) : Bool := !(n ∈ x.gone)

/-- Row `r` of a CATHAND's logits, widened to FP32. -/
def State.chRow (s : State) (x : Ctx) (d : Bytes) (r : Nat) : List Word :=
  let b := s.locRead x (opAddr (u32 d 4) + r * chPitch d) (chPitch d)
  (List.range 264).map fun t => if u8 d 13 = fmBF16 then bf16W (u16 b (2 * t)) else BitVec.ofNat 32 (u32 b (4 * t))

/-- CATHAND: each row goes to its sequence's catalog unit. -/
def State.cathand (s : State) (c : Nat) (x : Ctx) (d : Bytes) : Eff :=
  match s.locFaults x [(opAddr (u32 d 4), chRows d * chPitch d), (opAddr (u32 d 8), 2 * chRows d)] with
  | some a => scratchErr s x c d a
  | none =>
    touching s x c [(opAddr (u32 d 8), 2 * chRows d), (opAddr (u32 d 4), chRows d * chPitch d)] [] fun s =>
      let rows := (s.chSeqs x d).zipIdx.filter fun p => x.serves p.1
      .ok (rows.foldl (fun s p =>
        s.onCat p.1 fun q => { q with row := some (s.chRow x d p.2), rowAt := 16 * s.sch.issueCount + p.2 }) s)

/-- The catalog unit has taken every row of a CATHAND (R280, R428). -/
def State.rowsTaken (s : State) (x : Ctx) (d : Bytes) : Bool :=
  (s.chSeqs x d).all fun n => !x.serves n || match (s.seq? n).bind (·.cat) with
    | some c => c.row.isNone
    | none => true

/-! ### Meanings -/

def execCathand (c k now : Nat) (s : State) : Result :=
  .next (s.whenOn fun s => s.issue c k now coCathand true fun s x d => s.cathand c x d)
def execTokenChoice (seq : Nat) (s : State) : Result := .next (s.whenOn fun s => s.tokenChoice seq)
def execCatalogAdvance (seq : Nat) (s : State) : Result := .next (s.whenOn fun s => s.catAdvance seq)

end Sys2Proof.Machine
end

