-- ==== Sys2Proof/Machine/Run.lean ====
section
/-! DEFINITION. RUN jobs from their descriptor on: the checks of RUN (R87, R407), admission (R474 to R479), sequence slots (R134,
R135, R207, R208, R411, R457), and the completion of commands, runs, steps and page-sides (R280, R324, R345, R467, R494). -/

namespace Sys2Proof.Machine

/-! ### A folio's stages as a page-side meets them -/

/-- Commands of list `w` of a stage, read from the folio's copy in DRAM. -/
def State.stageCmds (s : State) (f : Folio) (g : Stage) (w : Nat) : List Bytes :=
  (List.range g.listLen).map fun i => s.dramRead (f.addr + f.commandOff + g.list + 32 * (w * g.listLen + i)) 32

/-- The first EXPAND of a convolution stage's list 0. -/
def State.stageExpand (s : State) (f : Folio) (g : Stage) : Option Bytes :=
  (s.stageCmds f g 0).find? fun d => cmdOp d = coExpand

/-- Output height and width of a convolution stage for an input plane (R307). -/
def State.stageOut (s : State) (f : Folio) (g : Stage) (w h : Nat) : Nat × Nat :=
  match s.stageExpand f g with
  | none => (w, h)
  | some d =>
    ((outSize w (exPl d + exPr d) (exKw d) (exSw d)).toNat, (outSize h (exPt d + exPb d) (exKh d) (exSh d)).toNat)

/-- Width and height of the plane that stage `k` reads, for a page-side of `w` by `h` pixels; `fuel` bounds the chain. -/
def State.stageIn (s : State) (f : Folio) (w h : Nat) : Nat → Nat → Nat × Nat
  | 0, _ => (w, h)
  | fuel + 1, k =>
    match f.stages[k]? with
    | none => (w, h)
    | some g =>
      if g.input = 0xFF then (w, h)
      else
        match f.stages[g.input]? with
        | some p =>
          let i := s.stageIn f w h fuel g.input
          if p.kind = 0 then s.stageOut f p i.1 i.2 else i
        | none => (w, h)

/-- Stripes of convolution stage `k` for a page-side (R321). -/
def State.stripesOf (s : State) (f : Folio) (k w h : Nat) : Nat :=
  match f.stages[k]? with
  | none => 0
  | some g =>
    let i := s.stageIn f w h 16 k
    ceilDiv (s.stageOut f g i.1 i.2).2 (max 1 g.stripeH)

/-- First and last output row of stripe `j` of a convolution stage for a page-side (R321). -/
def State.stripeRows (s : State) (f : Folio) (k w h j : Nat) : Nat × Nat :=
  match f.stages[k]? with
  | none => (0, 0)
  | some g =>
    let i := s.stageIn f w h 16 k
    let r := max 1 g.stripeH
    (j * r, min (s.stageOut f g i.1 i.2).2 ((j + 1) * r) - 1)

/-- The first and the last row of its source that a stripe reads (R322): over every EXPAND of the stage's list, rows
max(0, y0 × SH − P_t) to min(SRC_H − 1, y1 × SH − P_t + KH − 1). -/
def State.sourceRows (s : State) (f : Folio) (k w h j : Nat) : Nat × Nat :=
  match f.stages[k]? with
  | none => (0, 0)
  | some g =>
    let y := s.stripeRows f k w h j
    let srcH := (s.stageIn f w h 16 k).2
    let xs := (s.stageCmds f g 0).filter fun d => cmdOp d = coExpand
    let lows := xs.map fun d => y.1 * exSh d - exPt d
    (lows.foldl min (lows.headD 0), maxNat (xs.map fun d => min (srcH - 1) (y.2 * exSh d + exKh d - 1 - exPt d)))

/-- The stripes of an earlier convolution stage whose output rows a stripe reads (R323): stage, sequence index, stripe. -/
def State.producersOf (s : State) (f : Folio) (k idx w h j : Nat) : List (Nat × Nat × Nat) :=
  match f.stages[k]? with
  | none => []
  | some g =>
    match if g.input = 0xFF then none else f.stages[g.input]? with
    | some p =>
      if p.kind ≠ 0 then []
      else
        let rows := s.sourceRows f k w h j
        ((List.range (s.stripesOf f g.input w h)).filter fun i =>
          let y := s.stripeRows f g.input w h i
          decide (y.1 ≤ rows.2) && decide (rows.1 ≤ y.2)).map fun i => (g.input, idx, i)
    | none => []

/-- The plane that convolution stage `k` would read lies outside its declared range (R308, R309). -/
def State.outOfRange (s : State) (f : Folio) (k w h : Nat) : Bool :=
  match f.stages[k]? with
  | none => false
  | some g =>
    let i := s.stageIn f w h 16 k
    g.kind = 0 && (decide (i.1 < g.minW) || decide (g.maxW < i.1) || decide (i.2 < g.minH) || decide (g.maxH < i.2))

/-- A stage that reads the job's input planes: the crop, or by its INPUT or a binding (R433, R435). -/
def Folio.readsPlanes (f : Folio) (k : Nat) (g : Stage) : Bool :=
  g.kind = 1 || g.input = 0xFF || f.bindings.any fun b => b.1 = k && b.2.2.1 = 0

/-- References that one reading stage holds on a plane: one for each of its contexts on the page-side (R324). -/
def State.stageRefs (s : State) (f : Folio) (k w h : Nat) : Nat :=
  match f.stages[k]? with
  | none => 0
  | some g =>
    match g.kind with
    | 0 => g.wingParts * s.stripesOf f k w h
    | 4 => g.wingParts
    | _ => 1

/-- The reference count of a page-side's planes (R324). -/
def State.planeRefs (s : State) (f : Folio) (w h : Nat) : Nat :=
  max 1 (((f.stages.zipIdx.filter fun p => f.readsPlanes p.2 p.1).map fun p => s.stageRefs f p.2 w h).sum)

/-- A page-side whose plane a first stage cannot take (R309). -/
def State.planeRefused (s : State) (f : Folio) (w h : Nat) : Bool :=
  f.stages.zipIdx.any fun p => f.readsPlanes p.2 p.1 && s.outOfRange f p.2 w h

def State.jobFolio (s : State) (j : Job) : Option Folio := s.fol.folios.find? (·.handle = dFolio j.desc)

/-! ### RUN (R84 to R87, R406, R407) -/

/-- Why a RUN is refused before its parameter block is read: status and DETAIL. -/
def State.runFault (s : State) (d : Bytes) (lc folioOk : Bool) : Option (Nat × Nat) :=
  if !folioOk || (s.fol.folios.find? (·.handle = dFolio d)).all (·.stages = []) then some (stResources, 5)
  else if dInCount d = 0 || dInCount d > 1024 then some (stResources, 28)
  else if dMaxBytes d = 0 then some (stResources, 30)
  else if dOutLen d < dInCount d * dStride d then some (stResources, 40)
  else if lc && dBudget d = 0 then some (stBound, 0)
  else none

/-- The parameter block of a RUN: the one at PARAM_ADDR, or the folio's, or the built-in one (R406). -/
def State.runBlock (s : State) (d : Bytes) (f : Folio) (given : Bytes) : Bytes × State :=
  if dParamAddr d ≠ 0 then
    let r := s.fetchHost (dParamAddr d) 352 given
    (r.1, r.2.chargePcie (dClient d) 352)
  else (f.params.getD builtinParams, s)

/-- RUN: refuse it, or let the job wait for its admission (LC) or begin (BE). -/
def State.runDesc (s : State) (n : Nat) (given : Bytes) : State :=
  s.beginDesc n (fun d => dOp d = opRun) fun s d slot =>
    match slot.bind s.job? with
    | none => s
    | some j =>
      match s.runFault d j.lc j.folioOk with
      | some e =>
        if e.1 = stBound then
          let r := s.drawBytes 2
          r.2.finishDesc n d slot stBound (leNat r.1) 0
        else s.finishDesc n d slot e.1 e.2 0
      | none =>
        match s.jobFolio j with
        | none => s
        | some f =>
          let begin_ := fun (s : State) (b : Bytes) =>
            s.onJob j.slot fun j => { j with phase := if j.lc then .admission else .running, param := b }
          if (f.decode).isNone then begin_ s []
          else
            let b := s.runBlock d f given
            match b.2.paramFault f b.1 with
            | some e => b.2.finishDesc n d slot e.1 e.2 0
            | none => begin_ b.2 b.1

/-! ### Admission (R474 to R478) -/

/-- Static cycles of one run of a stage, c_s (R475). -/
def Stage.cost (g : Stage) : Nat := if g.kind = 3 then g.bound + ceilDiv (3 * g.catAllow) 4 else g.bound

/-- The widest plane and the tallest that the folio's first stage takes. -/
def Folio.maxPlane (f : Folio) : Nat × Nat :=
  match f.stages.find? fun g => g.kind = 0 && g.input = 0xFF with
  | some g => (g.maxW, g.maxH)
  | none => (0, 0)

/-- Decode batches B of R475. -/
def batchesOf (count seqSlots : Nat) : Nat := ceilDiv (count * seqSlots) 256

/-- Runs charged for each list of a stage (R475). -/
def State.runsOf (s : State) (f : Folio) (d : Bytes) (g : Stage) : Nat :=
  let c := dInCount d
  match g.kind with
  | 0 => c * ceilDiv (s.stageOut f g g.maxW g.maxH).2 (max 1 g.stripeH)
  | 1 => 0
  | 2 => c * ceilDiv (f.maxPlane.1 * f.maxPlane.2) (2 ^ 20)
  | 3 => (dMaxBytes d + 1) * batchesOf c f.seqSlots
  | _ => c

/-- A carrel takes no new work: fenced, or in a bay that is fenced, stopped, under BIST or in reset (R551, R562, R566, R506). -/
def State.carrelOut (s : State) (c : Nat) : Bool :=
  s.regB (rErrFenceC (c / 32)) (c % 32) || s.regB rErrFenceB (c / 8) || s.bayStopped (c / 8) || s.underBist (c / 8) ||
    s.phaseOf (.bay (c / 8)) ≠ .run || s.phaseOf (.wing (c / 48)) ≠ .run

/-- KiB of stream buffers in each bay (R448). -/
def State.streamKib (s : State) : Nat := 256 - 64 * s.reserve

/-- Part `w` of a stage may run in the wing of carrel `c` (R433). -/
def Stage.runsIn (g : Stage) (w c : Nat) : Bool := decide (g.wingParts ≠ 4) || decide (c / 48 = w)

/-- Contexts that hold a bay's grants: placed there or spilled from there. -/
def State.bayCtxs (s : State) (b : Nat) : List Ctx := s.sch.ctxs.filter (·.bay = b)

/-- First byte of the stream-buffer area of a bay's shelf: behind the spill area and the reserve shelf (R14, R448). -/
def State.streamArea (s : State) : Nat := 1024 * (256 + 1024 + 64 * s.reserve)

/-- First byte for an expansion grant of `n` bytes, lowest first. -/
def State.expandRoom (s : State) (b n : Nat) : Option Nat :=
  (firstRun (1024 * s.streamKib) n ((s.bayCtxs b).filterMap fun x => x.expand.map fun e => (e.1 - s.streamArea, e.2))).map
    (· + s.streamArea)

/-- The bay grants a stage's prefetchers, windows and expansion buffer (R292, R311). -/
def State.bayGrants (s : State) (b : Nat) (g : Stage) : Bool :=
  let xs := s.bayCtxs b
  let kib := (xs.map fun x => x.winKib + ((x.expand.map (·.2)).getD 0) / 1024).sum
  decide ((xs.map (·.streams)).sum + g.streams ≤ 16) && decide (kib + g.winKib + 4 * g.expand4k ≤ s.streamKib) &&
    (g.expand4k = 0 || (s.expandRoom b (4096 * g.expand4k)).isSome)

/-- A carrel where part `w` of a stage may run at all: neither its occupancy nor its bay's grants count here. -/
def State.eligible (s : State) (g : Stage) (w c : Nat) : Bool :=
  !s.carrelOut c && g.runsIn w c && decide (g.winKib + 4 * g.expand4k ≤ s.streamKib)

/-- An eligible carrel of a plan meets R459 apart from its present slot and unit occupancy (R476): its bay's grants count. -/
def State.plannable (s : State) (g : Stage) (w c : Nat) : Bool := s.eligible g w c && s.bayGrants (c / 8) g

/-- Shards of a part's shelf set that a bay holds (R460). -/
def State.shelfCount (s : State) (handle : Nat) (g : Stage) (w b : Nat) : Nat :=
  (s.fol.shards.filter fun d => 6 * d.wing + d.bay % 6 = b && d.handle = handle && d.number ∈ g.shelfSet w).length

/-- Insert a bay by descending count, lower bays first among equals. -/
def insertBay (e : Nat × Nat) : List (Nat × Nat) → List (Nat × Nat)
  | [] => [e]
  | a :: l => if a.2 < e.2 then e :: a :: l else a :: insertBay e l

/-- Carrels in the order of the class's policy (R460). -/
def State.policyOrder (s : State) (lc : Bool) (handle number : Nat) (g : Stage) (w : Nat) : List Nat :=
  if s.regB rSchPolicy (if lc then 0 else 1) then List.range 192
  else
    let count := fun b => s.shelfCount handle g w b +
      b2n (s.sch.ctxs.any fun x => x.jobNumber = number && x.bay = b && x.image.isSome && !x.pooled)
    let bays := (List.range 24).foldl (fun l b => insertBay (b, count b) l) []
    bays.flatMap fun e => (List.range 8).map fun i => 8 * e.1 + i

/-- The charge of a plan on a carrel (R476). -/
def planCharge (stages : List (Nat × List Nat × Nat)) (c : Nat) : Nat :=
  ((stages.filter fun e => c ∈ e.2.1).map (·.2.2)).sum

/-- Admitted jobs, in the order of their admission. -/
def State.admitted (s : State) : List (Job × Plan) := s.jobs.filterMap fun j => j.plan.map fun p => (j, p)

/-- Admitted charge on a carrel (R476, SCH_LC_LOAD). -/
def State.lcLoad (s : State) (c : Nat) : Nat := ((s.admitted).map fun e => planCharge e.2.stages c).sum

/-- Insert a carrel by ascending charge, after its equals. -/
def insertLoad (e : Nat × Nat) : List (Nat × Nat) → List (Nat × Nat)
  | [] => [e]
  | a :: l => if e.2 < a.2 then e :: a :: l else a :: insertLoad e l

/-- The plan of one list: the planned carrels and the charge on each; no carrel when none is eligible (R476). -/
def State.planList (s : State) (f : Folio) (j : Job) (g : Stage) (w : Nat) : List Nat × Nat :=
  let ok := (s.policyOrder true f.handle j.number g w).filter (s.plannable g w)
  let order := (ok.foldl (fun l c => insertLoad (c, s.lcLoad c) l) []).map (·.1)
  let runs := s.runsOf f j.desc g
  let n := if g.kind = 3 then batchesOf (dInCount j.desc) f.seqSlots else min runs ok.length
  (order.take n, if n = 0 then 0 else ceilDiv runs n * g.cost)

/-- The plan of a job: an entry for each list of each stage with a list. -/
def State.planJob (s : State) (f : Folio) (j : Job) : List (Nat × List Nat × Nat) :=
  (f.stages.zipIdx.filter (·.1.listLen ≠ 0)).flatMap fun p =>
    (List.range p.1.wingParts).map fun w => (p.2, s.planList f j p.1 w)

/-- A list that has runs to make finds no eligible carrel. -/
def State.noCarrel (s : State) (f : Folio) (j : Job) : Bool :=
  f.stages.any fun g => g.listLen ≠ 0 && s.runsOf f j.desc g ≠ 0 &&
    (List.range g.wingParts).any fun w => (List.range 192).all fun c => !s.plannable g w c

/-- q_s: the charge of a stage, once (R476). -/
def planStage (stages : List (Nat × List Nat × Nat)) (k : Nat) : Nat :=
  maxNat ((stages.filter (·.1 = k)).map (·.2.2))

def planStages (stages : List (Nat × List Nat × Nat)) : List Nat := (stages.map (·.1)).eraseDups

def planSet (stages : List (Nat × List Nat × Nat)) (k : Nat) : List Nat :=
  (stages.filter (·.1 = k)).flatMap (·.2.1)

/-- Q of R476. -/
def planChain (stages : List (Nat × List Nat × Nat)) : Nat :=
  ((planStages stages).map fun k => planStage stages k).sum + 1120 * (planStages stages).length

/-- I of R477, before the job is among the admitted. -/
def State.planOthers (s : State) (stages : List (Nat × List Nat × Nat)) : Nat :=
  ((planStages stages).map fun k => maxNat ((planSet stages k).map s.lcLoad)).sum

/-- Δ_k of R477: what a plan `mine` takes from the job of plan `other`. -/
def planDelta (other mine : List (Nat × List Nat × Nat)) : Nat :=
  ((planStages other).map fun k => maxNat ((planSet other k).map (planCharge mine))).sum

/-- The lowest carrel of the largest of a list of terms (carrel, value). -/
def largestAt (terms : List (Nat × Nat)) : Nat :=
  let top := maxNat (terms.map (·.2))
  let at_ := (terms.filter (·.2 = top)).map (·.1)
  at_.foldl min (at_.headD 0)

/-- Terms of a job's own condition: each planned charge, and the others' charges on its planned carrels (R478). -/
def State.ownTerms (s : State) (stages : List (Nat × List Nat × Nat)) : List (Nat × Nat) :=
  stages.flatMap fun e => e.2.1.flatMap fun c => [(c, e.2.2), (c, s.lcLoad c)]

/-- Terms of an admitted job's condition: the new job's charge on its planned carrels. -/
def otherTerms (other mine : List (Nat × List Nat × Nat)) : List (Nat × Nat) :=
  other.flatMap fun e => e.2.1.map fun c => (c, planCharge mine c)

/-- DETAIL of the first condition of R477 that fails, none when both hold. -/
def State.boundFault (s : State) (stages : List (Nat × List Nat × Nat)) (budget : Nat) : Option Nat :=
  if planChain stages + s.planOthers stages > budget then some (largestAt (s.ownTerms stages))
  else ((s.admitted).find? fun e => decide (planDelta e.2.stages stages > e.2.slack)).map fun e =>
    0x8000 + largestAt (otherTerms e.2.stages stages)

/-- A job is refused under R477. -/
def State.refuseBound (s : State) (slot detail : Nat) : State :=
  (s.bumpSat rSchRefused 0 16 1).closeJob slot stBound 0 detail

/-- LC_ADMISSION: the decision on an LC RUN, at arithmetic count `now`, from which its budget counts (R474). -/
def State.lcAdmission (s : State) (slot now : Nat) : State :=
  match s.job? slot with
  | none => s
  | some j =>
    if j.phase ≠ .admission || !s.running then s
    else
      match s.jobFolio j with
      | none => s
      | some f =>
        let s := s.advance s now
        let plan := s.planJob f j
        if s.noCarrel f j then
          let r := s.drawBytes 1
          r.2.refuseBound slot (leNat r.1)
        else
          match s.boundFault plan (dBudget j.desc) with
          | some detail => s.refuseBound slot detail
          | none =>
            let deltas := (s.admitted).map fun e => (e.1.number, planDelta e.2.stages plan)
            let slack := dBudget j.desc - planChain plan - s.planOthers plan
            let s := deltas.foldl (fun s d =>
              s.onJobNum d.1 fun k => { k with plan := k.plan.map fun q => { q with slack := q.slack - d.2 } }) s
            s.onJob slot fun j =>
              { j with
                phase := .running
                admission := some (now, dBudget j.desc)
                plan := some
                  { stages := plan, slack := slack, deltas := deltas.filter (·.2 ≠ 0), budget := dBudget j.desc,
                    admittedAt := now, overplan := false } }

/-! ### Sequence slots (R457) -/

/-- Sample ID of page-side `i` of a TRANSPORT job (R168, R207). -/
def dPageId (d : Bytes) (i : Nat) : Nat := putBitsN (bitsN (dInAddr d) 0 48) 0 45 (bitsN (dInAddr d) 0 45 + i)

def idPage (id : Nat) : Nat := bitsN id 0 45
def idSide (id : Nat) : Nat := bitsN id 45 1
def idTransport (id : Nat) : Nat := bitsN id 46 2

/-- The captured page-side of an ID, among those that have closed. -/
def State.captured? (s : State) (id : Nat) : Option HeldSide := s.acc.held.find? fun h => h.captured && h.planes.sample = id

/-- A captured page-side has closed: it is held, has failed, or its page has gone by (R207). -/
def State.pageClosed (s : State) (id : Nat) : Bool :=
  (s.captured? id).isSome ||
    match s.col.transports[idTransport id]? with
    | some t => decide (idPage id < t.page) && !(t.sides.any fun o => o.sample = id)
    | none => false

/-- The next page-side of a job that waits for sequence slots. -/
def State.waitingSide (s : State) (j : Job) : Option Nat :=
  if dOp j.desc ≠ opRun || j.phase ≠ .running then none
  else
    match ((List.range (dInCount j.desc)).drop j.nextGrant).find? fun i => !(i ∈ j.ended) with
    | none => none
    | some i =>
      if dKind j.desc = 1 && !s.pageClosed (dPageId j.desc i) then none
      else if dKind j.desc = 0 && decide (i ≥ j.nextIdx + 64) then none
      else some i

/-- Page-sides that wait, one for each job, first the one served next (R457). -/
def State.slotQueue (s : State) : List (Job × Nat) :=
  let all := s.jobs.filterMap fun j => (s.waitingSide j).map fun i => (j, i)
  (all.filter (·.1.lc)) ++ all.filter (!·.1.lc)

/-- The lowest free sequence slots from `lo` below `hi`, `n` of them. -/
def State.freeSeqSlots (s : State) (lo hi n : Nat) : Option (List Nat) :=
  let free := (((List.range hi).drop lo).filter fun k => (s.seq? k).isNone).take n
  if free.length = n then some free else none

def newSeq (slot : Nat) (j : Job) (idx : Nat) (row : Bool) (stage sample : Nat) (geom : Option KvDecl) (cat : Option CatSeq)
    (planes : Option Planes) (tableAt now : Nat) : SeqSlot :=
  { slot := slot, tableAt := tableAt, jobNumber := j.number, jobSlot := j.slot, idx := idx, row := row, stage := stage, sample := sample, table := [], gen := 0,
    cursor := 0, geom := geom, spare := none, stepOpen := 0, chunk := 0, chunkFed := 0, applying := false, started := false,
    startedAt := 0, edits := [], after := [], swappedAt := none, fresh := true, prompt := [], shared := 0, insertOk := true, cat := cat,
    planes := planes, waitFrom := now, deferred := false, stepRan := [], done := [], shelfBay := none, ended := false }

/-- Indices of a folio's stages of a kind. -/
def Folio.stagesOf (f : Folio) (kind : Nat) : List Nat := (f.stages.zipIdx.filter (·.1.kind = kind)).map (·.2)

/-- The KV geometry that a stage names (R350). -/
def Folio.geomAt (f : Folio) (k : Nat) : Option KvDecl := ((f.stages[k]?).bind (·.kv)).bind fun i => f.kvs[i]?

/-- The DECODE stage that gives a page-side's sequences their geometry. -/
def Folio.decodeAt (f : Folio) : Nat := (f.stagesOf 3).headD 0

/-- A held page-side goes before another (R134). -/
def heldBefore (a b : HeldSide) : Bool :=
  let key := fun h : HeldSide => [h.order, b2n h.captured, h.jobNumber, h.seqIdx]
  decide (key a < key b)

/-- The held page-side that an entry matches (R134). -/
def State.heldMatch (s : State) (id : Nat) : Option HeldSide :=
  (s.acc.held.filter fun h => h.claimable && h.claimedBy.isNone && h.fate = .held && h.planes.sample = id).foldl
    (fun best h => match best with
      | none => some h
      | some b => if heldBefore h b then some h else some b) none

/-- How a held page-side answers: the planes claimed, or STATUS and DETAIL (R65, R135, R208). -/
def State.takeHeld (s : State) (j : Job) (f : Folio) (id : Nat) (kind : Nat) : Except (Nat × Nat) (Planes × State) :=
  let claim := fun h : HeldSide =>
    let s := s.onAcc fun a =>
      { a with
        held := updFirst (fun g => g.planes.addr = h.planes.addr && g.fate = .held && g.claimedBy.isNone)
          (fun g => { g with claimedBy := some j.number }) a.held }
    (h.planes, s.onRefs h.planes.addr fun _ => s.planeRefs f h.planes.width h.planes.height)
  if kind = 2 then
    match s.heldMatch id with
    | some h => .ok (claim h)
    | none => .error (stCorrupt, 0x43)
  else
    match s.captured? id with
    | none => .error (stCorrupt, 0x42)
    | some h =>
      match h.fate with
      | .aborted => .error (stCorrupt, 0x40)
      | .noRoom => .error (stCorrupt, 0x41)
      | .consumed => .error (stCorrupt, 0x42)
      | .version => .error (stVersion, 0)
      | .held => if h.claimedBy.isSome then .error (stCorrupt, 0x42) else .ok (claim h)

/-- The sample ID of page-side `i`, where its job's input gives one before any decoding. -/
def State.inputId (s : State) (j : Job) (i : Nat) : Nat :=
  if dKind j.desc = 1 then dPageId j.desc i
  else if dKind j.desc = 2 then leNat (s.dramRead (dInAddr j.desc + 8 * i) 8)
  else 0

/-- Start a page-side's catalog state (R411, R420). -/
def State.startCat (s : State) (f : Folio) (j : Job) (i slot : Nat) : State :=
  if f.decode.isNone then s
  else
    match s.grammarOf f j.param with
    | none => s
    | some g => (s.onSeq slot fun q => { q with cat := some (newCat g.2.1 (pSeed j.param) i) }).catMask slot

/-- BATCH_MAX in force (R147, ACC_PACK). -/
def State.batchMax (s : State) : Nat :=
  let v := s.regF rAccPack 0 5
  if v = 0 || v > 16 then 1 else v

/-- Batches of a job up to the one that takes page-side `i`, each over the next BATCH_MAX indices; `fuel` bounds their number. -/
def State.formUpTo (j : Job) (i : Nat) : Nat → State → State
  | 0, s => s
  | fuel + 1, s =>
    let mine := s.acc.batches.filter (·.jobNumber = j.number)
    let lo := maxNat (mine.map (·.limit))
    if i < lo then s
    else
      let hi := min (lo + s.batchMax) (dInCount j.desc)
      let members := ((List.range hi).drop lo).filter fun k => !(k ∈ j.ended)
      State.formUpTo j i fuel (s.onAcc fun a =>
        { a with
          batches := a.batches ++
            [{ jobNumber := j.number, number := mine.length, limit := hi, members := members, packed := false, rows := [],
               granted := 0, encoded := [] }] })

/-- Page-side `i` joins the encoder batch of its job that takes it (R147): batches are formed in ascending index order, and a record
that has failed already is no member. A folio without a crop stage packs nothing. -/
def State.formBatch (s : State) (j : Job) (f : Folio) (i : Nat) : State :=
  if f.stages.all (·.kind ≠ 1) then s else State.formUpTo j i (i + 1) s

/-- Give page-side `i` of a job its sequence slots (R457), its input where the LT8 already holds it, and the mask of its start
configuration. -/
def State.grantPage (s : State) (j : Job) (f : Folio) (i : Nat) (slots tables : List Nat) : State :=
  let s := (s.onJob j.slot fun j => { j with nextGrant := i + 1 }).kvTick
  let geom := if (f.stagesOf 3) = [] then none else f.geomAt f.decodeAt
  let id := s.inputId j i
  let place := fun (s : State) (pl : Option Planes) =>
    let first := slots.headD 0
    let s := s.onKv fun k =>
      { k with seqs := k.seqs ++ slots.zipIdx.map fun e =>
          newSeq e.1 j i false f.decodeAt id geom none (if e.1 = first then pl else none) (tables.getD e.2 0) k.clock }
    match pl with
    | some p =>
      if s.planeRefused f p.width p.height then s.endSequence j.slot i id stUnsupported 0 0 9 else s.startCat f j i first
    | none => s.startCat f j i first
  if dKind j.desc = 0 then place s none
  else
    let s := s.formBatch j f i
    let s := if dKind j.desc = 2 then s.chargeDram j.client 8 else s
    match s.takeHeld j f id (dKind j.desc) with
    | .error e => s.endSequence j.slot i id e.1 0 0 e.2
    | .ok r => place r.2 (some r.1)

/-- The page-side at the head of the waiting order takes its slots, once they are free (R457). -/
def State.grantSide (s : State) (tables : List Nat) : State :=
  match s.slotQueue with
  | [] => s
  | (j, i) :: _ =>
    match s.jobFolio j with
    | none => s
    | some f =>
      match s.freeSeqSlots 0 4032 f.seqSlots with
      | some slots => s.grantPage j f i slots tables
      | none => s

/-- Rows that a batch's row sequences cover: its packed rows, once for each ENCODE stage. -/
def Batch.rowRuns (b : Batch) (f : Folio) : Nat := b.rows.length * (f.stagesOf 2).length

/-- A packed row of a job takes a row-sequence slot (R457), with the geometry of the ENCODE stage that it serves (R350); the rows of one
ENCODE stage come before those of the next. -/
def State.grantRow (s : State) (slot : Nat) (tables : List Nat) : State :=
  match s.job? slot with
  | none => s
  | some j =>
    match s.jobFolio j, s.freeSeqSlots 4032 4096 1 with
    | some f, some (n :: _) =>
      match s.acc.batches.find? fun b => b.jobNumber = j.number && b.packed && decide (b.granted < b.rowRuns f) with
      | none => s
      | some b =>
      if j.phase ≠ .running then s
      else
        let s := s.kvTick
        let stage := (f.stagesOf 2).getD (b.granted / b.rows.length) 0
        let s := s.onKv fun k =>
          { k with seqs := k.seqs ++
              [newSeq n j b.number true stage (b.granted % b.rows.length) (f.geomAt stage) none none (tables.headD 0)
                k.clock] }
        s.onAcc fun a =>
          { a with
            batches := updFirst (fun c => c.jobNumber = j.number && c.number = b.number)
              (fun c => { c with granted := c.granted + 1 }) a.batches }
    | _, _ => s

/-- SEQ_SLOT_GRANT. -/
def State.seqSlotGrant (s : State) (row : Bool) (slot : Nat) (tables : List Nat) : State :=
  if !s.running then s else if row then s.grantRow slot tables else s.grantSide tables

/-! ### The end of runs, steps and page-sides -/

/-- Rows of a batch that an ENCODE stage has encoded. -/
def Batch.encodedBy (b : Batch) (k : Nat) : Nat := ((b.encoded.find? (·.1 = k)).map (·.2)).getD 0

/-- A page-side has a stage's work behind it. -/
def State.stageDone (s : State) (f : Folio) (q : SeqSlot) (k : Nat) : Bool :=
  match f.stages[k]? with
  | none => true
  | some g =>
    let batch := s.acc.batches.find? fun b => b.jobNumber = q.jobNumber && q.idx ∈ b.members
    match g.kind with
    | 0 =>
      match q.planes with
      | some p =>
        let n := s.stripesOf f k p.width p.height
        (List.range g.wingParts).all fun w => (List.range n).all fun r => (k, w, r) ∈ q.done
      | none => false
    | 1 => batch.any (·.packed)
    | 2 => batch.any fun b => b.packed && b.encodedBy k = b.rows.length
    | 3 => false
    | _ => (List.range g.wingParts).all fun w => (k, w, 0) ∈ q.done

/-- A step of a sequence closes (R345): its edits come due, its chunk is behind it, and a paused run whose tokens it has fed back goes
on although no row came (R410). -/
def State.closeStep (s : State) (slot : Nat) : State :=
  let s := s.kvTick
  let now := s.kv.clock
  match s.seq? slot with
  | none => s
  | some q =>
    if q.ended then s.onSeq slot fun q => { q with stepOpen := 0, stepRan := [], chunk := 0, chunkFed := 0 }
    else
      s.onSeq slot fun q =>
        { q with
          stepOpen := 0, stepRan := [], chunk := 0, chunkFed := 0, fresh := true, waitFrom := now
          applying := q.applying || q.edits ≠ []
          cat := q.cat.map fun c =>
            let c := if c.paused && c.row.isNone && decide (c.feed.length ≤ q.chunkFed) then c.resume else c
            { c with feed := c.feed.drop q.chunkFed } }

/-- A stage whose runs are steps of its sequences (R345, R467). -/
def Stage.steps (g : Stage) : Bool := g.kind = 3 || g.kv.isSome

/-- A run over a sequence's pages ends; the last of the step closes it. -/
def State.stepRunEnds (s : State) (slot : Nat) : State :=
  match s.seq? slot with
  | none => s
  | some q =>
    if q.stepOpen = 0 then s
    else if q.stepOpen = 1 then s.closeStep slot
    else s.onSeq slot fun q => { q with stepOpen := q.stepOpen - 1 }

/-- Measured and static cycles of a run, for every job it served (R494 to R497). -/
def State.countRun (s : State) (x : Ctx) (g : Stage) : State :=
  let m := s.arithNow - x.runStart.getD s.arithNow
  let others := x.plan.seqs.filterMap fun n => (s.seq? n).map (·.jobNumber)
  ((x.jobNumber :: others).eraseDups).foldl (fun s n =>
    match s.jobNum? n with
    | none => s
    | some j =>
      (s.onJob j.slot fun j => { j with sumM := j.sumM + m, sumS := j.sumS + g.cost, runs := j.runs + 1 }).slowCheck j.slot) s

/-- A decode context keeps its slot between runs (R458). -/
def State.idleCtx (s : State) (id : Nat) : State :=
  let drop := ((s.ctx? id).map (·.reads)).getD []
  (s.onCtx id fun x =>
    { x with
      queue := [], nextIssue := 0, nextFetch := 0, outstanding := [], handles := [], drain := none, tmac := none, walk := none,
      gone := [],
      heldOut := none, taken := 0, kvWait := false, kvDone := 0, runStart := none, idle := true, overplan := false,
      reads := [] }).dropRefs drop

/-- The key under which a finished run is noted: stage, part, and the stripe or the PART of a spread head. -/
def Ctx.doneKey (x : Ctx) (g : Stage) : Nat × Nat × Nat :=
  (x.plan.stage, x.plan.part, if g.kind = 0 then x.plan.stripe else x.part)

/-- Note a finished run with the page-sides or the row it served. -/
def State.noteDone (s : State) (x : Ctx) (g : Stage) : State :=
  let pages := x.plan.seqs.filterMap fun n => (s.seq? n).map fun q => (q.jobNumber, q.idx, q.row)
  s.onKv fun k =>
    { k with seqs := k.seqs.map fun q =>
        if q.slot ∈ x.plan.seqs || ((q.jobNumber, q.idx, q.row) ∈ pages && !q.row) then
          { q with done := addNew q.done (x.doneKey g) } else q }

/-- The slot of a page-side that holds its planes. -/
def State.pageHead (s : State) (number idx : Nat) : Option SeqSlot :=
  s.kv.seqs.find? fun q => q.jobNumber = number && q.idx = idx && !q.row && q.planes.isSome

/-- Buffers that a stage reads of one page-side: its planes, and the OUTPUT of each stage that a PREV binding names, one entry for
each such binding (R324, R435). -/
def State.stageReads (s : State) (f : Folio) (stage : Nat) (page : Nat × Nat) : List Nat :=
  let own := if (f.stages[stage]?).any (f.readsPlanes stage) then
    (((s.pageHead page.1 page.2).bind (·.planes)).map (·.addr)).toList else []
  own ++ (f.bindings.filter fun b => b.1 = stage && b.2.2.1 = 2).filterMap fun b =>
    (f.bindings.find? fun o => o.1 = b.2.2.2.1 && o.2.2.1 = 1).bind fun o => s.poolOf (.buffer page.1 page.2 o.1 o.2.1)

/-- One more row of a batch is encoded by a stage; the last one lets go what the stage reads of the batch's page-sides (R324). -/
def State.rowEncoded (s : State) (number batch stage : Nat) : State :=
  match s.acc.batches.find? fun b => b.jobNumber = number && b.number = batch with
  | none => s
  | some b =>
    let n := b.encodedBy stage + 1
    let s := s.onAcc fun a =>
      { a with
        batches := updFirst (fun c => c.jobNumber = number && c.number = batch)
          (fun c => { c with encoded := (c.encoded.filter (·.1 ≠ stage)) ++ [(stage, n)] }) a.batches }
    match (s.jobNum? number).bind s.jobFolio with
    | some f => if n = b.rows.length then s.dropRefs (b.members.flatMap fun i => s.stageReads f stage (number, i)) else s
    | none => s

/-- A row sequence whose encoder runs are all behind it lets its slot go, and its batch counts it. -/
def State.rowEnds (s : State) (x : Ctx) (g : Stage) (slot : Nat) : State :=
  match s.seq? slot with
  | none => s
  | some q =>
    let all := (List.range g.wingParts).all fun w => (List.range (max 1 x.partCount)).all fun r => (x.plan.stage, w, r) ∈ q.done
    if q.row && all then (s.rowEncoded q.jobNumber q.idx x.plan.stage).releaseSeq slot else s

/-- Page-sides of a job whose next convolution stage cannot take the plane that a stage has just finished (R309), and page-sides of
a folio without a decoder whose stages are all behind them: their sequences end. -/
def State.pageChecks (s : State) (number stage : Nat) : State :=
  match s.jobNum? number with
  | none => s
  | some j =>
    match s.jobFolio j with
    | none => s
    | some f =>
      let firsts := s.kv.seqs.filter fun q => q.jobNumber = number && !q.row && !q.ended && q.planes.isSome
      firsts.foldl (fun s q =>
        let w := (q.planes.map (·.width)).getD 0
        let h := (q.planes.map (·.height)).getD 0
        let refused := s.stageDone f q stage && f.stages.zipIdx.any fun p => p.1.input = stage && s.outOfRange f p.2 w h
        if refused then s.endSequence j.slot q.idx q.sample stUnsupported 0 0 9
        else if f.decode.isNone && (List.range f.stages.length).all (s.stageDone f q) then
          s.endSequence j.slot q.idx q.sample Config.plainEnd 0 0 0
        else s) s

/-- The run of a context ends with its last command (R458, R494). -/
def State.runEnds (s : State) (x : Ctx) : State :=
  match s.stageOf x with
  | none => s.endCtx x.id
  | some g =>
    let jobs := (x.jobNumber :: x.plan.seqs.filterMap fun n => (s.seq? n).map (·.jobNumber)).eraseDups
    let s := (s.countRun x g).noteDone x g
    let s := if g.kind = 3 then s.idleCtx x.id else s.endCtx x.id
    let s := if g.steps then x.plan.seqs.foldl State.stepRunEnds s else s
    let s := if g.kind = 2 then x.plan.seqs.foldl (fun s n => s.rowEnds x g n) s else s
    let s := jobs.foldl (fun s n => s.pageChecks n x.plan.stage) s
    jobs.foldl (fun s n => match s.jobNum? n with | some j => s.jobEndCheck j.slot | none => s) s

/-- Class D commands on the DMA engine of carrel `c`, with their contexts (R466). -/
def State.dmaQueue (s : State) (c : Nat) : List (Ctx × OutCmd) :=
  ((List.range 4).flatMap fun i => (s.residents (c / 4 * 4 + i)).map (·.2)).flatMap fun x =>
    (x.outstanding.filter (·.in 1)).map fun o => (x, o)

/-- A bay DMA engine may have served a descriptor by now (R466): no LC descriptor issued before a BE one still waits, and its
context is not the one served last while another of its class has an older descriptor there. -/
def State.dmaTurn (s : State) (c : Nat) (x : Ctx) (o : OutCmd) : Bool :=
  let last := s.sch.dmaLast.getD (c / 4) (0, 0)
  (s.dmaQueue c).all fun e =>
    decide (e.2.order ≥ o.order) ||
      (if e.1.lc = x.lc then decide (e.1.id = x.id) || decide ((if x.lc then last.1 else last.2) ≠ x.id + 1) else x.lc)

/-- The engine has served a context of a class last (R466). -/
def State.dmaServed (s : State) (c : Nat) (x : Ctx) : State :=
  s.onSch fun h =>
    { h with dmaLast := h.dmaLast.modify (c / 4) fun e => if x.lc then (x.id + 1, e.2) else (e.1, x.id + 1) }

/-- An outstanding command has reached its completion point (R280): its engines are its own, an ATTN has combined, a KVAPP has
written every row, a CATHAND's rows are taken; a TMAC without DRAIN completes with the command of its pair (R279). -/
def State.mayComplete (s : State) (c : Nat) (x : Ctx) (o : OutCmd) : Bool :=
  let op := cmdOp o.cmd
  let engines := (!(o.cls.testBit 1) || !(x.taken.testBit 0)) && (!(o.cls.testBit 2) || !(x.taken.testBit 1))
  engines && (!o.in 1 || s.dmaTurn c x o) && !pairedTmac o.cmd &&
    (if op = coAttn then x.attnReady o.cmd
     else if op = coReq || op = coKvapp then x.drain.isNone && !x.kvWait
     else if op = coCathand then s.rowsTaken x o.cmd
     else true)

/-- COMMAND_COMPLETE. -/
def State.commandComplete (s : State) (c k idx now : Nat) : State :=
  match s.ctxAt c k with
  | none => s
  | some x =>
    match x.outstanding.find? (·.idx = idx) with
    | none => s
    | some o =>
      if x.stopped || (s.carrel c).entering x.id || !s.fabricUp || !s.mayComplete c x o then s
      else
        let pair := cmdOp o.cmd = coReq || cmdOp o.cmd = coKvapp
        let s := s.advance s now
        let s := if o.in 1 then s.dmaServed c x else s
        let s := if cmdOp o.cmd = coAttn then s.attnComplete x o.cmd else s
        if (s.ctx? x.id).any (·.stopped) then s else
        let s := s.onCtx x.id fun y =>
          { y with
            outstanding := y.outstanding.filter fun p => p.idx ≠ idx && !(pair && p.idx + 1 = idx && pairedTmac p.cmd)
            tmac := if pair || cmdOp o.cmd = coTmac then none else y.tmac }
        let s := s.giveBack c
        match s.ctx? x.id with
        | some y => if y.nextIssue ≥ y.listLen && y.outstanding = [] then s.runEnds y else s
        | none => s

/-! ### Meanings -/

def execRun (sq : Nat) (param : Bytes) (s : State) : Result := .next (s.whenOn fun s => s.runDesc sq param)
def execLcAdmission (slot : Nat) (s : State) (now : Nat := 0) : Result := .next (s.whenOn fun s => s.lcAdmission slot now)
def execSeqSlotGrant (row : Bool) (slot : Nat) (s : State) (tables : List Nat := []) : Result :=
  .next (s.whenOn fun s => s.seqSlotGrant row slot tables)
def execCommandComplete (c k idx now : Nat) (s : State) : Result := .next (s.whenOn fun s => s.commandComplete c k idx now)

end Sys2Proof.Machine
end

