-- ==== Sys2Proof/Machine/Lists.lean ====
section
/-! DEFINITION. What the folio loader checks of a command list: the encoding of every command (R272, R274, R287 to R305, R327, R356,
R363), pairing (R279), liveness and local space (R286, R306), streams (R291), and the floor of a list (R447). -/

namespace Sys2Proof.Machine

/-- The offset of the first field at fault among checks in ascending order of offset. -/
def firstAt (l : List (Nat × Bool)) : Option Nat := (l.find? (·.2)).map (·.1)

/-- A scratch operand word breaks R272. -/
def opBad (w : Nat) (streamable : Bool) : Bool :=
  decide (w / 2 ^ 20 ≠ 0) || (opStream w && (!streamable || decide (opAddr w ≠ 0)))

/-- A value lies outside lo to hi. -/
def outside (lo hi v : Nat) : Bool := decide (v < lo) || decide (hi < v)

/-- An activation format (R211). -/
def isAct (f : Nat) : Bool := 8 ≤ f && f ≤ 11

/-! ### The fields of each command: (offset, at fault), ascending -/

def loadChecks (store : Bool) (d : Bytes) : List (Nat × Bool) :=
  [(9, decide (u8 d 9 > if store then 0 else 2)), (10, u16 d 10 = 0),
   (12, u16 d 12 = 0 || (u8 d 9 ≠ 0 && u16 d 12 % 4 ≠ 0)), (14, nonZero d 14 2), (20, opBad (u32 d 20) false),
   (28, nonZero d 28 4)]

def streamChecks (d : Bytes) : List (Nat × Bool) :=
  let win := u16 d 6
  let ring := u8 d 13
  [(4, decide (u8 d 4 > 3)), (5, decide (u8 d 5 > 2)), (6, outside 4 32 win || win % 4 ≠ 0),
   (13, outside 10 15 ring || decide (2 ^ ring > win * 1024)), (14, u16 d 14 = 0 || (u8 d 5 ≠ 0 && u16 d 14 % 4 ≠ 0)),
   (20, u16 d 20 = 0), (22, u16 d 22 = 0), (28, 256 * u16 d 28 % 2 ^ ring ≠ 0), (30, nonZero d 30 2)]

/-- EXPAND; `small`: the smallest declared input plane of a convolution stage, width and height (R308). -/
def expandChecks (small : Option (Nat × Nat)) (d : Bytes) : List (Nat × Bool) :=
  let short := match small with
    | none => false
    | some p =>
      decide (outSize p.2 (exPt d + exPb d) (exKh d) (exSh d) < 1) ||
        decide (outSize p.1 (exPl d + exPr d) (exKw d) (exSw d) < 1)
  [(9, !isAct (exFmt d)), (10, outside 1 7 (exKh d) || outside 1 7 (exKw d)), (11, exSh d = 0 || exSw d = 0),
   (12, u16 d 12 / 4096 ≠ 0), (14, short), (18, exCh d = 0)]

/-- The first and the last of `n` rows that step evenly. -/
def endRows (n : Nat) : List Nat := if n = 0 then [] else [0, n - 1]

/-- The local bytes from the first row's start or the last's, whichever is lower, to the end of the higher one. -/
def rowHull (rows : List (Int × Nat)) : List (Int × Int) :=
  match rows with
  | [a, b] => [(min a.1 b.1, max (a.1 + a.2) (b.1 + b.2))]
  | _ => []

/-- Scratch that a command writes, as ranges of local addresses. -/
def cmdWrites (prev : Option Bytes) (d : Bytes) : List (Int × Int) :=
  match cmdOp d with
  | 0x01 => rowHull ((endRows (u16 d 10)).map fun i => (rowScr d i, rowScrBytes d))
  | 0x06 => (List.range 3).flatMap fun k =>
      let i := sliceB d (8 + 8 * k) 8
      if k < u8 d 4 && viOp i = 2 then
        rowHull ((endRows (u16 d 6)).map fun t => ((viAddr i : Int) + viStep i * t, veBytes (viTy i)))
      else []
  | 0x07 =>
    let n := (prev.map tmM).getD 0 * rqPitch d ((prev.map tmN).getD 0)
    [((opAddr (u32 d 4) : Int), ((opAddr (u32 d 4) + n : Nat) : Int))]
  | 0x08 => [((atO d : Int), ((atPoff d : Nat) : Int))]
  | 0x0A => [((opAddr (u32 d 8) : Int), ((opAddr (u32 d 8) + u16 d 12 : Nat) : Int))]
  | _ => []

/-- The nearest of the earlier commands, last first, that writes a byte of local addresses `lo` to `hi − 1`. -/
def nearestWriter (lo hi : Int) : List Bytes → Option Bytes
  | [] => none
  | d :: rest => if (cmdWrites rest.head? d).any fun w => decide (w.1 < hi) && decide (lo < w.2) then some d else nearestWriter lo hi rest

/-- The column operand of an A8 × A8 TMAC is in range mode (R246): a REQ with RANGE wrote it last. -/
def rangeColumn (earlier : List Bytes) (d : Bytes) : Bool :=
  let w := u32 d 8
  tmA8 d && !opStream w &&
    (nearestWriter (opAddr w) ((opAddr w + tmN d * tmPitchW d : Nat) : Int) earlier).any fun e => cmdOp e = coReq && rqRange e

/-- `earlier`: the commands before it, last first. -/
def tmacChecks (earlier : List Bytes) (d : Bytes) : List (Nat × Bool) :=
  let w := tmWfmt d
  let drain := tmDrain d
  [(4, opBad (u32 d 4) true), (8, opBad (u32 d 8) true || rangeColumn earlier d),
   (12, if tmGroup d = 0 then u32 d 12 ≠ 0 else opBad (u32 d 12) false), (16, tmM d = 0 || (drain && decide (tmM d > 16))),
   (18, tmN d = 0 || (drain && decide (tmN d > 16))), (20, outside 1 (2 ^ 24) (tmK d) || (!tmA8 d && w = fmW1 && tmK d % 64 ≠ 0)),
   (24, !isAct (tmAfmt d) || (if tmA8 d then w ≠ fmA8U && w ≠ fmA8S else decide (w > 7))), (25, u8 d 25 / 32 ≠ 0),
   (27, if drain then !(u8 d 27 ∈ [0, 8, 16, 24]) else u8 d 27 ≠ 0), (28, !drain && u16 d 28 ≠ 0),
   (30, !tmInit d && u16 d 30 ≠ 0)]

/-- A per-tensor zero point outside R220 for an output format; I32, BF16 and FP32 outputs use none (R296). -/
def zeroBad (f z : Nat) : Bool := 8 ≤ f && f ≤ 11 && !zeroOk f z

def reqChecks (d : Bytes) : List (Nat × Bool) :=
  let f := rqOfmt d
  [(4, opBad (u32 d 4) false), (8, opBad (u32 d 8) false),
   (12, if rqNoBias d then u32 d 12 ≠ 0 else opBad (u32 d 12) false), (16, outside 8 14 f || bitN (u8 d 16) 7),
   (17, nonZero d 17 1), (20, if rqRange d || rqPerChannel d then opBad (u32 d 20) false else u32 d 20 ≠ 0),
   (24, zeroBad f (u16 d 24)), (26, !rqRange d && u8 d 26 ≠ 0), (27, nonZero d 27 5)]

/-- KVAPP; `n`: H × D of the stage's KV declaration and the N of the paired TMAC (R334). -/
def kvappChecks (n : Option (Nat × Nat)) (d : Bytes) : List (Nat × Bool) :=
  let f := rqOfmt d
  [(0, match n with | some p => p.1 ≠ p.2 | none => false), (4, u16 d 4 / 4096 ≠ 0), (7, u8 d 7 / 4 ≠ 0),
   (8, opBad (u32 d 8) false), (12, if rqNoBias d then u32 d 12 ≠ 0 else opBad (u32 d 12) false),
   (16, (f ≠ fmA8U && f ≠ fmA8S) || rqRange d || bitN (u8 d 16) 7), (17, nonZero d 17 1), (20, u32 d 20 ≠ 0),
   (24, zeroBad f (u16 d 24)), (26, u8 d 26 ≠ 0), (27, nonZero d 27 5)]

/-- Which of VA, VB, VC and VD an operation uses, and the TYPEs it takes (R299, R300); none for a reserved VOP. -/
def vopShape (op : Nat) : Option (Bool × Bool × Bool × Bool × List Nat) :=
  let fl := [0, 1]
  if op = 0 then some (false, false, false, false, [0, 1, 2, 3, 4])
  else if op = 0x10 || op = 0x11 || op = 0x12 || op = 0x14 || op = 0x15 || op = 0x18 || op = 0x19 then
    some (true, true, false, true, fl)
  else if op = 0x13 then some (true, true, true, true, fl)
  else if op = 0x16 || op = 0x17 || op = 0x30 || op = 0x31 || op = 0x38 || op = 0x39 || op = 0x3A then
    some (true, false, false, true, fl)
  else if op = 0x1A then some (true, true, true, true, [0, 1, 2])
  else if op = 0x1B then some (true, false, false, true, [0, 1, 2, 3, 4])
  else if (0x20 ≤ op && op ≤ 0x23) || (0x27 ≤ op && op ≤ 0x2C) then some (true, true, false, true, [2])
  else if 0x24 ≤ op && op ≤ 0x26 then some (true, false, false, true, [2])
  else none

/-- The fields of one vector instruction at offset `o` of its command. -/
def vinstrChecks (o : Nat) (i : Bytes) : List (Nat × Bool) :=
  let op := viOp i
  if op = 1 || op = 2 then [(o + 1, decide (viTy i > 4)), (o + 2, u24 i 2 / 2 ^ 17 ≠ 0), (o + 7, u8 i 7 ≠ 0)]
  else
    match vopShape op with
    | none => [(o, true)]
    | some (a, b, c, vd, tys) =>
      [(o + 1, !(viTy i ∈ tys) || (!vd && viVd i ≠ 0)), (o + 2, u8 i 2 ≥ 32 || (!a && u8 i 2 ≠ 0)),
       (o + 3, u8 i 3 ≥ 32 || (!b && u8 i 3 ≠ 0)), (o + 4, u8 i 4 ≥ 32 || (!c && u8 i 4 ≠ 0)),
       (o + 5, op = 0x1B && decide (viImm i % 8 > 4)), (o + 6, nonZero i 6 2)]

def vecChecks (d : Bytes) : List (Nat × Bool) :=
  [(4, outside 1 3 (u8 d 4)), (5, nonZero d 5 1), (6, u16 d 6 = 0)] ++
    (List.range 3).flatMap fun k =>
      if k < u8 d 4 then vinstrChecks (8 + 8 * k) (sliceB d (8 + 8 * k) 8) else [(8 + 8 * k, nonZero d (8 + 8 * k) 8)]

/-- ATTN; `lt5`: the folio is of major version 1 (R363). -/
def attnChecks (lt5 : Bool) (d : Bytes) : List (Nat × Bool) :=
  let bm := atBiasMode d
  let seg := atSegment d || atPadding d || bm = 2
  [(4, opBad (u32 d 4) false), (8, opBad (u32 d 8) false), (12, if bm = 0 then u32 d 12 ≠ 0 else opBad (u32 d 12) false),
   (16, u16 d 16 / 4096 ≠ 0), (19, atRows d = 0), (20, outside 16 256 (atDim d) || atDim d % 16 ≠ 0),
   (22, !isAct (atQfmt d) || (atKfmt d ≠ fmA8U && atKfmt d ≠ fmA8S)),
   (23, bm = 3 || bitN (u8 d 23) 7 || (lt5 && (atCard d || bm = 2))), (28, decide (atMode d > 1) || (lt5 && atMode d ≠ 0)),
   (29, atOfmt d ≠ fmBF16 && atOfmt d ≠ fmFP32), (30, if seg then u16 d 30 = 0 else u16 d 30 ≠ 0)]

def packChecks (d : Bytes) : List (Nat × Bool) :=
  [(9, nonZero d 9 1), (10, outside 1 8192 (u16 d 10)), (21, decide (u8 d 21 > 63)), (27, nonZero d 27 5)]

def argmaxChecks (d : Bytes) : List (Nat × Bool) :=
  let f := u8 d 16
  let plain := f ≠ fmA4U && f ≠ fmA8U
  [(4, opBad (u32 d 4) false), (8, opBad (u32 d 8) false), (12, u16 d 12 = 0), (14, outside 1 256 (u16 d 14)),
   (16, !(f ∈ [fmA4U, fmA8U, fmA8S, fmI32, fmBF16, fmFP32])), (17, decide (u8 d 17 > 2) || (plain && u8 d 17 ≠ 0)),
   (18, if plain then u16 d 18 ≠ 0 else u8 d 17 = 0 && !zeroOk f (u16 d 18)), (20, opBad (u32 d 20) false), (24, nonZero d 24 8)]

def cathandChecks (d : Bytes) : List (Nat × Bool) :=
  [(4, opBad (u32 d 4) false), (8, opBad (u32 d 8) false), (12, outside 1 16 (u8 d 12)),
   (13, u8 d 13 ≠ fmBF16 && u8 d 13 ≠ fmFP32), (14, nonZero d 14 18)]

def fenceChecks (d : Bytes) : List (Nat × Bool) := [(4, outside 1 15 (u8 d 4)), (5, nonZero d 5 27)]

def signalChecks (d : Bytes) : List (Nat × Bool) :=
  [(4, decide (u8 d 4 > 63)), (5, decide (u8 d 5 > 15)), (6, decide (u8 d 6 > 1)), (7, nonZero d 7 1), (12, nonZero d 12 20)]

def waitsigChecks (d : Bytes) : List (Nat × Bool) :=
  [(4, decide (u8 d 4 > 63)), (5, nonZero d 5 1), (6, decide (u8 d 6 > 1)), (7, nonZero d 7 1), (12, nonZero d 12 20)]

/-- What a list's checks need of its stage and folio: major version, the smallest declared input plane of a convolution stage,
and H × D of the stage's KV declaration. -/
structure ListCtx where
  major : Nat
  small : Option (Nat × Nat)
  hd : Option Nat

/-- What the checks of a list need of its stage (R308, R334): `major` of the folio, `hd` H × D of the KV declaration it names. -/
def Stage.listCtx (g : Stage) (major : Nat) (hd : Option Nat) : ListCtx :=
  { major := major, small := if g.kind = 0 then some (g.minW, g.minH) else none, hd := hd }

/-- The header of a command (R274, R275, R305). -/
def headChecks (g : ListCtx) (d : Bytes) : List (Nat × Bool) :=
  [(0, decide (cmdOp d > 15)), (1, u8 d 1 ≠ g.major), (2, decide (u16 d 2 > 512))]

/-- R279: a REQ or KVAPP follows a TMAC with DRAIN 0, and such a TMAC is followed by one. -/
def pairBad (prev : Option Bytes) (d : Bytes) (next : Option Bytes) : Bool :=
  let second := fun e : Bytes => cmdOp e = coReq || cmdOp e = coKvapp
  if second d then !(prev.any pairedTmac) else pairedTmac d && !(next.any fun e => second e)

/-- The body of a command. -/
def bodyChecks (g : ListCtx) (earlier : List Bytes) (d : Bytes) : List (Nat × Bool) :=
  match cmdOp d with
  | 0x00 => [(4, nonZero d 4 28)]
  | 0x01 => loadChecks false d
  | 0x02 => loadChecks true d
  | 0x03 => streamChecks d
  | 0x04 => expandChecks g.small d
  | 0x05 => tmacChecks earlier d
  | 0x06 => vecChecks d
  | 0x07 => reqChecks d
  | 0x08 => attnChecks (g.major = 1) d
  | 0x09 => kvappChecks (match g.hd, earlier.head? with | some hd, some p => some (hd, tmN p) | _, _ => none) d
  | 0x0A => argmaxChecks d
  | 0x0B => packChecks d
  | 0x0C => cathandChecks d
  | 0x0D => fenceChecks d
  | 0x0E => signalChecks d
  | 0x0F => waitsigChecks d
  | _ => []

/-- The byte offset in a list of its first field at fault (step 5 of R445); `earlier`: the commands before it, last first. -/
def listFault (g : ListCtx) : Nat → List Bytes → List Bytes → Option Nat
  | _, _, [] => none
  | o, earlier, d :: rest =>
    match firstAt ((headChecks g d).take 1 ++ [(0, pairBad earlier.head? d rest.head?)] ++ (headChecks g d).drop 1 ++
        bodyChecks g earlier d) with
    | some k => some (o + k)
    | none => listFault g (o + 32) (d :: earlier) rest

/-! ### Scratch that a command can touch (R286) -/

/-- A scratch operand that is no stream: (offset of its field, first address, bytes). -/
def opSpan (off w n : Nat) : List (Nat × Int × Nat) := if opStream w then [] else [(off, (opAddr w : Int), n)]

/-- The local ranges of a command's operands, stream ring and accumulator save area, with the offset of the field that names each.
The staging area of an ATTN lies in its parameter block, which is data of the run. -/
def cmdSpans (prev : Option Bytes) (d : Bytes) : List (Nat × Int × Nat) :=
  let m := (prev.map tmM).getD 0
  let n := (prev.map tmN).getD 0
  match cmdOp d with
  | 0x01 => (endRows (u16 d 10)).map fun i => (20, rowScr d i, rowScrBytes d)
  | 0x02 => (endRows (u16 d 10)).map fun i => (20, rowScr d i, rowScrBytes d)
  | 0x03 => [(28, ((256 * u16 d 28 : Nat) : Int), 2 ^ u8 d 13)]
  | 0x05 =>
    opSpan 4 (u32 d 4) (tmM d * tmPitchA d) ++ opSpan 8 (u32 d 8) (tmN d * tmPitchW d) ++
      opSpan 12 (u32 d 12) (if tmGroup d = 0 then 0 else tmN d * tmPitchG d) ++
      [(26, ((1024 * u8 d 26 : Nat) : Int), 1024), (30, ((256 * u16 d 30 : Nat) : Int), if tmInit d then 1024 * tmMt d * tmNt d else 0)]
  | 0x06 =>
    ((List.range 3).filter (· < u8 d 4)).flatMap fun k =>
      let i := sliceB d (8 + 8 * k) 8
      if viOp i = 1 || viOp i = 2 then
        (endRows (u16 d 6)).map fun t => (10 + 8 * k, (viAddr i : Int) + viStep i * t, veBytes (viTy i))
      else []
  | 0x07 =>
    opSpan 4 (u32 d 4) (m * rqPitch d n) ++ opSpan 8 (u32 d 8) n ++
      opSpan 12 (u32 d 12) (if rqNoBias d then 0 else 4 * n) ++
      opSpan 20 (u32 d 20) (if rqRange d then 4 * n else if rqPerChannel d then 2 * n else 0)
  | 0x09 => opSpan 8 (u32 d 8) n ++ opSpan 12 (u32 d 12) (if rqNoBias d then 0 else 4 * n)
  | 0x08 => List.zipWith (fun o r => (o, ((r.1 : Nat) : Int), r.2)) [4, 8, 12, 30] (atRanges d [])
  | 0x0A =>
    opSpan 4 (u32 d 4) (u16 d 12 * fmtBytes (u8 d 16) (u16 d 14)) ++ opSpan 8 (u32 d 8) (u16 d 12) ++
      opSpan 20 (u32 d 20) (amZbytes d)
  | 0x0C => opSpan 4 (u32 d 4) (chRows d * chPitch d) ++ opSpan 8 (u32 d 8) (2 * chRows d)
  | _ => []

/-- The field of a command that breaks R286 or R306, with `units` of local space. -/
def liveFault (units : Nat) (prev : Option Bytes) (d : Bytes) : Option Nat :=
  if cmdLive d > 32 * units then some 2
  else
    let top : Int := ((256 * cmdLive d : Nat) : Int)
    (((cmdSpans prev d).find? fun p => p.2.2 ≠ 0 && (decide (p.2.1 < 0) || decide (p.2.1 + p.2.2 > top)))).map (·.1)

def listLiveFault (units : Nat) : Nat → Option Bytes → List Bytes → Option Nat
  | _, _, [] => none
  | o, prev, d :: rest =>
    match liveFault units prev d with
    | some k => some (o + k)
    | none => listLiveFault units (o + 32) (some d) rest

/-! ### Streams (R291) -/

/-- A handle as the check walks the list: offset of its STREAM, window, bytes delivered and consumed. -/
structure StreamUse where
  handle : Nat
  off : Nat
  win : Nat
  total : Nat
  used : Nat

/-- Take `n` bytes of a stream operand; the offset at fault, or the handles after it. -/
def takeStream (us : List StreamUse) (off w n : Nat) : Except Nat (List StreamUse) :=
  if !opStream w then .ok us
  else
    match us.find? (·.handle = opHandle w) with
    | none => .error off
    | some u =>
      if u.used + n > u.total then .error off
      else .ok (updFirst (·.handle = u.handle) (fun u => { u with used := u.used + n }) us)

/-- Walk a list: every operand reads an open handle, every stream is consumed to its last byte, and the handles and their windows
stay within the stage's. -/
def listStreamFault (streams winKib : Nat) : Nat → List StreamUse → List Bytes → Option Nat
  | _, us, [] => (us.find? fun u => u.used ≠ u.total).map (·.off + 4)
  | o, us, d :: rest =>
    if cmdOp d = coStream then
      let h := u8 d 4 % 4
      let old := us.find? (·.handle = h)
      let win := max (u16 d 6) ((old.map (·.win)).getD 0)
      let us' := us.filter (·.handle ≠ h) ++ [⟨h, o, win, streamTotal d, 0⟩]
      match old with
      | some u =>
        if u.used ≠ u.total then some (u.off + 4)
        else if decide ((us'.map (·.win)).sum > winKib) then some (o + 6)
        else listStreamFault streams winKib (o + 32) us' rest
      | none =>
        if us'.length > streams then some (o + 4)
        else if (us'.map (·.win)).sum > winKib then some (o + 6)
        else listStreamFault streams winKib (o + 32) us' rest
    else if cmdOp d = coTmac then
      match takeStream us (o + 4) (u32 d 4) (tmStreamA d) with
      | .error k => some k
      | .ok us =>
        match takeStream us (o + 8) (u32 d 8) (tmStreamW d) with
        | .error k => some k
        | .ok us => listStreamFault streams winKib (o + 32) us rest
    else listStreamFault streams winKib (o + 32) us rest

/-! ### The floor of a list (R447) -/

/-- The least cycles of one command. -/
def cmdFloor (d : Bytes) : Nat :=
  match cmdOp d with
  | 0x05 => tmCycles d
  | 0x0A => ceilDiv (u16 d 12 * u16 d 14) 32 + 16
  | 0x08 => 24 + finishCycles d
  | _ => 1

def listFloor (l : List Bytes) : Nat := (l.map cmdFloor).sum

end Sys2Proof.Machine
end

