-- ==== Sys2Proof/Machine/Sched.lean ====
section
/-! DEFINITION. Placing contexts (R459 to R463, R481), the composition of a decode step (R467, R468), the far bases that Penuo fills
(R435), switching and spilling (R469 to R473, R254, R342). -/

namespace Sys2Proof.Machine

/-! ### What a context serves -/

/-- Page-sides (job number, index) that a context serves: its sequences', or for a row the members of the row's batch. -/
def State.pagesOf (s : State) (seqs : List Nat) : List (Nat × Nat) :=
  (seqs.flatMap fun n =>
    match s.seq? n with
    | none => []
    | some q =>
      if q.row then
        match s.acc.batches.find? fun b => b.jobNumber = q.jobNumber && b.number = q.idx with
        | some b => b.members.map fun i => (q.jobNumber, i)
        | none => []
      else [(q.jobNumber, q.idx)]).eraseDups

/-- Planes in a plane set: by LAYOUT for a decoded record; 16 + PLANES for a captured page-side. -/
def planeCount (layout : Nat) : Nat := if layout ≥ 16 then layout - 16 else if layout < 3 then 1 else 3

/-- Bytes of a page-side's planes (R130, R204). -/
def Planes.bytes (p : Planes) : Nat := planeCount p.layout * (roundUp p.width 64 * p.height)

/-- Where the first plane lies: behind the plane-set header for a captured page-side (R204). -/
def Planes.first (p : Planes) : Nat := if p.layout ≥ 16 then p.addr + 64 else p.addr

/-- The input of stage `g` is ready for a page-side: its planes, or the stage it names, which convolution stages may overlap
(R323, R433). -/
def State.inputReady (s : State) (f : Folio) (g : Stage) (q : SeqSlot) : Bool :=
  if g.input = 0xFF then q.planes.isSome
  else
    match f.stages[g.input]? with
    | some p => (g.kind = 0 && p.kind = 0 && q.planes.isSome) || s.stageDone f q g.input
    | none => false

/-! ### Far bases (R435) -/

/-- References to an OUTPUT buffer of a stage: one for each context of each stage that reads it (R324, R435). -/
def State.outputRefs (s : State) (f : Folio) (stage w h : Nat) : Nat :=
  max 1 (((f.bindings.filter fun b => b.2.2.1 = 2 && b.2.2.2.1 = stage).map fun b => s.stageRefs f b.1 w h).sum)

/-- OUTPUT and WORK buffers of a stage for one page-side, taken from the plane pool where they are not yet; none without room. -/
def State.takeBuffers (s : State) (f : Folio) (stage : Nat) (page : Nat × Nat) : Except (PoolOwner × State) State :=
  (f.bindings.filter fun b => b.1 = stage && (b.2.2.1 = 1 || b.2.2.1 = 3)).foldl (fun (acc : Except (PoolOwner × State) State) b =>
    match acc with
    | .error e => .error e
    | .ok s =>
      let owner := PoolOwner.buffer page.1 page.2 stage b.2.1
      if (s.poolOf owner).isSome then .ok s
      else
        let pl := (s.pageHead page.1 page.2).bind (·.planes)
        let refs := if b.2.2.1 = 3 then 1 else s.outputRefs f stage ((pl.map (·.width)).getD 0) ((pl.map (·.height)).getD 0)
        match if s.poolFirst owner then s.poolTake b.2.2.2.2 owner refs else none with
        | some r => .ok (r.2.poolDone (· = owner))
        | none => .error (owner, s)) (.ok s)

/-- Address and extent of one binding for a page-side (R435). -/
def State.bindAddr (s : State) (j : Job) (f : Folio) (page : Nat × Nat) (b : Nat × Nat × Nat × Nat × Nat) : Option (Nat × Nat) :=
  match b.2.2.1 with
  | 0 => ((s.pageHead page.1 page.2).bind (·.planes)).map fun p => (p.first, p.bytes)
  | 1 => (s.poolOf (.buffer page.1 page.2 b.1 b.2.1)).map fun a => (a, b.2.2.2.2)
  | 2 =>
    (f.bindings.find? fun o => o.1 = b.2.2.2.1 && o.2.2.1 = 1).bind fun o =>
      (s.poolOf (.buffer page.1 page.2 o.1 o.2.1)).map fun a => (a, o.2.2.2.2)
  | 3 => (s.poolOf (.buffer page.1 page.2 b.1 b.2.1)).map fun a => (a, b.2.2.2.2)
  | 5 => some (dOutAddr j.desc + page.2 * dStride j.desc, dStride j.desc * if dConfAddr j.desc = 0 then 1 else 3)
  | _ => none

/-- The base table of a context: by R435 for one page-side; for a batch of several, Penuo's choice for each base that the stage
binds. -/
def State.basesOf (s : State) (j : Job) (f : Folio) (stage : Nat) (pages : List (Nat × Nat)) (given : List (Nat × Nat × Nat)) :
    List (Nat × Nat × Nat) :=
  let bs := f.bindings.filter fun b => b.1 = stage
  match pages with
  | [page] => bs.filterMap fun b => (s.bindAddr j f page b).map fun e => (b.2.1, e.1, e.2)
  | _ => given.filter fun e => bs.any fun b => b.2.1 = e.1

/-- References that a stripe or a GENERIC context holds until it ends (R324). Those of a CROP stage go when its batch is packed, of an
ENCODE stage when the batch's rows are encoded, and of a DECODE stage with the sequence. -/
def State.readsOf (s : State) (f : Folio) (stage : Nat) (g : Stage) (pages : List (Nat × Nat)) : List Nat :=
  if g.kind = 0 || g.kind = 4 then pages.flatMap (s.stageReads f stage) else []

/-! ### The composition of a step (R467, R468, R343, R384) -/

/-- Runs of an admitted job beyond those its plan charges (R481). -/
def State.runKey (stage part : Nat) : Nat := 16 * part + stage

def Job.runsMade (j : Job) (stage part : Nat) : Nat :=
  ((j.stageRuns.find? (·.1 = State.runKey stage part)).map (·.2)).getD 0

/-- Note one more run of a stage's list. -/
def Job.countStage (j : Job) (stage part : Nat) : Job :=
  let k := State.runKey stage part
  { j with stageRuns := (j.stageRuns.filter (·.1 ≠ k)) ++ [(k, j.runsMade stage part + 1)] }

/-- The run that begins now is over-plan (R481). -/
def State.isOverplan (s : State) (j : Job) (f : Folio) (g : Stage) (stage part : Nat) : Bool :=
  j.plan.isSome && decide (j.runsMade stage part ≥ s.runsOf f j.desc g)

/-- The class that a job's next run of a list carries (R458, R481). -/
def State.runClass (s : State) (j : Job) (f : Folio) (g : Stage) (stage part : Nat) : Bool :=
  j.lc && !s.isOverplan j f g stage part

/-- No edit is being applied to a sequence, and no page of it is swapped, being swapped, or about to be (R343, R345, R384). -/
def State.mayOpen (s : State) (q : SeqSlot) : Bool :=
  !q.ended && !q.applying && q.swappedAt.isNone && q.table.all (!·.swapped) && (s.swapVictim).all (·.slot ≠ q.slot)

/-- A sequence may start a step of a batch of class `cl` now. Its last chosen token may still be waiting for its advance, when no rubric
run will follow it (R410, R427). -/
def State.mayStep (s : State) (f : Folio) (g : Stage) (stage part : Nat) (cl : Bool) (q : SeqSlot) : Bool :=
  let head := (s.pageHead q.jobNumber q.idx).getD q
  !q.row && s.mayOpen q && q.stepOpen = 0 && s.inputReady f g head &&
    (match s.job? q.jobSlot with
     | some j => j.phase = .running && s.runClass j f g stage part = cl && dFolio j.desc = f.handle
     | none => false) &&
    (match q.cat with
     | some c => c.row.isNone &&
        (match c.token with
         | none => true
         | some (t, _) => c.mask ≠ some [t] && s.plainAdvance c t) &&
        (c.feed ≠ [] || decide (q.cursor < q.prompt.length) || !q.started)
     | none => decide (q.cursor < q.prompt.length) || !q.started)

/-- The chunk that a sequence would contribute with `room` extra positions: positions and how many of them are fed back. None: it
is deferred. -/
def chunkFor (q : SeqSlot) (room : Nat) : Option (Nat × Nat) :=
  let left := q.prompt.length - q.cursor
  let feed := (q.cat.map (·.feed.length)).getD 0
  if left = 0 then
    if feed ≤ room + 1 then some (max 1 feed, feed) else none
  else if left + feed ≤ room + 1 then some (left + feed, feed)
  else some (min left (room + 1), 0)

/-- Insert a sequence by how long it has waited, deferred ones first (R468). -/
def insertWait (q : SeqSlot) : List SeqSlot → List SeqSlot
  | [] => [q]
  | a :: l =>
    let key := fun z : SeqSlot => [1 - b2n z.deferred, z.waitFrom]
    if key q < key a then q :: a :: l else a :: insertWait q l

/-- Take chunks, oldest first, while there is room: the sequences that join, with chunk and fed-back part. -/
def takeChunks : Nat → Nat → List SeqSlot → List (Nat × Nat × Nat)
  | 0, _, _ => []
  | _, _, [] => []
  | n + 1, room, q :: rest =>
    match chunkFor q room with
    | some (c, fed) => (q.slot, c, fed) :: takeChunks n (room - (c - 1)) rest
    | none => takeChunks (n + 1) room rest

/-- The batch of a decode step for one list: sequences whose step is open already and that this run has still to serve, then new
ones; for each its chunk and the fed-back part (none for those whose step is open). -/
def State.compose (s : State) (f : Folio) (g : Stage) (p : CtxPlan) (cl : Bool) : List (Nat × Option (Nat × Nat)) :=
  let key := (p.stage, p.part, p.spread.1)
  let qs := p.seqs.filterMap s.seq?
  let classOf := fun q : SeqSlot => (s.job? q.jobSlot).any fun j => s.runClass j f g p.stage p.part = cl
  let open_ := (qs.filter fun q => q.stepOpen > 0 && !(key ∈ q.stepRan) && classOf q).take 256
  let extra := (open_.map fun q => q.chunk - 1).sum
  let fresh := (qs.filter fun q => s.mayStep f g p.stage p.part cl q).foldl (fun l q => insertWait q l) []
  (open_.map fun q => (q.slot, none)) ++
    (takeChunks (256 - open_.length) (512 - extra) fresh).map fun e => (e.1, some e.2)

/-- The sequences of a batch's stage and class whose chunk did not fit are deferred (R468). -/
def State.deferRest (s : State) (f : Folio) (g : Stage) (p : CtxPlan) (cl : Bool) (batch : List Nat) : State :=
  let rest := (p.seqs.filterMap s.seq?).filter fun q => !(q.slot ∈ batch) && s.mayStep f g p.stage p.part cl q
  rest.foldl (fun s q => s.onSeq q.slot fun q => { q with deferred := true }) s

/-- Open or join the step of each sequence of a batch. -/
def State.openSteps (s : State) (g : Stage) (parts : Nat) (key : Nat × Nat × Nat) (wing : Nat)
    (batch : List (Nat × Option (Nat × Nat))) : State :=
  let s := s.kvTick
  let now := s.kv.clock
  batch.foldl (fun s e =>
    s.onSeq e.1 fun q =>
      let q := { q with
        stepRan := q.stepRan ++ [key]
        cat := q.cat.map fun c => if c.wing.isNone then { c with wing := some wing } else c }
      match e.2 with
      | none => q
      | some (chunk, fed) =>
        { q with
          stepOpen := g.wingParts * max 1 parts, chunk := chunk, chunkFed := fed, stepRan := [key], deferred := false
          startedAt := if q.started then q.startedAt else now, started := true }) s

/-- Sequences of a batch that the wing's catalog unit has room for (R425). -/
def State.catRoom (s : State) (wing : Nat) (batch : List (Nat × Option (Nat × Nat))) : List (Nat × Option (Nat × Nat)) :=
  let held := fun q : SeqSlot => q.cat.any fun c => c.wing = some wing
  let used := (s.kv.seqs.filter held).length
  let new := fun e : Nat × Option (Nat × Nat) => (s.seq? e.1).any fun q => q.cat.any fun c => c.wing.isNone
  let firsts := ((batch.filter new).take (256 - used)).map (·.1)
  batch.filter fun e => !new e || e.1 ∈ firsts

/-! ### Room on carrels and bays (R292, R311, R459) -/

def State.usedUnits (s : State) (c : Nat) : List Nat := (s.carrel c).slots.flatMap (·.1)

def State.freeUnits (s : State) (c : Nat) : List Nat := (List.range 16).filter fun u => !(u ∈ s.usedUnits c)

def State.freeSlotOn (s : State) (c : Nat) : Option Nat := (List.range 4).find? fun k => (s.slotOf c k).2.isNone

/-- Carrel `c` has a slot and the units for a context now. -/
def State.hasRoom (s : State) (c units : Nat) : Bool := (s.freeSlotOn c).isSome && decide (units ≤ (s.freeUnits c).length)

/-! ### Moving a context in and out (R254, R342, R469 to R473) -/

/-- Cells outside the scratch units of a map. -/
def clearUnits (units : List Nat) (m : Mem) : Mem := m.filter fun e => !(e.1 / 8192 ∈ units)

/-- Give a context a slot with the lowest free units, cleared with valid check bits, 32 cycles for each (R263, R264). -/
def State.seat (s : State) (id c k units : Nat) : State :=
  let map := (s.freeUnits c).take units
  let s := s.onCarrel c fun r =>
    { r with
      slots := r.slots.set k (map, some id)
      scratch := clearUnits map r.scratch
      bad := r.bad.filter fun e => !(8 * e.1 / 8192 ∈ map)
      clearUntil := max s.arithNow r.clearUntil + 32 * units }
  s.onCtx id fun x => { x with place := some (c, k), bay := c / 8 }

/-- Bytes of a spill image: the register bank and `n` bytes of live region (R469). -/
def imageBytes (n : Nat) : Nat := 4096 + n

/-- Bytes of a context's live region in force (R285). -/
def State.liveBytes (s : State) (x : Ctx) : Nat := min (256 * s.liveOf x) (s.localSize x)

/-- The spill images in a bay's spill area: first byte and bytes. -/
def State.spillRuns (s : State) (b : Nat) : List (Nat × Nat) :=
  ((s.bayCtxs b).filter fun x => !x.pooled).filterMap fun x => x.image.map fun i => (i.1, imageBytes i.2)

/-- Bytes of a bay's spill area that images take. -/
def State.spillUsed (s : State) (b : Nat) : Nat := ((s.spillRuns b).map (·.2)).sum

/-- The lowest place for `n` bytes in a bay's spill area. -/
def State.spillRoom (s : State) (b n : Nat) : Option Nat := firstRun 262144 n (s.spillRuns b)

/-- The oldest spill image of a BE context in a bay's spill area (R472). -/
def State.oldestSpill (s : State) (b : Nat) : Option Ctx :=
  ((s.bayCtxs b).filter fun x => !x.lc && x.image.isSome && !x.pooled).foldl (fun best x => match best with
    | none => some x
    | some y => if x.spilledAt < y.spilledAt then some x else some y) none

/-- A switch-out of `n` image bytes leaves the reserved 135,168 B of the bay's spill area free (R472); without a BE image that could move
to the pool it may use them. -/
def State.spillFits (s : State) (b n : Nat) : Bool :=
  (s.spillRoom b n).isSome &&
    (decide (s.spillUsed b + n + 135168 ≤ 262144) || ((s.oldestSpill b).isNone && decide (s.spillUsed b + n ≤ 262144)))

/-- An image of the bay has to move to the pool: the reserved room is not free, or a switch-out waits for room (R472). -/
def State.moveDue (s : State) (b : Nat) : Bool :=
  (s.oldestSpill b).isSome &&
    (decide (s.spillUsed b + 135168 > 262144) || s.sch.spillNeed.any fun e => e.1 = b && !s.spillFits b e.2.1)

/-- A switch-out waits for room in a bay's spill area. -/
def State.noteSpillNeed (s : State) (b n number : Nat) : State :=
  s.onSch fun h => { h with spillNeed := addNew h.spillNeed (b, n, number) }

/-- Free bytes written to a context's local addresses `lo` to `hi − 1`. -/
def State.freeFill (s : State) (x : Ctx) (lo hi : Nat) : State :=
  let r := s.drawBytes (hi - lo)
  r.2.locWrite x lo r.1

/-- The register bank as a spill image holds it, one register of 32 words after another. -/
def bankBytes (v : List (List Word)) : Bytes := v.flatMap fun r => r.flatMap fun w => toLe 4 w.toNat

def bankOfBytes (b : Bytes) : List (List Word) :=
  (List.range 32).map fun r => (List.range 32).map fun l => BitVec.ofNat 32 (u32 b (128 * r + 4 * l))

/-- A context leaves its slot: the accumulators of an unfinished pass go to the save area (R254), descriptors not consumed are given up
(R342), and its register bank and live region go to the bay's spill area (R285, R471). -/
def State.switchOut (s : State) (id : Nat) : State :=
  match s.ctx? id with
  | none => s
  | some x =>
    match x.place, s.spillRoom x.bay (imageBytes (s.liveBytes x)) with
    | some (c, k), some a =>
      let n := s.liveBytes x
      let s := s.savePass x
      s.accessing x c [(0, n)] [] fun s =>
        let bytes := bankBytes x.vregs ++ s.locRead x 0 n
        let s := (s.onShelf x.bay fun m => m.write a bytes).kvTick
        let now := s.kv.clock
        let s := s.onCarrel c fun r => r.emptySlot k
        let s := s.onCtx id fun y =>
          { y with
            place := none, image := some (a, n), pooled := false, spilledAt := now, taken := 0, vregs := []
            walk := y.walk.map fun w => { w with emitted := w.emitted - w.queued, queued := 0 } }
        (s.giveBack c).chargeWait (s.clientOf x) 0 1
    | _, _ => s

/-- The bytes of a context's spill image. -/
def State.imageOf (s : State) (x : Ctx) : Bytes :=
  match x.image with
  | some (a, n) => if x.pooled then s.dramRead a (imageBytes n) else (s.shelfOf x.bay).read a (imageBytes n)
  | none => []

/-- A spill image lies in the spill area of bay `b`, brought back from the pool or copied from another bay where need be (R472, R473);
none: the area has no room for it. -/
def State.bringImage (s : State) (x : Ctx) (b : Nat) : Option State :=
  if !x.pooled && x.bay = b then some s
  else
    match x.image with
    | none => some s
    | some (_, n) =>
      (s.spillRoom b (imageBytes n)).map fun a =>
        let bytes := s.imageOf x
        let s := s.onShelf b fun m => m.write a bytes
        let s := s.onAcc fun r => { r with pool := r.pool.filter fun p => p.owner ≠ .spill x.id }
        s.onCtx x.id fun y => { y with image := some (a, n), pooled := false, bay := b }

/-- Class bits of the commands that a context left outstanding on the array and the vector unit, as `taken` gives them. -/
def Ctx.stranded (x : Ctx) : Nat := (if x.busy 2 then 1 else 0) ||| (if x.busy 4 then 2 else 0)

/-- A spilled context takes its slot again: its image returns to the register bank and the live region; what lies beyond holds undefined
data (R286's remark). Its unfinished commands go on when their engines are free. -/
def State.switchIn (s : State) (id c k : Nat) : State :=
  match s.ctx? id with
  | none => s
  | some x =>
    let bytes := s.imageOf x
    let n := (x.image.map (·.2)).getD 0
    let s := s.seat id c k x.units
    let s := s.onCtx id fun y =>
      { y with image := none, pooled := false, vregs := bankOfBytes (bytes.take 4096), taken := x.stranded }
    match s.ctx? id with
    | none => s
    | some y =>
      let s := s.locWrite y 0 (bytes.drop 4096)
      ((s.freeFill y n (s.localSize y)).giveBack c)

/-- s of R469 for a live region of `n` bytes. -/
def switchTerm (n : Nat) : Nat := ceilDiv (imageBytes n) 256 + 16

/-- Begin a switch on a carrel: cost and count (R469, SCH_SWITCH_COUNT). -/
def State.beginSwitch (s : State) (c k : Nat) (leaving entering : Option Nat) (sOut sIn : Nat) : State :=
  let s := if sOut + sIn ≠ 0 then s.bumpSat rSchSwitchCount 0 32 1 else s
  s.onCarrel c fun r => { r with switching := some ⟨k, leaving, entering, 32 + sOut + sIn⟩ }

/-- The best victim on a list of carrels for a context of `units` (R462): smallest LIVE in force, then lowest carrel and slot. -/
def State.victim (s : State) (carrels : List Nat) (units : Nat) : Option (Nat × Nat × Ctx) :=
  let cands := carrels.flatMap fun c => (s.residents c).filterMap fun p =>
    if !p.2.lc && !p.2.stopped && decide (units ≤ p.2.units + (s.freeUnits c).length) then some (c, p.1, p.2) else none
  let key := fun e : Nat × Nat × Ctx => [s.liveOf e.2.2, e.1, e.2.1]
  cands.foldl (fun best e => match best with
    | none => some e
    | some b => if key e < key b then some e else some b) none

/-- Where a context goes: a carrel and slot, with the victim it displaces; or what it waits for. -/
inductive Room where
  | free (c k : Nat)
  | displace (c k victim : Nat)
  | wait
  | waitSpill (bay bytes : Nat)
  deriving DecidableEq, Repr

/-- Choose a place for a context of `units` among carrels in policy order (R460 to R462, R471, R472). -/
def State.findRoom (s : State) (carrels : List Nat) (lc : Bool) (units : Nat) : Room :=
  match carrels.find? fun c => s.hasRoom c units with
  | some c => if lc && (s.carrel c).switching.isSome then .wait else .free c ((s.freeSlotOn c).getD 0)
  | none =>
    if !lc then .wait
    else
      match s.victim carrels units with
      | none => .wait
      | some (c, k, v) =>
        let n := imageBytes (s.liveBytes v)
        if (s.carrel c).switching.isSome then .wait
        else if s.spillFits (c / 8) n then .displace c k v.id
        else .waitSpill (c / 8) n

/-- SPILL_MOVE (R472): the oldest image of a BE context in the bay moves to the plane pool, in 64 KiB granules, while one has to. -/
def State.spillMove (s : State) (b : Nat) : State :=
  if !s.moveDue b || !s.fabricUp then s
  else
    match s.oldestSpill b with
    | none => s
    | some x =>
      match x.image.bind fun i => s.poolTake (imageBytes i.2) (.spill x.id) 1 with
      | some r =>
        (r.2.dramWrite r.1 (s.imageOf x)).onCtx x.id fun y =>
          { y with image := y.image.map fun i => (r.1, i.2), pooled := true }
      | none => s

/-- A move waits for room in the pool (SCH_STATUS.SPILL_WAIT). -/
def State.spillWaits (s : State) : Bool :=
  (List.range 24).any fun b => s.moveDue b &&
    (s.oldestSpill b).any fun x => (x.image.bind fun i => s.poolTake (imageBytes i.2) (.spill x.id) 1).isNone

/-! ### A context's list (R268, R321, R323) -/

/-- The commands that a context executes: the fresh list that Penuo hands it, or its stage's own. -/
def State.listOf (s : State) (f : Folio) (g : Stage) (p : CtxPlan) : List Bytes :=
  if p.list = [] then s.stageCmds f g p.part else p.list

/-- Where they lie: a stage's own list in the folio's DRAM copy, read plainly or through the reserve shelf. -/
def listPlace (f : Folio) (g : Stage) (p : CtxPlan) : ListAt :=
  let own := f.commandOff + g.list + 32 * (p.part * g.listLen)
  if p.list ≠ [] then p.listAt else if p.listAt.base = 14 then ⟨14, own⟩ else ⟨0, f.addr + own⟩

/-- Commands that reach the bay's own shelf by base 15 (R322, R473). -/
def reachesShelf (l : List Bytes) : Bool :=
  l.any fun d =>
    ((cmdOp d = coLoad || cmdOp d = coStore || cmdOp d = coExpand || cmdOp d = coPack) && farBase (u40 d 4) = 15) ||
      (cmdOp d = coStream && farBase (u40 d 8) = 15) || (cmdOp d = coPack && farBase (u40 d 16) = 15)

/-- A context that lives by its bay's own shelf: its commands or its list lie there. -/
def State.usesShelf (s : State) (f : Folio) (g : Stage) (p : CtxPlan) : Bool :=
  reachesShelf (s.listOf f g p) || (p.list ≠ [] && p.listAt.base = 15)

/-- The page-side whose stripe a plan of a convolution stage makes: job, index, width and height of its planes. -/
def State.planSide (s : State) (p : CtxPlan) : Option (Nat × Nat × Nat × Nat) :=
  (p.seqs.head?.bind s.seq?).bind fun q =>
    ((s.pageHead q.jobNumber q.idx).bind (·.planes)).map fun e => (q.jobNumber, q.idx, e.width, e.height)

/-- The rows of a fresh list for a stripe are the stripe's (R321), and its WAITSIGs name no counter of a stripe of the source stage whose
rows it does not read (R323). -/
def State.stripeRight (s : State) (j : Job) (f : Folio) (g : Stage) (p : CtxPlan) : Bool :=
  g.kind ≠ 0 || match s.planSide p with
    | none => false
    | some (_, idx, w, h) =>
      let y := s.stripeRows f p.stage w h p.stripe
      let mine := s.producersOf f p.stage idx w h p.stripe
      p.list.all fun d =>
        (cmdOp d ≠ coExpand || (decide (y.1 ≤ u16 d 24) && decide (u16 d 24 + u16 d 26 ≤ y.2 + 1))) &&
          (cmdOp d ≠ coWaitsig || j.stripeSigs.all fun e =>
            e.2.2.2 ≠ u8 d 4 || e.1 ≠ g.input || e.2.1 ≠ idx || (e.1, e.2.1, e.2.2.1) ∈ mine)

/-- A plan's list is one that Penuo hands out: the stage's own, or 1 to 65,535 commands on a 64-byte boundary in device DRAM or in the
stream-buffer area of the bay's shelf, as the loader would take them (R268, R305, R306). -/
def State.listRight (s : State) (j : Job) (f : Folio) (g : Stage) (p : CtxPlan) : Bool :=
  p.list = [] ||
    (decide (p.list.length < 65536) && p.list.all (·.length = 32) && decide (p.listAt.off % 64 = 0) &&
      (if p.listAt.base = 15 then
        decide (s.streamArea ≤ p.listAt.off) && decide (p.listAt.off + 32 * p.list.length ≤ 1536 * 1024)
      else decide (p.listAt.base = 0) && decide (p.listAt.off + 32 * p.list.length ≤ s.dramBytes)) &&
      (listFault (g.listCtx (f.version / 16) ((f.geomAt p.stage).map fun k => k.heads * k.hdim)) 0 [] p.list).isNone &&
      (listLiveFault g.units 0 none p.list).isNone && (listStreamFault g.streams g.winKib 0 [] p.list).isNone &&
      s.stripeRight j f g p)

/-- A fresh list is written where the plan puts it. -/
def State.putList (s : State) (p : CtxPlan) (bay : Nat) : State :=
  if p.list = [] then s
  else if p.listAt.base = 15 then s.onShelf bay fun m => m.write p.listAt.off p.list.flatten
  else s.dramWrite p.listAt.off p.list.flatten

/-! ### Placing -/

/-- The bay whose shelf holds what a plan's page-sides read by base 15 (R322). -/
def State.shelfHome (s : State) (p : CtxPlan) : Option Nat :=
  (s.pagesOf p.seqs).findSome? fun e => (s.pageHead e.1 e.2).bind (·.shelfBay)

/-- Carrels that a context may take apart from occupancy, in policy order (R459, R460, R322, R563); none before the bays are back from
READY_IDLE (R534). -/
def State.placeOn (s : State) (j : Job) (f : Folio) (g : Stage) (p : CtxPlan) (lc : Bool) : List Nat :=
  let set := if lc then (j.plan.map fun q => planSet q.stages p.stage) else none
  let home := if s.usesShelf f g p then s.shelfHome p else none
  (s.policyOrder lc f.handle j.number g p.part).filter fun c =>
    s.eligible g p.part c && s.dev.power = .active && set.all (c ∈ ·) && home.all (c / 8 = ·)

/-- Count a run that begins for every job that it serves; SCH_OVERPLAN counts it once when it is over-plan for one (R481). -/
def State.noteRun (s : State) (f : Folio) (g : Stage) (p : CtxPlan) (number : Nat) : State :=
  let jobs := ((number :: p.seqs.filterMap fun n => (s.seq? n).map (·.jobNumber)).eraseDups).filterMap s.jobNum?
  let over_ := jobs.filter fun j => s.isOverplan j f g p.stage p.part
  let s := if over_ = [] then s else s.bumpSat rSchOverplan 0 32 1
  let s := over_.foldl (fun s j => s.onJob j.slot fun j => { j with plan := j.plan.map fun q => { q with overplan := true } }) s
  jobs.foldl (fun s j => s.onJob j.slot fun j => j.countStage p.stage p.part) s

/-- The register bank of a context that is placed for the first time (R257): the spec states no contents, so each word is free (log
entry 15). -/
def State.drawBank (s : State) : List (List Word) × State :=
  ((List.range 32).map fun r => (List.range 32).map fun l =>
      BitVec.ofNat 32 (leNat ((List.range 4).map fun i => Config.freeByte (s.fresh + 128 * r + 4 * l + i))),
    { s with fresh := s.fresh + 4096 })

/-- The rows and the producers of a stripe that passes over its stage's own list. -/
def State.stripePass (s : State) (f : Folio) (g : Stage) (p : CtxPlan) : Option (Nat × Nat) × List (Nat × Nat × Nat) :=
  if g.kind ≠ 0 || p.list ≠ [] then (none, [])
  else
    match s.planSide p with
    | none => (none, [])
    | some (_, idx, w, h) => (some (s.stripeRows f p.stage w h p.stripe), s.producersOf f p.stage idx w h p.stripe)

/-- A context at its placement: no command fetched, nothing outstanding. -/
def newCtx (id : Nat) (p : CtxPlan) (number : Nat) (lc over_ : Bool) (f : Folio) (g : Stage) (bay : Nat)
    (pass : Option (Nat × Nat) × List (Nat × Nat × Nat))
    (bases : List (Nat × Nat × Nat)) (expand : Option (Nat × Nat)) (reads : List Nat) (bank : List (List Word)) : Ctx :=
  { id := id, plan := { p with list := [] }, jobNumber := number, lc := lc, units := g.units, listAt := listPlace f g p,
    listLen := if p.list = [] then g.listLen else p.list.length, rows := pass.1, producers := pass.2, bases := bases, place := none,
    bay := bay, expand := expand, streams := g.streams, winKib := g.winKib, queue := [], nextIssue := 0, nextFetch := 0,
    outstanding := [], handles := [], drain := none, tmac := none, tiles := [], vregs := bank, walk := none, heldOut := none,
    stopped := false, taken := 0, kvWait := false, kvDone := 0, runStart := none, idle := false, overplan := over_, image := none,
    pooled := false, spilledAt := 0, gone := [], reads := reads }

/-- Two plans of a job name the same work: for a decode stage its batch, else the very sequences. -/
def samePlan (a p : CtxPlan) (g : Stage) : Bool :=
  a.stage = p.stage && a.part = p.part && a.stripe = p.stripe && a.spread = p.spread && (g.kind = 3 || a.seqs = p.seqs)

def Ctx.same (x : Ctx) (number : Nat) (p : CtxPlan) (g : Stage) : Bool := x.jobNumber = number && samePlan x.plan p g

/-- The sequences a new run serves, with their chunks; none when the run is not to be made now. -/
def State.runSeqs (s : State) (j : Job) (f : Folio) (g : Stage) (p : CtxPlan) : Option (List (Nat × Option (Nat × Nat))) :=
  let key := (p.stage, p.part, p.spread.1)
  if g.kind = 3 then
    match s.compose f g p (s.runClass j f g p.stage p.part) with
    | [] => none
    | l => some l
  else
    match p.seqs.map s.seq? with
    | [some q] =>
      let head := (s.pageHead q.jobNumber q.idx).getD q
      let mine := q.jobNumber = j.number && !q.ended && !q.applying
      let fresh := !((p.stage, p.part, if g.kind = 0 then p.stripe else p.spread.1) ∈ q.done) && !(key ∈ q.stepRan)
      let ready :=
        if g.kind = 2 then q.row && q.stage = p.stage
        else if g.kind = 0 then
          !q.row && s.inputReady f g head && (match head.planes with
            | some pl => decide (p.stripe < s.stripesOf f p.stage pl.width pl.height) &&
                !s.outOfRange f p.stage pl.width pl.height
            | none => false)
        else !q.row && s.inputReady f g head
      if mine && fresh && ready && (!g.steps || q.stepOpen > 0 || s.mayOpen q) then
        some [(q.slot, if g.steps then (if q.stepOpen > 0 then none else some (1, 0)) else none)]
      else none
    | _ => none

/-- Open the steps of a run that begins, where its stage's runs are steps. -/
def State.startRun (s : State) (g : Stage) (p : CtxPlan) (wing : Nat) (batch : List (Nat × Option (Nat × Nat))) : State :=
  if g.steps then s.openSteps g p.spread.2 (p.stage, p.part, p.spread.1) wing batch else s

/-! ### Contexts that wait (R461 to R463, R473) -/

/-- It is the context that a plan asks for. -/
def WaitCtx.is (w : WaitCtx) (number : Nat) (p : CtxPlan) (g : Stage) : Bool := w.jobNumber = number && samePlan w.plan p g

/-- A context waits for a slot, behind those that wait already. -/
def State.waitsFor (s : State) (number : Nat) (p : CtxPlan) (g : Stage) (lc : Bool) : State :=
  s.onSch fun h =>
    { h with
      waiting :=
        if h.waiting.any (·.is number p g) then
          h.waiting.map fun w => if w.is number p g then ⟨p, number, lc⟩ else w
        else h.waiting ++ [⟨p, number, lc⟩] }

/-- It waits no more. -/
def State.waitsNoMore (s : State) (number : Nat) (p : CtxPlan) (g : Stage) : State :=
  s.onSch fun h =>
    { h with waiting := h.waiting.filter fun w => !w.is number p g, spillNeed := h.spillNeed.filter (·.2.2 ≠ number) }

/-- The carrels that a waiting context may take, while it is still to be placed, and the units it needs. -/
def State.wanted (s : State) (w : WaitCtx) : List Nat × Nat :=
  match s.jobNum? w.jobNumber with
  | none => ([], 0)
  | some j =>
    match s.jobFolio j with
    | none => ([], 0)
    | some f =>
      match f.stages[w.plan.stage]? with
      | none => ([], 0)
      | some g =>
        if j.phase ≠ .running || (s.runSeqs j f g w.plan).isNone || s.sch.ctxs.any (·.same j.number w.plan g) then ([], 0)
        else ((s.placeOn j f g w.plan w.lc).filter fun c => s.bayGrants (c / 8) g, g.units)

/-- A waiting context could take a slot on carrel `c` now. -/
def State.couldTake (s : State) (w : WaitCtx) (c : Nat) : Bool :=
  let e := s.wanted w
  c ∈ e.1 && (s.hasRoom c e.2 || (w.lc && (s.victim [c] e.2).isSome))

/-- A spilled LC context may resume on carrel `c`. -/
def State.lcSpilled (s : State) (c : Nat) : Bool :=
  (s.bayCtxs (c / 8)).any fun x => x.lc && x.image.isSome && !x.stopped

/-- Carrel `c` is kept for another context: against a BE one for every LC context that waits for it; against any for an older one of its
class that could take a slot there now (R461 to R463). -/
def State.keptFor (s : State) (number : Nat) (p : CtxPlan) (g : Stage) (lc : Bool) (c : Nat) : Bool :=
  let older := s.sch.waiting.takeWhile fun w => !w.is number p g
  (!lc && (s.lcSpilled c || s.sch.waiting.any fun w => w.lc && !w.is number p g && c ∈ (s.wanted w).1)) ||
    older.any fun w => w.lc = lc && s.couldTake w c

/-- A new context takes a slot on a carrel, with its grants, its list, its buffers and its first run. -/
def State.placeNew (s : State) (j : Job) (f : Folio) (g : Stage) (p : CtxPlan) (lc over_ : Bool) (c k : Nat)
    (batch : List (Nat × Option (Nat × Nat))) : State × Nat :=
  let b := c / 8
  let s := s.waitsNoMore j.number p g
  let cl := s.runClass j f g p.stage p.part
  let batch := if g.kind = 3 then s.catRoom (c / 48) batch else batch
  let s := if g.kind = 3 then s.deferRest f g p cl (batch.map (·.1)) else s
  let p := { p with seqs := batch.map (·.1) }
  let pages := s.pagesOf p.seqs
  let id := s.sch.nextCtx
  let expand := if g.expand4k = 0 then none else (s.expandRoom b (4096 * g.expand4k)).map fun a => (a, 4096 * g.expand4k)
  let x := newCtx id p j.number lc over_ f g b (s.stripePass f g p) (s.basesOf j f p.stage pages p.bases) expand
    (s.readsOf f p.stage g pages) s.drawBank.1
  let s := (s.drawBank.2.putList p b).onSch fun h => { h with ctxs := h.ctxs ++ [x], nextCtx := id + 1 }
  let s := if g.kind ≠ 0 then s
    else s.onJob j.slot fun j =>
      { j with stripeSigs := j.stripeSigs ++ pages.map fun e => (p.stage, e.2, p.stripe, p.counter % 64) }
  let s := if s.usesShelf f g p then
      pages.foldl (fun s e => match s.pageHead e.1 e.2 with
        | some q => s.onSeq q.slot fun q => { q with shelfBay := some b }
        | none => s) s
    else s
  let s := s.seat id c k g.units
  let s := (s.noteRun f g p j.number).startRun g p (c / 48) batch
  (s, id)

/-- The catalog unit of a carrel's wing can take none of a decode batch (R425). -/
def State.noCatalog (s : State) (g : Stage) (c : Nat) (batch : List (Nat × Option (Nat × Nat))) : Bool :=
  g.kind = 3 && s.catRoom (c / 48) batch = []

/-- Take the OUTPUT and WORK buffers of every page-side that a context serves; the first allocation that finds no room waits, and
those before it stand (R131, R435). -/
def State.takeAll (s : State) (f : Folio) (stage : Nat) (pages : List (Nat × Nat)) : Except (PoolOwner × State) State :=
  pages.foldl (fun (acc : Except (PoolOwner × State) State) page => acc.bind fun s => s.takeBuffers f stage page) (.ok s)

/-- Place a context that does not exist yet (R459 to R463). -/
def State.placeFirst (s : State) (j : Job) (f : Folio) (g : Stage) (p : CtxPlan) : State :=
  let over_ := s.isOverplan j f g p.stage p.part
  let lc := j.lc && !over_
  match s.runSeqs j f g p with
  | none => s
  | some batch =>
    match s.takeAll f p.stage (s.pagesOf (batch.map (·.1))) with
    | .error e => e.2.poolWaits e.1
    | .ok s' =>
      -- An allocation that finds room waits no more, whether or not a slot is free now.
      let s := s.onAcc fun a => { a with poolQueue := s'.acc.poolQueue }
      let carrels := (s.placeOn j f g p lc).filter fun c => s.bayGrants (c / 8) g && !s.keptFor j.number p g lc c
      match s.findRoom carrels lc g.units with
      | .wait => s.waitsFor j.number p g lc
      | .waitSpill b n => (s.waitsFor j.number p g lc).noteSpillNeed b n j.number
      | .free c k => if s.noCatalog g c batch then s else (s'.placeNew j f g p lc over_ c k batch).1
      | .displace c k v =>
        if s.noCatalog g c batch then s
        else
        let sOut := ((s.ctx? v).map fun y => switchTerm (s.liveBytes y)).getD 0
        let s := s'.switchOut v
        if (s.slotOf c k).2.isSome then s
        else
          let r := s.placeNew j f g p lc over_ c k batch
          r.1.beginSwitch c k (some v) (some r.2) sOut 0

/-- Hold the grants of a context in another bay (R473): the expansion buffer's new bytes are not the old ones. -/
def State.moveBay (s : State) (x : Ctx) (b : Nat) : State :=
  match x.expand with
  | none => s
  | some e =>
    match s.expandRoom b e.2 with
    | none => s
    | some a =>
      let r := s.drawBytes e.2
      (r.2.onShelf b fun m => m.write a r.1).onCtx x.id fun y => { y with expand := some (a, e.2) }

/-- A spilled context takes a place: its grants and its image in that bay, the victim out, and the switch of R469. -/
def State.resumeOn (s : State) (x : Ctx) (c k : Nat) (leaving : Option Nat) : State :=
  let sIn := switchTerm ((x.image.map (·.2)).getD 0)
  let sOut := (leaving.bind s.ctx?).elim 0 fun y => switchTerm (s.liveBytes y)
  match s.bringImage x (c / 8) with
  | none => s
  | some s' =>
    let s' := if c / 8 = x.bay then s' else s'.moveBay x (c / 8)
    let s' := match leaving with
      | some v => s'.switchOut v
      | none => s'
    if (s'.slotOf c k).2.isSome then s'
    else
      let s := (s'.switchIn x.id c k).beginSwitch c k leaving (some x.id) sOut sIn
      s.onSch fun h => { h with spillNeed := h.spillNeed.filter (·.2.2 ≠ x.jobNumber) }

/-- A BE context resumes only as the oldest of its bay's spilled ones, and while no LC context of the bay waits, spilled or for its first
placement (R473). -/
def State.resumeTurn (s : State) (x : Ctx) : Bool :=
  x.lc ||
    ((s.bayCtxs x.bay).all fun y =>
      y.id = x.id || y.image.isNone || y.stopped || (!y.lc && decide (x.spilledAt ≤ y.spilledAt))) &&
    s.sch.waiting.all fun w => !w.lc || (s.wanted w).1.all fun c => c / 8 ≠ x.bay

/-- A spilled context resumes: in its own bay, or elsewhere when that bay takes no work (R473, R566). -/
def State.resume (s : State) (j : Job) (f : Folio) (g : Stage) (x : Ctx) : State :=
  if x.stopped || !s.resumeTurn x then s
  else
    let all := s.placeOn j f g { x.plan with listAt := x.listAt } x.lc
    let own := all.filter fun c => c / 8 = x.bay
    let away := decide (own = []) && !(s.usesShelf f g x.plan || x.listAt.base = 15)
    let carrels := if away then all.filter fun c => s.bayGrants (c / 8) g else own
    match s.findRoom carrels x.lc x.units with
    | .wait => s
    | .waitSpill b n => s.noteSpillNeed b n x.jobNumber
    | .free c k => if (s.carrel c).switching.isSome then s else s.resumeOn x c k none
    | .displace c k v => s.resumeOn x c k (some v)

/-- A context leaves a bay that drains for its self-test, at an instruction boundary, and resumes in another bay later (R566, R473). -/
def State.leaveBay (s : State) (f : Folio) (g : Stage) (x : Ctx) (c k : Nat) : State :=
  let n := s.liveBytes x
  if s.usesShelf f g x.plan || x.listAt.base = 15 || (s.carrel c).switching.isSome then s
  else if s.spillFits (c / 8) (imageBytes n) then
    let t := s.switchOut x.id
    if (t.slotOf c k).2.isSome then t else t.beginSwitch c k (some x.id) none (switchTerm n) 0
  else s.noteSpillNeed (c / 8) (imageBytes n) x.jobNumber

/-- A decode context that sits idle in its slot begins its next run (R458, R467), over a fresh list or the same one. -/
def State.nextRun (s : State) (j : Job) (f : Folio) (g : Stage) (p : CtxPlan) (x : Ctx) (c : Nat) : State :=
  let over_ := s.isOverplan j f g p.stage p.part
  match s.runSeqs j f g p with
  | none => s
  | some batch =>
    let batch := s.catRoom (c / 48) batch
    if batch = [] || s.bayStopped (c / 8) then s
    else
      match s.takeAll f p.stage (s.pagesOf (batch.map (·.1))) with
      | .error e => e.2.poolWaits e.1
      | .ok s =>
        let s := s.deferRest f g p (s.runClass j f g p.stage p.part) (batch.map (·.1))
        let p := { p with seqs := batch.map (·.1) }
        let bases := s.basesOf j f p.stage (s.pagesOf p.seqs) p.bases
        let s := (s.putList p (c / 8)).onCtx x.id fun y =>
          { y with
            plan := { p with list := [] }, listAt := listPlace f g p, listLen := if p.list = [] then g.listLen else p.list.length
            idle := false, lc := j.lc && !over_, overplan := over_, bases := bases }
        (s.noteRun f g p j.number).startRun g p (c / 48) batch

/-- A list that runs a CARD ATTN in MODE 1 keeps its head on one carrel (R392). -/
def cardSpread (l : List Bytes) : Bool := l.any fun d => cmdOp d = coAttn && atCard d && atMode d = 1

/-- PART and PARTS as Penuo writes them: one part unless the plan spreads the head, and always in a folio of major version 1
(R361, R363) and for a list with a CARD ATTN in MODE 1 (R392). -/
def State.spreadOf (s : State) (f : Folio) (g : Stage) (p : CtxPlan) : CtxPlan :=
  if f.version / 16 = 1 || p.spread.2 = 0 || cardSpread (s.listOf f g p) then { p with spread := (0, 1) } else p

/-- A page-side whose plane lies outside the declared range of the convolution stage that is to read it ends, and no stripe is formed
(R309). -/
def State.refuseRange (s : State) (j : Job) (f : Folio) (g : Stage) (p : CtxPlan) : Option State :=
  match p.seqs.head?.bind s.seq? with
  | some q =>
    match (s.pageHead q.jobNumber q.idx).bind (·.planes) with
    | some pl =>
      if g.kind = 0 && q.jobNumber = j.number && !q.row && !q.ended && s.outOfRange f p.stage pl.width pl.height then
        some (s.endSequence j.slot q.idx q.sample stUnsupported 0 0 9)
      else none
    | none => none
  | none => none

/-- CONTEXT_PLACE: Penuo takes up a context of a job: a new one, one that was spilled, or a decode context's next run. -/
def State.contextPlace (s : State) (p : CtxPlan) : State :=
  match s.job? p.job with
  | none => s
  | some j =>
    match s.jobFolio j with
    | none => s
    | some f =>
      match f.stages[p.stage]? with
      | none => s
      | some g =>
        if !s.running || dOp j.desc ≠ opRun || j.phase ≠ .running || g.listLen = 0 || p.part ≥ g.wingParts || !s.listRight j f g p
        then s
        else
          let p := s.spreadOf f g p
          match s.sch.ctxs.find? fun x => x.same j.number p g with
          | none =>
            match s.refuseRange j f g p with
            | some s => s
            | none => s.placeFirst j f g p
          | some x =>
            match x.place with
            | none => s.resume j f g x
            | some (c, k) =>
              if x.stopped then s
              else if s.underBist (c / 8) then s.leaveBay f g x c k
              else if x.idle then s.nextRun j f g p x c
              else s

/-- CONTEXT_SWITCH_DONE (R470, R362): the entering context may issue; what the combiner held for it is written. -/
def State.contextSwitchDone (s : State) (c : Nat) : State :=
  match (s.carrel c).switching with
  | none => s
  | some w =>
    let s := s.onCarrel c fun r => { r with switching := none }
    match w.entering.bind s.ctx? with
    | none => s
    | some x =>
      match x.heldOut with
      | none => s
      | some (a, out) =>
        (s.locWrite x a out).onCtx x.id fun y =>
          { y with heldOut := none, walk := y.walk.map fun w => { w with written := true } }

/-! ### Meanings -/

def execContextPlace (p : CtxPlan) (s : State) : Result := .next (s.whenOn fun s => s.contextPlace p)
def execContextSwitchDone (c : Nat) (s : State) : Result := .next (s.whenOn fun s => s.contextSwitchDone c)
def execSpillMove (b : Nat) (s : State) : Result := .next (s.whenOn fun s => s.spillMove b)

end Sys2Proof.Machine
end

