-- ==== Sys2Proof/Machine/Accession.lean ====
section
/-! DEFINITION. The accession unit (chapter 4): taking records (R115 to R120, R136 to R140), decoding them (R121 to R130, R137 to
R142), the decode budget (R143 to R145), kept page-sides (R133, R135) and row packing (R146 to R152). -/

namespace Sys2Proof.Machine

/-! ### Record headers (R116, R118, R139) -/

def hVer (h : Bytes) : Nat := u8 h 4
def hCodec (h : Bytes) : Nat := u8 h 5
def hLayout (h : Bytes) : Nat := u8 h 6
def hFlags (h : Bytes) : Nat := u8 h 7
def hSample (h : Bytes) : Nat := u64 h 8
def hWidth (h : Bytes) : Nat := u16 h 16
def hHeight (h : Bytes) : Nat := u16 h 18
def hDpiX (h : Bytes) : Nat := u16 h 20
/-- Vertical resolution: DPI_X in Quire 1.0. -/
def hDpiY (h : Bytes) : Nat := if hVer h ≥ 0x11 then u16 h 22 else u16 h 20
def hLen (h : Bytes) : Nat := u32 h 24

abbrev magicQuire : Bytes := [0x51, 0x55, 0x49, 0x52]

/-- Framing of a record of which `avail` bytes lie within INPUT_LEN: DETAIL at fault (R139 step 1). -/
def framingFault (h : Bytes) (avail : Nat) : Option Nat :=
  let n := min 4 avail
  if avail = 0 then some 3
  else if sliceB h 0 n ≠ magicQuire.take n then some 1
  else if avail < 32 || avail < 36 + hLen h then some 3
  else none

/-- A layout allowed with a codec (R120). -/
def layoutOk (codec layout : Nat) : Bool :=
  match codec with
  | 0 => layout ≤ 3
  | 1 => layout = 2 || layout = 4
  | _ => layout = 0

/-- Bits of a RAW pixel (R127). -/
def rawBits (layout : Nat) : Nat := match layout with | 0 => 1 | 1 => 4 | 2 => 8 | _ => 24

/-- The planes a record will be written as. -/
def recPlanes (h : Bytes) : Planes :=
  { sample := hSample h, addr := 0, width := hWidth h, height := hHeight h, dpiX := hDpiX h, dpiY := hDpiY h,
    layout := hLayout h }

/-- The field ranges of R116 in order: (offset, at fault). -/
def headerRanges (h : Bytes) : List (Nat × Bool) :=
  let v10 := decide (hVer h < 0x11)
  [(7, decide (hFlags h / 8 ≠ 0) || (v10 && bitN (hFlags h) 1)), (16, decide (hWidth h = 0)), (18, decide (hHeight h = 0)),
   (20, decide (hDpiX h = 0) || decide (hDpiX h > 4800)),
   (22, if v10 then decide (u16 h 22 ≠ 0) else decide (u16 h 22 = 0) || decide (u16 h 22 > 4800)),
   (24, decide (hLen h = 0) || decide (hLen h ≥ 2 ^ 31)), (28, nonZero h 28 4)]

/-- Steps 2 and 3 of R139 on a framed header: STATUS and DETAIL at fault. -/
def State.headerFault (s : State) (h : Bytes) : Option (Nat × Nat) :=
  if hVer h < s.regF rHlkVerAgree0 16 8 || s.regF rHlkVerAgree0 24 8 < hVer h then some (stVersion, hVer h)
  else if hCodec h > 2 then some (stUnsupported, 1)
  else if !layoutOk (hCodec h) (hLayout h) then some (stUnsupported, 7)
  else
    match (headerRanges h).find? (·.2) with
    | some e => some (stCorrupt, 0x100 + e.1)
    | none =>
      if hWidth h > 32768 || hWidth h * hHeight h > 2 ^ 28 || granules (recPlanes h).bytes > s.accGranules then
        some (stUnsupported, 6)
      else if hCodec h = 2 && decide (hWidth h > 16384) then some (stUnsupported, 5)
      else if hCodec h = 0 && decide (hLen h ≠ ceilDiv (hWidth h * rawBits (hLayout h)) 8 * hHeight h) then some (stCorrupt, 0x30)
      else none

/-! ### Dispatch (R128, R131, R136, R143) -/

/-- A record that fails ends its sequence and is counted (R138, ACC_FAIL_COUNT). -/
def State.failRecord (s : State) (slot idx sample status detail : Nat) : State :=
  let s := if status = stCorrupt then s.bumpSat rAccFailCount 0 16 1
    else if status = stOverrun then s.bumpSat rAccFailCount 16 16 1 else s
  s.endSequence slot idx sample status 0 0 detail

/-- Framing is lost at the next record of a job's walk: it and every later one fail, and records before it go on (R140). -/
def State.framingLost (s : State) (j : Job) (detail : Nat) : State :=
  let n := dInCount j.desc
  let s := s.onJob j.slot fun j => { j with walkIdx := n }
  ((List.range n).drop j.walkIdx).foldl (fun s i =>
    if i ∈ j.ended then s else s.failRecord j.slot i 0 stCorrupt (if i = j.walkIdx then detail else 4)) s

/-- Lanes of a codec: 0 to 5 JPEG, 6 to 9 T.6, 10 raw. -/
def lanesOf (codec : Nat) : List Nat := match codec with | 1 => [0, 1, 2, 3, 4, 5] | 2 => [6, 7, 8, 9] | _ => [10]

def State.lane (s : State) (k : Nat) : Option LaneRec := (s.acc.lanes.getD k none)

def State.setLane (s : State) (k : Nat) (r : Option LaneRec) : State := s.onAcc fun a => { a with lanes := a.lanes.set k r }

/-- The budget of a record at its dispatch (R143). -/
def State.recordBudget (s : State) (sq w h : Nat) : Nat :=
  1024 * s.regF (rAccBudget sq) 16 16 + s.regF (rAccBudget sq) 0 16 * ceilDiv (w * h) 1024

/-- Write the sample ID of a record into its page-side's sequence slots. -/
def State.nameSequence (s : State) (number idx sample : Nat) : State :=
  s.onKv fun k => { k with seqs := k.seqs.map fun q =>
    if q.jobNumber = number && q.idx = idx && !q.row then { q with sample := sample } else q }

/-- The lane kind of a codec: 0 JPEG, 1 T.6, 2 raw. -/
def laneKind (codec : Nat) : Nat := match codec with | 1 => 0 | 2 => 1 | _ => 2

/-- The record of a job that is next to be dispatched, when its page-side has its sequence slots (R136, R457). -/
def State.nextRecord (s : State) (j : Job) : Option (Nat × Bytes) :=
  match j.walked with
  | e :: _ => if dOp j.desc = opRun && j.phase = .running && s.pageSlots j.number e.1 ≠ [] then some e else none
  | [] => none

/-- Jobs of a class that wait for a lane of a kind and not for pool room, by number. -/
def State.laneJobs (s : State) (kind : Nat) (lc : Bool) : List Nat :=
  (s.jobs.filter fun j =>
    j.lc = lc && (s.nextRecord j).any fun e => laneKind (hCodec e.2) = kind && !(.planes j.number e.1 ∈ s.acc.poolQueue)).map (·.number)

/-- The next of some job numbers round-robin behind the one served last. -/
def nextInTurn (last : Nat) (l : List Nat) : Option Nat :=
  let least := fun l : List Nat => l.foldl (fun (b : Option Nat) n => some (match b with | none => n | some m => min m n)) none
  (least (l.filter (last < ·))).orElse fun _ => least l

/-- The job whose turn it is for a lane of a kind: LC before BE, round-robin within a class (R136). -/
def State.laneTurn (s : State) (kind : Nat) : Option Nat :=
  let last := s.acc.laneTurns.getD kind (0, 0)
  (nextInTurn last.1 (s.laneJobs kind true)).orElse fun _ => nextInTurn last.2 (s.laneJobs kind false)

/-- A job has had its turn. -/
def State.hadTurn (s : State) (kind : Nat) (j : Job) : State :=
  s.onAcc fun a => { a with laneTurns := a.laneTurns.modify kind fun e => if j.lc then (j.number, e.2) else (e.1, j.number) }

/-- The oldest walked record of a job goes to a free lane of its kind, with a plane buffer: when it is the job's turn, or when it waits
for pool room and has come to the front. Without room it waits in order (R131, R136). -/
def State.toLane (s : State) (j : Job) (f : Folio) : State :=
  match s.nextRecord j with
  | none => s
  | some (i, rec_) =>
    let kind := laneKind (hCodec rec_)
    let owner := PoolOwner.planes j.number i
    let waits := decide (owner ∈ s.acc.poolQueue)
    match (lanesOf (hCodec rec_)).find? fun k => (s.lane k).isNone with
    | none => s
    | some k =>
      if !waits && s.laneTurn kind ≠ some j.number then s
      else
        let s := if waits then s else s.hadTurn kind j
        let p := recPlanes rec_
        match if s.poolFirst owner then s.poolTake p.bytes owner 1 else none with
        | none => s.poolWaits owner
        | some r =>
          let s := (r.2.formBatch j f i).poolDone (· = owner)
          let s := s.onJob j.slot fun j => { j with walked := j.walked.drop 1 }
          let s := (s.nameSequence j.number i (hSample rec_)).chargePcie j.client (36 + hLen rec_)
          s.setLane k (some
            { slot := j.slot, jobNumber := j.number, idx := i, record := rec_.take (36 + hLen rec_),
              budget := s.recordBudget j.sq p.width p.height, planes := { p with addr := r.1 } })

/-- The walk takes the next record of a job, at most 64 ahead of the oldest that has not been dispatched (R136): it is read and
checked, and fails at once (R137, R138, R140) or waits for its lane. -/
def State.walkRecord (s : State) (j : Job) (buf : Bytes) : State :=
  let i := j.walkIdx
  if i ≥ dInCount j.desc || i > j.nextIdx + 64 then s
  else
    let avail := dInLen j.desc - j.walkOff
    let addr := dInAddr j.desc + j.walkOff
    let head := s.hostBytes addr (min avail 32) buf
    let s := s.hostRead addr (min avail 32)
    match framingFault head avail with
    | some detail => s.framingLost j detail
    | none =>
      let rec_ := s.hostBytes addr (36 + hLen head) buf
      let step := fun (s : State) (l : List (Nat × Bytes)) => s.onJob j.slot fun j =>
        { j with walkIdx := i + 1, walkOff := j.walkOff + roundUp (36 + hLen rec_) 8, walked := j.walked ++ l }
      if i ∈ j.ended then step s []
      else
        match s.headerFault rec_ with
        | some e => ((step s []).chargePcie j.client 32).failRecord j.slot i (hSample rec_) e.1 e.2
        | none => step (s.hostRead (addr + 32) (4 + hLen rec_)) [(i, rec_)]

/-- RECORD_DISPATCH: the walk of a QUIRE job goes on by one record, and the job's oldest waiting record is dispatched if it can be. -/
def State.recordDispatch (s : State) (slot : Nat) (buf : Bytes) : State :=
  match s.job? slot with
  | none => s
  | some j =>
    match s.jobFolio j with
    | none => s
    | some f =>
      if dOp j.desc ≠ opRun || dKind j.desc ≠ 0 || j.phase ≠ .running || !s.running then s
      else
        let s := s.walkRecord j buf
        match s.job? slot with
        | some k => if k.number = j.number && k.phase = .running then s.toLane k f else s
        | none => s

/-! ### Decoding (R121 to R125, R130, R139 step 4) -/

/-- The bits of a byte in the other order (T6_LSB). -/
def flipByte (b : Byte) : Byte := BitVec.ofNat 8 ((List.range 8).foldl (fun v i => v + b2n (bitN b.toNat i) * 2 ^ (7 - i)) 0)

/-- Invert the written values of a bilevel or grey record (R122). -/
def inverted (h : Bytes) : Bool := hVer h ≥ 0x11 && bitN (hFlags h) 1 && decide (hLayout h ≤ 2)

/-- The written value of pixel `x` of a RAW row (R120, R121). -/
def rawPixel (layout : Nat) (row : Bytes) (plane x : Nat) : Byte :=
  match layout with
  | 0 => if bitN (u8 row (x / 8)) (7 - x % 8) then 0x00 else 0xFF
  | 1 => BitVec.ofNat 8 (17 * bitsN (u8 row (x / 2)) (4 * (1 - x % 2)) 4)
  | 2 => row.getD x 0
  | _ => row.getD (3 * x + plane) 0

/-- The sample values of a record, plane after plane and row after row, or its stream error. -/
def samplesOf (h : Bytes) : Except (Nat × Nat) Bytes :=
  let w := hWidth h
  let n := hHeight h
  let payload := sliceB h 32 (hLen h)
  let planes := planeCount (hLayout h)
  match hCodec h with
  | 0 =>
    let rb := ceilDiv (w * rawBits (hLayout h)) 8
    .ok ((List.range planes).flatMap fun p => (List.range n).flatMap fun y =>
      let row := sliceB payload (y * rb) rb
      (List.range w).map fun x => rawPixel (hLayout h) row p x)
  | 1 => jpegDecode payload w n planes
  | _ =>
    match t6Decode (if bitN (hFlags h) 0 then payload.map flipByte else payload) w n with
    | .ok px => .ok (px.map fun v => if v = 1 then 0x00 else 0xFF)
    | .error e => .error e

/-- The bytes of a record's planes as they stand in DRAM (R122, R130). -/
def planeBytes (h px : Bytes) : Bytes :=
  let w := hWidth h
  let pad := zeros (roundUp w 64 - w)
  (List.range (planeCount (hLayout h) * hHeight h)).flatMap fun r =>
    ((sliceB px (r * w) w).map fun v => if inverted h then 255 - v else v) ++ pad

/-- The CRC of a record holds (R115, R117). -/
def recordCrcOk (rec_ : Bytes) : Bool := crc32c (rec_.take (32 + hLen rec_)) = u32 rec_ (32 + hLen rec_)

/-- A record of a KEEP job that decodes becomes a kept page-side (R133). -/
def State.keepPage (s : State) (j : Job) (r : LaneRec) : State :=
  if dKeep j.desc then
    s.onAcc fun a =>
      { a with
        held := a.held ++ [{ planes := r.planes, captured := false, jobNumber := j.number, seqIdx := r.idx, claimable := false,
                             order := 0, claimedBy := none, fate := .held }] }
  else s

/-- A record has left its lane: the lane is free, and the lane cycles are the client's (R489). -/
def State.laneFree (s : State) (lane cycles client : Nat) : State :=
  (s.setLane lane none).charge { Account.zero client with decode := cycles }

/-- A failed record's buffer returns to the pool. -/
def State.returnRecord (s : State) (r : LaneRec) : State := (s.onRefs r.planes.addr fun _ => 0).sweepPools

/-- RECORD_DECODED: the last row is in DRAM, or the stream or the CRC has failed (R137, R139, R141). The lane cycles that it took
are not the spec's to tell: a free count within the budget. -/
def State.recordDecoded (s : State) (lane : Nat) : State :=
  match s.lane lane with
  | none => s
  | some r =>
    match s.job? r.slot with
    | none => s.setLane lane none
    | some j =>
      if !s.fabricUp then s
      else
        let d := s.drawBytes 5
        let s := d.2.laneFree lane (leNat d.1 % (r.budget + 1)) j.client
        match samplesOf r.record with
        | .error e => (s.returnRecord r).failRecord r.slot r.idx r.planes.sample e.1 e.2
        | .ok px =>
          if !recordCrcOk r.record then (s.returnRecord r).failRecord r.slot r.idx r.planes.sample stCorrupt 2
          else
            let s := (s.dramWrite r.planes.addr (planeBytes r.record px)).chargeDram j.client r.planes.bytes
            let s := s.keepPage j r
            match s.jobFolio j with
            | none => s
            | some f =>
              let s := s.onRefs r.planes.addr fun _ => s.planeRefs f r.planes.width r.planes.height
              let first := ((s.pageSlots j.number r.idx).map (·.slot)).headD 4096
              let s := s.onSeq first fun q => { q with planes := some r.planes }
              if s.planeRefused f r.planes.width r.planes.height then
                s.endSequence r.slot r.idx r.planes.sample stUnsupported 0 0 9
              else if r.idx ∈ j.ended then s.dropPageBuffers j.number r.idx [r.planes.addr]
              else s

/-- DECODE_BUDGET_EXPIRY: the count of a record has reached its budget before its last row is in DRAM (R144, R145). -/
def State.budgetExpiry (s : State) (lane rows : Nat) : State :=
  match s.lane lane with
  | none => s
  | some r =>
    if !s.fabricUp then s
    else
      let s := s.laneFree lane r.budget (((s.job? r.slot).map Job.client).getD 0)
      (s.returnRecord r).failRecord r.slot r.idx r.planes.sample stOverrun (min rows 0xFFFF)

/-- KEEP_DROP: ACC_KEEP.DROP releases every claimable kept page-side that no job has claimed (R135). -/
def State.keepDrop (s : State) : State :=
  if s.fabricHidden rAccKeep then s
  else
    let go := fun h : HeldSide => !h.captured && h.claimable && h.claimedBy.isNone
    let addrs := (s.acc.held.filter go).map (·.planes.addr)
    let s := s.onAcc fun a => { a with held := a.held.filter fun h => !go h }
    (addrs.foldl (fun s a => s.onRefs a fun _ => 0) s).sweepPools

/-! ### Row packing (R146 to R152) -/

/-- One segment: page-side, line number, left and top edge of the line, piece number, its positions. -/
structure Segment where
  index : Nat
  line : Nat
  x : Nat
  y : Nat
  piece : Nat
  positions : Nat

/-- Insert a line in crop order: by top edge, then left to right (R148). -/
def insertLine (l : CropLine) : List CropLine → List CropLine
  | [] => [l]
  | a :: rest => if l.y < a.y || (l.y = a.y && decide (l.x < a.x)) then l :: a :: rest else a :: insertLine l rest

/-- The segments of one line, cut from the left at 1,024 positions (R146). -/
def lineSegments (index line : Nat) (l : CropLine) : List Segment :=
  (List.range (ceilDiv l.positions 1024)).map fun p => ⟨index, line, l.x, l.y, p, min 1024 (l.positions - 1024 * p)⟩

/-- The segments of a page-side in crop order. -/
def pageSegments (index : Nat) (lines : List CropLine) : List Segment :=
  ((lines.foldl (fun acc l => insertLine l acc) []).zipIdx).flatMap fun p => lineSegments index p.2 p.1

def rowLength (row : List Segment) : Nat := (row.map (·.positions)).sum

/-- Rows from segments in order: a row closes when the next segment would exceed 4,096 positions or 64 segments (R148). -/
def packRows : List Segment → List Segment → List (List Segment)
  | [], [] => []
  | [], row => [row]
  | g :: rest, row =>
    if row ≠ [] && (decide (rowLength row + g.positions > 4096) || decide (row.length ≥ 64)) then row :: packRows rest [g]
    else packRows rest (row ++ [g])

/-- Start of each segment of a row. -/
def rowStarts (row : List Segment) : List Nat := (List.range row.length).map fun k => rowLength (row.take k)

/-- A segment-table entry (R152). -/
def segmentEntry (start : Nat) (g : Segment) : Bytes :=
  toLe 2 start ++ toLe 2 g.positions ++ toLe 2 g.index ++ toLe 2 g.line ++ toLe 2 g.x ++ toLe 2 g.y ++ toLe 1 g.piece ++ zeros 3

/-- Header, segment table and segment index of a row (R151). -/
def rowHead (batch row : Nat) (segs : List Segment) : Bytes :=
  let n := rowLength segs
  toLe 2 n ++ toLe 1 segs.length ++ [0] ++ toLe 4 batch ++ toLe 2 row ++ zeros 54 ++
    ((segs.zip (rowStarts segs)).flatMap fun e => segmentEntry e.2 e.1) ++ zeros (16 * (64 - segs.length)) ++
    ((segs.zipIdx).flatMap fun e => List.replicate e.1.positions (BitVec.ofNat 8 e.2)) ++ List.replicate (4096 - n) 0xFF

/-- Bytes of a packed row. -/
abbrev rowBytes : Nat := 5184 + 256 * 4096

/-- Pixel of a line image: the plane's sample of a one-plane page-side; free where the spec names none (more planes, or outside the
plane). -/
def State.cropPixel (s : State) (p : Option Planes) (x y : Nat) : Bytes × State :=
  match p with
  | some p =>
    if planeCount p.layout = 1 && decide (x < p.width) && decide (y < p.height) then
      ([s.dram.get (p.first + y * roundUp p.width 64 + x)], s)
    else s.drawBytes 1
  | none => s.drawBytes 1

/-- The 256 bytes of one position: 32 rows of 8 pixels. -/
def State.cropPosition (s : State) (p : Option Planes) (x y : Nat) : Bytes × State :=
  (List.range 256).foldl (fun acc b =>
    let r := acc.2.cropPixel p (x + b % 8) (y + b / 8)
    (acc.1 ++ r.1, r.2)) ([], s)

/-- The positions of one segment. -/
def State.cropSegment (s : State) (number : Nat) (g : Segment) : Bytes × State :=
  let p := (s.pageHead number g.index).bind (·.planes)
  (List.range g.positions).foldl (fun acc k =>
    let r := acc.2.cropPosition p (g.x + 8192 * g.piece + 8 * k) g.y
    (acc.1 ++ r.1, r.2)) ([], s)

/-- The quantisation entry of the encoder's input tensor: the one tensor that the fix-ups of the first ENCODE stage's REQs take as input
and that none of them writes. -/
def State.encoderInput (s : State) (f : Folio) : Option Bytes :=
  let outs := ((f.stages.find? (·.kind = 2)).elim [] fun g => s.stageCmds f g 0).filterMap fun d =>
    if cmdOp d = coReq then some (u16 d 18) else none
  let ins := (f.fixups.filter fun e => e.1 = 0 && e.2.2.1 ∈ outs).map (·.2.1)
  match (ins.filter fun t => !(t ∈ outs)).eraseDups with
  | [t] => f.quant[t]?
  | _ => none

/-- One position past a row's length (R151): the input tensor's zero point in each of its bytes; `free` where no static zero point is
known. -/
def State.blankPosition (s : State) (f : Folio) (free : Byte) : Bytes :=
  (List.range 256).map fun b =>
    match s.encoderInput f with
    | some q => if bitN (u8 q 1) 1 then free else BitVec.ofInt 8 (s.staticZero f q b)
    | none => free

/-- Write one packed row; `blank` is a position past its length. -/
def State.writeRow (s : State) (number batch addr row : Nat) (blank : Bytes) (segs : List Segment) : State :=
  let r := segs.foldl (fun acc g =>
    let q := acc.2.cropSegment number g
    (acc.1 ++ q.1, q.2)) (([] : Bytes), s)
  r.2.dramWrite addr (rowHead batch row segs ++ r.1 ++ (List.replicate (4096 - rowLength segs) blank).flatten)

/-- A member of a batch is ready to be cropped: its planes are there and the stage that the crop reads is done. -/
def State.cropReady (s : State) (f : Folio) (number idx : Nat) : Bool :=
  match s.pageHead number idx with
  | none => false
  | some q => f.stages.all fun g => g.kind ≠ 1 || g.input = 0xFF || s.stageDone f q g.input

/-- BATCH_PACK: every member of the batch is ready; its lines are packed and written, and the crop releases the planes. -/
def State.batchPack (s : State) (slot number : Nat) (crops : List (Nat × List CropLine)) (rowBase : Nat) : State :=
  match s.job? slot with
  | none => s
  | some j =>
    match s.jobFolio j, s.acc.batches.find? fun b => b.jobNumber = j.number && b.number = number && !b.packed with
    | some f, some b =>
      if j.phase ≠ .running || !s.running || !(b.members.all (s.cropReady f j.number)) then s
      else
        let segs := b.members.flatMap fun i => pageSegments i (((crops.find? (·.1 = i)).map (·.2)).getD [])
        let rows := packRows segs []
        let z := s.drawBytes 1
        let blank := s.blankPosition f (z.1.headD 0)
        let s := (rows.zipIdx).foldl (fun s e =>
          let s := s.writeRow j.number number (rowBase + rowBytes * e.2) e.2 blank e.1
          s.chargeDram j.client (rowBytes + 256 * rowLength e.1)) z.2
        let s := s.onAcc fun a =>
          { a with
            batches := updFirst (fun c => c.jobNumber = j.number && c.number = number)
              (fun c => { c with packed := true, rows := (List.range rows.length).map fun k => rowBase + rowBytes * k }) a.batches }
        let stage := ((f.stages.zipIdx.find? fun e => e.1.kind = 1).map (·.2)).getD 0
        -- A batch without a row leaves its ENCODE stages nothing to read.
        let readers := stage :: if rows = [] then f.stagesOf 2 else []
        ((s.dropRefs (b.members.flatMap fun i => readers.flatMap fun k => s.stageReads f k (j.number, i))).pageChecks j.number stage)
    | _, _ => s

/-! ### Meanings -/

def execRecordDispatch (slot : Nat) (buf : Bytes) (s : State) : Result := .next (s.whenOn fun s => s.recordDispatch slot buf)
def execRecordDecoded (lane : Nat) (s : State) : Result := .next (s.whenOn fun s => s.recordDecoded lane)
def execDecodeBudgetExpiry (lane rows : Nat) (s : State) : Result := .next (s.whenOn fun s => s.budgetExpiry lane rows)
def execKeepDrop (s : State) : Result := .next (s.whenHost rAccKeep 0x10000#32 fun s => s.keepDrop)
def execBatchPack (slot batch : Nat) (crops : List (Nat × List CropLine)) (rowBase : Nat) (s : State) : Result :=
  .next (s.whenOn fun s => s.batchPack slot batch crops rowBase)

end Sys2Proof.Machine
end

