-- ==== Sys2Proof/Machine/Folios.lean ====
section
/-! DEFINITION. Model folios: the image (R430 to R437), the checks of the loader in their order (R445 to R447, R239, R240, R404, R405),
fix-ups (R224, R273, R436), and FOLIO_FETCH_DONE's verification and placing (R439). -/

namespace Sys2Proof.Machine

/-! ### The image -/

def fLength (img : Bytes) : Nat := u32 img 8
def fSections (img : Bytes) : Nat := u16 img 6
def fStages (img : Bytes) : Nat := u8 img 12
def fGrammars (img : Bytes) : Nat := u8 img 13
def fDefault (img : Bytes) : Nat := u8 img 14

/-- A section-table entry (R431): its place in the table, TYPE, INDEX, OFFSET, SIZE. -/
structure Sect where
  at_ : Nat
  type : Nat
  index : Nat
  off : Nat
  size : Nat
  deriving DecidableEq, Repr

abbrev scStage : Nat := 1
abbrev scBinding : Nat := 2
abbrev scKv : Nat := 3
abbrev scCommand : Nat := 4
abbrev scWeights : Nat := 5
abbrev scScales : Nat := 6
abbrev scQuant : Nat := 7
abbrev scTables : Nat := 8
abbrev scGrammar : Nat := 9
abbrev scParams : Nat := 10
abbrev scFixup : Nat := 11
abbrev scSignature : Nat := 12

def sectAt (img : Bytes) (i : Nat) : Sect :=
  let e := 64 + 16 * i
  ⟨i, u8 img e, u8 img (e + 1), u32 img (e + 4), u32 img (e + 8)⟩

def sects (img : Bytes) : List Sect := (List.range (fSections img)).map (sectAt img)

def ofType (img : Bytes) (t : Nat) : List Sect := (sects img).filter (·.type = t)

/-- The single section of a type; an absent one has size 0. -/
def sect1 (img : Bytes) (t : Nat) : Sect := (ofType img t).headD ⟨0x3F, t, 0, 0, 0⟩

/-- Why a load is refused (R446): cause, section-table index, image offset of the first field at fault. -/
structure LoadFault where
  cause : Nat
  index : Nat
  off : Nat
  deriving DecidableEq, Repr

/-- STATUS of a cause (R446). -/
def LoadFault.status (f : LoadFault) : Nat :=
  if f.cause = 2 then stSignature else if f.cause < 0x10 then stVersion else if f.cause < 0x30 then stResources else stBound

def LoadFault.detail (f : LoadFault) : Nat := f.cause * 256 + f.index

/-- The first fault among checks within one section, whose offsets count from `base`. -/
def faultIn (cause index base : Nat) (l : List (Nat × Bool)) : Option LoadFault :=
  (firstAt l).map fun o => ⟨cause, index, base + o⟩

/-- The first of several steps that finds a fault. -/
def firstFault : List (Unit → Option LoadFault) → Option LoadFault
  | [] => none
  | f :: l => match f () with | some x => some x | none => firstFault l

/-! ### Step 1: the header (R430) -/

def headerChecks (lo hi : Nat) (img : Bytes) : List (Nat × Bool) :=
  [(0, u32 img 0 ≠ 0x4F494C46), (4, outside lo hi (u8 img 4)), (5, u8 img 5 ≠ 0), (6, outside 1 64 (fSections img)),
   (8, fLength img % 64 ≠ 0 || decide (fLength img > 2 ^ 30)), (12, decide (fStages img > 16)),
   (13, decide (fGrammars img > 32)), (14, fDefault img ≠ 0xFF && decide (fDefault img ≥ fGrammars img)),
   (15, u8 img 15 ≠ 0), (32, outside 1 16 (u16 img 32)), (34, nonZero img 34 30)]

/-! ### Step 2: the signature (R437) -/

/-- The last section-table entry: the signature block lies there. -/
def sigSect (img : Bytes) : Sect := sectAt img (fSections img - 1)

def State.sigFault (s : State) (img : Bytes) : Option LoadFault :=
  let g := sigSect img
  let block := sliceB img g.off 776
  if (s.keyHash (u8 block 0)).isNone then some ⟨2, g.at_, g.off⟩
  else if s.verify block (img.take g.off) then none
  else some ⟨2, g.at_, g.off + 392⟩

/-! ### Step 3: the structure (R431 to R437) -/

/-- Occurrences of a type that R432 allows. -/
def countOk (img : Bytes) (t n : Nat) : Bool :=
  if t = scStage then n = b2n (fStages img ≠ 0)
  else if t = scGrammar then n = fGrammars img
  else if t = scSignature then n = 1
  else if t ∈ [scBinding, scKv, scCommand, scQuant, scParams, scFixup] then decide (n ≤ 1)
  else true

/-- SIZE of a section of fixed or whole entries. -/
def sizeOk (img : Bytes) (g : Sect) : Bool :=
  if g.type = scStage then g.size = 64 * fStages img
  else if g.type = scBinding then g.size % 8 = 0
  else if g.type = scKv then g.size % 32 = 0
  else if g.type = scCommand then g.size % 32 = 0
  else if g.type = scQuant then g.size % 16 = 0
  else if g.type = scFixup then g.size % 16 = 0
  else if g.type = scParams then g.size = 352
  else if g.type = scSignature then g.size = 776
  else true

/-- The end of the section before entry `i`, or of the table. -/
def prevEnd (img : Bytes) (i : Nat) : Nat :=
  if i = 0 then 64 + 16 * fSections img else (sectAt img (i - 1)).off + (sectAt img (i - 1)).size

/-- One entry of the section table, offsets from the image's start. -/
def sectChecks (img : Bytes) (i : Nat) : List (Nat × Bool) :=
  let g := sectAt img i
  let e := 64 + 16 * i
  let before := ((sects img).take i).filter (·.type = g.type)
  let last := decide (i + 1 = fSections img)
  [(e, outside 1 12 g.type || (last != decide (g.type = scSignature)) || (before = [] && !countOk img g.type (ofType img g.type).length)),
   (e + 1, g.index ≠ before.length), (e + 2, nonZero img (e + 2) 2),
   (e + 4, g.off % 64 ≠ 0 || decide (g.off < prevEnd img i) || decide (g.off > fLength img) ||
     (last && fLength img ≠ roundUp (g.off + 776) 64)),
   (e + 8, decide (g.off + g.size > fLength img) || !sizeOk img g), (e + 12, nonZero img (e + 12) 4)]

/-- A type that R432 asks for and that the table lacks is named at the count of the header that asks for it. -/
def missingSect (img : Bytes) : Option Nat :=
  if !countOk img scStage (ofType img scStage).length then some 12
  else if !countOk img scGrammar (ofType img scGrammar).length then some 13
  else none

/-- Bytes of the image are not all 0. -/
def nz (img : Bytes) (off n : Nat) : Bool := nonZero img off n

/-- Stage entry `k` at offset `e` (R433). -/
def stageChecks (img : Bytes) (k : Nat) : List (Nat × Bool) :=
  let e := (sect1 img scStage).off + 64 * k
  let kind := u8 img e
  let conv := decide (kind = 0)
  let crop := decide (kind = 1)
  let decode := decide (kind = 3)
  let lists := u8 img (e + 2)
  let len := u16 img (e + 8)
  let kvs := (sect1 img scKv).size / 32
  let kv := u8 img (e + 31)
  [(e, decide (kind > 4)), (e + 1, u8 img (e + 1) ≠ 0xFF && decide (u8 img (e + 1) ≥ fStages img)), (e + 2, lists ≠ 1 && lists ≠ 4),
   (e + 3, if decode then decide (u8 img (e + 3) > 3) else u8 img (e + 3) ≠ 0),
   (e + 4, if crop then nz img (e + 4) 4
     else u32 img (e + 4) % 64 ≠ 0 || decide (u32 img (e + 4) + 32 * lists * len > (sect1 img scCommand).size)),
   (e + 8, if crop then len ≠ 0 else len = 0), (e + 10, if crop then nz img (e + 10) 1 else outside 1 16 (u8 img (e + 10))),
   (e + 11, if crop then nz img (e + 11) 1 else decide (u8 img (e + 11) > 4)),
   (e + 12, if crop then nz img (e + 12) 1 else decide (u8 img (e + 12) > 128) || u8 img (e + 12) % 4 ≠ 0),
   (e + 13, if conv then outside 1 64 (u8 img (e + 13)) else nz img (e + 13) 1),
   (e + 14, if conv then u16 img (e + 14) = 0 else nz img (e + 14) 2), (e + 16, !conv && nz img (e + 16) 8),
   (e + 24, crop && nz img (e + 24) 4), (e + 28, !decode && nz img (e + 28) 2), (e + 30, !crop && nz img (e + 30) 1),
   (e + 31, if conv || crop then kv ≠ 0 && kv ≠ 0xFF else kv ≠ 0xFF && decide (kv ≥ kvs)),
   (e + 32, u32 img (e + 32) % 65536 ≠ 0), (e + 36, decide (u16 img (e + 36) > 120)), (e + 38, nz img (e + 38) 26)]

/-- The KV declaration of stage `k`, none for CONV and CROP. -/
def stageKv (img : Bytes) (k : Nat) : Option Nat :=
  let e := (sect1 img scStage).off + 64 * k
  if u8 img e ≤ 1 || u8 img (e + 31) = 0xFF then none else some (u8 img (e + 31))

/-- A stage keeps a card index over KV declaration `i`. -/
def cardFor (img : Bytes) (i : Nat) : Bool :=
  (List.range (fStages img)).any fun k =>
    stageKv img k = some i && u8 img ((sect1 img scStage).off + 64 * k) = 3 && bitN (u8 img ((sect1 img scStage).off + 64 * k + 3)) 1

/-- KV declaration `i` (R434); KV_BYTES_POS is a resource check (R446). -/
def kvChecks (img : Bytes) (i : Nat) : List (Nat × Bool) :=
  let e := (sect1 img scKv).off + 32 * i
  let dim := u16 img (e + 2)
  [(e, u8 img e = 0), (e + 1, u8 img (e + 1) = 0), (e + 2, outside 16 256 dim || dim % 16 ≠ 0),
   (e + 4, u8 img (e + 4) ≠ fmA8U && u8 img (e + 4) ≠ fmA8S), (e + 5, outside 4 11 (u8 img (e + 5))),
   (e + 12, if cardFor img i then outside 1 64 (u8 img (e + 12)) else u8 img (e + 12) ≠ 0), (e + 13, nz img (e + 13) 3),
   (e + 20, nz img (e + 20) 12)]

/-- Binding entry `i` (R435). -/
def bindChecks (img : Bytes) (i : Nat) : List (Nat × Bool) :=
  let e := (sect1 img scBinding).off + 8 * i
  let kind := u8 img (e + 2)
  [(e, decide (u8 img e ≥ fStages img)), (e + 1, outside 1 13 (u8 img (e + 1))), (e + 2, decide (kind > 5)),
   (e + 3, if kind = 2 then decide (u8 img (e + 3) ≥ fStages img) else u8 img (e + 3) ≠ 0),
   (e + 4, kind ≠ 1 && kind ≠ 3 && nz img (e + 4) 4)]

/-! ### Scale tables (R223 to R225) and fix-ups (R436); `t`: the image offset of the table -/

def scRows (img : Bytes) (t : Nat) : Nat := u32 img (t + 4)
def scGroupSize (img : Bytes) (t : Nat) : Nat := match u8 img (t + 1) with | 0 => 32 | 1 => 64 | _ => 128
def scGroupCount (img : Bytes) (t : Nat) : Nat := ceilDiv (u32 img (t + 8)) (scGroupSize img t)
def scBook (img : Bytes) (t : Nat) : List Nat := (List.range 16).map fun i => u16 img (t + 16 + 2 * i)

/-- Group codes of row `r`. -/
def scCodes (img : Bytes) (t r : Nat) : List Int :=
  let row := t + 48 + roundUp (scRows img t) 16 + r * ceilDiv (scGroupCount img t) 2
  (List.range (scGroupCount img t)).map fun g => sext 4 (bitsN (u8 img (row + g / 2)) (4 * (g % 2)) 4)

/-- m_r: the smallest group code of row `r`. -/
def scLeast (img : Bytes) (t r : Nat) : Int := let c := scCodes img t r; c.foldl min (c.headD 0)

/-- A quantisation entry: its image offset. -/
def quantAt (img : Bytes) (tensor : Nat) : Nat := (sect1 img scQuant).off + 16 * tensor

/-- a_r of R224. -/
def scAcc (img : Bytes) (inTensor t r : Nat) : Int :=
  s8 img (quantAt img inTensor + 2) + formatShift (u8 img t) (scBook img t) + s8 img (t + 48 + r) + scLeast img t r

structure Fixup where
  kind : Nat
  inT : Nat
  outT : Nat
  scale : Nat
  dest : Nat
  deriving DecidableEq, Repr

def fixupAt (img : Bytes) (i : Nat) : Fixup :=
  let e := (sect1 img scFixup).off + 16 * i
  ⟨u8 img e, u16 img (e + 2), u16 img (e + 4), u32 img (e + 8), u32 img (e + 12)⟩

def fixups (img : Bytes) : List Fixup := (List.range ((sect1 img scFixup).size / 16)).map (fixupAt img)

/-- k_r of a KVEC fix-up. -/
def Fixup.shifts (f : Fixup) (img : Bytes) : List Int :=
  (List.range (scRows img f.scale)).map fun r => scAcc img f.inT f.scale r - s8 img (quantAt img f.outT + 2)

/-- The bytes that a fix-up writes: the KVEC, or the group-shift table of R273. -/
def Fixup.bytes (f : Fixup) (img : Bytes) : Bytes :=
  if f.kind = 0 then (f.shifts img).map fun k => BitVec.ofNat 8 (wrapN 8 k)
  else
    let n := scGroupCount img f.scale
    let pitch := roundUp (ceilDiv n 2) 16
    (List.range (scRows img f.scale)).flatMap fun r =>
      let m := scLeast img f.scale r
      let row := packCodes fmW4 ((scCodes img f.scale r).map fun g => (g - m).toNat)
      row ++ zeros (pitch - row.length)

/-- Bytes that a fix-up writes. -/
def Fixup.size (f : Fixup) (img : Bytes) : Nat :=
  if f.kind = 0 then scRows img f.scale else scRows img f.scale * roundUp (ceilDiv (scGroupCount img f.scale) 2) 16

def fixupChecks (img : Bytes) (i : Nat) : List (Nat × Bool) :=
  let e := (sect1 img scFixup).off + 16 * i
  let f := fixupAt img i
  let tensors := (sect1 img scQuant).size / 16
  let kvec := decide (f.kind = 0)
  [(e, decide (f.kind > 1)), (e + 1, nz img (e + 1) 1), (e + 2, kvec && decide (f.inT ≥ tensors)),
   (e + 4, kvec && decide (f.outT ≥ tensors)), (e + 6, nz img (e + 6) 2),
   (e + 8, !((ofType img scScales).any (·.off = f.scale))), (e + 12, decide (f.dest + f.size img > fLength img))]

/-- The first fault among `n` entries of a section. -/
def entryFault (cause index n : Nat) (checks : Nat → List (Nat × Bool)) : Option LoadFault :=
  (List.range n).findSome? fun i => faultIn cause index 0 (checks i)

def structureFault (img : Bytes) (len : Nat) : Option LoadFault :=
  firstFault
    [fun _ => if len ≠ fLength img then some ⟨3, 0x3F, 8⟩ else none,
     fun _ => (missingSect img).map fun o => ⟨3, 0x3F, o⟩,
     fun _ => (List.range (fSections img)).findSome? fun i => faultIn 3 i 0 (sectChecks img i),
     fun _ => entryFault 3 (sect1 img scStage).at_ (fStages img) (stageChecks img),
     fun _ => entryFault 3 (sect1 img scKv).at_ ((sect1 img scKv).size / 32) (kvChecks img),
     fun _ => entryFault 3 (sect1 img scBinding).at_ ((sect1 img scBinding).size / 8) (bindChecks img),
     fun _ => entryFault 3 (sect1 img scFixup).at_ ((sect1 img scFixup).size / 16) (fixupChecks img),
     fun _ => let g := sigSect img; faultIn 3 g.at_ g.off [(1, nz img (g.off + 1) 3)]]

/-! ### The parsed folio -/

def parseStage (img : Bytes) (k : Nat) : Stage :=
  let e := (sect1 img scStage).off + 64 * k
  { kind := u8 img e, input := u8 img (e + 1), wingParts := u8 img (e + 2), conc := bitN (u8 img (e + 3)) 0,
    card := bitN (u8 img (e + 3)) 1, list := u32 img (e + 4), listLen := u16 img (e + 8), units := u8 img (e + 10),
    streams := u8 img (e + 11), winKib := u8 img (e + 12), expand4k := u8 img (e + 13), stripeH := u16 img (e + 14),
    minW := u16 img (e + 16), maxW := u16 img (e + 18), minH := u16 img (e + 20), maxH := u16 img (e + 22),
    bound := u32 img (e + 24), catAllow := u16 img (e + 28), textClasses := u8 img (e + 30), kv := stageKv img k,
    shelfOff := u32 img (e + 32), shelfShards := u16 img (e + 36) }

def parseKv (img : Bytes) (i : Nat) : KvDecl :=
  let e := (sect1 img scKv).off + 32 * i
  { layers := u8 img e, heads := u8 img (e + 1), hdim := u16 img (e + 2), fmt := u8 img (e + 4), log2Page := u8 img (e + 5),
    pinRecent := u16 img (e + 6), budgetPos := u32 img (e + 8), cardP := u8 img (e + 12) }

def parseFolio (img : Bytes) (handle addr len base slot : Nat) (pin : Bool) : Folio :=
  let grams := ofType img scGrammar
  { handle := handle, addr := addr, len := len, version := u8 img 4, committed := false, unloading := false,
    loaderSlot := some slot, pinned := false, pinWanted := pin, grammarBase := base,
    grammars := grams.map fun g => (g.off, g.size), defaultGrammar := fDefault img, prefixSeed := u64 img 24,
    seqSlots := u16 img 32, stages := (List.range (fStages img)).map (parseStage img),
    kvs := (List.range ((sect1 img scKv).size / 32)).map (parseKv img),
    quant := (List.range ((sect1 img scQuant).size / 16)).map fun i => sliceB img (quantAt img i) 16,
    commandOff := (sect1 img scCommand).off,
    params := (ofType img scParams).head?.map fun g => sliceB img g.off 352,
    bindings := (List.range ((sect1 img scBinding).size / 8)).map fun i =>
      let e := (sect1 img scBinding).off + 8 * i
      (u8 img e, u8 img (e + 1), u8 img (e + 2), u8 img (e + 3), u32 img (e + 4)),
    fixups := (fixups img).map fun f => (f.kind, f.inT, f.outT, f.scale, f.dest), digest := sha256 (sliceB img 0 (fLength img)),
    grammarDigests := grams.map fun g => sha256 (sliceB img g.off (u32 img (g.off + 32))) }

/-! ### Step 4: formats and scales (R239) -/

/-- The lists of a folio in stage order: stage index, list number, its commands. -/
def imgLists (img : Bytes) : List (Nat × Nat × List Bytes) :=
  (List.range (fStages img)).flatMap fun k =>
    let g := parseStage img k
    if g.listLen = 0 then []
    else (List.range g.wingParts).map fun w =>
      (k, w, (List.range g.listLen).map fun i =>
        sliceB img ((sect1 img scCommand).off + g.list + 32 * (w * g.listLen + i)) 32)

def scaleChecks (img : Bytes) (t : Nat) : List (Nat × Bool) :=
  let f := u8 img t
  let used := if f = fmWC4 then 4 else if f = fmWC16 then 16 else 0
  [(0, decide (f > 7)), (1, decide (u8 img (t + 1) > 2)), (2, nz img (t + 2) 2), (12, nz img (t + 12) 4)] ++
    (List.range 16).map fun i =>
      let v := u16 img (t + 16 + 2 * i)
      (16 + 2 * i, if i < used then bookEntryBad v else v ≠ 0)

def quantChecks (img : Bytes) (e : Nat) : List (Nat × Bool) :=
  let f := u8 img e
  let mode := u8 img (e + 1)
  let per := bitN mode 0
  let range := bitN mode 1
  let z := u16 img (e + 4)
  let zvec := u32 img (e + 8)
  [(0, outside 8 14 f), (1, decide (mode > 2)), (3, !range && nz img (e + 3) 1),
   (4, if range || f = fmA8S then z ≠ 0 else zeroBad f z),
   (8, if per then (List.range (u16 img (e + 6))).any fun c => zeroBad f (u16 img (zvec + 2 * c)) else zvec ≠ 0),
   (12, decide (u8 img (e + 12) > 24)), (13, decide (u8 img (e + 13) > 24)), (14, nz img (e + 14) 2)]

/-- Image byte offsets of the rows that a LOAD or STREAM with XFORM reads from the folio's image (bases 0 and 14): first byte and
bytes of each row. -/
def xformRows (d : Bytes) : Nat × List (Int × Nat) :=
  let far := fun v : Nat => farBase v = 0 || farBase v = 14
  if cmdOp d = coLoad && far (u40 d 4) then (u8 d 9, (List.range (u16 d 10)).map fun i => (rowFar d i, u16 d 12))
  else if cmdOp d = coStream && far (u40 d 8) then (u8 d 5, (streamRows d).map fun o => (o, u16 d 14))
  else (0, [])

/-- The first weight byte at fault among those of a row that lie in a WEIGHTS section (R213, R214): a WT byte above 242, a W3 word with
bits [31:30] not 0. Answers the section's directory entry and the offset of the byte or word. -/
def rowWeightFault (img : Bytes) (x : Nat) (o : Int) (n : Nat) : Option (Nat × Nat) :=
  (ofType img scWeights).findSome? fun g =>
    ((List.range n).find? fun (i : Nat) =>
      let a := o + (i : Int)
      decide ((g.off : Int) ≤ a) && decide (a < ((g.off + g.size : Nat) : Int)) &&
        (if x = 1 then decide (u8 img a.toNat > 242) else i % 4 = 3 && decide (u8 img a.toNat > 63))).map fun i =>
          (g.at_, (o + ((if x = 1 then i else i - 3 : Nat) : Int)).toNat)

def weightFault (img : Bytes) : Option LoadFault :=
  (imgLists img).findSome? fun l => l.2.2.findSome? fun d =>
    let r := xformRows d
    if r.1 ≠ 1 && r.1 ≠ 2 then none
    else r.2.findSome? fun p => (rowWeightFault img r.1 p.1 p.2).map fun e => ⟨4, e.1, e.2⟩

def formatFault (img : Bytes) : Option LoadFault :=
  firstFault
    [fun _ => weightFault img,
     fun _ => (ofType img scScales).findSome? fun g => faultIn 4 g.at_ g.off (scaleChecks img g.off),
     fun _ =>
      let g := sect1 img scQuant
      (List.range (g.size / 16)).findSome? fun i => faultIn 4 g.at_ (g.off + 16 * i) (quantChecks img (g.off + 16 * i))]

/-! ### Step 5: command lists -/

/-- The image offset of list `w` of stage `k`. -/
def listOff (img : Bytes) (k w : Nat) : Nat :=
  let g := parseStage img k
  (sect1 img scCommand).off + g.list + 32 * (w * g.listLen)

def listCtx (img : Bytes) (k : Nat) : ListCtx :=
  let g := parseStage img k
  g.listCtx (u8 img 4 / 16) (g.kv.map fun i => (parseKv img i).heads * (parseKv img i).hdim)

/-- The first fault that a check finds over the lists of a folio. -/
def listsFault (img : Bytes) (cause : Nat) (check : Nat → List Bytes → Option Nat) : Option LoadFault :=
  (imgLists img).findSome? fun l =>
    (check l.1 l.2.2).map fun o => ⟨cause, (sect1 img scCommand).at_, listOff img l.1 l.2.1 + o⟩

/-! ### Step 6: grammar images (R404); `a`: the image offset of the grammar image -/

def grHeader (img : Bytes) (a size : Nat) : List (Nat × Bool) :=
  let kind := u8 img (a + 5)
  let len := u32 img (a + 32)
  let crcRange := sliceB img a 36 ++ sliceB img (a + 40) (len - 40)
  let m : Mem := []
  let m := m.write 0 (sliceB img a 64)
  [(0, u32 img a ≠ 0x474C5443), (4, u8 img (a + 4) ≠ 0x10), (5, decide (kind > 1)), (6, outside 1 64 (gClasses m 0)),
   (8, outside 1 65536 (gStates m 0)), (12, if kind = 0 then gSymbols m 0 ≠ 0 else outside 1 1024 (gSymbols m 0)),
   (14, if kind = 0 then gDepth m 0 ≠ 0 else gDepth m 0 = 0), (16, outside 1 (2 ^ 24) (gPairs m 0)),
   (20, outside 1 65536 (gMasks m 0)), (24, outside 1 (2 ^ 24) (gActionRows m 0)), (28, decide (gPushes m 0 > 2 ^ 24)),
   (32, len ≠ goEnd m 0 || len ≠ size), (36, u32 img (a + 36) ≠ crc32c crcRange), (40, nz img (a + 40) 24)]

/-- The sections of an image whose header holds, in memory `m` at address 0. -/
def grClassMap (m : Mem) : List (Nat × Bool) :=
  ((List.range 264).map fun t => (64 + t, decide (gClassOf m 0 t ≥ gClasses m 0))) ++
    (List.range 56).map fun i => (328 + i, decide (m.get (328 + i) ≠ 0))

def grText (m : Mem) : List (Nat × Bool) :=
  ((List.range 3).flatMap fun k =>
    let e := goText + 16 * k
    (e, decide (m.u8 e > 15)) :: (List.range 15).map fun i => (e + 1 + i, decide (i ≥ m.u8 e) && m.get (e + 1 + i) ≠ 0)) ++
    (List.range 16).map fun i => (goText + 48 + i, decide (m.get (goText + 48 + i) ≠ 0))

/-- Padding from offset `o` up to the next section. -/
def grPad (m : Mem) (o stop : Nat) : List (Nat × Bool) := (List.range (stop - o)).map fun i => (o + i, decide (m.get (o + i) ≠ 0))

/-- Addresses of pair entries whose TOP does not lie above the TOP of the entry before it in a state. -/
def grFlatTops (m : Mem) : List Nat :=
  (List.range (gStates m 0)).flatMap fun st =>
    let es := gPairsOf m 0 st
    (es.zip (es.drop 1)).filterMap fun p => if m.u16 p.1 < m.u16 p.2 then none else some p.2

def grStates (m : Mem) : List (Nat × Bool) :=
  ((List.range (gStates m 0)).flatMap fun st =>
    let e := goState + 8 * st
    let first := m.u32 e
    let n := m.u16 (e + 4)
    [(e, decide (first + n > gPairs m 0)), (e + 4, decide (n > 1026)), (e + 6, decide (m.u16 (e + 6) ≠ 0))]) ++
    grPad m (goState + 8 * gStates m 0) (goPair m 0)

/-- A pair entry's mask row against the action of each token's class (R404), all 264 tokens. -/
def grPairMask (m : Mem) (e : Nat) : Bool :=
  (List.range 264).any fun t => gMaskBit m 0 (m.u16 (e + 2)) t != bitN (aFlags m (gAction m 0 e t)) 0

def grPairs (m : Mem) : List (Nat × Bool) :=
  let kind := m.u8 5
  let flat := grFlatTops m
  ((List.range (gPairs m 0)).flatMap fun i =>
    let e := gPairAt m 0 i
    let top := m.u16 e
    [(e, (if kind = 0 then decide (top ≠ 0xFFFE) else decide (top ≥ gSymbols m 0) && top ≠ 0xFFFE && top ≠ 0xFFFF) ||
       decide (e ∈ flat)),
     (e + 2, decide (m.u16 (e + 2) ≥ gMasks m 0) || (decide (m.u32 (e + 4) % 2 ^ 24 < gActionRows m 0) && grPairMask m e)),
     (e + 4, decide (m.u32 (e + 4) % 2 ^ 24 ≥ gActionRows m 0)), (e + 7, decide (m.u8 (e + 7) ≠ 0))]) ++
    grPad m (gPairAt m 0 (gPairs m 0)) (goMask m 0)

/-- Tokens 0x104 to 0x107 are reserved (R394, R395). -/
def grMasks (m : Mem) : List (Nat × Bool) :=
  ((List.range (gMasks m 0)).flatMap fun r =>
    let e := goMask m 0 + 48 * r
    [(e + 32, (List.range 4).any fun i => gMaskBit m 0 r (0x104 + i)),
     (e + 33, (List.range 15).any fun i => decide (m.get (e + 33 + i) ≠ 0))]) ++
    grPad m (goMask m 0 + 48 * gMasks m 0) (goAction m 0)

def grActions (m : Mem) : List (Nat × Bool) :=
  let kind := m.u8 5
  ((List.range (gClasses m 0 * gActionRows m 0)).flatMap fun i =>
    let e := goAction m 0 + 8 * i
    [(e, decide (aNext m e ≥ gStates m 0)), (e + 2, decide (aFlags m e > 7)), (e + 3, kind = 0 && m.u8 (e + 3) ≠ 0),
     (e + 4, aPush m e ≠ 0 && decide (aPushIdx m e + aPush m e > gPushes m 0)), (e + 7, decide (m.u8 (e + 7) ≠ 0))]) ++
    grPad m (goAction m 0 + 8 * gClasses m 0 * gActionRows m 0) (goPush m 0)

def grPushes (m : Mem) : List (Nat × Bool) :=
  ((List.range (gPushes m 0)).map fun i =>
    (goPush m 0 + 2 * i, decide (m.u16 (goPush m 0 + 2 * i) ≥ gSymbols m 0))) ++
    grPad m (goPush m 0 + 2 * gPushes m 0) (goEnd m 0)

/-- A grammar image of a GRAMMAR section: offset within the image of the first field at fault. -/
def grammarFault (img : Bytes) (a size : Nat) : Option Nat :=
  match firstAt (grHeader img a size) with
  | some o => some o
  | none =>
    let m0 : Mem := []
    let m := m0.write 0 (sliceB img a size)
    [grClassMap, grText, grStates, grPairs, grMasks, grActions, grPushes].findSome? fun f => firstAt (f m)

/-- R405: the limits of the catalog unit. -/
def grammarLimit (img : Bytes) (a size : Nat) : Option Nat :=
  let m0 : Mem := []
  let m := m0.write 0 (sliceB img a size)
  if gDepth m 0 > 256 then some 14
  else if gLength m 0 > 64 * 2 ^ 20 then some 32
  else
    ((List.range (gClasses m 0 * gActionRows m 0)).find? fun i =>
      let e := goAction m 0 + 8 * i
      decide (aPop m e + aPush m e > 8)).map fun i => goAction m 0 + 8 * i + 3

/-! ### Step 7: resources -/

/-- The cause-0x12 check (R438): grammar handles. -/
def State.grammarRoom (s : State) (img : Bytes) (handle base : Nat) : Bool :=
  let n := fGrammars img
  if n = 0 then base = 0xFF
  else base ≠ 0xFF && decide (base + n ≤ 128) &&
    s.fol.folios.all fun f =>
      f.handle = handle || f.grammars = [] || decide (f.grammarBase + f.grammars.length ≤ base) || decide (base + n ≤ f.grammarBase)

/-- R238 and R240 on one fix-up: the offset of the field that names the shift. -/
def fixupShiftFault (img : Bytes) (i : Nat) : Option LoadFault :=
  let g := sect1 img scFixup
  let f := fixupAt img i
  if f.kind ≠ 0 then none
  else if (f.shifts img).any fun k => decide (k < -63) || decide (31 < k) then some ⟨0x13, g.at_, g.off + 16 * i + 8⟩
  else
    let q := quantAt img f.outT
    let low := s8 img (q + 3)
    if bitN (u8 img (q + 1)) 1 && (List.range (scRows img f.scale)).any fun r => decide (low > scAcc img f.inT f.scale r) then
      some ⟨0x13, (sect1 img scQuant).at_, q + 3⟩
    else none

def shiftFault (img : Bytes) : Option LoadFault :=
  firstFault
    [fun _ => (List.range ((sect1 img scFixup).size / 16)).findSome? (fixupShiftFault img),
     fun _ =>
      let g := sect1 img scQuant
      (List.range (g.size / 16)).findSome? fun i =>
        let q := g.off + 16 * i
        if bitN (u8 img (q + 1)) 1 && decide (s8 img (q + 3) > s8 img (q + 2)) then some ⟨0x13, g.at_, q + 3⟩ else none]

/-- The KV checks of cause 0x15 (R364, R381, R434). -/
def kvFault (img : Bytes) : Option LoadFault :=
  let g := sect1 img scKv
  (List.range (g.size / 32)).findSome? fun i =>
    let k := parseKv img i
    let e := g.off + 32 * i
    faultIn 0x15 g.at_ 0
      [(e + 5, u8 img 4 / 16 = 1 && decide (k.log2Page > 8)),
       (e + 8, k.budgetPos ≠ 0 && (k.pinRecent = 0 || decide (k.budgetPos < (k.pinRecent + 2) * 2 ^ k.log2Page))),
       (e + 16, u32 img (e + 16) ≠ 2 * k.layers * k.heads * k.hdim)]

/-- Shards of a wing's reserve shelf (R448). -/
def State.wingShards (s : State) : Nat := 6 * s.bayShards

/-- Cause 0x16: windows and expansion buffer, or a shelf set, beyond one bay or one wing. -/
def State.shelfFault (s : State) (img : Bytes) : Option LoadFault :=
  let g := sect1 img scStage
  (List.range (fStages img)).findSome? fun k =>
    let st := parseStage img k
    faultIn 0x16 g.at_ (g.off + 64 * k)
      [(12, decide (st.winKib + 4 * st.expand4k > s.streamKib)), (36, decide (st.shelfShards > s.wingShards))]

/-- Shards that pinned folios have pinned in a wing, with one folio more (R452, R454). -/
def State.pinnedCount (s : State) (w : Nat) (more : Folio) : Nat :=
  (((s.fol.folios.filter fun f => f.pinned && f.handle ≠ more.handle).map fun f => (f.cacheable w).length).sum) +
    (more.cacheable w).length

/-- The pinned shards would exceed a wing's reserve shelf. -/
def State.pinTooMuch (s : State) (f : Folio) : Bool := (List.range 4).any fun w => decide (s.pinnedCount w f > s.wingShards)

def State.pinFault (s : State) (img : Bytes) (f : Folio) : Option LoadFault :=
  if f.pinWanted && s.pinTooMuch f then
    let k := ((List.range (fStages img)).find? fun k => (parseStage img k).shelfShards ≠ 0).getD 0
    some ⟨0x17, (sect1 img scStage).at_, (sect1 img scStage).off + 64 * k + 36⟩
  else none

/-! ### Step 8: bounds (R446, R447) -/

/-- A BOUND or a CAT_ALLOW of 0. -/
def boundZero (img : Bytes) : Option LoadFault :=
  let g := sect1 img scStage
  (List.range (fStages img)).findSome? fun k =>
    let st := parseStage img k
    faultIn 0x31 g.at_ (g.off + 64 * k) [(24, st.listLen ≠ 0 && st.bound = 0), (28, st.kind = 3 && st.catAllow = 0)]

def floorFault (img : Bytes) : Option LoadFault :=
  let g := sect1 img scStage
  (imgLists img).findSome? fun l =>
    if listFloor l.2.2 > (parseStage img l.1).bound then some ⟨0x30, g.at_, g.off + 64 * l.1 + 24⟩ else none

/-! ### Verify (R445) -/

/-- The agreed folio range (HLK_VER_AGREE_1). -/
def State.folioLo (s : State) : Nat := s.regF rHlkVerAgree1 0 8
def State.folioHi (s : State) : Nat := s.regF rHlkVerAgree1 8 8

/-- The checks of a load in the order of R445; `f` is the folio as parsed. -/
def State.verifyFolio (s : State) (img : Bytes) (f : Folio) : Option LoadFault :=
  let grams := ofType img scGrammar
  firstFault
    [fun _ => faultIn 1 0x3F 0 (headerChecks s.folioLo s.folioHi img),
     fun _ => s.sigFault img,
     fun _ => structureFault img f.len,
     fun _ => formatFault img,
     fun _ => listsFault img 5 fun k l => listFault (listCtx img k) 0 [] l,
     fun _ => grams.findSome? fun g => (grammarFault img g.off g.size).map fun o => ⟨6, g.at_, g.off + o⟩,
     fun _ => if s.grammarRoom img f.handle f.grammarBase then none else some ⟨0x12, 0x3F, 13⟩,
     fun _ => shiftFault img,
     fun _ => listsFault img 0x14 fun k l => listLiveFault (parseStage img k).units 0 none l,
     fun _ => listsFault img 0x14 fun k l => listStreamFault (parseStage img k).streams (parseStage img k).winKib 0 [] l,
     fun _ => kvFault img,
     fun _ => grams.findSome? fun g => (grammarLimit img g.off g.size).map fun o => ⟨0x15, g.at_, g.off + o⟩,
     fun _ => s.shelfFault img,
     fun _ => s.pinFault img f,
     fun _ => boundZero img,
     fun _ => floorFault img]

/-! ### Loading (R438 to R444) -/

def dSrc (d : Bytes) : Nat := u64 d 16
def dLen (d : Bytes) : Nat := u32 d 24
def dGrammarBase (d : Bytes) : Nat := u8 d 6
def dPin (d : Bytes) : Bool := bitN (u8 d 7) 0

def State.mdlAreaBase (s : State) : Nat := s.regPair rMdlAreaBaseLo rMdlAreaBaseHi

/-- First fit of a 64 KiB-aligned region in the model area (R439). -/
def State.mdlRegion (s : State) (len : Nat) : Option Nat :=
  let base := s.mdlAreaBase
  let mib := s.regF rMdlAreaSize 0 16
  let used := s.fol.folios.map fun f =>
    let first := (f.addr - base) / 65536
    (first, (f.addr + 65536 * granules f.len - base) / 65536 - first)
  if mib = 0 then none
  else (firstRun (16 * mib) (granules len) (used.filter (·.2 ≠ 0))).map fun u => base + 65536 * u

/-- A load ends with a refusal: what it claimed is released, MDL_FAULT holds the offset (R441, R446). -/
def State.refuseLoad (s : State) (slot handle : Nat) (f : LoadFault) : State :=
  (s.setReg (rMdlFault handle) (BitVec.ofNat 32 f.off)).closeJob slot f.status 0 f.detail

/-- A folio whose handle and region are claimed and whose image has not arrived. -/
def claimFolio (handle addr len base slot : Nat) (pin : Bool) : Folio :=
  { parseFolio [] handle addr len base slot pin with grammars := [], stages := [], kvs := [] }

/-- FOLIO_LOAD (R438, R439, R444, R455). -/
def State.folioLoad (s : State) (n : Nat) : State :=
  s.beginDesc n (fun d => dOp d = opFolioLoad) fun s d slot =>
    match slot with
    | none => s
    | some k =>
      let h := dFolio d
      if h > 31 || s.fol.folios.any (·.handle = h) then s.finishDesc n d slot stResources 0x113F 0
      else
        let s := s.setReg (rMdlFault h) 0
        match s.mdlRegion (dLen d) with
        | none => s.refuseLoad k h ⟨0x10, 0x3F, 8⟩
        | some a =>
          (s.onFol fun g => { g with folios := g.folios ++ [claimFolio h a (dLen d) (dGrammarBase d) k (dPin d)] }).onJob k
            fun j => { j with phase := .loadFetch }

/-- The fix-ups, written into the placed image (R436). -/
def State.applyFixups (s : State) (addr : Nat) (img : Bytes) : State :=
  (fixups img).foldl (fun s f => s.dramWrite (addr + f.dest) (f.bytes img)) s

/-- Fill the shards of pinned folios that wing `w` lacks, as far as its working bays have places for them (R452, R453). -/
def State.refillPinned (s : State) (w : Nat) : State :=
  let want := (s.fol.folios.filter (·.pinned)).flatMap fun f => (f.cacheable w).map fun n => (w, f.handle, n)
  let room := s.shelfPlaces w - (s.fol.refills.filter (·.1 = w)).length
  let go := ((want.filter fun r => !s.resident w r.2.1 r.2.2 && !(r ∈ s.fol.refills)).eraseDups).take room
  (s.onFol fun g => { g with refills := g.refills ++ go }).bumpSat rMdlRefillCount 0 32 go.length

def State.refillAllPinned (s : State) : State := (List.range 4).foldl State.refillPinned s

/-- Pin or unpin a folio: its resident shards and the fills of those that are not resident (R452, R454). -/
def State.setPinned (s : State) (h : Nat) (v : Bool) : State :=
  let s := s.onFol fun g =>
    { g with
      folios := updFirst (·.handle = h) (fun f => { f with pinned := v }) g.folios
      shards := g.shards.map fun d => if d.handle = h then { d with pinned := v } else d }
  if v then s.refillAllPinned else s

/-- A job whose teardown is on its way up takes no further step of its load (R442, R552). -/
def State.charged (s : State) (slot : Nat) : Bool :=
  s.err.pending.any fun e => e.job = some slot && severityOf e.kind true ≠ sevCorrected

/-- FOLIO_FETCH_DONE (R439 steps 1 to 4). -/
def State.folioFetchDone (s : State) (slot : Nat) (given : Bytes) : State :=
  match s.job? slot with
  | none => s
  | some j =>
    match s.fol.folios.find? fun f => f.loaderSlot = some slot && !f.committed with
    | none => s
    | some f0 =>
      if j.phase ≠ .loadFetch || !s.fabricUp || s.charged slot then s
      else
        let r := s.fetchHost (dSrc j.desc) f0.len given
        let img := r.1
        let s := (r.2.chargePcie j.client f0.len).dramWrite f0.addr img
        let f := parseFolio img f0.handle f0.addr f0.len f0.grammarBase slot f0.pinWanted
        match s.verifyFolio img f with
        | some e => s.refuseLoad slot f.handle e
        | none =>
          let s := s.onFol fun g => { g with folios := updFirst (·.handle = f.handle) (fun _ => f) g.folios }
          let s := s.applyFixups f.addr img
          let s := if f.pinWanted then s.setPinned f.handle true else s
          s.onJob slot fun j => { j with phase := .loadCommit }

/-- A job ends with OK and an AMOUNT of its own. -/
def State.closeAmount (s : State) (slot amount : Nat) : State :=
  ((s.releaseJob slot).endJob slot stOk 0 amount 0).releaseCancels

/-- FOLIO_COMMIT (R440, R582, R583). -/
def State.folioCommit (s : State) (slot : Nat) : State :=
  match s.job? slot with
  | none => s
  | some j =>
    match s.fol.folios.find? fun f => f.loaderSlot = some slot && !f.committed with
    | none => s
    | some f =>
      if j.phase ≠ .loadCommit || !s.fabricUp || s.charged slot then s
      else
        let s := s.onFol fun g =>
          { g with folios := updFirst (·.handle = f.handle) (fun f => { f with committed := true, loaderSlot := none }) g.folios }
        let s := s.extendMs 2 f.digest
        let s := f.grammarDigests.foldl (fun s d => s.extendMs 3 d) s
        s.closeAmount slot f.len

/-! ### Unloading (R443, R444) -/

/-- FOLIO_UNLOAD: its handle already accepts no RUN since its fetch; it waits for its jobs, or is refused. -/
def State.folioUnload (s : State) (n : Nat) : State :=
  s.beginDesc n (fun d => dOp d = opFolioUnload) fun s d slot =>
    match slot with
    | none => s
    | some k =>
      if s.fol.folios.any fun f => f.loaderSlot = some k && f.unloading then s.onJob k fun j => { j with phase := .unloading }
      else s.finishDesc n d slot stResources 5 0

/-- A job names a folio, or one of its grammar handles in its parameter block. -/
def Job.names (j : Job) (f : Folio) : Bool :=
  dOp j.desc = opRun && ((j.folioOk && dFolio j.desc = f.handle) ||
    (j.param ≠ [] && decide (f.grammarBase ≤ pGrammar j.param) && decide (pGrammar j.param < f.grammarBase + f.grammars.length)))

/-- FOLIO_UNLOAD_RELEASE. -/
def State.folioUnloadRelease (s : State) (slot : Nat) : State :=
  match s.job? slot with
  | none => s
  | some j =>
    match s.fol.folios.find? fun f => f.loaderSlot = some slot && f.unloading with
    | none => s
    | some f =>
      if j.phase ≠ .unloading || s.jobs.any (·.names f) || !s.fabricUp then s
      else
        let s := (s.kv.nodes.filter (·.folio = f.handle)).foldl State.removeNode s
        let s := s.onFol fun g =>
          { g with
            folios := g.folios.filter (·.handle ≠ f.handle)
            shards := g.shards.filter (·.handle ≠ f.handle)
            refills := g.refills.filter (·.2.1 ≠ f.handle) }
        s.closeJob slot stOk 0 0

/-! ### The reserve shelf (R448 to R455) -/

/-- FOLIO_PIN and FOLIO_UNPIN. -/
def State.folioPin (s : State) (h : Nat) (v : Bool) : State :=
  match s.fol.folios.find? fun f => f.handle = h && f.committed with
  | none => s.flag rMdlPinCtrl 6
  | some f => if v && s.pinTooMuch f then s.flag rMdlPinCtrl 6 else s.setPinned h v

/-- A write of MDL_PIN_CTRL. -/
def State.pinWrite (s : State) (h : Nat) (v : Bool) : State := if s.fabricHidden rMdlPinCtrl then s else s.folioPin h v

/-- A write of MDL_SHELF_SPLIT (R449, R455). -/
def State.shelfSplit (s : State) (v : Word) : State :=
  if (List.range 64).any fun n => s.ringEn (.sq n) then s
  else
    let s := if wbit v 3 then s.setRegF rMdlShelfSplit 3 1 0 else s
    let new := wbits v 0 3
    if new = s.regF rMdlShelfSplit 0 3 then s
    else
      let r := min 4 new
      let over_ := (List.range 4).any fun w =>
        decide (((s.fol.folios.filter (·.pinned)).map fun f => (f.cacheable w).length).sum > 96 + 6 * r)
      let wide := s.fol.folios.any fun f => f.committed && f.stages.any fun g => decide (g.winKib + 4 * g.expand4k > 256 - 64 * r)
      if s.jobs ≠ [] || over_ || wide then s.flag rMdlShelfSplit 3
      else ((s.setRegF rMdlShelfSplit 0 3 new).onFol fun g => { g with shards := [], refills := [] }).refillAllPinned

/-- The bay of the wing with the most free reserve space, lowest among equals (R450). -/
def State.roomiest (s : State) (w : Nat) : Option Nat :=
  let open_ := ((s.shelfBays w).map fun i => 6 * w + i).filter fun b => decide ((s.shardsIn b).length < s.bayShards)
  open_.foldl (fun best b => match best with
    | none => some b
    | some c => if (s.shardsIn b).length < (s.shardsIn c).length then some b else some c) none

/-- R452's order of eviction: least recently read, then lowest handle, then lowest shard. -/
def evictBefore (a b : Shard) : Bool :=
  decide (a.lastRead < b.lastRead) || (a.lastRead = b.lastRead && (decide (a.handle < b.handle) ||
    (a.handle = b.handle && decide (a.number < b.number))))

def State.evictee (s : State) (w : Nat) : Option Shard :=
  ((s.shardsOf w).filter fun d => !d.pinned && d.bay - 6 * w ∈ s.shelfBays w).foldl (fun best d => match best with
    | none => some d
    | some c => if evictBefore d c then some d else some c) none

/-- Enter a shard in the directory of wing `w`, in bay `b`. -/
def State.enterShard (s : State) (w b h n : Nat) (pinned : Bool) : State :=
  let taken := (s.shardsIn b).map (·.pos)
  let pos := ((List.range s.bayShards).find? fun p => !(p ∈ taken)).getD 0
  s.onFol fun g => { g with shards := g.shards ++ [⟨w, b, h, n, pos, pinned, g.reads⟩] }

/-- REFILL_DONE (R450 to R453). A fill of a pinned shard is charged to nobody (R492). -/
def State.refillDone (s : State) (w h n : Nat) : State :=
  if !((w, h, n) ∈ s.fol.refills) || !s.fabricUp || s.dev.selfRefresh then s
  else
    let s := s.onFol fun g => { g with refills := g.refills.erase (w, h, n) }
    match s.fol.folios.find? (·.handle = h) with
    | none => s
    | some f =>
      let s := if f.pinned then s.unattributed 6 (f.shardBytes n) else s
      match s.roomiest w with
      | some b => s.enterShard w b h n f.pinned
      | none =>
        match s.evictee w with
        | some e => (s.onFol fun g => { g with shards := g.shards.erase e }).enterShard w e.bay h n f.pinned
        | none => s

/-! ### Meanings -/

def execFolioLoad (sq : Nat) (s : State) : Result := .next (s.whenOn fun s => s.folioLoad sq)
def execFolioFetchDone (slot : Nat) (image : Bytes) (s : State) : Result := .next (s.whenOn fun s => s.folioFetchDone slot image)
def execFolioCommit (slot : Nat) (s : State) : Result := .next (s.whenOn fun s => s.folioCommit slot)
def execFolioUnload (sq : Nat) (s : State) : Result := .next (s.whenOn fun s => s.folioUnload sq)
def execFolioUnloadRelease (slot : Nat) (s : State) : Result := .next (s.whenOn fun s => s.folioUnloadRelease slot)
def execFolioPin (h : Nat) (s : State) : Result :=
  .next (s.whenHost rMdlPinCtrl (BitVec.ofNat 32 (h % 32 + 32)) fun s => s.pinWrite (h % 32) true)
def execFolioUnpin (h : Nat) (s : State) : Result :=
  .next (s.whenHost rMdlPinCtrl (BitVec.ofNat 32 (h % 32)) fun s => s.pinWrite (h % 32) false)
def execShelfSplitWrite (v : Word) (s : State) : Result :=
  .next (s.whenHost rMdlShelfSplit v fun s => if s.fabricHidden rMdlShelfSplit then s else s.shelfSplit v)
def execRefillDone (wing handle shard : Nat) (s : State) : Result := .next (s.whenOn fun s => s.refillDone wing handle shard)

end Sys2Proof.Machine
end

