-- ==== Sys2Proof/Machine/Collation.lean ====
section
/-! DEFINITION. The collation unit's own work (chapter 5): line frames and CSI lines (R155 to R165), position and page-sides
(R166 to R177), strobes and UV (R178, R179, R190, R191), shading and fusion (R180 to R184), planes (R203 to R209). The capture
configuration and calibration stand in Capture. -/

namespace Sys2Proof.Machine

/-- The collation unit takes lines and edges: its domain is on, and it is ready (R539). -/
def State.colUp (s : State) : Bool := s.fabricUp && s.dev.colReady && (s.dev.power = .active || s.dev.waking)

def State.transport (s : State) (t : Nat) : Transport := s.col.transports.getD t Transport.reset

def State.onTransport (s : State) (t : Nat) (f : Transport → Transport) : State :=
  s.onCol fun c => { c with transports := c.transports.modify t f }

def Lsp.empty : Lsp := ⟨[], [], false, none, 0, false, false⟩
def State.lsp (s : State) (p : Nat) : Lsp := s.col.lsps.getD p Lsp.empty
def State.onLsp (s : State) (p : Nat) (f : Lsp → Lsp) : State := s.onCol fun c => { c with lsps := c.lsps.modify p f }

/-- A page-side of the transport is open. -/
def Transport.isOpen (t : Transport) : Bool := t.sides ≠ []

def Transport.sources (t : Transport) : List Source := ((t.cfg.map (·.sources))).getD []

/-- Sources with their index in the transport's configuration. -/
def Transport.indexed (t : Transport) : List (Nat × Source) := t.sources.mapIdx fun i x => (i, x)

/-! ### Events (COL_T_EVENT, COL_IRQ) -/

/-- An event of a transport: its bit, the page of the page-side it concerns, and the interrupt when the bit sets. -/
def State.colEvent (s : State) (t bit : Nat) (page : Option Nat) : State :=
  let r := rColTEvent t
  let was := s.regB r bit
  let s := s.flag r bit
  let s := match page with
    | some p => s.setRegF r 16 16 p
    | none => s
  if !was && s.regB rColIrq 6 then s.msix (s.regF rColIrq 0 6) else s

/-- PAGE of the open page-side. -/
def Transport.openPage (t : Transport) : Option Nat := t.sides.head?.map fun o => idPage o.sample

def OpenSide.mark (o : OpenSide) (bit : Nat) : OpenSide := { o with flags := o.flags ||| 2 ^ bit }

/-- An event on a transport and on its open page-sides. -/
def State.pageEvent (s : State) (t bit : Nat) : State :=
  (s.colEvent t bit (s.transport t).openPage).onTransport t fun x => { x with sides := x.sides.map (·.mark bit) }

/-- An event on a transport and on the open page-side of one side. -/
def State.sideEvent (s : State) (t side bit : Nat) : State :=
  (s.colEvent t bit (s.transport t).openPage).onTransport t fun x =>
    { x with sides := x.sides.map fun o => if o.side = side then o.mark bit else o }

/-! ### Rows and lines -/

/-- y_k (R169). -/
def TransportCfg.rowPos (c : TransportCfg) (pLead k : Nat) : Nat :=
  wrapN 32 ((pLead : Int) + c.topQc + (k * c.pitch / 65536 : Nat))

/-- A position has reached another (R175). -/
def reached (p t : Nat) : Bool := decide (modSub (2 ^ 32) p t < 2 ^ 31)

/-- The rows up to the last row of R171 that the trailing edge gives, once it is known. -/
def Transport.trailRows (t : Transport) (c : TransportCfg) : Option Nat :=
  t.pTrail.map fun q =>
    let d := sext 32 (modSub (2 ^ 32) (q + c.tailQc) (wrapN 32 ((t.pLead : Int) + c.topQc)))
    if d < 0 then 0 else ((d.toNat + 1) * 65536 - 1) / c.pitch + 1

/-- Rows of the page-side as far as known: never more than MAX_ROWS. -/
def Transport.rowLimit (t : Transport) (c : TransportCfg) : Nat := min c.maxRows ((t.trailRows c).getD c.maxRows)

/-- A list of numbers in rising order. -/
def insRow (a : Nat × Nat) : List (Nat × Nat) → List (Nat × Nat)
  | [] => [a]
  | b :: l => if a.1 < b.1 || (a.1 = b.1 && a.2 ≤ b.2) then a :: b :: l else b :: insRow a l

def sortRows (l : List (Nat × Nat)) : List (Nat × Nat) := l.foldr insRow []

/-- The rows from `k` in steps of `r` whose position, moved by `off`, has been reached; `fuel` bounds their number. -/
def dueRows (pos : Nat → Nat) (off : Int) (r lim high : Nat) : Nat → Nat → List Nat
  | 0, _ => []
  | fuel + 1, k =>
    if k < lim && reached high (wrapN 32 ((pos k : Int) + off)) then k :: dueRows pos off r lim high fuel (k + r) else []

/-- The side of a source is open. -/
def Transport.sideOpen (t : Transport) (side : Nat) : Bool := t.sides.any fun o => o.side = side

/-- The next row of a source or of a strobe. -/
def nextOf (l : List (Nat × Nat)) (i : Nat) : Nat := ((l.find? (·.1 = i)).map (·.2)).getD 0

def setNext (l : List (Nat × Nat)) (i v : Nat) : List (Nat × Nat) := (i, v) :: l.filter (·.1 ≠ i)

/-- Triggers due at the high-water mark, as (row, source), in row order (R174, R175). -/
def Transport.dueTriggers (t : Transport) (c : TransportCfg) : List (Nat × Nat) :=
  sortRows (t.indexed.flatMap fun e =>
    if t.sideOpen e.2.side && decide (e.2.port < 8) then
      (dueRows (c.rowPos t.pLead) e.2.off e.2.ratioY (t.rowLimit c) t.high (c.maxRows + 1) (nextOf t.nextRow e.1)).map
        fun k => (k, e.1)
    else [])

/-! ### Lost lines (R162) -/

/-- Count a lost or discarded line of a source on its page-side. -/
def State.loseLine (s : State) (g : Trigger) : State :=
  match (s.transport g.transport).sources[g.source]? with
  | none => s
  | some src =>
    if g.cal || !(s.transport g.transport).sideOpen src.side then s
    else
      (s.onTransport g.transport fun x =>
        { x with sides := x.sides.map fun o =>
            if o.side = src.side then
              { o with gone := o.gone ++ [(g.source, g.line)], linesLost := satAdd 0xFFFF o.linesLost 1 }
            else o }).sideEvent g.transport src.side 4

/-- Count `n` lines that the front end skipped. -/
def State.skipLines (s : State) (g : Trigger) (n : Nat) : State :=
  match (s.transport g.transport).sources[g.source]? with
  | none => s
  | some src =>
    if g.cal || !(s.transport g.transport).sideOpen src.side then s
    else
      (s.onTransport g.transport fun x =>
        { x with sides := x.sides.map fun o =>
            if o.side = src.side then { o with linesLost := satAdd 0xFFFF o.linesLost n } else o }).sideEvent
        g.transport src.side 4

/-! ### LSYNC (R175, R176) -/

/-- UV outputs of the transport are held low (R190, R191). -/
def Transport.uvHeld (t : Transport) : Bool := !(t.ilkClosed && t.ilkHeld)

def Transport.hasUv (t : Transport) : Bool := (t.cfg.map fun c => c.strobes.any (·.uv)).getD false

/-- UV_EN_n is driven high (R191). -/
def Transport.uvEn (t : Transport) : Bool := t.cfg.isSome && t.hasUv && !t.uvHeld

/-- Transport and side of each line of a trigger that is taken while UV is held off (R191). -/
def State.uvLines (s : State) (gs : List Trigger) : List (Nat × Nat) :=
  (gs.filterMap fun g =>
    let x := s.transport g.transport
    if !g.cal && x.hasUv && x.uvHeld then (x.sources[g.source]?).map fun src => (g.transport, src.side) else none).eraseDups

/-- LSP_n_LSYNC asserts for some lines. A frame still outstanding is lost (R162). -/
def State.issueLsync (s : State) (p : Nat) (gs : List Trigger) (minLine : Nat) : State :=
  let old := (s.lsp p).outstanding
  let s := if old = [] then s
    else ((old.foldl State.loseLine s).bumpSat (rColLspErr p) 16 8 1).onLsp p fun l => { l with known := l.known + 1 }
  let s := (s.uvLines gs).foldl (fun s e => s.sideEvent e.1 e.2 5) s
  (s.onLsp p fun l => { l with outstanding := gs, inMinLine := minLine ≠ 0 }).emit (.lsync p)

/-- A trigger of a port: at once, or once MIN_LINE has passed (R176). -/
def State.triggerPort (s : State) (p : Nat) (gs : List Trigger) (minLine : Nat) : State :=
  if (s.lsp p).inMinLine then s.onLsp p fun l => { l with deferred := l.deferred ++ [gs] }
  else s.issueLsync p gs minLine

/-- LSP_n_MCLK runs: a committed transport has a source on the port, and the collation unit is awake (R199, R201, R539). -/
def State.mclkRuns (s : State) (p : Nat) : Bool :=
  s.colUp && s.col.transports.any fun x => x.sources.any fun src => src.port = p

/-- Issue the triggers of a list in order: sources of one port with one row and one position share an LSYNC. `fuel` bounds the
groups. -/
def State.fireRows (s : State) (t : Nat) : Nat → List (Nat × Nat) → State
  | 0, _ => s
  | _, [] => s
  | fuel + 1, (k, i) :: rest =>
    match (s.transport t).sources[i]? with
    | none => s
    | some src =>
      let same := fun e : Nat × Nat =>
        e.1 = k && (((s.transport t).sources[e.2]?).map fun x => x.port = src.port && x.off = src.off).getD false
      let gs := ((k, i) :: rest.filter same).map fun e =>
        let r := (((s.transport t).sources[e.2]?).map (·.ratioY)).getD 1
        (⟨t, e.2, e.1 / r, false⟩ : Trigger)
      let s := gs.foldl (fun s g =>
        s.onTransport t fun x =>
          { x with nextRow := setNext x.nextRow g.source (k + (((x.sources[g.source]?).map (·.ratioY)).getD 1)) }) s
      State.fireRows (s.triggerPort src.port gs src.minLine) t fuel (rest.filter fun e => !same e)

/-- A dark calibration of the transport is under way: its strobes stay low (R186). -/
def State.darkCal (s : State) (t : Nat) : Bool := s.col.calib.any fun k => k.started && !k.white && t ∈ k.transports

/-- A strobe event begins on a lamp output, or is dropped (R178, R179); a UV output that is held stays low (R190), and every strobe of
the transport in a dark calibration (R186). -/
def State.strobeEvent (s : State) (t : Nat) (b : Strobe) : State :=
  if s.darkCal t then s else
  match s.col.lamps.getD b.output .idle with
  | .idle =>
    if b.uv && (s.transport t).uvHeld then s
    else s.onCol fun c => { c with lamps := c.lamps.set b.output (.delay b.uv t) }
  | _ => s.colEvent t 3 (s.transport t).openPage

/-- Strobe events due at the high-water mark (R178). -/
def State.fireStrobes (s : State) (t : Nat) (c : TransportCfg) : State :=
  let x := s.transport t
  let due := sortRows ((c.strobes.mapIdx fun m b => (m, b)).flatMap fun e =>
    match x.sources[e.2.source]? with
    | none => []
    | some src =>
      if x.sideOpen src.side then
        (dueRows (c.rowPos x.pLead) (src.off + e.2.qoff) src.ratioY (x.rowLimit c) x.high (c.maxRows + 1)
          (nextOf x.nextStrobe e.1)).map fun k => (k, e.1)
      else [])
  due.foldl (fun s e =>
    match c.strobes[e.2]? with
    | none => s
    | some b =>
      let r := ((x.sources[b.source]?).map (·.ratioY)).getD 1
      (s.onTransport t fun x => { x with nextStrobe := setNext x.nextStrobe e.2 (e.1 + r) }).strobeEvent t b) s

/-- A page-side ends: the strobe events of its fired triggers that are still to come are kept (R178). -/
def State.keepStrobes (s : State) (t side : Nat) : State :=
  match (s.transport t).cfg with
  | none => s
  | some c =>
    if c.frameMode then s
    else
      s.onTransport t fun x =>
        { x with lateStrobes := x.lateStrobes ++ (c.strobes.mapIdx fun m b => (m, b)).flatMap fun e =>
            match x.sources[e.2.source]? with
            | none => []
            | some src =>
              if src.side ≠ side then []
              else
                ((List.range (min c.maxRows (nextOf x.nextRow e.2.source))).filter fun k =>
                  k % max 1 src.ratioY = 0 && decide (nextOf x.nextStrobe e.1 ≤ k)).map fun k =>
                    (wrapN 32 ((c.rowPos x.pLead k : Int) + src.off + e.2.qoff), e.2) }

/-- Kept strobe events whose position has been reached begin (R178). -/
def State.fireLate (s : State) (t : Nat) : State :=
  let x := s.transport t
  let due := x.lateStrobes.filter fun e => reached x.pos e.1
  if due = [] then s
  else
    due.foldl (fun s e => s.strobeEvent t e.2)
      (s.onTransport t fun x => { x with lateStrobes := x.lateStrobes.filter fun e => !reached x.pos e.1 })

/-- Fire everything due at the high-water mark. -/
def State.fireDue (s : State) (t : Nat) : State :=
  match (s.transport t).cfg with
  | none => s
  | some c =>
    if !(s.transport t).isOpen then s
    else
      let s := s.fireStrobes t c
      let due := (s.transport t).dueTriggers c
      s.fireRows t due.length due

/-! ### Shading and fusion (R180 to R184) -/

/-- The references of a source: D and W of pixel `x` (R182). -/
def State.refsOf (s : State) (t i bits x : Nat) : Nat × Nat :=
  match s.col.refs.find? fun r => r.transport = t && r.source = i with
  | some r => (r.dark.getD x 0, r.white.getD x (2 ^ bits - 1))
  | none => (0, 2 ^ bits - 1)

/-- The gain of a pixel (R181). -/
def pixelGain (target d w : Nat) : Nat := if w ≤ d then 0 else (target * 2 ^ 17 + (w - d)) / (2 * (w - d))

/-- The corrected value of a sample (R180). -/
def shade (target d w v : Nat) : Nat :=
  if v ≤ d then 0 else min 255 (((v - d) * pixelGain target d w + 32768) / 65536)

/-- The samples of one line, corrected. -/
def State.shadeLine (s : State) (t i : Nat) (target bits : Nat) (vs : List Nat) : List Nat :=
  vs.mapIdx fun x v => let r := s.refsOf t i bits x; shade target r.1 r.2 v

/-- The value between two neighbours (R183). -/
def between (a b r f : Nat) : Nat := if f = 0 then a else (a * (r - f) + b * f + r / 2) / r

/-- Line `j` of a source of an open page-side; a missing line takes the line before it, and line 0 reads 0xFF (R162). -/
def OpenSide.line (o : OpenSide) (i pixels : Nat) : Nat → List Nat
  | 0 => ((o.lines.find? fun l => l.1 = i && l.2.1 = 0).map (·.2.2)).getD (List.replicate pixels 255)
  | j + 1 =>
    match o.lines.find? fun l => l.1 = i && l.2.1 = j + 1 with
    | some l => l.2.2
    | none => o.line i pixels j

/-- Row `k` of a source (R183). A line j + 1 that does not exist reads as line j, so that b is a. -/
def OpenSide.row (o : OpenSide) (i : Nat) (src : Source) (k : Nat) : List Nat :=
  let j := k / src.ratioY
  let f := k % src.ratioY
  let a := o.line i src.pixels j
  if f = 0 then a else List.zipWith (fun x y => between x y src.ratioY f) a (o.line i src.pixels (j + 1))

/-- The columns that a source writes in row `k` (R184). -/
def OpenSide.columns (o : OpenSide) (i : Nat) (src : Source) (k : Nat) : List Nat :=
  let px := o.row i src k
  (List.range (src.pixels * src.ratioX)).map fun c =>
    let x := c / src.ratioX
    let a := px.getD x 255
    between a (px.getD (x + 1) a) src.ratioX (c % src.ratioX)

/-- A row of a plane: 0xFF where no source covers it (R184), 0 beyond WIDTH (R204), where columns of a source are cut (DESIGN CHOICE,
assumption 24). -/
def OpenSide.planeRow (o : OpenSide) (srcs : List (Nat × Source)) (width k : Nat) : Bytes :=
  let blank := List.replicate width (255 : Nat)
  let row := srcs.foldl (fun (r : List Nat) e =>
    let cs := o.columns e.1 e.2 k
    r.take e.2.xDest ++ cs ++ r.drop (e.2.xDest + cs.length)) blank
  (row.take width).map (BitVec.ofNat 8) ++ zeros (roundUp width 64 - width)

/-! ### Planes in the capture pool (R204 to R206) -/

def TransportCfg.width (c : TransportCfg) (side : Nat) : Nat := if side = 0 then c.width0 else c.width1

/-- The output planes of a side, in PLANE order. -/
def TransportCfg.planesOf (c : TransportCfg) (side : Nat) : List Nat :=
  (List.range 8).filter fun p => c.sources.any fun x => x.side = side && x.plane = p

/-- Bytes of a plane set of `n` rows. -/
def TransportCfg.setBytes (c : TransportCfg) (side n : Nat) : Nat :=
  64 + (c.planesOf side).length * (n * roundUp (c.width side) 64)

/-- The plane-set header (R206). -/
def setHeader (sample pLead pTrail rows planes width flags lost over_ : Nat) : Bytes :=
  toLe 8 sample ++ toLe 4 pLead ++ toLe 4 pTrail ++ toLe 2 rows ++ toLe 1 planes ++ [0] ++ toLe 2 width ++
    toLe 2 (roundUp width 64) ++ toLe 2 flags ++ toLe 2 lost ++ toLe 2 over_ ++ zeros 34

/-- Add a page-side to those held. -/
def State.addHeld (s : State) (p : Planes) (fate : HeldFate) : State :=
  s.onAcc fun a =>
    { a with
      held := a.held ++ [⟨p, true, 0, 0, true, a.heldCount, none, fate⟩]
      heldCount := a.heldCount + 1 }

/-- A page-side of which nothing is kept: its fate, with its granules free. -/
def State.failSide (s : State) (t : Nat) (o : OpenSide) (fate : HeldFate) : State :=
  let s := (s.keepStrobes t o.side).onTransport t fun x => { x with sides := x.sides.filter (·.side ≠ o.side) }
  (s.onCol fun c => { c with pool := c.pool.filter (·.owner ≠ .capture o.sample) }).addHeld ⟨o.sample, 0, 0, 0, 0, 0, 0⟩ fate

/-- A page-side closes with `n` rows: its header and planes are in DRAM, the granules beyond them are free, it is held. -/
def State.closeSide (s : State) (t : Nat) (c : TransportCfg) (o : OpenSide) (n : Nat) : State :=
  let x := s.transport t
  let w := c.width o.side
  let ps := c.planesOf o.side
  let hd := setHeader o.sample x.pLead (x.pTrail.getD x.pos) n ps.length w o.flags o.linesLost o.overspeed
  let body := ps.flatMap fun p =>
    let srcs := x.indexed.filter fun e => e.2.side = o.side && e.2.plane = p
    (List.range n).flatMap fun k => o.planeRow srcs w k
  let s := (s.dramWrite o.addr (hd ++ body)).unattributed 4 (hd ++ body).length
  let s := (s.keepStrobes t o.side).onTransport t fun x => { x with sides := x.sides.filter (·.side ≠ o.side) }
  let s := s.onCol fun q =>
    { q with pool := q.pool.map fun p =>
        if p.owner = .capture o.sample then { p with count := granules (c.setBytes o.side n), refs := 0 } else p }
  s.addHeld ⟨o.sample, o.addr, w, n, 0, 0, 16 + ps.length⟩ .held

/-- Lines asked for by a page-side that has ended stand for nothing any more: their frames are still expected. -/
def State.orphan (s : State) (want : Trigger → Bool) : State :=
  s.onCol fun c =>
    { c with lsps := c.lsps.map fun l =>
        { l with
          outstanding := l.outstanding.map fun g => if want g then { g with transport := 4 } else g
          deferred := (l.deferred.map fun gs => gs.filter fun g => !want g).filter (· ≠ []) } }

/-- Rows complete from row 0 with no gap, when every line of a source below `n` lines has come or is lost. -/
def completeRows (r n : Nat) : Nat := if n = 0 then 0 else (n - 1) * r + 1

/-- Lines of a source that have come or are lost. -/
def OpenSide.linesDone (o : OpenSide) (i : Nat) : Nat :=
  (o.lines.filter (·.1 = i)).length + (o.gone.filter (·.1 = i)).length

/-- The rows up to the last complete row of an open page-side (R172). -/
def Transport.rowsDone (x : Transport) (c : TransportCfg) (o : OpenSide) : Nat :=
  ((x.indexed.filter fun e => e.2.side = o.side).map fun e =>
    if c.frameMode then o.linesDone e.1 * e.2.ratioY else completeRows e.2.ratioY (o.linesDone e.1)).foldl min c.maxRows

/-- Close the open page-sides that `want` names at their last complete row, CLIPPED (R172). -/
def State.closeEarly (s : State) (t : Nat) (c : TransportCfg) (want : OpenSide → Bool) : State :=
  let go := (s.transport t).sides.filter want
  let s := go.foldl (fun s o => s.sideEvent t o.side 7) s
  let s := s.orphan fun g =>
    g.transport = t && !g.cal && (((s.transport t).sources[g.source]?).map fun x => go.any (·.side = x.side)).getD false
  ((s.transport t).sides.filter want).foldl (fun s o => s.closeSide t c o ((s.transport t).rowsDone c o)) s

/-- Some line of one side of a transport is asked for and has not come. -/
def State.awaits (s : State) (t side : Nat) : Bool :=
  let mine := fun g : Trigger =>
    g.transport = t && !g.cal && (((s.transport t).sources[g.source]?).any fun src => src.side = side)
  s.col.lsps.any fun l => l.outstanding.any mine || l.deferred.any fun gs => gs.any mine

/-- Close a line-scan page-side after its last row (R171), each side by itself: every source of the side has fired every row, and every
line has come or is lost. Closing at MAX_ROWS sets CLIPPED. -/
def State.closeCheck (s : State) (t : Nat) : State :=
  let x := s.transport t
  match x.cfg with
  | none => s
  | some c =>
    let lim := x.rowLimit c
    let clipped := match x.trailRows c with
      | some n => decide (n > c.maxRows)
      | none => true
    if c.frameMode then s
    else
      ([0, 1] : List Nat).foldl (fun s d =>
        let fired := x.indexed.all fun e => e.2.side ≠ d || decide (nextOf x.nextRow e.1 ≥ lim)
        if !x.sideOpen d || !fired || s.awaits t d then s
        else
          let s := if clipped then s.sideEvent t d 7 else s
          ((s.transport t).sides.filter (·.side = d)).foldl (fun s o => s.closeSide t c o lim) s) s

/-! ### Opening page-sides (R169, R204, R205) -/

/-- The sample ID of a page-side (R168). -/
def sampleId (page side t : Nat) : Nat := page % 2 ^ 45 + 2 ^ 45 * side + 2 ^ 46 * t

/-- Open the page-side of one side, when the pool holds it. -/
def State.openSide (s : State) (t : Nat) (c : TransportCfg) (page side : Nat) : State :=
  let id := sampleId page side t
  let n := granules (c.setBytes side c.maxRows)
  match firstRun s.colGranules n (poolRuns s.col.pool) with
  | none => (s.colEvent t 8 (some page)).addHeld ⟨id, 0, 0, 0, 0, 0, 0⟩ .noRoom
  | some f =>
    (s.onCol fun q => { q with pool := q.pool ++ [⟨f, n, .capture id, 1⟩] }).onTransport t fun x =>
      { x with sides := x.sides ++ [⟨id, side, s.colPoolBase + 65536 * f, [], [], 0, 0, 0⟩] }

/-- Open the page-sides of some sides under the present page number, which then goes up by 1. -/
def State.openSides (s : State) (t : Nat) (c : TransportCfg) (sides : List Nat) : State :=
  let page := (s.transport t).page
  let s := s.onTransport t fun x => { x with page := (x.page + 1) % 2 ^ 45 }
  sides.foldl (fun s side => s.openSide t c page side) s

/-- A leading edge at position `p` of a committed line-scan transport (R169, R172, R187): a calibration under way ends, an open
page-side closes, and a new one opens on each side that has a source. -/
def State.leadEdge (s : State) (t p : Nat) : State :=
  match (s.transport t).cfg with
  | none => s
  | some c =>
    let cals := (s.col.calib.filter fun k => k.started && t ∈ k.transports).map (·.slot)
    let s := if cals = [] then s else s.orphan fun g => g.transport = t && g.cal
    let s := cals.foldl (fun s k => s.closeJob k stConfig 0 0xFF01) s
    let ports := (s.transport t).sources.map (·.port)
    let s := s.onCol fun q => { q with lsps := q.lsps.mapIdx fun i l => if i ∈ ports then { l with muted := false } else l }
    let s := s.closeEarly t c fun _ => true
    let s := s.onTransport t fun x =>
      { x with
        pLead := p, pTrail := none, high := if reached x.pos p then x.pos else p
        nextRow := [], nextStrobe := [] }
    let sides := [0, 1].filter fun d => c.sources.any (·.side = d)
    (s.openSides t c sides).fireDue t

/-- Leading edges latched while the unit slept, taken when it resumes (R538, R539). -/
def State.takeLatches (s : State) : State :=
  if !s.colUp then s
  else
    (List.range 4).foldl (fun s t =>
      let x := s.transport t
      match x.leadLatch with
      | none => s
      | some p =>
        let s := (s.onTransport t fun y => { y with leadLatch := none }).leadEdge t p
        let s := if x.pTrail.isSome && !x.leadActive then s.onTransport t fun y => { y with pTrail := x.pTrail } else s
        s.closeCheck t) s

/-! ### Encoder (R166, R167, R175, R538) -/

/-- The place of a pair of levels in the cycle 00, 10, 11, 01, in which A leads B. -/
def encPhase (a b : Bool) : Nat :=
  match a, b with
  | false, false => 0
  | true, false => 1
  | true, true => 2
  | false, true => 3

/-- DIR of the transport: 0 with no committed configuration (R170). -/
def Transport.dir (t : Transport) : Bool := (t.cfg.map (·.dir)).getD false

/-- Move the position counter by `d` quarter counts. -/
def State.movePos (s : State) (t : Nat) (d : Int) : State :=
  s.onTransport t fun x => { x with pos := wrapN 32 ((x.pos : Int) + d) }

/-- The page-side follows the position: a forward step beyond the high-water mark moves it, a reverse step is measured against
REV_LIM (R175). -/
def State.follow (s : State) (t : Nat) (fwd : Bool) : State :=
  let x := s.transport t
  match x.cfg with
  | none => s
  | some c =>
    if !x.isOpen || c.frameMode then s
    else if fwd then
      if x.pos ≠ x.high && reached x.pos x.high then
        ((s.onTransport t fun y => { y with high := y.pos }).fireDue t).closeCheck t
      else s
    else if modSub (2 ^ 32) x.high x.pos = c.revLim + 1 then s.pageEvent t 2
    else s

/-- ENC_EDGE: the levels after the edge. Both inputs changing is ENC_ERR while the unit is awake; asleep, nothing tells the
sense of such a step, and a free byte decides it. -/
def State.encEdge (s : State) (t : Nat) (a b : Bool) : State :=
  if t ≥ 4 then s
  else
    let x := s.transport t
    let step := (encPhase a b + 4 - encPhase x.encA x.encB) % 4
    let s := s.onTransport t fun y => { y with encA := a, encB := b }
    if step = 0 then s
    else
      let s := s.wake (.enc t)
      if step = 2 then
        if s.colUp then (s.onTransport t fun y => { y with encErrs := y.encErrs + 1 }).pageEvent t 6
        else
          let d := s.drawBytes 1
          d.2.movePos t (if u8 d.1 0 % 2 = 0 then 2 else -2)
      else
        let fwd := (step = 1) != x.dir
        let s := s.movePos t (if fwd then 1 else -1)
        if s.colUp then (if fwd then s.fireLate t else s).follow t fwd else s

/-! ### Leading and trailing edges, double feed, interlock -/

/-- LEAD_ASSERT (R169, R170, R191, R538). -/
def State.leadAssert (s : State) (t : Nat) : State :=
  if t ≥ 4 then s
  else
    let s := s.onTransport t fun x => { x with leadActive := true, ilkHeld := x.ilkClosed }
    match (s.transport t).cfg with
    | none => s
    | some c =>
      let up := s.colUp
      let s := s.wake (.lead t)
      if c.frameMode then s
      else if up then (s.leadEdge t (s.transport t).pos).closeCheck t
      else s.onTransport t fun x => { x with leadLatch := some (x.leadLatch.getD x.pos), pTrail := none }

/-- LEAD_DEASSERT (R171): P_trail is latched for the open page-side, or beside a latched leading edge; not in frame mode, where LEAD_n
is not used (R165). -/
def State.leadDeassert (s : State) (t : Nat) : State :=
  if t ≥ 4 then s
  else
    let s := s.onTransport t fun x => { x with leadActive := false }
    let x := s.transport t
    if (x.isOpen || x.leadLatch.isSome) && !(x.cfg.any (·.frameMode)) then
      let s := s.onTransport t fun y => { y with pTrail := some (y.pTrail.getD y.pos) }
      if s.colUp then s.closeCheck t else s
    else s

/-- DFEED_ASSERT (R173). -/
def State.dfeedAssert (s : State) (t : Nat) : State :=
  if t < 4 && s.colUp && (s.transport t).isOpen then s.pageEvent t 0 else s

/-- ILK_OPEN (R190): UV outputs go low, a pulse under way is cut short. -/
def State.ilkOpen (s : State) (t : Nat) : State :=
  if t ≥ 4 then s
  else
    (s.onTransport t fun x => { x with ilkClosed := false, ilkHeld := false }).onCol fun c =>
      { c with lamps := c.lamps.map fun l => match l with
          | .delay uv u => if uv && u = t then .idle else .delay uv u
          | .high uv u => if uv && u = t then .idle else .high uv u
          | .idle => .idle }

/-- ILK_CLOSE (R191). -/
def State.ilkClose (s : State) (t : Nat) : State :=
  if t ≥ 4 then s else s.onTransport t fun x => { x with ilkClosed := true }

/-- STALL_LIMIT (R175). -/
def State.stallLimit (s : State) (t : Nat) : State :=
  match (s.transport t).cfg with
  | none => s
  | some c => if t < 4 && s.colUp && (s.transport t).isOpen && !c.frameMode then s.pageEvent t 1 else s

/-- STROBE_ON, STROBE_OFF (R178). -/
def State.strobeOn (s : State) (m : Nat) : State :=
  s.onCol fun c =>
    { c with lamps := c.lamps.modify m fun l => match l with
        | .delay uv t => .high uv t
        | l => l }

def State.strobeOff (s : State) (m : Nat) : State :=
  s.onCol fun c =>
    { c with lamps := c.lamps.modify m fun l => match l with
        | .high _ _ => .idle
        | l => l }

/-- LINE_TRIGGER_DEFERRED (R176): MIN_LINE has passed on a port; the oldest trigger held back fires, late. -/
def State.lineTriggerDeferred (s : State) (p : Nat) : State :=
  if !s.colUp || p ≥ 8 then s
  else
    match (s.lsp p).deferred with
    | [] => s.onLsp p fun l => { l with inMinLine := false }
    | gs :: rest =>
      let s := s.onLsp p fun l => { l with deferred := rest }
      let srcs := gs.filterMap fun g => ((s.transport g.transport).sources[g.source]?).map fun x => (g.transport, x)
      let late := (srcs.map fun e => (e.1, e.2.side)).eraseDups
      let s := late.foldl (fun s e =>
        (s.onTransport e.1 fun x =>
          { x with sides := x.sides.map fun o =>
              if o.side = e.2 then { o with overspeed := satAdd 0xFFFF o.overspeed 1 } else o }).sideEvent e.1 e.2 3) s
      s.issueLsync p gs (maxNat (srcs.map (·.2.minLine)))

/-! ### Line frames (R156 to R162, R65) -/

def lfVer (f : Bytes) : Nat := u8 f 0
def lfChannels (f : Bytes) : Nat := u8 f 1
def lfBits (f : Bytes) : Nat := u8 f 2
def lfTest (f : Bytes) : Bool := decide (lfVer f ≥ 0x11) && bitN (u8 f 3) 0
def lfPixels (f : Bytes) : Nat := u16 f 4
def lfSeq (f : Bytes) : Nat := u16 f 6
def lfKind (f : Bytes) (c : Nat) : Nat := bitsN (u32 f 8) (4 * c) 4

/-- Bytes of a sample (R159). -/
def sampleBytes (bits : Nat) : Nat := if bits = 8 then 1 else 2

/-- Bytes of a frame's samples. -/
def lfData (f : Bytes) : Nat := lfPixels f * lfChannels f * sampleBytes (lfBits f)

/-- HCRC holds (R157). -/
def lfHeaderOk (f : Bytes) : Bool := crc16 0xFFFF (sliceB f 0 12) = u16 f 12

/-- The trailer holds, from version 1.1 (R160). -/
def lfTrailerOk (f : Bytes) : Bool :=
  decide (lfVer f < 0x11) || crc32c (sliceB f 0 (16 + lfData f)) = u32 f (16 + lfData f)

/-- Channel `c` of every pixel (R159). -/
def lfChannel (f : Bytes) (c : Nat) : List Nat :=
  let b := sampleBytes (lfBits f)
  let body := sliceB f 16 (lfData f)
  (List.range (lfPixels f)).map fun x => leNat (sliceB body (b * (x * lfChannels f + c)) b)

/-- The sources of a port, over all transports. -/
def State.portSources (s : State) (p : Nat) : List (Nat × Source) :=
  (List.range 4).flatMap fun t => ((s.transport t).sources.filter (·.port = p)).map fun x => (t, x)

/-- A frame agrees with a configured source (R161). -/
def frameFits (f : Bytes) (src : Source) : Bool :=
  src.pixels = lfPixels f && src.sampleBits = lfBits f && decide (src.channelIn < lfChannels f) &&
    lfKind f src.channelIn = src.kind

/-- A frame is discarded: the lines it was to fill are lost with it (R162). -/
def State.dropFrame (s : State) (p : Nat) : State :=
  let gs := (s.lsp p).outstanding
  let s := gs.foldl State.loseLine s
  let s := s.onLsp p fun l => { l with outstanding := [], known := l.known + 1 }
  ((gs.map (·.transport)).eraseDups).foldl State.closeCheck s

/-- A line reaches its page-side. -/
def State.takeLine (s : State) (g : Trigger) (bits : Nat) (vs : List Nat) : State :=
  let x := s.transport g.transport
  match x.sources[g.source]?, x.cfg with
  | some src, some c =>
    let px := s.shadeLine g.transport g.source c.whiteTarget bits vs
    s.onTransport g.transport fun x =>
      { x with sides := x.sides.map fun o =>
          if o.side = src.side then { o with lines := o.lines ++ [(g.source, g.line, px)] } else o }
  | _, _ => s

/-- A line of a calibration (R186). -/
def State.takeCal (s : State) (g : Trigger) (vs : List Nat) : State :=
  s.onCol fun c =>
    { c with calib := c.calib.map fun k =>
        if k.started && g.transport ∈ k.transports then
          { k with sums := k.sums.map fun e =>
              if e.transport = g.transport && e.source = g.source && decide (e.lines < 2 ^ k.avg) then
                { e with lines := e.lines + 1, sums := if e.sums = [] then vs else List.zipWith (· + ·) e.sums vs }
              else e }
        else k }

/-- A frame of a version outside the agreed range ends the page-sides captured on its port (R65). -/
def State.versionEnd (s : State) (p : Nat) : State :=
  let fed := (s.portSources p).map fun e => (e.1, e.2.side)
  let s := s.onLsp p fun l => { l with muted := true, known := l.known + 1, outstanding := [] }
  (List.range 4).foldl (fun s t =>
    let go := (s.transport t).sides.filter fun o => (t, o.side) ∈ fed
    let s := s.orphan fun g =>
      g.transport = t && !g.cal && (((s.transport t).sources[g.source]?).map fun x => go.any (·.side = x.side)).getD false
    let s := go.foldl (fun s o => s.failSide t o .version) s
    if go = [] then s else s.closeCheck t) s

/-- LINE_FRAME: a whole line frame without its sync code (R161, R162, R65). A frame whose CHANNELS lies outside its version's range (5
to 8 before version 1.2) is taken when all else fits: R157 gives no outcome for it (DESIGN CHOICE, assumption 24). -/
def State.lineFrame (s : State) (p : Nat) (f : Bytes) : State :=
  if !s.colUp || p ≥ 8 then s
  else
    let s := s.onLsp p fun l => { l with sync := true }
    if !lfHeaderOk f then (s.bumpSat (rColLspErr p) 0 8 1).dropFrame p
    else if lfVer f < s.regF rHlkVerAgree1 16 8 || s.regF rHlkVerAgree1 24 8 < lfVer f then s.versionEnd p
    else if !lfTrailerOk f then (s.bumpSat (rColLspErr p) 8 8 1).dropFrame p
    else if lfTest f || (s.lsp p).muted then s.dropFrame p
    else if !((s.portSources p).all fun e => frameFits f e.2) then (s.bumpSat (rColLspErr p) 24 8 1).dropFrame p
    else
      let gs := (s.lsp p).outstanding
      if gs = [] then (s.bumpSat (rColLspErr p) 24 8 1).onLsp p fun l => { l with known := l.known + 1 }
      else
        let skipped := match (s.lsp p).lastSeq with
          | some q => modSub 65536 (lfSeq f) (q + 1 + (s.lsp p).known)
          | none => 0
        let s := if skipped = 0 || skipped ≥ 32768 then s
          else (gs.foldl (fun s g => s.skipLines g skipped) s).bumpSat (rColLspErr p) 16 8 skipped
        let s := gs.foldl (fun s g =>
          match (s.transport g.transport).sources[g.source]? with
          | none => s
          | some src =>
            let vs := lfChannel f src.channelIn
            if g.cal then s.takeCal g vs else s.takeLine g (lfBits f) vs) s
        let s := s.onLsp p fun l => { l with outstanding := [], lastSeq := some (lfSeq f), known := 0 }
        ((gs.map (·.transport)).eraseDups).foldl State.closeCheck s

/-! ### CSI (R163 to R165, R188) -/

/-- Sources of a CSI port and virtual channel on a frame-mode transport, with their index. -/
def Transport.csiSources (x : Transport) (port vc : Nat) : List (Nat × Source) :=
  if (x.cfg.map (·.frameMode)).getD false then x.indexed.filter fun e => e.2.port = 8 + port && e.2.vc = vc else []

/-- The calibration that takes the next frame of a source: under way, and short of frames (R188). -/
def State.calFrame (s : State) (t : Nat) (srcs : List (Nat × Source)) : Bool :=
  s.col.calib.any fun k => k.started && t ∈ k.transports && k.sums.any fun e =>
    e.transport = t && srcs.any (·.1 = e.source) && decide (e.frames < 2 ^ k.avg)

/-- FRAME_START (R165, R188). A page-side of the same sides that is still open closes at its last complete row, CLIPPED, as one does at a
leading edge (DESIGN CHOICE, assumption 24). -/
def State.frameStart (s : State) (port vc : Nat) : State :=
  if !s.colUp then s
  else
    let s := s.onCol fun q => { q with csiOpen := addNew q.csiOpen (port, vc) }
    (List.range 4).foldl (fun s t =>
      let x := s.transport t
      let srcs := x.csiSources port vc
      match x.cfg with
      | none => s
      | some c =>
        if srcs = [] then s
        else if s.calFrame t srcs then
          s.onCol fun q =>
            { q with calib := q.calib.map fun k =>
                if k.started && t ∈ k.transports then { k with inFrame := addNew k.inFrame (port, vc) } else k }
        else
          let sides := (srcs.map (·.2.side)).eraseDups
          let s := s.closeEarly t c fun o => o.side ∈ sides
          let d := s.drawBytes 4
          let s := d.2.onTransport t fun y =>
            { y with
              pLead := leNat d.1, pTrail := none
              nextRow := y.nextRow.filter fun e => !(srcs.any (·.1 = e.1)) }
          s.openSides t c sides) s

/-- Close the page-sides of a frame, CLIPPED at MAX_ROWS (R165, R171). -/
def State.closeFrame (s : State) (t : Nat) (c : TransportCfg) (sides : List Nat) (clipped : Bool) : State :=
  let s := if clipped then sides.foldl (fun s d => if (s.transport t).sideOpen d then s.sideEvent t d 7 else s) s else s
  ((s.transport t).sides.filter (·.side ∈ sides)).foldl (fun s o => s.closeSide t c o ((s.transport t).rowsDone c o)) s

/-- FRAME_END (R165). -/
def State.frameEnd (s : State) (port vc : Nat) : State :=
  if !s.colUp then s
  else
    let s := s.onCol fun q => { q with csiOpen := q.csiOpen.filter (· ≠ (port, vc)) }
    (List.range 4).foldl (fun s t =>
      let x := s.transport t
      let srcs := x.csiSources port vc
      match x.cfg with
      | none => s
      | some c =>
        if srcs = [] then s
        else
          let s := s.onCol fun q =>
            { q with calib := q.calib.map fun k =>
                if k.started && t ∈ k.transports && (port, vc) ∈ k.inFrame then
                  { k with
                    inFrame := k.inFrame.filter (· ≠ (port, vc))
                    sums := k.sums.map fun e =>
                      if e.transport = t && srcs.any (·.1 = e.source) then { e with frames := e.frames + 1 } else e }
                else k }
          s.closeFrame t c ((srcs.map (·.2.side)).eraseDups) false) s

/-- Sample bits of the data types of R163; none for a type the ports skip. -/
def csiBits (dt : Nat) : Option Nat :=
  if dt = 0x2A then some 8 else if dt = 0x2B then some 10 else if dt = 0x2C then some 12
  else if dt = 0x1E then some 8 else none

/-- Payload bytes that `n` pixels take (PRESUMED: the packing of MIPI CSI-2). -/
def csiLen (dt n : Nat) : Nat :=
  if dt = 0x2A then n else if dt = 0x2B then ceilDiv (5 * n) 4 else if dt = 0x2C then ceilDiv (3 * n) 2
  else 4 * ceilDiv n 2

/-- Sample of pixel `x`, channel `c`, in a payload: R163's types in the packing of MIPI CSI-2; a chroma sample serves the two
pixels it covers (R165). -/
def csiSample (dt : Nat) (b : Bytes) (c x : Nat) : Nat :=
  if dt = 0x2A then u8 b x
  else if dt = 0x2B then 4 * u8 b (x / 4 * 5 + x % 4) + bitsN (u8 b (x / 4 * 5 + 4)) (2 * (x % 4)) 2
  else if dt = 0x2C then 16 * u8 b (x / 2 * 3 + x % 2) + bitsN (u8 b (x / 2 * 3 + 2)) (4 * (x % 2)) 4
  else if c = 0 then u8 b (2 * x + 1)
  else if c = 1 then u8 b (x / 2 * 4)
  else u8 b (x / 2 * 4 + 2)

/-- One line of a frame for one source: a calibration's, or the next line of its page-side. A line with fewer payload bytes than PIXELS
needs is a lost line, a longer one is cut (DESIGN CHOICE, assumption 24). -/
def State.csiTake (s : State) (t : Nat) (port vc dt : Nat) (b : Bytes) (ok : Bool) (e : Nat × Source) : State :=
  let vs := (List.range e.2.pixels).map fun x => csiSample dt b e.2.channelIn x
  let good := ok && decide (b.length ≥ csiLen dt e.2.pixels)
  if s.col.calib.any fun k => k.started && t ∈ k.transports && (port, vc) ∈ k.inFrame then
    if !good then s
    else
      s.onCol fun q =>
        { q with calib := q.calib.map fun k =>
            if k.started && t ∈ k.transports && (port, vc) ∈ k.inFrame then
              { k with sums := k.sums.map fun a =>
                  if a.transport = t && a.source = e.1 && decide (a.frames < 2 ^ k.avg) then
                    { a with lines := a.lines + 1, sums := if a.sums = [] then vs else List.zipWith (· + ·) a.sums vs }
                  else a }
            else k }
  else if !(s.transport t).sideOpen e.2.side then s
  else
    let j := nextOf (s.transport t).nextRow e.1
    let s := s.onTransport t fun x => { x with nextRow := setNext x.nextRow e.1 (j + 1) }
    let g : Trigger := ⟨t, e.1, j, false⟩
    if good then s.takeLine g e.2.sampleBits vs else s.loseLine g

/-- CSI_LINE (R163 to R165). -/
def State.csiLine (s : State) (port vc dt : Nat) (b : Bytes) (headerErrors : Nat) (crcOk : Bool) : State :=
  if !s.colUp || headerErrors ≥ 2 then s
  else
    match csiBits dt with
    | none => s
    | some bits =>
      (List.range 4).foldl (fun s t =>
        let x := s.transport t
        let srcs := (x.csiSources port vc).filter fun e => e.2.sampleBits = bits
        match x.cfg with
        | none => s
        | some c =>
          let s := srcs.foldl (fun s e => s.csiTake t port vc dt b crcOk e) s
          let full := ((srcs.map (·.2.side)).eraseDups).filter fun d =>
            (s.transport t).sides.any fun o => o.side = d && decide ((s.transport t).rowsDone c o ≥ c.maxRows)
          if full = [] then s else s.closeFrame t c full true) s

/-! ### Abort and release (R177, R209) -/

/-- ABORT: the open page-sides of a transport end with their planes discarded. -/
def State.abortPage (s : State) (t : Nat) : State :=
  if t ≥ 4 || !s.colUp then s
  else
    let s := s.orphan fun g => g.transport = t && !g.cal
    (s.transport t).sides.foldl (fun s o => s.failSide t o .aborted) s

/-- COL_T_DROP: unclaimed page-sides of the transport with PAGE bits [31:0] at or below `v` are freed. -/
def State.dropPages (s : State) (t v : Nat) : State :=
  let go := fun h : HeldSide =>
    h.captured && h.claimedBy.isNone && idTransport h.planes.sample = t && decide (bitsN h.planes.sample 0 32 ≤ v)
  (s.onAcc fun a => { a with held := a.held.filter fun h => !go h }).sweepPools

/-! ### Meanings -/

def execLineFrame (port : Nat) (frame : Bytes) (s : State) : Result := .next (s.whenOn fun s => s.lineFrame port frame)
def execFrameStart (port vc : Nat) (s : State) : Result := .next (s.whenOn fun s => s.frameStart port vc)
def execFrameEnd (port vc : Nat) (s : State) : Result := .next (s.whenOn fun s => s.frameEnd port vc)
def execCsiLine (port vc dataType : Nat) (payload : Bytes) (headerErrors : Nat) (crcOk : Bool) (s : State) : Result :=
  .next (s.whenOn fun s => s.csiLine port vc dataType payload headerErrors crcOk)
def execEncEdge (t : Nat) (a b : Bool) (s : State) : Result := .next (s.whenOn fun s => s.encEdge t a b)
def execLineTriggerDeferred (port : Nat) (s : State) : Result := .next (s.whenOn fun s => s.lineTriggerDeferred port)
def execStrobeOn (m : Nat) (s : State) : Result := .next (s.whenOn fun s => s.strobeOn m)
def execStrobeOff (m : Nat) (s : State) : Result := .next (s.whenOn fun s => s.strobeOff m)
def execStallLimit (t : Nat) (s : State) : Result := .next (s.whenOn fun s => s.stallLimit t)
def execLeadAssert (t : Nat) (s : State) : Result := .next (s.whenOn fun s => s.leadAssert t)
def execLeadDeassert (t : Nat) (s : State) : Result := .next (s.whenOn fun s => s.leadDeassert t)
def execDfeedAssert (t : Nat) (s : State) : Result := .next (s.whenOn fun s => s.dfeedAssert t)
def execIlkOpen (t : Nat) (s : State) : Result := .next (s.whenOn fun s => s.ilkOpen t)
def execIlkClose (t : Nat) (s : State) : Result := .next (s.whenOn fun s => s.ilkClose t)
def execAbort (t : Nat) (s : State) : Result :=
  .next (s.whenHost (rColTCtrl t) 1#32 fun s => if s.fabricHidden (rColTCtrl t) then s else s.abortPage t)
def execColTDrop (t : Nat) (v : Word) (s : State) : Result :=
  .next (s.whenHost (rColTDrop t) v fun s => if s.fabricHidden (rColTDrop t) then s else s.dropPages t v.toNat)

/-- COLLATION_READY (R539): during a wake the collation unit resumes, and takes what was latched. -/
def execCollationReady (s : State) : Result :=
  .next (s.whenOn fun s =>
    if s.dev.waking then (s.onDev fun d => { d with colReady := true }).takeLatches else s)

end Sys2Proof.Machine
end

