-- ==== Sys2Proof/Machine/Capture.lean ====
section
/-! DEFINITION. Capture configuration (R193 to R203) and calibration (R181, R182, R186 to R189). -/

namespace Sys2Proof.Machine

def dAction (d : Bytes) : Nat := u8 d 5
def dTransports (d : Bytes) : Nat := u8 d 6
def dAvg (d : Bytes) : Nat := u8 d 7
def dConfigAddr (d : Bytes) : Nat := u64 d 16
def dConfigLen (d : Bytes) : Nat := u32 d 24

/-- The transports that a descriptor selects. -/
def dSelected (d : Bytes) : List Nat := (List.range 4).filter fun t => bitN (dTransports d) t

/-! ### The configuration block (R194 to R197) -/

def cbSources (b : Bytes) : Nat := u8 b 4
def cbStrobes (b : Bytes) : Nat := u8 b 5
def transportOff (t : Nat) : Nat := 16 + 32 * t
def sourceOff (i : Nat) : Nat := 144 + 32 * i
def strobeOff (n m : Nat) : Nat := 144 + 32 * n + 16 * m

/-- A source entry (R196). -/
def parseSource (b : Bytes) (i : Nat) : Source :=
  let o := sourceOff i
  { port := u8 b o, vc := u8 b (o + 1), transport := u8 b (o + 2), side := u8 b (o + 3), channelIn := u8 b (o + 4),
    plane := u8 b (o + 5), ratioY := u8 b (o + 6), ratioX := u8 b (o + 7), off := s32 b (o + 8), xDest := u16 b (o + 12),
    pixels := u16 b (o + 14), sampleBits := u8 b (o + 16), channels := u8 b (o + 17), minLine := u16 b (o + 18),
    mclkDiv := u8 b (o + 20), kind := u8 b (o + 21) }

/-- A strobe entry (R197), its source as the block numbers it. -/
def parseStrobe (b : Bytes) (m : Nat) : Strobe :=
  let o := strobeOff (cbSources b) m
  { output := u8 b o, source := u8 b (o + 1), uv := bitN (u8 b (o + 2)) 0, qoff := s32 b (o + 4), delay := u16 b (o + 8),
    width := u16 b (o + 10) }

def blockSources (b : Bytes) : List Source := (List.range (cbSources b)).map (parseSource b)
def blockStrobes (b : Bytes) : List Strobe := (List.range (cbStrobes b)).map (parseStrobe b)

/-- The configuration of transport `t` in a block; none when no source names it (R200). Its strobes' sources are numbered
among its own. -/
def parseTransport (b : Bytes) (t : Nat) : Option TransportCfg :=
  let o := transportOff t
  let all := (blockSources b).mapIdx fun i x => (i, x)
  let mine := all.filter fun e => e.2.transport = t
  if mine = [] then none
  else
    some
      { frameMode := bitN (u16 b o) 0, dir := bitN (u16 b o) 1, leadHigh := bitN (u16 b o) 2, dfeedHigh := bitN (u16 b o) 3,
        ilkClosedHigh := bitN (u16 b o) 4, maxRows := u16 b (o + 2), pitch := u32 b (o + 4), topQc := s32 b (o + 8),
        tailQc := u32 b (o + 12), revLim := u16 b (o + 16), stallLim := u16 b (o + 18), width0 := u16 b (o + 20),
        width1 := u16 b (o + 22), filter := u8 b (o + 24), whiteTarget := u8 b (o + 25), sources := mine.map (·.2),
        strobes := (blockStrobes b).filterMap fun z =>
          match mine.findIdx? (·.1 = z.source) with
          | some k => some { z with source := k }
          | none => none }

/-! ### The checks of a COMMIT (R198, R185) -/

/-- The checks of the section of a selected transport: (offset, at fault). `pool` is the size of the capture pool in bytes; a plane
that exceeds it is named by MAX_ROWS, and a WIDTH_1 that is 0 with a back source, or not 0 without one, by itself (DESIGN CHOICE,
assumption 24). -/
def sectionChecks (b : Bytes) (pool t : Nat) : List (Nat × Bool) :=
  let o := transportOff t
  let c := parseTransport b t
  let tooBig := c.any fun c => ([0, 1] : List Nat).any fun d =>
    c.planesOf d ≠ [] && decide (c.maxRows * roundUp (c.width d) 64 > pool)
  let back := c.any fun c => c.sources.any (·.side = 1)
  [(o, decide (u16 b o / 32 ≠ 0)), (o + 2, u16 b (o + 2) = 0 || tooBig), (o + 4, decide (u32 b (o + 4) < 0x10000)),
   (o + 18, u16 b (o + 18) = 0), (o + 20, u16 b (o + 20) = 0 || decide (u16 b (o + 20) > 32768)),
   (o + 22, decide (u16 b (o + 22) > 32768) || back != decide (u16 b (o + 22) ≠ 0)), (o + 24, u8 b (o + 24) = 0), (o + 25, u8 b (o + 25) = 0),
   (o + 26, nonZero b (o + 26) 6)]

/-- Two sources write the same column of one plane (R198). -/
def overlap (a b : Source) : Bool :=
  a.transport = b.transport && a.side = b.side && a.plane = b.plane &&
    decide (a.xDest < b.xDest + b.pixels * b.ratioX) && decide (b.xDest < a.xDest + a.pixels * a.ratioX)

/-- The checks of source `i` (R196, R198): its ranges, and what it may not repeat or contradict of the sources before it. Of several
sources at fault together the later one is named, by X_DEST for a column written twice and by CHANNEL_IN for a port, virtual channel
and channel named twice; a CSI source off frame mode, or a line source in it (R165), by TRANSPORT (DESIGN CHOICE, assumption 24). -/
def sourceChecks (b : Bytes) (sel : List Nat) (i : Nat) : List (Nat × Bool) :=
  let o := sourceOff i
  let x := parseSource b i
  let before := (List.range i).map (parseSource b)
  let mates := before.filter (·.port = x.port)
  let csi := decide (x.port ≥ 8)
  let frame := bitN (u16 b (transportOff x.transport)) 0
  [(o, decide (x.port > 11)),
   (o + 1, if csi then decide (x.vc > 3) else x.vc ≠ 0),
   (o + 2, !(x.transport ∈ sel) || csi != frame || mates.any (·.transport ≠ x.transport)),
   (o + 3, decide (x.side > 1)),
   (o + 4, decide (x.channelIn ≥ x.channels) || mates.any fun y => y.vc = x.vc && y.channelIn = x.channelIn),
   (o + 5, decide (x.plane > 7)),
   (o + 6, x.ratioY = 0 || decide (x.ratioY > 4)),
   (o + 7, x.ratioX = 0 || decide (x.ratioX > 4)),
   (o + 12, before.any (overlap x)),
   (o + 14, x.pixels = 0 || decide (x.pixels > 16384) || mates.any (·.pixels ≠ x.pixels)),
   (o + 16, decide (x.sampleBits < 8) || decide (x.sampleBits > 16) || mates.any (·.sampleBits ≠ x.sampleBits)),
   (o + 17, x.channels = 0 || decide (x.channels > 8) || mates.any (·.channels ≠ x.channels)),
   (o + 18, mates.any (·.minLine ≠ x.minLine)),
   (o + 20, decide (x.mclkDiv < 12) || decide (x.mclkDiv > 120) || mates.any (·.mclkDiv ≠ x.mclkDiv)),
   (o + 21, decide (x.kind > 5)),
   (o + 22, nonZero b (o + 22) 10)]

/-- The checks of strobe `m` (R197, R198). -/
def strobeChecks (b : Bytes) (sel : List Nat) (m : Nat) : List (Nat × Bool) :=
  let o := strobeOff (cbSources b) m
  let z := parseStrobe b m
  let src := (blockSources b)[z.source]?
  [(o, decide (z.output > 15) || ((List.range m).map (parseStrobe b)).any (·.output = z.output)),
   (o + 1, match src with
     | none => true
     | some x => decide (x.port ≥ 8) || !(x.transport ∈ sel)),
   (o + 2, decide (u8 b (o + 2) / 2 ≠ 0)),
   (o + 3, u8 b (o + 3) ≠ 0),
   (o + 10, z.width = 0),
   (o + 12, nonZero b (o + 12) 4)]

/-- A wrong MAGIC, a CONFIG_LEN that disagrees, or a CRC failure (R198). -/
def blockBroken (b : Bytes) (len : Nat) : Bool :=
  sliceB b 0 4 ≠ [0x43, 0x4C, 0x43, 0x46] || len ≠ 144 + 32 * cbSources b + 16 * cbStrobes b ||
    crc32c (sliceB b 16 (len - 16)) ≠ u32 b 8

/-- DETAIL of a refused block (R198): the first field at fault. -/
def blockFault (b : Bytes) (len pool : Nat) (sel : List Nat) : Option Nat :=
  if blockBroken b len then some 0xFFFF
  else
    let head := [(4, cbSources b = 0 || decide (cbSources b > 32)), (5, decide (cbStrobes b > 16)), (6, nonZero b 6 2),
      (12, nonZero b 12 4)]
    let all := head ++ sel.flatMap (sectionChecks b pool) ++ (List.range (cbSources b)).flatMap (sourceChecks b sel) ++
      (List.range (cbStrobes b)).flatMap (strobeChecks b sel)
    (all.find? (·.2)).map (·.1)

/-! ### Jobs of the collation unit (R200 to R202) -/

/-- Queue work for the transports a descriptor selects; with none to wait for, the job ends (R200, R201). -/
def State.queueCapture (s : State) (slot : Nat) (cfgs : List (Nat × Option TransportCfg)) : State :=
  if cfgs = [] then s.closeJob slot stOk 0 0
  else
    (s.onCol fun c => { c with queue := c.queue ++ [(slot, cfgs.map (·.1), cfgs)] }).onJob slot
      fun j => { j with phase := .capture }

/-- COMMIT: the block is read and checked, and refused or queued (R198 to R200). -/
def State.commit (s : State) (n : Nat) (given : Bytes) : State :=
  s.beginDesc n (fun d => dOp d = opCapture && dAction d = 0) fun s d slot =>
    match slot with
    | none => s
    | some k =>
      let len := dConfigLen d
      let r := s.fetchHost (dConfigAddr d) len given
      let b := r.1
      let s := r.2.chargePcie (dClient d) len
      match blockFault b len (65536 * s.colGranules) (dSelected d) with
      | some off => s.closeJob k stConfig 0 off
      | none => s.queueCapture k ((dSelected d).map fun t => (t, parseTransport b t))

/-- STOP (R201). -/
def State.captureStop (s : State) (n : Nat) : State :=
  s.beginDesc n (fun d => dOp d = opCapture && dAction d = 3) fun s d slot =>
    match slot with
    | none => s
    | some k => s.queueCapture k ((dSelected d).map fun t => (t, none))

/-- An earlier capture job selects a transport that this one also selects (R202). -/
def State.captureBlocked (s : State) (slot : Nat) : Bool :=
  match s.job? slot with
  | none => true
  | some j =>
    s.jobs.any fun k =>
      k.slot ≠ slot && decide (k.number < j.number) && dOp k.desc = opCapture && k.phase ≠ .ended &&
        (dSelected k.desc).any fun t => t ∈ dSelected j.desc

/-- PORT, CHANNEL_IN, PIXELS and SAMPLE_BITS of a source. -/
def Source.refKey (a : Source) : Nat × Nat × Nat × Nat := (a.port, a.channelIn, a.pixels, a.sampleBits)

/-- References that a commit keeps (R182): those of a source entry whose PORT, CHANNEL_IN, PIXELS and SAMPLE_BITS are those that they
were measured for. -/
def keepsRefs (r : Refs) (new : List Source) : Bool := (new[r.source]?).any fun a => a.refKey = r.entry

/-- A transport takes a configuration, or is decommitted: its outputs go low (R200, R201). -/
def State.setCfg (s : State) (t : Nat) (cfg : Option TransportCfg) : State :=
  let old := (s.transport t).sources
  let new := (cfg.map (·.sources)).getD []
  let ports := old.map (·.port)
  (s.onTransport t fun x => { x with cfg := cfg, pTrail := none, nextRow := [], nextStrobe := [], lateStrobes := [] }).onCol fun c =>
    { c with
      refs := match cfg with
        | none => c.refs
        | some _ => c.refs.filter fun r => r.transport ≠ t || keepsRefs r new
      lsps := c.lsps.mapIdx fun i l =>
        if i ∈ ports then { l with outstanding := [], deferred := [], inMinLine := false, lastSeq := none, known := 0 } else l
      lamps := c.lamps.map fun l => match l with
        | .delay _ u => if u = t then .idle else l
        | .high _ u => if u = t then .idle else l
        | .idle => l }

/-- CONFIG_APPLY (R200 to R202): at a moment with no page-side open, the work fetched first among what waits for the transport is
applied whole; the job ends once every selected transport has taken it. -/
def State.configApply (s : State) (t : Nat) : State :=
  if !s.colUp || (s.transport t).isOpen then s
  else
    match s.col.queue.find? fun e => t ∈ e.2.1 && !s.captureBlocked e.1 with
    | none => s
    | some e =>
      let cfg := ((e.2.2.find? (·.1 = t)).map (·.2)).getD none
      let left := e.2.1.filter (· ≠ t)
      let s := (s.setCfg t cfg).onCol fun c => { c with queue := updFirst (·.1 = e.1) (fun q => (q.1, left, q.2.2)) c.queue }
      if left = [] then s.closeJob e.1 stOk 0 0 else s

/-! ### Calibration (R186 to R189) -/

/-- CALIBRATE_DARK and CALIBRATE_WHITE: the request waits. -/
def State.calibrate (s : State) (n : Nat) (white : Bool) : State :=
  s.beginDesc n (fun d => dOp d = opCapture && dAction d = (if white then 2 else 1)) fun s d slot =>
    match slot with
    | none => s
    | some k =>
      (s.onCol fun c => { c with calib := c.calib ++ [⟨k, white, dAvg d, dSelected d, false, [], []⟩] }).onJob k
        fun j => { j with phase := .calibrating }

def State.calib? (s : State) (slot : Nat) : Option Calib := s.col.calib.find? (·.slot = slot)

def State.onCalib (s : State) (slot : Nat) (f : Calib → Calib) : State :=
  s.onCol fun c => { c with calib := updFirst (·.slot = slot) f c.calib }

/-- CALIBRATION_START (R186): no page-side of its transports is open, and no earlier capture job stands before it. In a dark calibration
the strobes of its transports go low and stay low. A transport with no committed configuration takes no line and adds none to AMOUNT,
and a calibration of such transports alone ends with OK and AMOUNT 0 (DESIGN CHOICE, assumption 24). -/
def State.calibrationStart (s : State) (slot : Nat) : State :=
  match s.calib? slot with
  | none => s
  | some k =>
    if k.started || !s.colUp || s.captureBlocked slot || k.transports.any (fun t => (s.transport t).isOpen) then s
    else
      let sums := k.transports.flatMap fun t => (s.transport t).indexed.map fun e => (⟨t, e.1, 0, 0, []⟩ : CalSum)
      let s := s.onCalib slot fun k => { k with started := true, sums := sums }
      if k.white then s
      else
        s.onCol fun c =>
          { c with lamps := c.lamps.map fun l => match l with
              | .delay uv u => if u ∈ k.transports then .idle else .delay uv u
              | .high uv u => if u ∈ k.transports then .idle else .high uv u
              | .idle => .idle }

/-- Line-scan sources of a calibration that still want lines, as (port, lines to ask, MIN_LINE). -/
def State.calTriggers (s : State) (k : Calib) (p : Nat) : List Trigger :=
  let onPort := fun e : CalSum => ((s.transport e.transport).sources[e.source]?).any fun x => x.port = p
  (k.sums.filter fun e => decide (e.lines < 2 ^ k.avg) && onPort e).map fun e => ⟨e.transport, e.source, 0, true⟩

/-- The strobes that follow the sources of some triggers. -/
def State.strobesOf (s : State) (gs : List Trigger) : List (Nat × Strobe) :=
  (gs.map (·.transport)).eraseDups.flatMap fun t =>
    (((s.transport t).cfg.map (·.strobes)).getD []).filterMap fun z =>
      if gs.any fun g => g.transport = t && g.source = z.source then some (t, z) else none

/-- CAL_LINE_TRIGGER (R186): one LSYNC on each port that still owes lines; in white calibration its strobes run. -/
def State.calLineTrigger (s : State) (slot : Nat) : State :=
  match s.calib? slot with
  | none => s
  | some k =>
    if !k.started || !s.colUp then s
    else
      (List.range 8).foldl (fun s p =>
        let gs := s.calTriggers k p
        if gs = [] then s
        else
          let s := s.issueLsync p gs (maxNat (gs.map fun g => (((s.transport g.transport).sources[g.source]?).map (·.minLine)).getD 0))
          if k.white then (s.strobesOf gs).foldl (fun s z => s.strobeEvent z.1 z.2) s else s) s

/-- A source has all its lines, or in frame mode all its frames. -/
def State.calSumDone (s : State) (k : Calib) (e : CalSum) : Bool :=
  if ((s.transport e.transport).cfg.map (·.frameMode)).getD false then decide (e.frames ≥ 2 ^ k.avg)
  else decide (e.lines ≥ 2 ^ k.avg)

/-- The new reference of each pixel: the mean of its samples (R186, R188). -/
def calMean (frame : Bool) (avg : Nat) (e : CalSum) : List Nat :=
  e.sums.map fun v => if frame then (if e.lines = 0 then 0 else v / e.lines) else v / 2 ^ avg

/-- Set the dark or the white references of a source. -/
def State.setRefs (s : State) (t i : Nat) (white : Bool) (vs : List Nat) : State :=
  match (s.transport t).sources[i]? with
  | none => s
  | some src =>
    let old := (s.col.refs.find? fun r => r.transport = t && r.source = i).getD
      ⟨t, i, src.refKey, List.replicate src.pixels 0, List.replicate src.pixels (2 ^ src.sampleBits - 1)⟩
    let new := if white then { old with white := vs } else { old with dark := vs }
    s.onCol fun c => { c with refs := (c.refs.filter fun r => !(r.transport = t && r.source = i)) ++ [new] }

/-- Dead pixels of a source: W ≤ D (R181). -/
def State.deadPixels (s : State) (t i : Nat) : Nat :=
  match (s.transport t).sources[i]? with
  | none => 0
  | some src =>
    ((List.range src.pixels).filter fun x => let r := s.refsOf t i src.sampleBits x; decide (r.2 ≤ r.1)).length

/-- CALIBRATION_DONE (R186, R189): every source has its lines; the references are set and the job ends with the number of dead
pixel channels. -/
def State.calibrationDone (s : State) (slot : Nat) : State :=
  match s.calib? slot with
  | none => s
  | some k =>
    if !k.started || !s.colUp || !(k.sums.all fun e => s.calSumDone k e) then s
    else
      let s := k.sums.foldl (fun s e =>
        let frame := ((s.transport e.transport).cfg.map (·.frameMode)).getD false
        s.setRefs e.transport e.source k.white (calMean frame k.avg e)) s
      let dead := (k.sums.map fun e => s.deadPixels e.transport e.source).sum
      (s.orphan fun g => g.cal && g.transport ∈ k.transports).closeAmount slot dead

/-! ### Meanings -/

def execCommit (sq : Nat) (block : Bytes) (s : State) : Result := .next (s.whenOn fun s => s.commit sq block)
def execCalibrateDark (sq : Nat) (s : State) : Result := .next (s.whenOn fun s => s.calibrate sq false)
def execCalibrateWhite (sq : Nat) (s : State) : Result := .next (s.whenOn fun s => s.calibrate sq true)
def execStop (sq : Nat) (s : State) : Result := .next (s.whenOn fun s => s.captureStop sq)
def execConfigApply (t : Nat) (s : State) : Result := .next (s.whenOn fun s => s.configApply t)
def execCalibrationStart (slot : Nat) (s : State) : Result := .next (s.whenOn fun s => s.calibrationStart slot)
def execCalLineTrigger (slot : Nat) (s : State) : Result := .next (s.whenOn fun s => s.calLineTrigger slot)
def execCalibrationDone (slot : Nat) (s : State) : Result := .next (s.whenOn fun s => s.calibrationDone slot)

end Sys2Proof.Machine
end

