-- ==== Sys2Proof/Machine/Link.lean ====
section
/-! DEFINITION. The PCI Express endpoint (R34 to R44, R616), version agreement (R64 to R66), embedded mode (R60), and the
management port but for its register commands (R45 to R59, R617). -/

namespace Sys2Proof.Machine

/-! ### Link events (R44) -/

/-- Device Control at its defaults: 128 B payload (R44); 512 B reads and Relaxed Ordering enabled, and every MSI-X vector masked with
none pending, as the PCI Express base specification has it (PRESUMED, assumptions 6 and 25). -/
def Link.configReset (l : Link) : Link :=
  { l with mps := 0, mrrs := 512, relaxed := true, msixTable := msixReset, msixPending := 0 }

def Link.down (l : Link) : Link := { l.configReset with up := false, speed := 0, width := 0 }

def State.flr (s : State) : State := (s.onLink Link.configReset).linkReset
def State.hotReset (s : State) : State := (s.onLink Link.down).linkReset
def State.linkLoss (s : State) : State := (s.onLink Link.down).linkReset

def State.perstAssert (s : State) : State :=
  (s.onLink fun l => { l.down with perstLow := true, txActive := false }).linkReset

/-- PERST_N_RELEASE (R612): the transmitter leaves electrical idle once step 3 of bring-up has begun. -/
def State.perstRelease (s : State) : State :=
  s.onLink fun l => { l with perstLow := false, txActive := s.dev.step2 || l.txActive }

/-- LINK_UP: the link trains while PERST_N is high and the transmitter is active. -/
def State.linkUp (s : State) (speed width : Nat) : State :=
  if s.link.perstLow || !s.link.txActive || s.link.up || speed = 0 then s
  else s.onLink fun l => { l with up := true, speed := speed, width := width }

/-- Device Control is written (R39, R44): sizes that PCI Express does not allow here leave their field as it was. -/
def State.setDeviceControl (s : State) (mps mrrs : Nat) (ro : Bool) : State :=
  s.onLink fun l =>
    { l with mps := if mps ≤ 2 then mps else l.mps
             mrrs := if mrrs ∈ [128, 256, 512, 1024, 2048, 4096] then mrrs else l.mrrs
             relaxed := ro }

/-- DEVICE_CONTROL_WRITE: in STANDBY the configuration write wakes the part and waits for SERVICE (R44, R616). -/
def State.deviceControl (s : State) (mps mrrs : Nat) (ro : Bool) : State :=
  if s.dev.state = .standby then s.hostWaits (.deviceControl mps mrrs ro) else s.setDeviceControl mps mrrs ro

/-- BAR0_ATOMIC_OP (R594): Unsupported Request, and nothing changes; in STANDBY the request waits for SERVICE (R616), in READY_IDLE
it ends the idling (R534). -/
def State.atomicOp (s : State) (bar off : Nat) : State :=
  if s.dev.state = .standby then s.hostWaits (.atomic bar off) else s.exitIdle.emit .unsupportedRequest

/-! ### BAR2 and BAR4 (R35, R40 to R42) -/

/-- What a read of the kick page returns (R35). -/
def State.bar2Read (_s : State) (_off : Nat) : Word := 0

/-- BAR4 is closed by debug policy: from START_OK on, only an unlocked scope bit 1 opens it (R42). -/
def State.bar4Locked (s : State) : Bool := s.regB rRstStart 0 && !bitN s.sec.scope 1

/-- A BAR4 access to an awake part: reads beyond the usable capacity return all ones, writes there are dropped (R41). -/
def State.bar4 (s : State) (write : Bool) (off len : Nat) (data : Bytes) : State :=
  let base := s.windowBase + off
  if !s.link.bar4 then (if write then s else s.emit .unsupportedRequest)
  else if s.bar4Locked then
    let s := s.flag rHlkStatus 12
    if write then s else s.emit (.bar4Data (List.replicate len 0xFF))
  else if write then s.dramWrite base (data.take (s.dramBytes - base))
  else
    let n := min len (s.dramBytes - base)
    s.emit (.bar4Data (s.dramRead base n ++ List.replicate (len - n) 0xFF))

/-- BAR4_ACCESS: in STANDBY the access wakes the part and waits (R616); in READY_IDLE it ends the idling (R534). -/
def State.bar4Access (s : State) (write : Bool) (off len : Nat) (data : Bytes) : State :=
  if s.dev.state = .standby then s.hostWaits (.bar4 write off len data)
  else s.exitIdle.bar4 write off len data

/-! ### Versions and embedded mode -/

/-- A (LO, HI) pair lies in order inside an advertised range. -/
def rangeOk (lo hi mn mx : Nat) : Bool := decide (lo ≤ hi) && decide (mn ≤ lo) && decide (hi ≤ mx)

/-- HLK_VER_AGREE_WRITE (R66, R597). -/
def State.verAgree (s : State) (hi : Bool) (v : Word) : State :=
  let off := if hi then rHlkVerAgree1 else rHlkVerAgree0
  let cap := s.reg (if hi then rHlkVerCap1 else rHlkVerCap0)
  if s.locked then s.access 2 off
  else
    let ok := rangeOk (wbits v 0 8) (wbits v 8 8) (wbits cap 0 8) (wbits cap 8 8) &&
      rangeOk (wbits v 16 8) (wbits v 24 8) (wbits cap 16 8) (wbits cap 24 8)
    if !ok || allSqs.any s.ringEn then s.flag rHlkStatus 13 else s.setReg off v

/-- MGT_EMB_WRITE (R60): a change of EN is refused while any ring is enabled. -/
def State.mgtEmbWrite (s : State) (v : Word) : State :=
  let s := if wbit v 1 then s.setRegF rMgtEmb 1 1 0 else s
  if s.locked then s.access 2 rMgtEmb
  else if wbit v 0 ≠ s.emb && (allSqs ++ allProds).any s.ringEn then s.flag rMgtEmb 1
  else
    let t := s.setRegF rMgtEmb 0 1 (b2n (wbit v 0))
    if t.emb && !s.emb then t.errsToMailbox else t

/-! ### The management port -/

def State.last (s : State) (c : Nat) : State := s.onMgt fun g => { g with last := c }

/-- MGT_INT_STATUS as read: MBOX copies MBOX_OUT_FULL. -/
def State.intStatus (s : State) : Nat := (s.reg rMgtIntStatus).toNat ||| (if s.mgt.outbox.isSome then 2 else 0)

/-- INT_N is asserted (R61). -/
def State.intN (s : State) : Bool := s.intStatus &&& (s.reg rMgtIntEn).toNat ≠ 0

/-- The management status word (R48). -/
def State.mgtStatus (s : State) : Nat :=
  s.mgt.last + 2 ^ 8 * s.dev.state.code + 2 ^ 12 * b2n s.mgt.dwinBusy + 2 ^ 13 * b2n s.mgt.dwinReady +
    2 ^ 14 * b2n s.mgt.inbox.isSome + 2 ^ 15 * b2n s.mgt.outbox.isSome + 2 ^ 16 * b2n s.mgt.mode8d + 2 ^ 17 * b2n s.intN

/-- The first failing check of a command in R49's order names LAST; with none the command acts. -/
def State.mgtCmd (s : State) (checks : List (Bool × Nat)) (refused : State → State) (act : State → State) : State :=
  let s := s.exitIdle
  match checks.find? (·.1) with
  | some (_, c) => refused (s.last c)
  | none => act (s.last lastOk)

/-- Where window commands are accepted (R51, R52); DRAM is not present while the fabric is in reset. -/
def State.windowChecks (s : State) : List (Bool × Nat) :=
  [(!s.dev.state.serves && s.dev.state ≠ .standby, lastWrongState),
   (s.dev.state = .standby || !s.fabricUp, lastNotAvailable)]

/-- MGT_DWIN_FETCH (R47, R53). A granule byte above 15 or a second data byte other than 0x00 breaks the command's data rule, for which
the spec names no code of its own: ALIGN_LENGTH (DESIGN CHOICE, assumption 60). -/
def State.dwinFetch (s : State) (addr : Nat) (data : Bytes) : State :=
  let n := 16 * (u8 data 0 + 1)
  s.mgtCmd
    (s.windowChecks ++
      [(decide (data.length ≠ 2) || decide (u8 data 0 > 15) || decide (u8 data 1 ≠ 0), lastAlign),
       (s.mgt.dwinBusy, lastBusy), (decide (16 * addr + n > s.dramBytes), lastRange)])
    id fun s => s.onMgt fun g => { g with dwinBusy := true, dwinReady := false, dwinOp := some (true, 16 * addr, n, []) }

def State.dwinFetchDone (s : State) : State :=
  match s.mgt.dwinOp with
  | some (true, a, n, _) =>
    let bs := s.dramRead a n
    s.onMgt fun g => { g with dwinBusy := false, dwinReady := true, window := bs, windowLen := n, dwinOp := none }
  | _ => s

def State.dwinRead (s : State) (addr len : Nat) : State :=
  s.mgtCmd
    (s.windowChecks ++
      [(decide (addr % 16 ≠ 0) || decide (len = 0) || decide (len > 256), lastAlign), (s.mgt.dwinBusy, lastBusy),
       (!s.mgt.dwinReady || decide (addr + len > s.mgt.windowLen), lastRange)])
    (fun s => s.emit (.mgtData (zeros len))) fun s => s.emit (.mgtData (sliceB s.mgt.window addr len))

def State.dwinWrite (s : State) (addr : Nat) (data : Bytes) : State :=
  let n := data.length
  s.mgtCmd
    (s.windowChecks ++
      [(decide (n < 16) || decide (n > 256) || decide (n % 16 ≠ 0), lastAlign), (s.mgt.dwinBusy, lastBusy),
       (decide (16 * addr + n > s.dramBytes), lastRange)])
    id fun s => s.onMgt fun g => { g with dwinBusy := true, dwinReady := false, dwinOp := some (false, 16 * addr, n, data) }

def State.dwinWriteDone (s : State) : State :=
  match s.mgt.dwinOp with
  | some (false, a, _, bs) => (s.dramWrite a bs).onMgt fun g => { g with dwinBusy := false, dwinOp := none }
  | _ => s

def State.mboxWrite (s : State) (data : Bytes) : State :=
  s.mgtCmd
    [(!s.dev.state.serves, lastWrongState), (decide (data.length < 8) || decide (data.length > 256), lastAlign),
     (s.mgt.inbox.isSome, lastBusy)]
    id fun s => s.onMgt fun g => { g with inbox := some data }

/-- Replies held behind the mailbox (R59). -/
def Mgt.repliesHeld (g : Mgt) : Nat := (g.held.filter (·.seq.isSome)).length

/-- MBOX_TAKE: Penuo takes the inbound message and answers it (R57, R58, R617), while fewer than 8 replies are held. -/
def State.mboxTake (s : State) : State :=
  match s.mgt.inbox with
  | none => s
  | some m =>
    if !s.running || s.mgt.repliesHeld ≥ 8 then s
    else
      let s := s.onMgt fun g => { g with inbox := none }
      let len := u16 m 2
      let q := some (u32 m 4)
      if len > 248 || len ≠ m.length - 8 then s.post ⟨mtMalformed, q, [], none⟩
      else if u8 m 0 = mtEcho then s.post ⟨mtEcho, q, m.drop 8, none⟩
      else s.post ⟨mtUnknown, q, [], none⟩

/-- MGT_MBOX_READ: the message is returned and the mailbox passes to the next held message (R47, R59). -/
def State.mboxRead (s : State) (len : Nat) : State :=
  s.mgtCmd
    [(!s.dev.state.serves, lastWrongState), (decide (len ≠ 256), lastAlign), (s.mgt.outbox.isNone, lastRange)]
    (fun s => if s.mgt.last = lastRange then s.emit (.mgtData (zeros 256)) else s)
    fun s =>
      let s := s.emit (.mgtData (sliceB (s.mgt.outbox.getD []) 0 256))
      let s := s.onMgt fun g =>
        match g.held with
        | [] => { g with outbox := none }
        | m :: rest => { g.writeOut m with held := rest }
      let s := if s.emb then s.setRegF rErrNumber 0 32 s.err.number else s
      s.unstick s.err.stuck.length

def State.mgtKick (s : State) (addr len : Nat) : State :=
  s.mgtCmd
    [(s.dev.state = .closedStacks, lastWrongState), (decide (len ≠ 0), lastAlign), (decide (addr > 63), lastRange)] id
    fun s => s.kickRings [addr] .mgt

/-- A command that has no data and is accepted in every state (R47). -/
def State.mgtPlain (s : State) (len : Nat) (act : State → State) : State := s.mgtCmd [(decide (len ≠ 0), lastAlign)] id act

/-- MGT_RESET (R47, R509, R530): a request while one is under way also sets REQ_REFUSED. -/
def State.mgtReset (s : State) (addr len : Nat) : State :=
  let refused := fun s : State => if s.mgt.last = lastBusy then s.refuseReset else s
  s.mgtCmd
    [(s.dev.state = .closedStacks && addr = 2, lastWrongState), (decide (len ≠ 0), lastAlign), (s.rst.reqBusy, lastBusy),
     (decide (addr ≠ 1) && decide (addr ≠ 2), lastRange)]
    refused fun s => s.requestReset (if addr = 1 then .warm else .fabric)

def State.mgtRcvData (s : State) (addr : Nat) (data : Bytes) : State :=
  s.mgtCmd [(s.dev.state ≠ .closedStacks, lastWrongState), (decide (data.length ≠ 256), lastAlign)] id
    fun s => s.rcvBlock addr data

def State.mgtRcvCommit (s : State) (image len : Nat) : State :=
  s.mgtCmd [(s.dev.state ≠ .closedStacks, lastWrongState), (decide (len ≠ 0), lastAlign)] id fun s => s.rcvCommit image

/-- MGT_RD_STATUS (R48, R49): a well-formed one reads the 4 bytes of the status word and LAST keeps its value; any other length sets
LAST and returns nothing. -/
def State.mgtRdStatus (s : State) (len : Nat) : State :=
  if len = 4 then s.exitIdle.emit (.mgtData (toLe 4 s.mgtStatus)) else s.exitIdle.last lastAlign

/-- MGT_BAD_FRAME (R49): the complement check exists in 8D-8D-8D mode only. -/
def State.mgtBadFrame (s : State) (complementOk : Bool) : State :=
  if complementOk then s.exitIdle.last lastUnknown
  else if s.mgt.mode8d then s.exitIdle.last lastOpcodeCheck
  else s

/-- The command of a management frame (R46, R47): `sent` the bytes that the controller sends, first the opcode, in 8D-8D-8D mode its
complement, then the address, most significant byte first, then write data; `len` the bytes of a read's data phase. A byte that the
controller does not send reads 0 (DESIGN CHOICE, assumption 60). -/
def mgtCommand (mode8d : Bool) (sent : Bytes) (len : Nat) : Instr :=
  let op := u8 sent 0
  let rest := sent.drop (if mode8d then 2 else 1)
  let addr := beNat (sliceB rest 0 4)
  let data := rest.drop 4
  let n := data.length + len
  if mode8d && decide (u8 sent 1 ≠ op ^^^ 0xFF) then .mgtBadFrame false
  else
    match op with
    | 0x01 => .mgtRdStatus n
    | 0x02 => .mgtRdReg addr n
    | 0x03 => .mgtWrReg addr data
    | 0x04 => .mgtDwinFetch addr data
    | 0x05 => .mgtDwinRead addr n
    | 0x06 => .mgtDwinWrite addr data
    | 0x07 => .mgtMboxWrite data
    | 0x08 => .mgtMboxRead n
    | 0x09 => .mgtKick addr n
    | 0x0A => .mgtWake n
    | 0x0B => .mgtReset addr n
    | 0x0C => .mgtClearStarts n
    | 0x0D => .mgtMode8d n
    | 0x0E => .mgtMode1s n
    | 0x10 => .mgtRcvData addr data
    | 0x11 => .mgtRcvCommit addr n
    | _ => .mgtBadFrame true

/-! ### Meanings -/

def execFlr (s : State) : Result := .next (s.whenOn State.flr)
def execHotReset (s : State) : Result := .next (s.whenOn State.hotReset)
def execPerstNAssert (s : State) : Result := .next (s.whenOn State.perstAssert)
def execPerstNRelease (s : State) : Result := .next (s.whenOn State.perstRelease)
def execLinkLoss (s : State) : Result := .next (s.whenOn State.linkLoss)
def execLinkUp (speed width : Nat) (s : State) : Result := .next (s.whenOn fun s => s.linkUp speed width)
def execDeviceControlWrite (mps mrrs : Nat) (ro : Bool) (s : State) : Result :=
  .next (s.whenOn fun s => s.deviceControl mps mrrs ro)
def execHostAccessWake (s : State) : Result := .next (s.whenOn fun s => s.wake .host)
def execBar4Access (write : Bool) (off len : Nat) (data : Bytes) (s : State) : Result :=
  .next (s.whenOn fun s => s.bar4Access write off len data)

def execBar0AtomicOp (bar off : Nat) (s : State) : Result := .next (s.whenOn fun s => s.atomicOp bar off)

def execHlkVerAgreeWrite (hi : Bool) (v : Word) (s : State) : Result :=
  .next (s.whenHost (if hi then rHlkVerAgree1 else rHlkVerAgree0) v fun s => s.verAgree hi v)
def execMgtEmbWrite (v : Word) (s : State) : Result := .next (s.whenReg fun s => s.mgtEmbWrite v)

def execMgtRdStatus (s : State) (len : Nat := 0) : Result := .next (s.whenOn fun s => s.mgtRdStatus len)

def execMgtDwinFetch (addr : Nat) (data : Bytes) (s : State) : Result := .next (s.whenOn fun s => s.dwinFetch addr data)
def execDwinFetchDone (s : State) : Result := .next (s.whenOn State.dwinFetchDone)
def execMgtDwinRead (addr len : Nat) (s : State) : Result := .next (s.whenOn fun s => s.dwinRead addr len)
def execMgtDwinWrite (addr : Nat) (data : Bytes) (s : State) : Result := .next (s.whenOn fun s => s.dwinWrite addr data)
def execDwinWriteDone (s : State) : Result := .next (s.whenOn State.dwinWriteDone)
def execMgtMboxWrite (data : Bytes) (s : State) : Result := .next (s.whenOn fun s => s.mboxWrite data)
def execMboxTake (s : State) : Result := .next (s.whenOn State.mboxTake)
def execMgtMboxRead (len : Nat) (s : State) : Result := .next (s.whenOn fun s => s.mboxRead len)
def execMgtKick (addr : Nat) (s : State) (len : Nat := 0) : Result := .next (s.whenOn fun s => s.mgtKick addr len)
def execMgtWake (s : State) (len : Nat := 0) : Result := .next (s.whenOn fun s => s.mgtPlain len fun s => s.wake .mgt)
def execMgtReset (addr : Nat) (s : State) (len : Nat := 0) : Result := .next (s.whenOn fun s => s.mgtReset addr len)

/-- MGT_CLEAR_STARTS (R519). -/
def execMgtClearStarts (s : State) (len : Nat := 0) : Result :=
  .next (s.whenOn fun s => s.mgtPlain len fun s => s.onRst fun r => { r with starts := 0 })

def execMgtMode8d (s : State) (len : Nat := 0) : Result :=
  .next (s.whenOn fun s => s.mgtPlain len fun s => s.onMgt fun g => { g with mode8d := true })
def execMgtMode1s (s : State) (len : Nat := 0) : Result :=
  .next (s.whenOn fun s => s.mgtPlain len fun s => s.onMgt fun g => { g with mode8d := false })
def execMgtRcvData (addr : Nat) (data : Bytes) (s : State) : Result := .next (s.whenOn fun s => s.mgtRcvData addr data)
def execMgtRcvCommit (image : Nat) (s : State) (len : Nat := 0) : Result := .next (s.whenOn fun s => s.mgtRcvCommit image len)
def execMgtBadFrame (complementOk : Bool) (s : State) : Result := .next (s.whenOn fun s => s.mgtBadFrame complementOk)

end Sys2Proof.Machine
end

