-- ==== Sys2Proof/Machine/Errors.lean ====
section
/-! DEFINITION. Error reporting as commands (R552, R553), fences (R561, R562), lasting marks (R558), BAY_BIST (R565 to R568) and
the commands that end jobs, after which a waiting self-test may begin. -/

namespace Sys2Proof.Machine

/-! ### Records (R552, R553) -/

/-- The place in a bay's reserve shelf of a shelf byte address: behind the 256 KiB spill area (R14, R448). -/
def shelfPos (addr : Nat) : Option Nat :=
  if 1024 * 256 ≤ addr then some ((addr - 1024 * 256) / 65536) else none

/-- SHELF_UE in a reserve-shelf shard: the shard leaves the directory (R553). -/
def State.dropBadShard (s : State) (ev : ErrEvent) : State :=
  if ev.kind = ekShelfUe && uaLevel ev.unit = 1 then
    match shelfPos (bitsN ev.detail 0 48) with
    | some p => s.onFol fun g => { g with shards := g.shards.filter fun d => !(d.bay = uaFlatBay ev.unit && d.pos = p) }
    | none => s
  else s

/-- What the carrel's registers and scratch show of an event that it detects (R266, R267): the counters of CAR_ERRCNT, and the stored
word at the address of a scratch error. -/
def State.noteCarrel (s : State) (e : ErrEvent) : State :=
  let c := uaFlatCarrel e.unit
  let word := bitsN e.detail 0 48 / 8
  if uaLevel e.unit ≠ 0 || 192 ≤ c then s
  else if e.kind = ekScratchCe then (s.bumpSat (rCarErrcnt c) 0 8 1).onCarrel c fun r => r.markBad word false
  else if e.kind = ekScratchUe then (s.bumpSat (rCarErrcnt c) 8 8 1).onCarrel c fun r => r.markBad word true
  else if e.kind = ekResidue then s.bumpSat (rCarErrcnt c) 16 8 1
  else if e.kind = ekScratchRange then s.bumpSat (rCarErrcnt c) 24 8 1
  else s

/-- ERROR_RECORD_ISSUE: the oldest summary on its way up, or an event that the hardware detects now, becomes a record. -/
def State.errorRecordIssue (s : State) (ev : Option ErrEvent) : State :=
  match ev with
  | some e => ((s.noteCarrel e).reportError e).dropBadShard e
  | none =>
    match s.err.pending with
    | [] => s
    | e :: rest => ((s.onErr fun x => { x with pending := rest }).reportError e).dropBadShard e

/-! ### Fences (R561, R562) -/

/-- FENCE_WRITE: the shards of a fenced bay leave the directory. -/
def State.fenceWrite (s : State) (k : Nat) (v : Word) : State :=
  let off := if k < 6 then rErrFenceC k else rErrFenceB
  if k > 6 || s.fabricHidden off then s
  else
    let s := s.writeWord off v
    if k = 6 then s.onFol fun g => { g with shards := g.shards.filter fun d => !wbit v d.bay } else s

/-! ### Lasting marks (R558) -/

/-- A unit's bit in the lasting registers: register number as `lastingClear` has it, and bit. -/
def lastingBit (u : Nat) : Nat × Nat :=
  match uaLevel u with
  | 0 => (uaFlatCarrel u / 32, uaFlatCarrel u % 32)
  | 1 => (6, uaFlatBay u)
  | 2 => (6, 24 + uaWing u)
  | _ => (6, 28)

/-- LASTING_CLEAR: a 1 clears the marks of every kind for the unit and empties its history. -/
def State.lastingClear (s : State) (k : Nat) (v : Word) : State :=
  let off := if k < 6 then rErrLastingC k else rErrLastingU
  if k > 6 || s.fabricHidden off then s
  else
    (s.writeWord off v).onErr fun e =>
      { e with pairs := e.pairs.map fun p =>
          if (lastingBit p.unit).1 = k && wbit v (lastingBit p.unit).2 then { p with times := [], lasting := false } else p }

/-! ### BAY_BIST (R565 to R568) -/

def dBay (d : Bytes) : Nat := u8 d 5

/-- DETAIL of a self-test that may not begin (R568). -/
def State.bistRefusal (s : State) (d : Bytes) : Option Nat :=
  if s.dev.state ≠ .test && s.dev.state ≠ .recovery then some 1
  else if dBay d > 23 || s.bayStopped (dBay d) then some 2
  else none

/-- The job whose self-test is next: the one fetched first. -/
def State.bistHead (s : State) : Option Job :=
  (s.jobs.filter fun j => j.slot ∈ s.sch.bistQueue).foldl (fun best j => match best with
    | none => some j
    | some b => if j.number < b.number then some j else some b) none

/-- ERR_CTRL.BIST_DRAIN in AO cycles; 0 is treated as 33 (R566). -/
def State.bistDrain (s : State) : Nat :=
  let n := s.regF rErrCtrl 13 7
  if n = 0 then 33 else n

/-- Begin the self-tests that wait, up to the first that runs; `fuel` bounds the refusals on the way. -/
def State.bistNext : Nat → State → State
  | 0, s => s
  | fuel + 1, s =>
    if s.sch.bist.isSome then s
    else
      match s.bistHead with
      | none => s
      | some j =>
        let s := s.onSch fun h => { h with bistQueue := h.bistQueue.filter (· ≠ j.slot) }
        match s.bistRefusal j.desc with
        | some detail => State.bistNext fuel (s.closeJob j.slot stResources 0 detail)
        | none =>
          (s.onSch fun h => { h with bist := some (dBay j.desc, j.slot), bistLeft := s.bistDrain }).onJob j.slot
            fun j => { j with phase := .bistDrain }

def State.bistStart (s : State) : State := s.bistNext (s.sch.bistQueue.length + 1)

/-- BAY_BIST. -/
def State.bayBist (s : State) (n : Nat) : State :=
  s.beginDesc n (fun d => dOp d = opBayBist) fun s _ slot =>
    match slot with
    | none => s
    | some k => (s.onSch fun h => { h with bistQueue := h.bistQueue ++ [k] }).bistStart

/-- The bay under test with its job, in a phase. -/
def State.bistIn (s : State) (ph : JobPhase) : Option (Nat × Job) :=
  match s.sch.bist with
  | none => none
  | some (b, k) => ((s.job? k).filter fun j => j.phase = ph).map fun j => (b, j)

/-- No context is resident in the bay or spilled there. -/
def State.bayEmpty (s : State) (b : Nat) : Bool := s.sch.ctxs.all fun x => !x.inBay b

/-- BIST_DRAIN_DONE: the bay is empty and its tests begin; they overwrite its shelf, so its shards are gone. -/
def State.bistDrainDone (s : State) : State :=
  match s.bistIn .bistDrain with
  | none => s
  | some (b, j) =>
    if !s.bayEmpty b then s
    else
      (s.onJob j.slot fun j => { j with phase := .bistTest }).onFol fun g =>
        { g with shards := g.shards.filter (·.bay ≠ b) }

/-- BIST_DRAIN_TIMEOUT (R568): the bay still holds a context; it returns to service. -/
def State.bistDrainTimeout (s : State) : State :=
  match s.bistIn .bistDrain with
  | none => s
  | some (b, j) =>
    if s.bayEmpty b then s
    else
      let s := s.onSch fun h => { h with bist := none }
      (s.closeJob j.slot stResources 0 3).bistStart

/-- Failing items among those of the BIST layout (R554). -/
def bistCount (fails : Nat) : Nat := ((List.range 27).filter fun i => bitN fails i).length

/-- The items of the BIST layout that TESTS selects; 0 selects all (R554, R565). -/
def bistItems (tests : Nat) : Nat :=
  let t := tests % 32
  if t = 0 then 0x7FFFFFF
  else (if bitN t 0 then 0xFF else 0) ||| (if bitN t 1 then 0xFF00 else 0) ||| (if bitN t 2 then 0xFF0000 else 0) |||
    (if bitN t 3 then 0x1000000 else 0) ||| (if bitN t 4 then 0x6000000 else 0)

/-- BIST_TESTS_DONE (R567, R512): the bay is released, its pinned shards are filled again, a failure is reported and stops the bay, and the job ends. -/
def State.bistTestsDone (s : State) (fails : Nat) : State :=
  match s.bistIn .bistTest with
  | none => s
  | some (b, j) =>
    let fails := fails &&& bistItems (u8 j.desc 6)
    let s := s.onSch fun h => { h with bist := none }
    let s := s.bayRelease b
    let s := if fails = 0 then s else s.reportError ⟨ekBistFail, unitBay b 0, none, none, fails⟩
    ((s.refillPinned (b / 6)).closeAmount j.slot (bistCount fails)).bistStart

/-! ### Meanings -/

def execErrorRecordIssue (ev : Option ErrEvent) (s : State) : Result := .next (s.whenOn fun s => s.endsIdle fun s => s.errorRecordIssue ev)
def execFenceWrite (k : Nat) (v : Word) (s : State) : Result :=
  .next (s.whenHost (if k < 6 then rErrFenceC k else rErrFenceB) v fun s => s.fenceWrite k v)
def execLastingClear (k : Nat) (v : Word) (s : State) : Result :=
  .next (s.whenHost (if k < 6 then rErrLastingC k else rErrLastingU) v fun s => s.lastingClear k v)
def execBayBist (sq : Nat) (s : State) : Result := .next (s.whenOn fun s => s.bayBist sq)
def execBistDrainDone (s : State) : Result := .next (s.whenOn State.bistDrainDone)
def execBistDrainTimeout (s : State) : Result := .next (s.whenOn State.bistDrainTimeout)
def execBistTestsDone (fails : Nat) (s : State) : Result := .next (s.whenOn fun s => s.bistTestsDone fails)

/-- JOB_TEARDOWN (R499); a self-test that waited for the bay's may begin. -/
def execJobTeardown (slot : Nat) (s : State) : Result := .next (s.whenOn fun s => (s.jobTeardown slot).bistStart)

/-- CANCEL (R101 to R104); a self-test that waited for one cancelled may begin. -/
def execCancel (sq : Nat) (s : State) : Result := .next (s.whenOn fun s => (s.cancel sq).bistStart)

end Sys2Proof.Machine
end

