-- ==== Sys2Proof/Machine/Security.lean ====
section
/-! DEFINITION. Programming OTP and advancing the rollback counter (R573, R579), Penuo updates (R578), attestation (R580 to
R586) and debug unlocking (R587, R588). -/

namespace Sys2Proof.Machine

/-- SERVICE or TEST. -/
def State.serviceOrTest (s : State) : Bool := s.dev.state = .service || s.dev.state = .test

/-! ### OTP programming (R573) -/

/-- Bits or-ed into OTP from an offset: a bit changes only from 0 to 1 (R572). -/
def State.burn (s : State) (off : Nat) (bs : Bytes) : State :=
  s.onSec fun c => { c with otp := c.otp.write off (List.zipWith (· ||| ·) (c.otp.read off bs.length) bs) }

/-- Where a field of SEC_OTP_PROG lies and what is or-ed there: a customer hash, or a bit of POLICY. -/
def otpField (f : Nat) (data : Bytes) : Nat × Bytes :=
  match f with
  | 0 => (32, data)
  | 1 => (64, data)
  | 2 => (104, [1])
  | 3 => (104, [2])
  | _ => (104, [8])

/-- The hash field is absent: all zero (R572). -/
def State.hashAbsent (s : State) (k : Nat) : Bool := (s.otpBytes (32 + 32 * k) 32).all (· = 0)

/-- The 32 bytes staged in SEC_OTP_DATA. -/
def State.otpStaged (s : State) : Bytes := (List.range 8).flatMap fun i => toLe 4 (s.reg (rSecOtpData i)).toNat

/-- SEC_OTP_PROG.GO with field `f`. -/
def State.otpProg (s : State) (f : Nat) : State :=
  if s.fabricHidden rSecOtpProg then s
  else if s.dev.state ≠ .test || s.sec.otpBusy.isSome || f > 4 || (f < 2 && !s.hashAbsent f) then s.flag rSecOtpProg 6
  else
    let d := s.otpStaged
    s.onSec fun c => { c with otpBusy := some (f, d) }

/-- OTP_PROG_DONE: the field is programmed and read back, DONE sets, MS_1 takes the new OTP (R582). -/
def State.otpProgDone (s : State) : State :=
  match s.sec.otpBusy with
  | none => s
  | some (f, d) =>
    let w := otpField f d
    (((s.burn w.1 w.2).onSec fun c => { c with otpBusy := none }).flag rSecOtpProg 5).extendOtp

/-! ### Anti-rollback (R579) -/

/-- A write of SEC_RB_ADVANCE: accepted, or refused with REFUSED set, which wins over the clear that the same write asks for (R8). -/
def State.rbAdvance (s : State) (v : Word) : State :=
  if s.fabricHidden rSecRbAdvance then s
  else
    let s := s.writeWord rSecRbAdvance v
    let n := wbits v 0 7
    let svn := (s.dev.penuo.map (·.svn)).getD 0
    if s.serviceOrTest && s.rollback < n && n ≤ svn && s.sec.rbBusy.isNone then s.onSec fun c => { c with rbBusy := some n }
    else s.flag rSecRbAdvance 7

/-- ROLLBACK_BURN_DONE: ROLLBACK bits below the target are set; MS_1 takes the new OTP. -/
def State.rollbackBurnDone (s : State) : State :=
  match s.sec.rbBusy with
  | none => s
  | some n => ((s.burn 96 (toLe 8 (2 ^ n - 1))).onSec fun c => { c with rbBusy := none }).extendOtp

/-! ### Penuo updates (R578) -/

/-- SEC_FWU_CTRL with GO: an update starts, or STATUS reads that the GO was refused. -/
def State.firmwareUpdate (s : State) (v : Word) : State :=
  if s.fabricHidden rSecFwuCtrl then s
  else if !wbit v 28 then s.writeWord rSecFwuCtrl v
  else if s.sec.fwu.isSome || !s.serviceOrTest then s.onSec fun c => { c with fwuStatus := 6 }
  else
    let s := s.writeWord rSecFwuCtrl v
    let src := s.regPair rSecFwuSrcLo rSecFwuSrcHi
    s.onSec fun c => { c with fwu := some (wbits v 0 28, src), fwuStatus := 1 }

/-- FIRMWARE_UPDATE_DONE: the steps of R578 in order; the first failure gives STATUS. What a flash error leaves in the target slot,
which has no record then, is free (log entry 19). -/
def State.firmwareUpdateDone (s : State) (given : Bytes) (flashError : Bool) : State :=
  match s.sec.fwu with
  | none => s
  | some (len, src) =>
    let r := s.fetchHost src len given
    let img := r.1
    let s := r.2.unattributedHost len
    let fin := fun (s : State) (st : Nat) => s.onSec fun c => { c with fwu := none, fwuStatus := st }
    if !s.imgSigned img len then fin s 3
    else if imgSvn img < s.rollback then fin s 4
    else
      let b := s.updateSlot
      let s := s.dropRecord b
      if flashError then
        let r := s.drawBytes img.length
        fin (r.2.flashWrite (s.slotBase b) r.1) 5
      else
        let s := s.flashWrite (s.slotBase b) img
        fin (s.putRecord b (commitRecord b (s.highSeq + 1) len (imgSvn img) (sha256 img))) 2

/-! ### Attestation (R580 to R586) -/

def dValue (d : Bytes) : Bytes := sliceB d 16 32
def dChain (d : Bytes) : Bool := bitN (u8 d 7) 0
def dMsSlot (d : Bytes) : Nat := u8 d 6
def dReportAddr (d : Bytes) : Nat := u64 d 48
def dReportLen (d : Bytes) : Nat := u32 d 56

/-- The certificate chain lies in flash at 0x0002_0000 (R580). -/
def chainBase : Nat := 0x20000

/-- Bytes of the first `n` certificates from an address, each with its 4-byte length. -/
def State.certBytes (s : State) : Nat → Nat → Nat
  | 0, _ => 0
  | n + 1, a => let k := 4 + leNat (s.flashRead a 4); k + s.certBytes n (a + k)

def State.chainLen (s : State) : Nat := s.certBytes 3 chainBase

/-- The device certificate. -/
def State.deviceCert (s : State) : Bytes := s.flashRead (chainBase + 4) (leNat (s.flashRead chainBase 4))

/-- BOOT of a report, and of SEC_STATUS: slot, host boot, fallback. -/
def BootSrc.bits (p : BootSrc) : Nat := b2n p.slotB + 2 * b2n p.host + 4 * b2n p.fallback

/-- Bytes 0 to 319 of a report (R585). -/
def State.reportHead (s : State) (nonce : Bytes) : Bytes :=
  toLe 4 0x52545441 ++ [0x10] ++ toLe 1 ((s.dev.penuo.map BootSrc.bits).getD 0) ++
    toLe 1 ((s.dev.penuo.map (·.svn)).getD 0) ++ toLe 1 s.rollback ++ s.otpBytes 138 8 ++ toLe 4 s.sec.extendCount ++
    toLe 1 s.sec.scope ++ toLe 1 s.dev.state.code ++ zeros 10 ++ sliceB nonce 0 32 ++
    (List.range 8).flatMap fun i => sliceB (s.sec.ms.getD i []) 0 32

/-- A whole report: the signature of Config, then the chain (R585). -/
def State.reportBytes (s : State) (d : Bytes) : Bytes :=
  let head := s.reportHead (dValue d)
  let n := if dChain d then s.chainLen else 0
  head ++ sliceB (Config.sign head) 0 384 ++ toLe 4 n ++ s.flashRead chainBase n

/-- Queue an ATTEST job at the signing engine. -/
def State.queueAttest (s : State) (slot : Nat) (d : Bytes) : State :=
  (s.onSec fun c => { c with attest := c.attest ++ [⟨slot, d⟩] }).onJob slot fun j => { j with phase := .attest }

/-- REPORT (R586). -/
def State.report (s : State) (n : Nat) : State :=
  s.beginDesc n (fun d => dOp d = opAttest && u8 d 5 = 0) fun s d slot =>
    match slot with
    | none => s
    | some k =>
      let chain := if dChain d then s.chainLen else 0
      if dReportLen d < 708 + chain then s.closeJob k stResources 0 56
      else if dChain d && sha256 s.deviceCert ≠ s.otpBytes 106 32 then s.closeJob k stSignature 0 0
      else s.queueAttest k d

/-- EXTEND (R582). -/
def State.extendJob (s : State) (n : Nat) : State :=
  s.beginDesc n (fun d => dOp d = opAttest && u8 d 5 = 1) fun s d slot =>
    match slot with
    | none => s
    | some k => s.queueAttest k d

/-- The job that the signing engine takes next: the one fetched first (R586). -/
def State.attestHead (s : State) : Option AttestJob :=
  s.sec.attest.foldl (fun best a => match best with
    | none => some a
    | some b =>
      if ((s.job? a.slot).map (·.number)).getD 0 < ((s.job? b.slot).map (·.number)).getD 0 then some a else some b) none

/-- ATTEST_DONE: one job leaves the engine; a report is written, or a slot extended. -/
def State.attestDone (s : State) : State :=
  match s.attestHead with
  | none => s
  | some a =>
    if !s.fabricUp then s
    else
      let d := a.desc
      if u8 d 5 = 1 then (s.extendMs (dMsSlot d) (dValue d)).closeAmount a.slot 0
      else
        let out := s.reportBytes d
        ((s.hostWrite (dReportAddr d) out true).chargePcie (dClient d) out.length).closeAmount a.slot out.length

/-! ### Debug (R587, R588) -/

/-- CHALLENGE: 32 random bytes, SERIAL, and the count of challenges with this one; zeros after 8 failures. -/
def State.challenge (s : State) : State :=
  if s.sec.fails ≥ 8 then (s.emit (.tdo (zeros 48))).onSec fun c => { c with challengeBytes := none }
  else
    let n := s.sec.challengeCount
    let bs := sliceB (Config.challenge n) 0 32 ++ s.otpBytes 138 8 ++ toLe 8 (n + 1)
    (s.emit (.tdo bs)).onSec fun c => { c with challengeBytes := some bs, challengeCount := n + 1 }

/-- A failed response. -/
def State.debugFail (s : State) : State := s.onSec fun c => { c with fails := satAdd 8 c.fails 1 }

/-- RESPONSE: it uses up the challenge and goes to verification; with no challenge outstanding it fails. -/
def State.debugResponse (s : State) (scope block : Bytes) : State :=
  match s.sec.challengeBytes with
  | none => s.debugFail
  | some c0 => s.onSec fun c => { c with challengeBytes := none, response := some (c0, sliceB scope 0 8, sliceB block 0 776) }

/-- DEBUG_DISABLE is set in OTP. -/
def State.debugDisabled (s : State) : Bool := bitN (s.otpByte 104) 3

/-- DEBUG_VERIFY_DONE: a response that verifies unlocks SCOPE and extends MS_4, unless DEBUG_DISABLE is set; any other counts as
a failure. -/
def State.debugVerifyDone (s : State) : State :=
  match s.sec.response with
  | none => s
  | some (c0, scope, block) =>
    let s := s.onSec fun c => { c with response := none }
    if !s.verify block (c0 ++ scope) then s.debugFail
    else if s.debugDisabled then s
    else
      (s.onSec fun c => { c with scope := c.scope ||| (leNat scope % 8) }).extendMs 4 (sha256 (scope ++ block))

/-! ### Meanings -/

def execOtpProgCustHash0 (s : State) : Result := .next (s.whenHost rSecOtpProg 8#32 fun s => s.otpProg 0)
def execOtpProgCustHash1 (s : State) : Result := .next (s.whenHost rSecOtpProg 9#32 fun s => s.otpProg 1)
def execOtpProgRevoke0 (s : State) : Result := .next (s.whenHost rSecOtpProg 10#32 fun s => s.otpProg 2)
def execOtpProgRevoke1 (s : State) : Result := .next (s.whenHost rSecOtpProg 11#32 fun s => s.otpProg 3)
def execOtpProgDebugDisable (s : State) : Result := .next (s.whenHost rSecOtpProg 12#32 fun s => s.otpProg 4)
def execOtpProgDone (s : State) : Result := .next (s.whenOn State.otpProgDone)
def execSecRbAdvance (v : Word) (s : State) : Result := .next (s.whenHost rSecRbAdvance v fun s => s.rbAdvance v)
def execRollbackBurnDone (s : State) : Result := .next (s.whenOn State.rollbackBurnDone)
def execFirmwareUpdate (v : Word) (s : State) : Result :=
  .next (s.whenHost rSecFwuCtrl v fun s => s.firmwareUpdate v)
def execFirmwareUpdateDone (image : Bytes) (flashError : Bool) (s : State) : Result :=
  .next (s.whenOn fun s => s.firmwareUpdateDone image flashError)
def execReport (sq : Nat) (s : State) : Result := .next (s.whenOn fun s => s.report sq)
def execExtend (sq : Nat) (s : State) : Result := .next (s.whenOn fun s => s.extendJob sq)
def execAttestDone (s : State) : Result := .next (s.whenOn State.attestDone)
def execChallenge (s : State) : Result := .next (s.whenOn State.challenge)
def execResponse (scope block : Bytes) (s : State) : Result := .next (s.whenOn fun s => s.debugResponse scope block)
def execDebugVerifyDone (s : State) : Result := .next (s.whenOn State.debugVerifyDone)

end Sys2Proof.Machine
end

