-- ==== Sys2Proof/Machine/RegAccess.lean ====
section
/-! DEFINITION. The set-up register map as seen from outside (chapter 20): what every register reads as, and what a write to it
does, whichever port it comes from; error injection (R267); the ledger's registers; the ends of resets, idling and sleep, after
which work that waited goes on. -/

namespace Sys2Proof.Machine

/-! ### Reads: fields that mirror other state -/

def sysStateWord (s : State) : Nat :=
  s.dev.state.code + 2 ^ 4 * s.dev.prev.code + 2 ^ 8 * b2n s.dev.req.isSome + 2 ^ 9 * s.regF rSysState 9 2 +
    2 ^ 11 * b2n s.dev.fatalEntry

/-- A Bay, Wing or Fabric release is under way. -/
def State.unitsBusy (s : State) : Bool :=
  s.rst.fabricRelease || s.rst.units.any fun u => u.phase = .releasing && decide (u.widest < 3)

def rstStatusWord (s : State) : Nat :=
  s.rst.starts + 2 ^ 3 * s.startLimit + 2 ^ 6 * bitsN (s.otpByte 104) 4 2 + 2 ^ 8 * b2n s.rst.windowRun +
    2 ^ 9 * b2n s.rst.reqBusy + 2 ^ 10 * s.regF rRstStatus 10 1 + 2 ^ 11 * b2n s.unitsBusy

def rcvStatusWord (s : State) : Nat :=
  b2n s.sec.rcvBusy + 2 * b2n s.sec.rcvOverrun + 4 * b2n s.sec.rcvSeqErr + 8 * s.sec.rcvResult + 32 * b2n s.sec.rcvSlotB

def hlkStatusWord (s : State) : Nat :=
  s.link.speed + 2 ^ 3 * s.link.width + 2 ^ 7 * s.link.mps + 2 ^ 9 * s.link.bootSel + 2 ^ 11 * b2n s.link.bar4 +
    2 ^ 12 * s.regF rHlkStatus 12 2

/-- STALLED of a submission ring: a pending descriptor waits at a bound of R88, or fetching is stopped (R90). -/
def State.sqStalled (s : State) (n : Nat) : Bool :=
  s.fetchStop || (s.ringEn (.sq n) && decide (s.pendingDescs n > 0) && !s.maySlot n)

def sqHeadWord (s : State) (n : Nat) : Nat := (s.sq n).own % s.entries (.sq n) + 2 ^ 12 * s.inflight n

def ringStatusWord (s : State) : Nat :=
  s.regF rRingStatus 0 1 + 2 * b2n (s.heldErrs ≠ []) + 4 * b2n (s.ldg.held ≠ []) + 8 * s.regF rRingStatus 3 1 +
    16 * b2n s.fetchStop

def accStatusWord (s : State) : Nat :=
  bitmap ((List.range 11).filter fun k => (s.lane k).isSome) + 2 ^ 11 * b2n (s.acc.poolQueue ≠ [])

def accKeepWord (s : State) : Nat := min 0xFFFF (s.acc.held.filter fun h => !h.captured && h.claimedBy.isNone).length

/-- COL_STATUS; no command tells when a CSI port is in high-speed mode, so CSI_ACTIVE reads 0. -/
def colStatusWord (s : State) : Nat :=
  bitmap ((List.range 8).filter fun p => (s.lsp p).sync) +
    2 ^ 8 * bitmap ((List.range 4).filter fun p => s.col.csiOpen.any (·.1 = p)) +
    2 ^ 12 * bitmap ((List.range 4).filter fun t => (s.transport t).cfg.isSome) +
    2 ^ 16 * bitmap ((List.range 4).filter fun t => (s.transport t).isOpen) +
    2 ^ 20 * bitmap ((List.range 4).filter fun t => s.col.calib.any fun k => k.started && t ∈ k.transports)

def carStatusWord (s : State) : Nat :=
  (s.sch.carrels.filter fun c => c.slots.any (·.2.isSome)).length +
    2 ^ 8 * min 255 (s.sch.carrels.filter fun c => decide (s.arithNow < c.clearUntil)).length + 2 ^ 16 * s.regF rCarInject 10 1

/-- A context in a slot issues: its run goes on, and no switch into the slot is under way. -/
def Carrel.issuing (r : Carrel) (k : Nat) (x : Ctx) : Bool :=
  !x.idle && !x.stopped && !(r.switching.any fun w => w.slot = k)

def carSlotsWord (s : State) (c : Nat) : Nat :=
  let r := s.carrel c
  ((List.range 4).map fun k =>
    let slot := r.slots.getD k ([], none)
    let x := slot.2.bind s.ctx?
    2 ^ (8 * k) *
      (slot.1.length + 2 ^ 5 * b2n slot.2.isSome + 2 ^ 6 * b2n (x.any (·.lc)) + 2 ^ 7 * b2n (x.any (r.issuing k)))).sum

def mdlBits (s : State) (p : Folio → Bool) : Nat := bitmap ((s.fol.folios.filter p).map (·.handle))

def mdlShardsWord (s : State) (w : Nat) : Nat :=
  (s.shardsOf w).length + 2 ^ 8 * ((s.shardsOf w).filter (·.pinned)).length +
    2 ^ 16 * (s.fol.refills.filter (·.1 = w)).length

def schStatusWord (s : State) : Nat :=
  s.kv.seqs.length + 2 ^ 13 * (s.sch.ctxs.filter (·.place.isSome)).length +
    2 ^ 23 * b2n s.spillWaits + 2 ^ 24 * b2n (s.slotQueue ≠ [])

def schSpillWord (s : State) : Nat :=
  (s.sch.ctxs.filter fun x => x.image.isSome && !x.pooled).length +
    2 ^ 10 * (s.sch.ctxs.filter fun x => x.image.isSome && x.pooled).length

/-- KVC_STATUS: no list is kept, and none reads low, while the fabric is in reset, so that it reads 0 then (DESIGN CHOICE,
assumption 33). -/
def kvcStatusWord (s : State) : Nat :=
  bitmap ((List.range 8).filter fun k => s.fabricUp && decide ((s.kv.free.getD k []).length < s.regF (rKvcFree k) 16 16)) +
    2 ^ 8 * b2n (s.kv.seqs.any (·.applying)) + 2 ^ 9 * b2n (s.sch.ctxs.any (·.kvWait))

/-- CAT_STATUS: a unit advances a sequence whose token is taken; a load commits its grammar images in its third step (R439). -/
def catStatusWord (s : State) : Nat :=
  bitmap ((List.range 4).filter fun w => s.kv.seqs.any fun q => q.cat.any fun c => c.wing = some w && c.token.isSome) +
    2 ^ 4 * ((s.fol.folios.filter fun f => f.committed || (f.loaderSlot.bind s.job?).any (·.phase = .loadCommit)).map
      (·.grammars.length)).sum

def catActiveWord (s : State) (w : Nat) : Nat :=
  (s.kv.seqs.filter fun q => q.cat.any fun c => c.wing = some w).length +
    2 ^ 9 * b2n (s.kv.seqs.any fun q => q.cat.any fun c => c.wing = some w && c.row.isSome && (c.mask.isNone || c.token.isSome))

def errStatusWord (s : State) : Nat :=
  s.regF rErrStatus 0 2 + 4 * b2n s.sch.bist.isSome + 8 * ((s.sch.bist.map (·.1)).getD 0)

def errStoppedWord (s : State) : Nat := bitmap s.sch.stoppedBays + 2 ^ 24 * bitmap s.sch.stoppedWings

def slowInfoWord (s : State) : Nat :=
  2 ^ 28 * s.regF rLdgSlowInfo 28 1 + 2 ^ 22 * s.ldg.slow.length +
    match s.ldg.slow with
    | [] => 0
    | e :: _ => e.ratio + 2 ^ 16 * e.sq + 2 ^ 27

def secStatusWord (s : State) : Nat :=
  ((s.dev.penuo.map fun p => p.bits + 8 * p.svn).getD 0) + 2 ^ 10 * s.rollback +
    2 ^ 17 * (b2n (!s.hashAbsent 0) + 2 * b2n (!s.hashAbsent 1)) + 2 ^ 19 * bitsN (s.otpByte 104) 0 2

def dbgStatusWord (s : State) : Nat :=
  s.sec.scope + 8 * s.sec.fails + 128 * b2n (decide (s.sec.fails ≥ 8)) + 256 * b2n s.debugDisabled

/-- Bits that a control register of a ring mirrors: FULL or STALLED. -/
def ringMirror (s : State) (off : Nat) : Option Nat :=
  if rRingSqCtrl 0 ≤ off && off ≤ rRingSqCtrl 63 then
    some ((s.reg off).toNat + 2 ^ 22 * b2n (s.sqStalled ((off - rRingSqCtrl 0) / 4)))
  else if rRingCqCtrl 0 ≤ off && off ≤ rRingCqCtrl 63 then
    some ((s.reg off).toNat + 2 ^ 13 * b2n ((s.cq ((off - rRingCqCtrl 0) / 4)).held ≠ []))
  else if off = rRingErrCtrl then some ((s.reg off).toNat + 2 ^ 12 * b2n (s.err.held ≠ []))
  else if off = rRingLdgCtrl then some ((s.reg off).toNat + 2 ^ 12 * b2n (s.ldg.held ≠ []))
  else if rRingSqHead 0 ≤ off && off ≤ rRingSqHead 63 then some (sqHeadWord s ((off - rRingSqHead 0) / 4))
  else none

/-- Registers that exist once and mirror other state. -/
def singleMirror (s : State) (off : Nat) : Option Nat :=
  if off = rSysTopo then some (putBitsN 0x4468 12 2 s.dev.dramSize)
  else if off = rSysState then some (sysStateWord s)
  else if off = rRstStatus then some (rstStatusWord s)
  else if off = rRstRcvStatus then some (rcvStatusWord s)
  else if off = rPwrStatus then some (s.dev.power.code + 8 * s.regF rPwrStatus 3 1)
  else if off = rPwrDomains then some s.dev.domains
  else if off = rPwrThermStatus then some ((s.reg off).toNat + 2 ^ 13 * b2n s.dev.thermN)
  else if off = rClkStatus then some (s.dev.locked + 32 * s.dev.step + 128 * b2n s.dev.aoFallback)
  else if off = rHlkStatus then some (hlkStatusWord s)
  else if off = rMgtIntStatus then some s.intStatus
  else if off = rRingSlots then some ((s.reg off).toNat + s.jobs.length)
  else if off = rRingStatus then some (ringStatusWord s)
  else if off = rAccStatus then some (accStatusWord s)
  else if off = rAccKeep then some (accKeepWord s)
  else if off = rColStatus then some (colStatusWord s)
  else if off = rCarStatus then some (carStatusWord s)
  else if off = rMdlCommitted then some (mdlBits s (·.committed))
  else if off = rMdlLoading then some (mdlBits s (·.loaderSlot.isSome))
  else if off = rMdlPinned then some (mdlBits s (·.pinned))
  else if off = rSchStatus then some (schStatusWord s)
  else if off = rSchSpill then some (schSpillWord s)
  else if off = rSchLc then some s.admitted.length
  else if off = rKvcStatus then some (kvcStatusWord s)
  else if off = rKvcSwapStatus then some (s.kv.swapRuns.map (·.2.1)).sum
  else if off = rKvcConcStatus then some s.kv.nodes.length
  else if off = rCatStatus then some (catStatusWord s)
  else if off = rErrStatus then some (errStatusWord s)
  else if off = rErrStopped then some (errStoppedWord s)
  else if off = rLdgDeviceUjLo then some (s.deviceUj % 2 ^ 32)
  else if off = rLdgDeviceUjHi then some s.ldg.latchedHi
  else if off = rLdgSlowInfo then some (slowInfoWord s)
  else if off = rLdgSlowTag then some ((s.ldg.slow.head?.map (·.tag)).getD 0)
  else if off = rSecStatus then some (secStatusWord s)
  else if off = rSecSerialLo then some (leNat (s.otpBytes 138 4))
  else if off = rSecSerialHi then some (leNat (s.otpBytes 142 4))
  else if off = rSecFwuCtrl then some ((s.reg off).toNat + 2 ^ 29 * s.sec.fwuStatus)
  else if off = rSecOtpProg then some ((s.reg off).toNat + 16 * b2n s.sec.otpBusy.isSome)
  else if off = rDbgStatus then some (dbgStatusWord s)
  else none

/-- Registers of an array that mirror other state. -/
def arrayMirror (s : State) (off : Nat) : Option Nat :=
  if rColTPos 0 ≤ off && off ≤ rColTPos 3 then some (s.transport ((off - rColTPos 0) / 4)).pos
  else if rCarSlots 0 ≤ off && off ≤ rCarSlots 191 then some (carSlotsWord s ((off - rCarSlots 0) / 4))
  else if rMdlShards 0 ≤ off && off ≤ rMdlShards 3 then some (mdlShardsWord s ((off - rMdlShards 0) / 4))
  else if rSchLcLoad 0 ≤ off && off ≤ rSchLcLoad 191 then
    some (min 0xFFFFFFFF (ceilDiv (s.lcLoad ((off - rSchLcLoad 0) / 4)) 1024))
  else if rKvcFree 0 ≤ off && off ≤ rKvcFree 7 then
    some (putBitsN (s.reg off).toNat 0 16 (min 0xFFFF (s.kv.free.getD ((off - rKvcFree 0) / 4) []).length))
  else if rCatActive 0 ≤ off && off ≤ rCatActive 3 then some (catActiveWord s ((off - rCatActive 0) / 4))
  else none

/-- What a register reads as (R590, R592, R513): 0 when unmapped or hidden by a Fabric release. -/
def State.readReg (s : State) (off : Nat) : Word :=
  if (regRow? off).isNone || s.fabricHidden off then 0
  else
    match (singleMirror s off).orElse fun _ => (ringMirror s off).orElse fun _ => arrayMirror s off with
    | some v => BitVec.ofNat 32 v
    | none => s.reg off

/-- A read of a register: only LDG_DEVICE_UJ_LO has an effect, it latches the high word (R593). -/
def State.readWord (s : State) (off : Nat) : Word × State :=
  (s.readReg off,
   if off = rLdgDeviceUjLo then s.onLdg fun l => { l with latchedHi := s.deviceUj % 2 ^ 64 / 2 ^ 32 } else s)

/-! ### Error injection (R267) -/

/-- A write of CAR_INJECT: ARM is accepted only in TEST and for a carrel at 191 or below. -/
def State.injectWrite (s : State) (v : Word) : State :=
  if s.fabricHidden rCarInject then s
  else if wbit v 10 && (s.dev.state ≠ .test || decide (wbits v 0 8 > 191)) then
    (if wbit v 11 then s.setRegF rCarInject 11 1 0 else s).flag rCarInject 11
  else s.writeWord rCarInject v

/-! ### Writes -/

/-- A ring's control register is written. -/
def State.ringCtrlWrite (s : State) (r : RingId) (v : Word) : State :=
  if wbit v 0 then s.ringEnable r v
  else
    match r with
    | .sq n => s.sqDisable n v
    | .cq n => s.cqDisable n v
    | r => if s.ringEn r then s.clearEn r v else s.writeWord (ringCtrl r) v

/-- The ring whose control register lies at an offset. -/
def ctrlRing (off : Nat) : Option RingId :=
  if rRingSqCtrl 0 ≤ off && off ≤ rRingSqCtrl 63 then some (.sq ((off - rRingSqCtrl 0) / 4))
  else if rRingCqCtrl 0 ≤ off && off ≤ rRingCqCtrl 63 then some (.cq ((off - rRingCqCtrl 0) / 4))
  else if off = rRingErrCtrl then some .err
  else if off = rRingLdgCtrl then some .ldg
  else none

/-- The ring whose base address lies at an offset (R111). -/
def baseRing (off : Nat) : Option RingId :=
  if rRingSqBaseLo 0 ≤ off && off ≤ rRingSqBaseHi 63 then some (.sq ((off - rRingSqBaseLo 0) / 4 % 64))
  else if rRingCqBaseLo 0 ≤ off && off ≤ rRingCqBaseHi 63 then some (.cq ((off - rRingCqBaseLo 0) / 4 % 64))
  else if off = rRingErrBaseLo || off = rRingErrBaseHi then some .err
  else if off = rRingLdgBaseLo || off = rRingLdgBaseHi then some .ldg
  else none

/-- Registers that ignore writes now (R111, R153, R210, R365, R393, R455). -/
def State.writeIgnored (s : State) (off : Nat) : Bool :=
  let sqOn := (List.range 64).any fun n => s.ringEn (.sq n)
  if off = rRingDbBaseLo || off = rRingDbBaseHi then (allSqs ++ allProds).any s.ringEn
  else if off ∈ [rAccPoolBaseLo, rAccPoolBaseHi, rAccPoolSize, rKvcArenaBaseLo, rKvcArenaBaseHi, rKvcArenaSize,
      rKvcSwapBaseLo, rKvcSwapBaseHi, rKvcSwapSize, rMdlAreaBaseLo, rMdlAreaBaseHi, rMdlAreaSize] then sqOn
  else if off ∈ [rColPoolBaseLo, rColPoolBaseHi, rColPoolSize] then s.col.transports.any (·.cfg.isSome)
  else (baseRing off).any s.ringEn

/-- The state that a SYS_STATE_REQ target names; the others cannot be accepted (R28). -/
def reqTarget (n : Nat) : Option DeviceState :=
  match n with
  | 1 => some .standby
  | 3 => some .service
  | 4 => some .test
  | 5 => some .recovery
  | _ => none

/-- A write of RST_REQ (R509). -/
def State.rstReqWrite (s : State) (v : Word) : State :=
  if !wbit v 8 then s
  else
    match wbits v 0 3 with
    | 0 => s.requestReset (.bay (wbits v 3 5))
    | 1 => s.requestReset (.wing (wbits v 3 5))
    | 2 => s.requestReset .fabric
    | 3 => s.requestReset .warm
    | _ => s.refuseReset

/-- Registers of the SYS_, RST_, PWR_, CLK_, HLK_ and MGT_ blocks whose write does more than its access codes say. -/
def State.writeAo (s : State) (off : Nat) (v : Word) : Option State :=
  if off = rSysStateReq then
    some (match reqTarget (wbits v 0 4) with
      | some st => s.stateReq st
      | none => s.sysEvent 9)
  else if off = rRstReq then some (s.rstReqWrite v)
  else if off = rClkArith then some (s.clkArithStep v)
  else if off = rHlkVerAgree0 then some (s.verAgree false v)
  else if off = rHlkVerAgree1 then some (s.verAgree true v)
  else if off = rHlkBoot && wbit v 28 then some (s.hostBootGo (wbits v 0 28))
  else if off = rMgtEmb then some (s.mgtEmbWrite v)
  else none

/-- Registers of the intake and the folios whose write does more than its access codes say. -/
def State.writeIntake (s : State) (off : Nat) (v : Word) : Option State :=
  if off = rAccKeep then some (if wbit v 16 then s.keepDrop else s)
  else if rColTCtrl 0 ≤ off && off ≤ rColTCtrl 3 then
    some (if wbit v 0 then s.abortPage ((off - rColTCtrl 0) / 4) else s)
  else if rColTDrop 0 ≤ off && off ≤ rColTDrop 3 then some (s.dropPages ((off - rColTDrop 0) / 4) v.toNat)
  else if off = rCarInject then some (s.injectWrite v)
  else if off = rMdlShelfSplit then some (s.shelfSplit v)
  else if off = rMdlPinCtrl then
    -- The clear comes first, so a request that is refused leaves REFUSED at 1 (R8, R454).
    some ((if wbit v 6 then s.setRegF rMdlPinCtrl 6 1 0 else s).pinWrite (wbits v 0 5) (wbit v 5))
  else none

/-- Registers of the other blocks whose write does more than its access codes say. -/
def State.writeRest (s : State) (off : Nat) (v : Word) : Option State :=
  if off = rKvcConcCtrl then
    let s := s.setRegF rKvcConcCtrl 0 1 (wbits v 0 1)
    some (if wbit v 1 then s.concFlush else s)
  else if rErrFenceC 0 ≤ off && off ≤ rErrFenceB then some (s.fenceWrite ((off - rErrFenceC 0) / 4) v)
  else if rErrLastingC 0 ≤ off && off ≤ rErrLastingU then some (s.lastingClear ((off - rErrLastingC 0) / 4) v)
  else if off = rLdgCtrl then some (if wbit v 0 then s.ledgerEnable v else s.ledgerDisable v)
  else if off = rLdgSlowPop then some (if wbit v 0 then s.slowPop else s)
  else if off = rSecRbAdvance then some (s.rbAdvance v)
  else if off = rSecFwuCtrl then some (s.firmwareUpdate v)
  else if off = rSecOtpProg then
    let s := s.writeWord rSecOtpProg v
    some (if wbit v 3 then s.otpProg (wbits v 0 3) else s)
  else none

/-- A whole-word write to the map (R590 to R592, R597, R513). -/
def State.writeReg (s : State) (off : Nat) (v : Word) : State :=
  if (regRow? off).isNone then s.access 1 off
  else if s.fabricHidden off || s.writeIgnored off then s
  else
    match ctrlRing off with
    | some r => s.ringCtrlWrite r v
    | none =>
      match (s.writeAo off v).orElse fun _ => (s.writeIntake off v).orElse fun _ => s.writeRest off v with
      | some t => t
      | none => s.writeWord off v

/-- The messages of vectors that are pending and no longer masked go out (R37). -/
def State.sendUnmasked (s : State) : State :=
  let go := (List.range 64).filter fun k => bitN s.link.msixPending k && !s.vecMasked k
  go.foldl (fun s k => (s.onLink fun l => { l with msixPending := l.msixPending - 2 ^ k }).msix k) s

/-- A host write of one word with its byte enables: the MSI-X table (R37) and the map (R591). The pending-bit array is the device's
own: a write of it changes nothing. -/
def State.hostWord (s : State) (off : Nat) (v : Word) (be : BitVec 4) : State :=
  if be ≠ 15#4 then s.access 0 off
  else if isMsixOffset off then
    if off < 0x2C00 then
      (s.onLink fun l => { l with msixTable := l.msixTable.write (off - 0x2800) (toLe 4 v.toNat) }).sendUnmasked
    else s
  else s.writeReg off v

/-- What a host read of a word of BAR0 returns: the MSI-X table and the pending-bit array as they stand (R37), else the register. -/
def State.hostReadWord (s : State) (off : Nat) : Word :=
  if isMsixOffset off then
    BitVec.ofNat 32 (if off < 0x2C00 then leNat (s.link.msixTable.read (off - 0x2800) 4) else bitsN s.link.msixPending (8 * (off - 0x2C00)) 32)
  else s.readReg off

/-- The words of one host write, in ascending offset (R590). -/
def State.hostWords (s : State) (off : Nat) : List (Word × BitVec 4) → State
  | [] => s
  | (v, be) :: rest => (s.hostWord off v be).hostWords (off + 4) rest

/-- REGISTER_WRITE: in STANDBY it wakes the part and waits (R595). -/
def State.registerWrite (s : State) (off : Nat) (words : List (Word × BitVec 4)) : State :=
  if s.dev.state = .standby then s.hostWaits (.write (off / 4 * 4) words)
  else s.exitIdle.hostWords (off / 4 * 4) words

/-- LDG_DEVICE_UJ_LO_READ: a read, which waits in STANDBY like any other (R593, R595, R616). -/
def State.ujRead (s : State) : State :=
  if s.dev.state = .standby then s.hostWaits .ujRead else s.exitIdle.deviceUjRead

/-! ### Through the management port (R47, R50, R599, R600) -/

/-- A word that the port reaches now. -/
def State.mgtReach (s : State) (off : Nat) : Bool :=
  let ao := decide (off < 0x2000) || (decide (0x2080 ≤ off) && decide (off < 0x20C0))
  !isMsixOffset off &&
    !((s.dev.state = .standby || s.dev.state = .closedStacks) && !(ao && (regRow? off).isSome))

/-- Offsets of the words of a command. -/
def mgtWords (addr len : Nat) : List Nat := (List.range (len / 4)).map fun i => addr / 4 * 4 + 4 * i

def State.regChecks (s : State) (addr len : Nat) : List (Bool × Nat) :=
  [((mgtWords addr len).any fun o => !s.mgtReach o, lastNotAvailable),
   (decide (addr % 4 ≠ 0) || decide (len < 4) || decide (len > 256) || decide (len % 4 ≠ 0), lastAlign),
   (decide (addr + len > 0x10000), lastRange)]

/-- Read words in ascending offset. -/
def State.readWords (s : State) : List Nat → Bytes × State
  | [] => ([], s)
  | o :: rest =>
    let r := if s.mgtReach o then s.readWord o else (0, s)
    let t := r.2.readWords rest
    (toLe 4 r.1.toNat ++ t.1, t.2)

/-- MGT_RD_REG: reachable words, and 0 for the others when any is not reachable. -/
def State.mgtRdReg (s : State) (addr len : Nat) : State :=
  let give := fun s : State => let r := s.readWords (mgtWords addr len); r.2.emit (.mgtData r.1)
  s.mgtCmd (s.regChecks addr len)
    (fun s => if s.mgt.last = lastNotAvailable then give s else s.emit (.mgtData (zeros len))) give

/-- MGT_WR_REG: every word, or none. -/
def State.mgtWrReg (s : State) (addr : Nat) (data : Bytes) : State :=
  s.mgtCmd (s.regChecks addr data.length) id fun s =>
    (mgtWords addr data.length).foldl (fun s o => s.writeReg o (BitVec.ofNat 32 (u32 data (o - addr)))) s

/-! ### Work goes on -/

/-- UNIT_RELEASE_DONE: once what is back takes shards again, the pinned ones that any wing lacks are filled (R453, R512). -/
def State.releaseDone (s : State) (u : RstUnit) (boot : BootReport) : State :=
  let s' := s.unitReleaseDone u boot
  if s.phaseOf u ≠ .run && s'.phaseOf u = .run && s'.running then s'.refillAllPinned else s'

/-- READY_IDLE_EXIT_DONE: latched leading edges are taken and pinned shards filled (R534, R538, R452). -/
def State.idleExitDone (s : State) : State :=
  if s.dev.power = .exiting && !s.dev.waking then (s.readyIdleExitDone.takeLatches).refillAllPinned else s

/-- One access that waited for the wake (R616). -/
def State.serveAccess (s : State) : HostAccess → State
  | .write off words => s.hostWords off words
  | .bar4 w off len data => s.bar4 w off len data
  | .ujRead => s.deviceUjRead
  | .kick off => s.kick off
  | .atomic _ _ => s.emit .unsupportedRequest
  | .deviceControl mps mrrs ro => s.setDeviceControl mps mrrs ro

/-- WAKE_COMPLETE: the device is in SERVICE, and what waited is served in order (R539, R616). -/
def State.wakeComplete (s : State) : State :=
  if s.dev.waking && s.dev.state = .standby then
    let s := (s.onDev fun d => { d with colReady := true }).wakeUp
    let s := (s.takeLatches).refillAllPinned
    let todo := s.link.waiting
    todo.foldl State.serveAccess (s.onLink fun l => { l with waiting := [] })
  else s

/-! ### Meanings -/

def execRegisterWrite (off : Nat) (words : List (Word × BitVec 4)) (s : State) : Result :=
  .next (s.whenOn fun s => s.registerWrite off words)
def execCarInjectArm (v : Word) (s : State) : Result := .next (s.whenHost rCarInject v fun s => s.injectWrite v)
def execLedgerEnable (v : Word) (s : State) : Result := .next (s.whenHost rLdgCtrl v fun s => s.ledgerEnable v)
def execLedgerDisable (v : Word) (s : State) : Result := .next (s.whenHost rLdgCtrl v fun s => s.ledgerDisable v)
def execLedgerIntervalClose (s : State) : Result := .next (s.whenOn fun s => s.endsIdle State.ledgerIntervalClose)
def execLdgSlowPop (s : State) : Result := .next (s.whenHost rLdgSlowPop 1#32 State.slowPop)
def execLdgDeviceUjLoRead (s : State) : Result := .next (s.whenOn State.ujRead)
def execMgtRdReg (addr len : Nat) (s : State) : Result := .next (s.whenOn fun s => s.mgtRdReg addr len)
def execMgtWrReg (addr : Nat) (data : Bytes) (s : State) : Result := .next (s.whenOn fun s => s.mgtWrReg addr data)
def execUnitReleaseDone (u : RstUnit) (boot : BootReport) (s : State) : Result :=
  .next (s.whenOn fun s => s.releaseDone u boot)
def execReadyIdleExitDone (s : State) : Result := .next (s.whenOn State.idleExitDone)
def execWakeComplete (s : State) : Result := .next (s.whenOn State.wakeComplete)

end Sys2Proof.Machine
end

