-- ==== Sys2Proof/Machine/Dispatch.lean ====
section
/-! DEFINITION. One arm for each command: its meaning. -/

namespace Sys2Proof.Machine

def exec (i : Instr) (s : State) : Host.Outcome State Fault Refusal :=
  match i with
  | .kick off => Sys2Proof.Machine.execKick off s
  | .doorbellReadDone rec index gen => Sys2Proof.Machine.execDoorbellReadDone rec index gen s
  | .descriptorFetch sq descs => Sys2Proof.Machine.execDescriptorFetch sq descs s
  | .nop sq => Sys2Proof.Machine.execNop sq s
  | .run sq param => Sys2Proof.Machine.execRun sq param s
  | .cancel sq => Sys2Proof.Machine.execCancel sq s
  | .folioLoad sq => Sys2Proof.Machine.execFolioLoad sq s
  | .folioFetchDone slot image => Sys2Proof.Machine.execFolioFetchDone slot image s
  | .folioCommit slot => Sys2Proof.Machine.execFolioCommit slot s
  | .folioUnload sq => Sys2Proof.Machine.execFolioUnload sq s
  | .folioUnloadRelease slot => Sys2Proof.Machine.execFolioUnloadRelease slot s
  | .bayBist sq => Sys2Proof.Machine.execBayBist sq s
  | .bistDrainDone => Sys2Proof.Machine.execBistDrainDone s
  | .bistDrainTimeout => Sys2Proof.Machine.execBistDrainTimeout s
  | .bistTestsDone fails => Sys2Proof.Machine.execBistTestsDone fails s
  | .commit sq block => Sys2Proof.Machine.execCommit sq block s
  | .calibrateDark sq => Sys2Proof.Machine.execCalibrateDark sq s
  | .calibrateWhite sq => Sys2Proof.Machine.execCalibrateWhite sq s
  | .stop sq => Sys2Proof.Machine.execStop sq s
  | .configApply t => Sys2Proof.Machine.execConfigApply t s
  | .calibrationStart slot => Sys2Proof.Machine.execCalibrationStart slot s
  | .calLineTrigger slot => Sys2Proof.Machine.execCalLineTrigger slot s
  | .calibrationDone slot => Sys2Proof.Machine.execCalibrationDone slot s
  | .report sq => Sys2Proof.Machine.execReport sq s
  | .extend sq => Sys2Proof.Machine.execExtend sq s
  | .attestDone => Sys2Proof.Machine.execAttestDone s
  | .stateReqStandby => Sys2Proof.Machine.execStateReqStandby s
  | .stateReqService => Sys2Proof.Machine.execStateReqService s
  | .stateReqTest => Sys2Proof.Machine.execStateReqTest s
  | .stateReqRecovery => Sys2Proof.Machine.execStateReqRecovery s
  | .stateTransitionDone => Sys2Proof.Machine.execStateTransitionDone s
  | .standbyEntryDone => Sys2Proof.Machine.execStandbyEntryDone s
  | .startOk => Sys2Proof.Machine.execStartOk s
  | .startWindowExpiry => Sys2Proof.Machine.execStartWindowExpiry s
  | .watchdogRestart => Sys2Proof.Machine.execWatchdogRestart s
  | .watchdogExpiry => Sys2Proof.Machine.execWatchdogExpiry s
  | .powerOn => Sys2Proof.Machine.execPowerOn s
  | .powerOnRelease coreLow => Sys2Proof.Machine.execPowerOnRelease coreLow s
  | .vddAoLost => Sys2Proof.Machine.execVddAoLost s
  | .brownOut => Sys2Proof.Machine.execBrownOut s
  | .brownOutRelease => Sys2Proof.Machine.execBrownOutRelease s
  | .resetNAssert => Sys2Proof.Machine.execResetNAssert s
  | .resetNRelease => Sys2Proof.Machine.execResetNRelease s
  | .rstReqBay bay => Sys2Proof.Machine.execRstReqBay bay s
  | .rstReqWing wing => Sys2Proof.Machine.execRstReqWing wing s
  | .rstReqFabric => Sys2Proof.Machine.execRstReqFabric s
  | .rstReqWarm => Sys2Proof.Machine.execRstReqWarm s
  | .debugResetRequest warm => Sys2Proof.Machine.execDebugResetRequest warm s
  | .debugResetWithdraw => Sys2Proof.Machine.execDebugResetWithdraw s
  | .clockFailure pll => Sys2Proof.Machine.execClockFailure pll s
  | .lockUp wing => Sys2Proof.Machine.execLockUp wing s
  | .unitIdleAck u => Sys2Proof.Machine.execUnitIdleAck u s
  | .handshakeTimeout u => Sys2Proof.Machine.execHandshakeTimeout u s
  | .forcedResetApplied u => Sys2Proof.Machine.execForcedResetApplied u s
  | .unitReleaseDone u boot => Sys2Proof.Machine.execUnitReleaseDone u boot s
  | .flr => Sys2Proof.Machine.execFlr s
  | .hotReset => Sys2Proof.Machine.execHotReset s
  | .perstNAssert => Sys2Proof.Machine.execPerstNAssert s
  | .perstNRelease => Sys2Proof.Machine.execPerstNRelease s
  | .linkLoss => Sys2Proof.Machine.execLinkLoss s
  | .hostAccessWake => Sys2Proof.Machine.execHostAccessWake s
  | .bar4Access write off len data => Sys2Proof.Machine.execBar4Access write off len data s
  | .bar0AtomicOp bar off => Sys2Proof.Machine.execBar0AtomicOp bar off s
  | .registerWrite off words => Sys2Proof.Machine.execRegisterWrite off words s
  | .ldgDeviceUjLoRead => Sys2Proof.Machine.execLdgDeviceUjLoRead s
  | .sysLock => Sys2Proof.Machine.execSysLock s
  | .hlkVerAgreeWrite hi v => Sys2Proof.Machine.execHlkVerAgreeWrite hi v s
  | .mgtEmbWrite v => Sys2Proof.Machine.execMgtEmbWrite v s
  | .hostBootGo length => Sys2Proof.Machine.execHostBootGo length s
  | .hostBootVerifyDone => Sys2Proof.Machine.execHostBootVerifyDone s
  | .ringEnable r v => Sys2Proof.Machine.execRingEnable r v s
  | .sqRingDisable n v => Sys2Proof.Machine.execSqRingDisable n v s
  | .cqRingDisable n v => Sys2Proof.Machine.execCqRingDisable n v s
  | .keepDrop => Sys2Proof.Machine.execKeepDrop s
  | .abort t => Sys2Proof.Machine.execAbort t s
  | .colTDrop t v => Sys2Proof.Machine.execColTDrop t v s
  | .carInjectArm v => Sys2Proof.Machine.execCarInjectArm v s
  | .shelfSplitWrite v => Sys2Proof.Machine.execShelfSplitWrite v s
  | .folioPin h => Sys2Proof.Machine.execFolioPin h s
  | .folioUnpin h => Sys2Proof.Machine.execFolioUnpin h s
  | .flush => Sys2Proof.Machine.execFlush s
  | .ledgerEnable v => Sys2Proof.Machine.execLedgerEnable v s
  | .ledgerDisable v => Sys2Proof.Machine.execLedgerDisable v s
  | .ldgSlowPop => Sys2Proof.Machine.execLdgSlowPop s
  | .clkArithStep v => Sys2Proof.Machine.execClkArithStep v s
  | .wakeTimerWrite v => Sys2Proof.Machine.execWakeTimerWrite v s
  | .wakeTimerExpiry => Sys2Proof.Machine.execWakeTimerExpiry s
  | .fenceWrite k v => Sys2Proof.Machine.execFenceWrite k v s
  | .lastingClear k v => Sys2Proof.Machine.execLastingClear k v s
  | .otpProgCustHash0 => Sys2Proof.Machine.execOtpProgCustHash0 s
  | .otpProgCustHash1 => Sys2Proof.Machine.execOtpProgCustHash1 s
  | .otpProgRevoke0 => Sys2Proof.Machine.execOtpProgRevoke0 s
  | .otpProgRevoke1 => Sys2Proof.Machine.execOtpProgRevoke1 s
  | .otpProgDebugDisable => Sys2Proof.Machine.execOtpProgDebugDisable s
  | .otpProgDone => Sys2Proof.Machine.execOtpProgDone s
  | .secRbAdvance v => Sys2Proof.Machine.execSecRbAdvance v s
  | .rollbackBurnDone => Sys2Proof.Machine.execRollbackBurnDone s
  | .firmwareUpdate v => Sys2Proof.Machine.execFirmwareUpdate v s
  | .firmwareUpdateDone image flashError => Sys2Proof.Machine.execFirmwareUpdateDone image flashError s
  | .mgtRdStatus len => Sys2Proof.Machine.execMgtRdStatus s len
  | .mgtRdReg addr len => Sys2Proof.Machine.execMgtRdReg addr len s
  | .mgtWrReg addr data => Sys2Proof.Machine.execMgtWrReg addr data s
  | .mgtDwinFetch addr data => Sys2Proof.Machine.execMgtDwinFetch addr data s
  | .dwinFetchDone => Sys2Proof.Machine.execDwinFetchDone s
  | .mgtDwinRead addr len => Sys2Proof.Machine.execMgtDwinRead addr len s
  | .mgtDwinWrite addr data => Sys2Proof.Machine.execMgtDwinWrite addr data s
  | .dwinWriteDone => Sys2Proof.Machine.execDwinWriteDone s
  | .mgtMboxWrite data => Sys2Proof.Machine.execMgtMboxWrite data s
  | .mboxTake => Sys2Proof.Machine.execMboxTake s
  | .mgtMboxRead len => Sys2Proof.Machine.execMgtMboxRead len s
  | .mgtKick addr len => Sys2Proof.Machine.execMgtKick addr s len
  | .mgtWake len => Sys2Proof.Machine.execMgtWake s len
  | .mgtReset addr len => Sys2Proof.Machine.execMgtReset addr s len
  | .mgtClearStarts len => Sys2Proof.Machine.execMgtClearStarts s len
  | .mgtMode8d len => Sys2Proof.Machine.execMgtMode8d s len
  | .mgtMode1s len => Sys2Proof.Machine.execMgtMode1s s len
  | .mgtRcvData addr data => Sys2Proof.Machine.execMgtRcvData addr data s
  | .rcvProgramDone => Sys2Proof.Machine.execRcvProgramDone s
  | .mgtRcvCommit image len => Sys2Proof.Machine.execMgtRcvCommit image s len
  | .rcvCommitDone => Sys2Proof.Machine.execRcvCommitDone s
  | .mgtBadFrame complementOk => Sys2Proof.Machine.execMgtBadFrame complementOk s
  | .recordDispatch slot buf => Sys2Proof.Machine.execRecordDispatch slot buf s
  | .recordDecoded lane => Sys2Proof.Machine.execRecordDecoded lane s
  | .decodeBudgetExpiry lane rows => Sys2Proof.Machine.execDecodeBudgetExpiry lane rows s
  | .seqSlotGrant row slot tables => Sys2Proof.Machine.execSeqSlotGrant row slot s tables
  | .batchPack slot batch crops rowBase => Sys2Proof.Machine.execBatchPack slot batch crops rowBase s
  | .lcAdmission slot now => Sys2Proof.Machine.execLcAdmission slot s now
  | .contextPlace p => Sys2Proof.Machine.execContextPlace p s
  | .contextSwitchDone carrel => Sys2Proof.Machine.execContextSwitchDone carrel s
  | .spillMove bay => Sys2Proof.Machine.execSpillMove bay s
  | .cmdLineFetch carrel slot => Sys2Proof.Machine.execCmdLineFetch carrel slot s
  | .enginePreempt carrel slot vec => Sys2Proof.Machine.execEnginePreempt carrel slot vec s
  | .load carrel slot now => Sys2Proof.Machine.execLoad carrel slot now s
  | .store carrel slot now => Sys2Proof.Machine.execStore carrel slot now s
  | .stream carrel slot now => Sys2Proof.Machine.execStream carrel slot now s
  | .expand carrel slot now => Sys2Proof.Machine.execExpand carrel slot now s
  | .tmac carrel slot now => Sys2Proof.Machine.execTmac carrel slot now s
  | .vec carrel slot now => Sys2Proof.Machine.execVec carrel slot now s
  | .req carrel slot now => Sys2Proof.Machine.execReq carrel slot now s
  | .attn carrel slot now => Sys2Proof.Machine.execAttn carrel slot now s
  | .kvapp carrel slot now => Sys2Proof.Machine.execKvapp carrel slot now s
  | .argmax carrel slot now => Sys2Proof.Machine.execArgmax carrel slot now s
  | .pack carrel slot now => Sys2Proof.Machine.execPack carrel slot now s
  | .cathand carrel slot now => Sys2Proof.Machine.execCathand carrel slot now s
  | .fence carrel slot now => Sys2Proof.Machine.execFence carrel slot now s
  | .signal carrel slot now => Sys2Proof.Machine.execSignal carrel slot now s
  | .waitsig carrel slot now => Sys2Proof.Machine.execWaitsig carrel slot now s
  | .cmdNop carrel slot now => Sys2Proof.Machine.execCmdNop carrel slot now s
  | .commandComplete carrel slot idx now => Sys2Proof.Machine.execCommandComplete carrel slot idx now s
  | .kvDescriptorEmit carrel slot => Sys2Proof.Machine.execKvDescriptorEmit carrel slot s
  | .combinePart carrel slot => Sys2Proof.Machine.execCombinePart carrel slot s
  | .spareTake seq => Sys2Proof.Machine.execSpareTake seq s
  | .kvappResume carrel slot => Sys2Proof.Machine.execKvappResume carrel slot s
  | .editApply seq edit => Sys2Proof.Machine.execEditApply seq edit s
  | .prefixMatch seq prompt => Sys2Proof.Machine.execPrefixMatch seq prompt s
  | .freeListRestock k => Sys2Proof.Machine.execFreeListRestock k s
  | .swapOut => Sys2Proof.Machine.execSwapOut s
  | .swapIn seq data => Sys2Proof.Machine.execSwapIn seq data s
  | .cardSummaryBuild seq basePos => Sys2Proof.Machine.execCardSummaryBuild seq basePos s
  | .refillDone wing handle shard => Sys2Proof.Machine.execRefillDone wing handle shard s
  | .tokenChoice seq => Sys2Proof.Machine.execTokenChoice seq s
  | .catalogAdvance seq => Sys2Proof.Machine.execCatalogAdvance seq s
  | .lineFrame port frame => Sys2Proof.Machine.execLineFrame port frame s
  | .frameStart port vc => Sys2Proof.Machine.execFrameStart port vc s
  | .frameEnd port vc => Sys2Proof.Machine.execFrameEnd port vc s
  | .csiLine port vc dataType payload headerErrors crcOk => Sys2Proof.Machine.execCsiLine port vc dataType payload headerErrors crcOk s
  | .encEdge t a b => Sys2Proof.Machine.execEncEdge t a b s
  | .lineTriggerDeferred port => Sys2Proof.Machine.execLineTriggerDeferred port s
  | .strobeOn m => Sys2Proof.Machine.execStrobeOn m s
  | .strobeOff m => Sys2Proof.Machine.execStrobeOff m s
  | .stallLimit t => Sys2Proof.Machine.execStallLimit t s
  | .leadAssert t => Sys2Proof.Machine.execLeadAssert t s
  | .leadDeassert t => Sys2Proof.Machine.execLeadDeassert t s
  | .dfeedAssert t => Sys2Proof.Machine.execDfeedAssert t s
  | .ilkOpen t => Sys2Proof.Machine.execIlkOpen t s
  | .ilkClose t => Sys2Proof.Machine.execIlkClose t s
  | .readyIdleEntry aborted => Sys2Proof.Machine.execReadyIdleEntry aborted s
  | .readyIdleExitDone => Sys2Proof.Machine.execReadyIdleExitDone s
  | .wakeComplete => Sys2Proof.Machine.execWakeComplete s
  | .collationReady => Sys2Proof.Machine.execCollationReady s
  | .tempUpdate readings => Sys2Proof.Machine.execTempUpdate readings s
  | .aoClockFallback => Sys2Proof.Machine.execAoClockFallback s
  | .ledgerIntervalClose => Sys2Proof.Machine.execLedgerIntervalClose s
  | .errorRecordIssue ev => Sys2Proof.Machine.execErrorRecordIssue ev s
  | .jobTeardown slot => Sys2Proof.Machine.execJobTeardown slot s
  | .challenge => Sys2Proof.Machine.execChallenge s
  | .response scope block => Sys2Proof.Machine.execResponse scope block s
  | .debugVerifyDone => Sys2Proof.Machine.execDebugVerifyDone s
  | .deviceControlWrite mps mrrs ro => Sys2Proof.Machine.execDeviceControlWrite mps mrrs ro s
  | .linkUp speed width => Sys2Proof.Machine.execLinkUp speed width s

end Sys2Proof.Machine
end

