-- ==== Sys2Proof/Machine/Step.lean ====
section
/-! DEFINITION. One step of the block: the command at the front of the queue, or one tick of the always-on clock. -/

namespace Sys2Proof.Machine

/-- The queue without its front. -/
def State.popCmd (s : State) : State := { s with pending := s.pending.drop 1 }

/-- A command put at the front of the queue. -/
def State.pushCmd (s : State) (c : Instr) : State := { s with pending := c :: s.pending }

/-- Take the command at the front and run it with the queue's rest; with none waiting, one AO cycle passes (DESIGN CHOICE,
assumption 2). -/
def step (s : State) : Host.Outcome State Fault Refusal :=
  match s.pending with
  | [] => .next s.tick
  | c :: _ => exec c s.popCmd

/-- The command that a word spells, put at the front; unchanged where the word spells none. -/
def State.withFetchWord (s : State) (nbits w : Nat) : State :=
  match decodeTableWord nbits w with
  | some c => s.pushCmd c
  | none => s

end Sys2Proof.Machine
end

