-- ==== Sys2Proof/Safety.lean ====
section
/-! DEFINITION. The terms in which the statements speak: the canonical forms that every reachable state keeps, and the spec's own
conditions on requests, written out. -/

namespace Sys2Proof.Machine

/-- Every memory of the machine is in its canonical form: DRAM, the boot flash, OTP, the MSI-X table, the bays' shelves, the carrels'
scratch, and the L1 and L2 memories of the wing cores. -/
structure State.MemWf (s : State) : Prop where
  dram : s.dram.wf = true
  flash : s.flash.wf = true
  otp : s.sec.otp.wf = true
  msix : s.link.msixTable.wf = true
  shelves : ∀ m ∈ s.sch.shelves, m.wf = true
  scratch : ∀ r ∈ s.sch.carrels, r.scratch.wf = true
  coreL1 : ∀ m ∈ s.sch.coreL1, m.1.wf = true ∧ m.2.wf = true
  wingL2 : ∀ m ∈ s.sch.wingL2, m.wf = true
  /-- The register file. -/
  regs : cellsFrom regReset 0 s.regs = true

/-- The fixed numbers of what the part has: rings (R66), lanes (R128), transports, line-sensor ports and lamp outputs (R154), carrels
with their four slots and bays with their shelves (R11, R459), wing cores and wings (R11), measurements (R582), page-size lists (R331). -/
structure State.Numbers (s : State) : Prop where
  sqs : s.rings.sqs.length = 64
  cqs : s.rings.cqs.length = 64
  lanes : s.acc.lanes.length = 11
  transports : s.col.transports.length = 4
  ports : s.col.lsps.length = 8
  lamps : s.col.lamps.length = 16
  carrels : s.sch.carrels.length = 192
  slots : ∀ r ∈ s.sch.carrels, r.slots.length = 4
  shelves : s.sch.shelves.length = 24
  cores : s.sch.coreL1.length = 16
  wings : s.sch.wingL2.length = 4
  measurements : s.sec.ms.length = 8
  freeLists : s.kv.free.length = 8

/-- No two things share a name or a place: one job to a job slot (R88) and to a number, one context to an identifier, and no scratch
unit of a carrel in two slots, or twice in one (R263). -/
structure State.Apart (s : State) : Prop where
  jobSlots : (s.jobs.map (·.slot)).Nodup
  jobNumbers : (s.jobs.map (·.number)).Nodup
  jobCount : ∀ j ∈ s.jobs, j.number < s.jobCount
  ctxs : (s.sch.ctxs.map (·.id)).Nodup
  nextCtx : ∀ x ∈ s.sch.ctxs, x.id < s.sch.nextCtx
  units : ∀ r ∈ s.sch.carrels, (r.slots.flatMap (·.1)).Nodup
  /-- Whoever a slot names is a context, and knows that it sits there. -/
  seats : ∀ c k id, (s.slotOf c k).2 = some id → ∃ x, s.ctx? id = some x ∧ x.place = some (c, k)

/-- What every reachable state keeps. -/
structure State.Inv (s : State) : Prop where
  mem : s.MemWf
  numbers : s.Numbers
  apart : s.Apart

/-- The table of R27 allows a requested transition to a state, and its condition holds. -/
def State.requestHolds (s : State) : DeviceState → Prop
  | .test => s.dev.state = .service ∨ s.dev.state = .recovery
  | .service => s.dev.state = .test ∨ (s.dev.state = .recovery ∧ s.regB rErrStatus 0 = false)
  | .recovery => s.dev.state = .service ∨ s.dev.state = .test
  | .standby => s.dev.state = .service ∧ s.jobs = [] ∧ ∀ t ∈ s.col.transports, t.sides = []
  | .off => False
  | .bringUp => False
  | .closedStacks => False

/-- The command that writes a target into SYS_STATE_REQ. -/
def stateReqOf : DeviceState → Option Instr
  | .standby => some .stateReqStandby
  | .service => some .stateReqService
  | .test => some .stateReqTest
  | .recovery => some .stateReqRecovery
  | .off => none
  | .bringUp => none
  | .closedStacks => none

/-- No unit is in FORCED, and no reset source is asserted: a new source meets nobody else's episode. -/
def State.calm (s : State) : Prop := s.rst.asserted = [] ∧ ∀ u ∈ s.rst.units, u.phase ≠ .forced

/-- Every unit works and no episode is open. -/
def State.allRun (s : State) : Prop := s.rst.asserted = [] ∧ s.rst.epOpen = false ∧ ∀ u ∈ s.rst.units, u.phase = .run

/-- The descriptor `d`, with its job slot, is all that is fetched of ring `n`, and nothing keeps it from beginning (R80 to R83). -/
structure State.ready (s : State) (n : Nat) (d : Bytes) (slot : Option Nat) : Prop where
  running : s.running = true
  ring : n < 64
  head : (s.sq n).fetched = [(d, slot)]
  fence : dFence d = true → s.fenceOpen n = true
  form : s.descFault d = none

/-- No context has an engine taken from it, and no ATTN has descriptors waiting for one (R465, R341): as a context leaves, no other one
goes on. -/
def State.enginesFree (s : State) : Prop :=
  ∀ x ∈ s.sch.ctxs, x.taken = 0 ∧ (x.walk.all fun w => decide (w.queued = 0)) = true

/-- The job of a descriptor that holds a job slot: it has counted nothing and holds no plan and no context, as any job has that is no
RUN at work. -/
structure State.slotJob (s : State) (n : Nat) (d : Bytes) (j : Job) : Prop where
  inSlot : s.job? j.slot = some j
  sq : j.sq = n
  desc : j.desc = d
  counts : j.counts = []
  degenerate : j.degenerate = false
  seqRecs : j.seqRecs = 0
  plan : j.plan = none
  ctxs : ∀ x ∈ s.sch.ctxs, x.jobNumber ≠ j.number

/-- A completion record for ring `c` leaves at once, as one write to host memory: outside embedded mode, with a ring that R112 lets
be enabled, no record held and an entry free. -/
structure State.cqOpen (s : State) (c : Nat) : Prop where
  host : s.emb = false
  ring : c < 64
  base : s.ringBase (.cq c) % 4096 = 0
  size : 4 ≤ s.regF (ringCtrl (.cq c)) 1 4
  held : (s.cq c).held = []
  room : s.occupied (.cq c) < s.entries (.cq c)

/-- The write that carries a record to completion ring `c`, in the agreed layout with PHASE as R98 has it. -/
def State.cqWrite (s : State) (c : Nat) (r : CqRec) : Out :=
  .hostWrite (s.ringBase (.cq c) + (s.cq c).ring.own % s.entries (.cq c) * 32) (cqRecBytes s.ronvelHi (s.phase (.cq c)) r) false

/-- The job-end record of a job that has counted no saturation (R93). -/
def Job.endRec (j : Job) (status flags amount detail : Nat) : CqRec :=
  jobEndRec j.sq j.desc status flags amount 0 0 (if dOp j.desc = opRun then j.slowdown else 0) detail (some j.slot)

/-- From `s` to `t` the job has ended: its job-end record is written and its slot is free. -/
def State.endsJob (s t : State) (j : Job) (status flags amount detail : Nat) : Prop :=
  s.cqWrite (s.cqFor j.sq j.desc) (j.endRec status flags amount detail) ∈ t.out ∧ t.job? j.slot = none

/-- From `s` to `t` the descriptor's own job-end record is written, and it is gone from its ring. -/
def State.recordsDesc (s t : State) (n : Nat) (d : Bytes) (slot : Option Nat) (status detail : Nat) : Prop :=
  s.cqWrite (s.cqFor n d) (jobEndRec n d status 0 0 0 0 0 detail slot) ∈ t.out ∧ (t.sq n).fetched = []

/-- Where a Warm or Cold release leads: BRING_UP while the failed-start count lies below N, else CLOSED_STACKS (R27, R519). -/
def State.startTarget (s : State) : DeviceState := if s.rst.starts < s.startLimit then .bringUp else .closedStacks

/-! ### Sequences, records, contexts and their commands -/

/-- The sequence record of a job's sequence (R93, R97). -/
def Job.seqRec (j : Job) (idx sample status flags amount detail : Nat) : CqRec :=
  { sample := sample, tag := j.tag, status := status, flags := flags, amount := amount, index := idx, sq := j.sq,
    client := j.client, sat := 0, zc := 0, slowdown := 0, detail := detail, frees := none,
    ofPage := some (j.number, idx) }

/-- From `s` to `t` sequence `idx` of the job has ended: its record is written, and the job, if it still holds its slot, counts it
among those that have ended. -/
def State.endsSeq (s t : State) (j : Job) (idx sample status flags amount detail : Nat) : Prop :=
  s.cqWrite (s.cqFor j.sq j.desc) (j.seqRec idx sample status flags amount detail) ∈ t.out ∧
    ∀ k, t.job? j.slot = some k → idx ∈ k.ended

/-- A sequence of a job that works, and whose record can be written at once. -/
structure State.openSeq (s : State) (j : Job) (idx : Nat) : Prop where
  job : s.job? j.slot = some j
  alive : j.alive = true
  going : idx ∉ j.ended
  engines : s.enginesFree
  cq : s.cqOpen (s.cqFor j.sq j.desc)

/-- Job `j` of a folio `f` is an LC or BE RUN at work, on a part that runs. -/
structure State.runs (s : State) (j : Job) (f : Folio) : Prop where
  running : s.running = true
  job : s.job? j.slot = some j
  op : dOp j.desc = opRun
  phase : j.phase = .running
  folio : s.jobFolio j = some f
  host : s.emb = false

/-- Command `d` stands at the head of context `x` in slot `k` of carrel `c`, and the issue port takes it (R276, R464). -/
structure State.issuable (s : State) (c k : Nat) (x : Ctx) (d : Bytes) : Prop where
  on : s.dev.state ≠ .off
  slot : s.ctxAt c k = some x
  head : x.queue.head? = some d
  turn : s.issueTurn c = some k

/-- From `s` to `t` command `d` of context `x` has issued, and the context is `y` now: the command has left the queue, and it is
outstanding when it completes later, or is the last of its list. -/
structure State.issuesTo (s t : State) (c k now : Nat) (x : Ctx) (d : Bytes) (stays : Bool) (y : Ctx) : Prop where
  slot : t.ctxAt c k = some y
  id : y.id = x.id
  queue : y.queue = x.queue.drop 1
  next : y.nextIssue = x.nextIssue + 1
  outstanding : y.outstanding =
    if stays = true ∨ x.nextIssue + 1 = x.listLen then x.outstanding ++ [⟨x.nextIssue, d, opClass (cmdOp d), s.sch.issueCount⟩] else x.outstanding
  start : y.runStart = some (x.runStart.getD now)
  port : (t.carrel c).lastIssue = k
  clock : t.arithNow = max s.arithNow now

/-- No error is armed for injection (R267), and no word of scratch holds one (R266). -/
def State.noInject (s : State) : Prop := s.regB rCarInject 10 = false ∧ (s.sch.carrels.all fun r => r.bad = []) = true

end Sys2Proof.Machine
end

