-- ==== Sys2Proof/Certificates/Slice0/Obligations.lean ====
section
/-! DEFINITION. The statements for the provers, from the numbered rules of the spec, in the order of its chapters. Unless its docstring says
otherwise a statement's conclusion is that `exec` answers a next state, for every state and every operand that meets its premises. -/

open Sys2Proof Sys2Proof.Machine

/-! ### The step (assumption 2 for the empty queue) -/

/-- A step takes the command at the front of the queue and runs it on the state with the queue's rest; every command, whatever its
operands and the state, ends in a next state, none in a fault or a refusal. -/
def Obligations.StepRunsFrontCommand : Prop :=
  ∀ (s : State) (c : Instr) (rest : List Instr), s.pending = c :: rest →
    step s = exec c { s with pending := rest } ∧ ∃ t, exec c { s with pending := rest } = .next t

/-- With nothing waiting, one AO cycle passes in every state but OFF (the model's choice, assumption 2): the wake counter counts down to
1 (R540), the service watchdog counts while enabled (R621), and so do the start window while it runs (R517), the idle handshakes (R506),
a self-test's drain (R566) and the idle cycles of R533; nothing but these counts and the time moves. -/
def Obligations.EmptyQueueIsOneAoCycle : Prop :=
  ∀ s : State, s.pending = [] →
    (s.dev.state = .off → step s = .next s) ∧
    (s.dev.state ≠ .off → ∃ t, step s = .next t ∧ t.aoTime = s.aoTime + 1 ∧
      (s.MemWf → t.regF rPwrWakeTimer 0 24 =
        if s.regF rPwrWakeTimer 0 24 > 1 then s.regF rPwrWakeTimer 0 24 - 1 else s.regF rPwrWakeTimer 0 24) ∧
      (s.MemWf → ∀ off, off ≠ rPwrWakeTimer → t.reg off = s.reg off) ∧
      (s.MemWf → t.dev.wdog = if s.regB rRstWdog 0 then s.dev.wdog.map (· - 1) else s.dev.wdog) ∧
      (s.MemWf → t.dev.idleFor = if s.idle then s.dev.idleFor + 1 else 0) ∧
      t.rst.windowLeft = (if s.rst.windowRun then s.rst.windowLeft - 1 else s.rst.windowLeft) ∧
      t.rst.units = s.rst.units.map (fun u => if u.phase = .idleReq then { u with left := u.left - 1 } else u) ∧
      t.sch.bistLeft = s.sch.bistLeft - 1 ∧
      t = { s with aoTime := t.aoTime, regs := t.regs, dev := { s.dev with wdog := t.dev.wdog, idleFor := t.dev.idleFor },
                   rst := { s.rst with windowLeft := t.rst.windowLeft, units := t.rst.units },
                   sch := { s.sch with bistLeft := t.sch.bistLeft } })

/-- In OFF, with no reset source asserted, every command but POWER_ON finds nobody: it changes nothing; and after VDD_AO_LOST the device
is in OFF again (R26, R27). -/
def Obligations.OffHearsOnlyPowerOn : Prop :=
  ∀ (s : State) (c : Instr), s.dev.state = .off → s.rst.asserted = [] → c ≠ .powerOn →
    ∃ t, exec c s = .next t ∧ t.dev.state = .off ∧ (c ≠ .vddAoLost → t = s)

/-! ### Device states and power (chapters 1 and 17) -/

/-- STATE_REQ_STANDBY, STATE_REQ_SERVICE, STATE_REQ_TEST and STATE_REQ_RECOVERY begin the transition that R27 allows: BUSY is set until
it takes effect, and nothing else changes, but that a part in READY_IDLE leaves it. STATE_TRANSITION_DONE makes a requested SERVICE,
TEST or RECOVERY the device state, with PREV the state left and BUSY 0; jobs, their contexts and the open ledger interval go on (R33).
STANDBY_ENTRY_DONE enters STANDBY with every switched domain off and DRAM in self-refresh; capture configurations, references and
counters stay (R536). -/
def Obligations.StateRequestsTakeEffect : Prop :=
  (∀ (s : State) (st : DeviceState) (c : Instr), stateReqOf st = some c → s.dev.state ≠ .off → s.dev.req = none →
      s.requestHolds st →
      exec c s = .next { s.exitIdle with dev := { s.exitIdle.dev with req := some st } }) ∧
  (∀ s : State, s.dev.state ≠ .off →
      (∀ st, s.dev.req = some st → (st = .service ∨ st = .test ∨ st = .recovery) →
        ∃ t, exec .stateTransitionDone s = .next t ∧ t.dev.state = st ∧ t.dev.prev = s.dev.state ∧ t.dev.req = none ∧
          t.jobs = s.jobs ∧ t.sch = s.sch ∧ t.kv = s.kv ∧ t.ldg = s.ldg ∧ t.dram = s.dram ∧ t.regs = s.regs) ∧
      (s.dev.req = some .standby →
        ∃ t, exec .standbyEntryDone s = .next t ∧ t.dev.state = .standby ∧ t.dev.prev = s.dev.state ∧ t.dev.req = none ∧
          t.dev.power = .standby ∧ t.dev.domains = 0 ∧ t.dev.selfRefresh = true ∧ t.col = s.col ∧ t.flash = s.flash ∧
          t.fol.folios = s.fol.folios))

/-- A request that R27 does not allow, or that arrives while BUSY is 1, is refused: REQ_REFUSED reads 1, and the device state and all
else stay. -/
def Obligations.StateRequestRefused : Prop :=
  ∀ (s : State) (st : DeviceState) (c : Instr), stateReqOf st = some c → s.dev.state ≠ .off → s.MemWf →
    (s.dev.req.isSome = true ∨ ¬s.requestHolds st) →
    ∃ t, exec c s = .next t ∧ t.regB rSysState 9 = true ∧ t = { s with dev := s.exitIdle.dev, regs := t.regs }

/-- START_OK within the window ends it, sets the failed-start count to 0, and moves the device to SERVICE, or to RECOVERY with
FATAL_ENTRY when a device-fatal error was reported (R516, R27). START_WINDOW_EXPIRY asserts the watchdog at Warm reach (R518): with no
other source about, the count has risen by 1, saturating at 7, every job and DRAM's contents are gone, and the release has begun:
BRING_UP, or CLOSED_STACKS at N; the OTP stays, and the boot flash but for the record of a slot whose update the reset ends (R524). WATCHDOG_RESTART starts a full period again while the device serves and RST_WDOG.EN is 1;
WATCHDOG_EXPIRY asserts the watchdog (R621, R505): of Fabric reach with RST_CTRL.WDOG_FABRIC, where jobs end and DRAM and committed
folios stay; else of Warm reach. -/
def Obligations.StartWindowAndWatchdog : Prop :=
  (∀ s : State, s.dev.state = .bringUp → s.rst.windowRun = true → s.dev.penuo.isSome = true →
      (∀ u ∈ s.rst.units, u.phase = .run) → s.MemWf →
      ∃ t, exec .startOk s = .next t ∧ t.rst.starts = 0 ∧ t.rst.windowRun = false ∧ t.regB rRstStart 0 = true ∧
        t.dev.prev = .bringUp ∧
        (s.regB rErrStatus 0 = false → t.dev.state = .service ∧ t.dev.fatalEntry = false) ∧
        (s.regB rErrStatus 0 = true → t.dev.state = .recovery ∧ t.dev.fatalEntry = true)) ∧
  (∀ s : State, s.dev.state = .bringUp → s.rst.windowRun = true → s.calm →
      ∃ t, exec .startWindowExpiry s = .next t ∧ t.rst.starts = min 7 (s.rst.starts + 1) ∧
        t.dev.state = (if min 7 (s.rst.starts + 1) < s.startLimit then .bringUp else .closedStacks) ∧
        t.jobs = [] ∧ t.dram = [] ∧ t.rst.asserted = [] ∧ t.flash = s.abandonUpdate.flash ∧ (s.sec.fwu = none → t.flash = s.flash) ∧
        t.sec.otp = s.sec.otp) ∧
  (∀ s : State, s.dev.state.serves = true → s.regB rRstWdog 0 = true →
      exec .watchdogRestart s = .next { s with dev := { s.dev with wdog := some s.wdogPeriod } } ∧
      (s.allRun → s.rst.fabricRelease = false → s.rst.units ≠ [] → s.regB rRstCtrl 0 = true →
        ∃ t, exec .watchdogExpiry s = .next t ∧ (∀ u ∈ t.rst.units, u.phase = .idleReq) ∧ t.jobs = [] ∧ t.dram = s.dram ∧
          t.fol.folios = (s.fol.folios.filter (·.committed)).map Folio.settled ∧ t.dev.state = s.dev.state) ∧
      (s.calm → s.regB rRstCtrl 0 = false →
        ∃ t, exec .watchdogExpiry s = .next t ∧ t.dev.state = s.startTarget ∧ t.rst.starts = s.rst.starts ∧ t.jobs = [] ∧
          t.dram = []))

/-! ### Resets (chapter 16) -/

/-- POWER_ON from OFF: every BAR0 register is at its reset value, every unit is held by the power-on source, the failed-start count is 0
and the log empty (R505, R519, R529). POWER_ON_RELEASE begins the bring-up, or, with VDD_CORE or VDD_SRAM low, asserts the brown-out
source in its place and leaves the count (R606). VDD_AO_LOST leads to OFF from every state (R27). The OTP stays, and the boot flash but
for the record of a slot whose update a reset ends (R524). BROWN_OUT and RESET_N_ASSERT hold every unit that is not in FORCED and end every job, and the units stay held while the source is asserted (R505,
R506). A brown-out keeps the failed-start count but counts a start that it ends (R518); RESET_N does not change it, and keeps the
management port's mode and mailboxes (R504, R618). BROWN_OUT_RELEASE and RESET_N_RELEASE, when theirs is the last source of the episode,
append the log entry and begin the bring-up, or closed-stacks mode with the count at N (R507, R515, R528). -/
def Obligations.PowerAndPinResets : Prop :=
  (∀ s : State,
      (s.dev.state = .off → ∃ t, exec .powerOn s = .next t ∧ t.regs = [] ∧ t.rst.asserted = [(.powerOn, .cold)] ∧
        t.rst.starts = 0 ∧ (∀ u ∈ t.rst.units, u.phase = .held) ∧ t.jobs = [] ∧ t.dram = [] ∧
        (s.sec.fwu = none → t.flash = s.flash) ∧ t.sec.otp = s.sec.otp) ∧
      (s.rst.asserted = [(.powerOn, .cold)] → s.rst.epOpen = true → s.rst.epWidest = 4 →
        ∃ t, exec (.powerOnRelease false) s = .next t ∧ t.dev.state = s.startTarget ∧ t.dev.prev = .off ∧ t.rst.asserted = [] ∧
          (t.dev.state = .bringUp → t.rst.windowRun = true ∧ ∀ u ∈ t.rst.units, u.phase = .releasing) ∧
          t.rst.logSeq = s.rst.logSeq + 1) ∧
      (s.rst.asserted = [(.powerOn, .cold)] → s.rst.epOpen = true → s.rst.epWidest = 4 →
        ∃ t, exec (.powerOnRelease true) s = .next t ∧ t.rst.asserted = [(.brownOut, .cold)] ∧ t.rst.starts = s.rst.starts ∧
          t.dev = s.dev) ∧
      ∃ t, exec .vddAoLost s = .next t ∧ t.dev.state = .off ∧ t.regs = [] ∧ t.rst.asserted = [] ∧ t.jobs = [] ∧ t.dram = [] ∧
        t.flash = s.abandonUpdate.flash ∧ (s.sec.fwu = none → t.flash = s.flash) ∧ t.sec.otp = s.sec.otp) ∧
  (∀ s : State, s.dev.state ≠ .off → s.calm →
      (∃ t, exec .brownOut s = .next t ∧ t.rst.asserted = [(.brownOut, .cold)] ∧ (∀ u ∈ t.rst.units, u.phase = .held) ∧
        t.jobs = [] ∧ t.dram = [] ∧ t.rst.starts = (if s.rst.windowRun then min 7 (s.rst.starts + 1) else s.rst.starts)) ∧
      ∃ t, exec .resetNAssert s = .next t ∧ t.rst.asserted = [(.resetN, .warm)] ∧ (∀ u ∈ t.rst.units, u.phase = .held) ∧
        t.jobs = [] ∧ t.dram = [] ∧ t.rst.starts = s.rst.starts ∧ t.mgt.mode8d = s.mgt.mode8d ∧ t.mgt.inbox = s.mgt.inbox ∧
        t.mgt.outbox = s.mgt.outbox) ∧
  (∀ (s : State) (c : Instr) (src : RstSource) (r : Reach), s.dev.state ≠ .off → s.rst.epOpen = true →
      ((c = .brownOutRelease ∧ src = .brownOut ∧ r = .cold ∧ s.rst.epWidest = 4) ∨
        (c = .resetNRelease ∧ src = .resetN ∧ r = .warm ∧ s.rst.epWidest = 3)) →
      s.rst.asserted = [(src, r)] →
      ∃ t, exec c s = .next t ∧ t.dev.state = s.startTarget ∧ t.rst.asserted = [] ∧ t.rst.epOpen = false ∧
        t.rst.starts = s.rst.starts ∧ t.rst.logSeq = s.rst.logSeq + 1 ∧
        t.dev.prev = (if s.rst.epWidest = 4 then .off else s.dev.state) ∧
        (t.dev.state = .bringUp → t.rst.windowRun = true ∧ ∀ u ∈ t.rst.units, u.phase = .releasing))

/-- RST_REQ_BAY, RST_REQ_WING, RST_REQ_FABRIC and RST_REQ_WARM with every unit at work (R504, R506, R509, R513): a Bay or Wing request
puts its units into the idle handshake and leaves the device state and every unit outside its reach; a Fabric request also ends every
job and keeps DRAM and committed folios; a Warm request restarts the part. A write to RST_REQ is refused, and REQ_REFUSED reads 1 with
all else as it was, for a wing above 3, a bay above 23, a Bay or Wing reach in BRING_UP or CLOSED_STACKS, and while a request is under
way (R509, R530). Whatever episode is open already, a request that is not refused takes every unit of its reach out of RUN; a Bay or Wing
request ends no job and leaves DRAM, a Fabric request ends every job and leaves DRAM, a Warm request clears both. -/
def Obligations.SoftwareResets : Prop :=
  (∀ s : State, s.dev.state ≠ .off → s.allRun → s.rst.reqBusy = false → s.rst.fabricRelease = false → s.rst.units.map (·.unit) = allUnits →
      (∀ b, b < 24 → s.dev.state ≠ .bringUp → s.dev.state ≠ .closedStacks →
        ∃ t, exec (.rstReqBay b) s = .next t ∧ t.dev.state = s.dev.state ∧ t.rst.reqBusy = true ∧ t.dram = s.dram ∧
          ∀ u ∈ allUnits, t.phaseOf u = if u = .bay b then .idleReq else .run) ∧
      (∀ w, w < 4 → s.dev.state ≠ .bringUp → s.dev.state ≠ .closedStacks →
        ∃ t, exec (.rstReqWing w) s = .next t ∧ t.dev.state = s.dev.state ∧ t.rst.reqBusy = true ∧ t.dram = s.dram ∧
          ∀ u ∈ allUnits, t.phaseOf u = if (Reach.wing w).covers u then .idleReq else .run) ∧
      (∃ t, exec .rstReqFabric s = .next t ∧ t.dev.state = s.dev.state ∧ t.rst.reqBusy = true ∧ t.jobs = [] ∧ t.dram = s.dram ∧
        t.fol.folios = (s.fol.folios.filter (·.committed)).map Folio.settled ∧ ∀ u ∈ allUnits, t.phaseOf u = .idleReq) ∧
      ∃ t, exec .rstReqWarm s = .next t ∧ t.dev.state = s.startTarget ∧ t.rst.reqBusy = false ∧ t.jobs = [] ∧ t.dram = [] ∧
        t.rst.starts = s.rst.starts) ∧
  (∀ (s : State) (c : Instr), s.dev.state ≠ .off → s.MemWf →
      ((∃ b, c = .rstReqBay b ∧ (23 < b ∨ s.dev.state = .bringUp ∨ s.dev.state = .closedStacks ∨ s.rst.reqBusy = true)) ∨
        (∃ w, c = .rstReqWing w ∧ (3 < w ∨ s.dev.state = .bringUp ∨ s.dev.state = .closedStacks ∨ s.rst.reqBusy = true)) ∨
        ((c = .rstReqFabric ∨ c = .rstReqWarm) ∧ s.rst.reqBusy = true)) →
      ∃ t, exec c s = .next t ∧ t.regB rRstStatus 10 = true ∧ t = { s with dev := s.exitIdle.dev, regs := t.regs }) ∧
  (∀ (s : State) (c : Instr) (r : Reach), s.dev.state ≠ .off → s.rst.reqBusy = false →
      ((∃ b, c = .rstReqBay b ∧ r = .bay b ∧ b < 24 ∧ s.dev.state ≠ .bringUp ∧ s.dev.state ≠ .closedStacks) ∨
        (∃ w, c = .rstReqWing w ∧ r = .wing w ∧ w < 4 ∧ s.dev.state ≠ .bringUp ∧ s.dev.state ≠ .closedStacks) ∨
        (c = .rstReqFabric ∧ r = .fabric) ∨ (c = .rstReqWarm ∧ r = .warm)) →
      ∃ t, exec c s = .next t ∧ (∀ u ∈ t.rst.units, r.covers u.unit → u.phase ≠ .run) ∧
        (r.code < 2 → t.jobs = s.jobs) ∧ (r.code < 3 → t.dram = s.dram) ∧
        (r = .fabric → s.rst.fabricRelease = false → t.jobs = []) ∧ (r = .warm → t.jobs = [] ∧ t.dram = []))

/-- DEBUG_RESET_REQUEST with scope bit 2 unlocked asserts the debug source, at Warm reach or at Fabric reach, until DEBUG_RESET_WITHDRAW
(R505, R587); with the bit locked nothing happens. CLOCK_FAILURE of a PLL that runs records it in CLK_FAIL.LOST and restarts the part at
Warm reach (R543, R505); it counts a start that it ends (R518). LOCK_UP at a wing puts the wing's units into the idle handshake, or
restarts the part when RST_CTRL.LOCKUP_WARM is 1 or no wing is named (R505). Whatever else is asserted, a source that asserts takes every
unit of its reach out of RUN: at Bay and Wing reach jobs and DRAM stay, at Fabric reach DRAM stays and jobs end, at Warm and Cold reach
both are gone; and with the withdrawal the debug source is no longer asserted. -/
def Obligations.OtherResetSources : Prop :=
  (∀ s : State, s.dev.state ≠ .off →
      (∀ warm, bitN s.sec.scope 2 = false → exec (.debugResetRequest warm) s = .next s) ∧
      (s.calm → bitN s.sec.scope 2 = true →
        ∃ t, exec (.debugResetRequest true) s = .next t ∧ t.rst.asserted = [(.debug, .warm)] ∧ t.jobs = [] ∧ t.dram = [] ∧
          ∀ u ∈ t.rst.units, u.phase = .held) ∧
      (s.allRun → s.rst.fabricRelease = false → bitN s.sec.scope 2 = true →
        ∃ t, exec (.debugResetRequest false) s = .next t ∧ t.rst.asserted = [(.debug, .fabric)] ∧ t.jobs = [] ∧ t.dram = s.dram ∧
          ∀ u ∈ t.rst.units, u.phase = .idleReq) ∧
      (s.rst.asserted = [(.debug, .warm)] → s.rst.epOpen = true → s.rst.epWidest = 3 →
        ∃ t, exec .debugResetWithdraw s = .next t ∧ t.rst.asserted = [] ∧ t.dev.state = s.startTarget)) ∧
  (∀ s : State, s.dev.state ≠ .off → s.MemWf →
      (∀ pll, pll < 5 → s.dev.locked.testBit pll = true → s.calm →
        ∃ t, exec (.clockFailure pll) s = .next t ∧ t.regB rClkFail pll = true ∧ t.jobs = [] ∧ t.dram = [] ∧
          t.rst.starts = (if s.rst.windowRun then min 7 (s.rst.starts + 1) else s.rst.starts) ∧
          (t.dev.state = .bringUp ∨ t.dev.state = .closedStacks)) ∧
      (∀ w, w < 4 → s.regB rRstCtrl 1 = false → s.allRun → s.rst.units.map (·.unit) = allUnits →
        ∃ t, exec (.lockUp (some w)) s = .next t ∧ t.dev.state = s.dev.state ∧ t.dram = s.dram ∧
          ∀ u ∈ allUnits, t.phaseOf u = if (Reach.wing w).covers u then .idleReq else .run) ∧
      (∀ wing, (wing = none ∨ (∃ w, w < 4 ∧ wing = some w) ∧ s.regB rRstCtrl 1 = true) → s.calm →
        ∃ t, exec (.lockUp wing) s = .next t ∧ t.jobs = [] ∧ t.dram = [] ∧
          (t.dev.state = .bringUp ∨ t.dev.state = .closedStacks))) ∧
  (∀ s : State, s.dev.state ≠ .off →
      ∃ t, exec .debugResetWithdraw s = .next t ∧ t.rst.asserted.any (fun e => e.1 = .debug) = false ∧ t.jobs = s.jobs ∧ t.dram = s.dram) ∧
  ∀ (s : State) (c : Instr) (r : Reach), s.dev.state ≠ .off →
      ((∃ warm, c = .debugResetRequest warm ∧ bitN s.sec.scope 2 = true ∧ r = if warm then .warm else .fabric) ∨
        (∃ pll, pll < 5 ∧ c = .clockFailure pll ∧ s.dev.locked.testBit pll = true ∧ r = .warm) ∨
        (∃ wing, c = .lockUp wing ∧ r = .warm ∧ (wing = none ∨ (∃ w, w < 4 ∧ wing = some w) ∧ s.regB rRstCtrl 1 = true)) ∨
        (∃ w, w < 4 ∧ c = .lockUp (some w) ∧ s.regB rRstCtrl 1 = false ∧ r = .wing w) ∨
        (c = .brownOut ∧ r = .cold) ∨ (c = .resetNAssert ∧ r = .warm) ∨
        (c = .watchdogExpiry ∧ s.dev.state.serves = true ∧ s.regB rRstWdog 0 = true ∧
          r = if s.regB rRstCtrl 0 then .fabric else .warm)) →
      ∃ t, exec c s = .next t ∧ (∀ u ∈ t.rst.units, r.covers u.unit → u.phase ≠ .run) ∧
        (r.code < 2 → t.jobs = s.jobs) ∧ (r.code < 3 → t.dram = s.dram) ∧
        (r = .fabric → s.rst.fabricRelease = false → t.jobs = []) ∧ (3 ≤ r.code → t.jobs = [] ∧ t.dram = [])

/-- UNIT_IDLE_ACK takes a unit out of its handshake, held or, when that was the last unit its source waited for, already releasing;
HANDSHAKE_TIMEOUT takes it to FORCED and changes no other unit; FORCED_RESET_APPLIED takes it on from there and reports one FORCED_RESET
event with the unit as its address (R506, R511). UNIT_RELEASE_DONE after a Bay, Wing or Fabric episode: the unit works again, and no job
ends (R512). A bay's shelf and its eight carrels are then clear, its domain is powered and it takes work, every other bay's carrels
staying; a wing core's stop is over and its memories are clear. In a bring-up the spine's release starts the PLLs, and DRAM and link come
up after it (R515). -/
def Obligations.UnitsResetAndReturn : Prop :=
  (∀ (s : State) (u : RstUnit), s.dev.state ≠ .off → (s.rst.epOpen = false ∨ s.rst.epWidest < 3) →
      (s.phaseOf u = .idleReq → ∃ t, exec (.unitIdleAck u) s = .next t ∧ (t.phaseOf u = .held ∨ t.phaseOf u = .releasing) ∧
        t.jobs = s.jobs ∧ t.dram = s.dram ∧ t.dev.state = s.dev.state) ∧
      (s.phaseOf u = .idleReq → ∃ t, exec (.handshakeTimeout u) s = .next t ∧ t.phaseOf u = .forced ∧
        (∀ v, v ≠ u → t.phaseOf v = s.phaseOf v) ∧ t = { s with rst := t.rst }) ∧
      (s.phaseOf u = .forced → ∃ t, exec (.forcedResetApplied u) s = .next t ∧
        (t.phaseOf u = .held ∨ t.phaseOf u = .releasing) ∧
        ∃ d, t.err.pending = s.err.pending ++ [⟨ekForcedReset, unitOf u, none, none, d⟩])) ∧
  (∀ (s : State) (b : Nat) (boot : BootReport), b < 24 → s.dev.state ≠ .off → s.phaseOf (.bay b) = .releasing →
      (∀ x, s.rst.unit? (.bay b) = some x → x.widest < 3) →
      s.sch.shelves.length = 24 → s.sch.carrels.length = 192 →
      ∃ t, exec (.unitReleaseDone (.bay b) boot) s = .next t ∧ t.phaseOf (.bay b) = .run ∧ t.sch.shelves[b]? = some [] ∧
        b ∉ t.sch.stoppedBays ∧ t.dev.domains.testBit b = true ∧
        ∀ i, i < 192 → t.sch.carrels[i]? = if i / 8 = b then some Carrel.reset else s.sch.carrels[i]?) ∧
  (∀ (s : State) (w : Nat) (boot : BootReport), w < 4 → s.dev.state ≠ .off → s.phaseOf (.wing w) = .releasing →
      (∀ x, s.rst.unit? (.wing w) = some x → x.widest < 3) → s.Numbers →
      ∃ t, exec (.unitReleaseDone (.wing w) boot) s = .next t ∧ t.phaseOf (.wing w) = .run ∧ w ∉ t.sch.stoppedWings ∧
        t.sch.wingL2[w]? = some [] ∧ (∀ i, i < 16 → i / 4 = w → t.sch.coreL1[i]? = some ([], [])) ∧ t.sch.carrels = s.sch.carrels ∧
        t.dev.domains.testBit (24 + w) = true) ∧
  (∀ (s : State) (u : RstUnit) (boot : BootReport), s.dev.state ≠ .off → s.phaseOf u = .releasing →
      (∀ x, s.rst.unit? u = some x → x.widest < 3) →
      ∃ t, exec (.unitReleaseDone u boot) s = .next t ∧ t.phaseOf u = .run ∧ (∀ v, v ≠ u → t.phaseOf v = s.phaseOf v) ∧
        t.jobs = s.jobs ∧ t.dram = s.dram ∧ t.dev.state = s.dev.state ∧ t.fol.folios = s.fol.folios) ∧
  ∀ (s : State) (boot : BootReport), s.dev.state = .bringUp → s.rst.fabricRelease = false →
      (s.phaseOf .spine = .releasing → (∀ x, s.rst.unit? .spine = some x → 3 ≤ x.widest) →
        ∃ t, exec (.unitReleaseDone .spine boot) s = .next t ∧ t.phaseOf .spine = .run ∧ t.dev.step2 = true ∧ t.dev.locked = 0x1F) ∧
      (s.phaseOf .dramCtl = .releasing → (∀ x, s.rst.unit? .dramCtl = some x → 3 ≤ x.widest) → s.dev.step2 = true →
        s.dev.step3Dram = false → s.dev.step3Link = false →
        ∃ t, exec (.unitReleaseDone .dramCtl boot) s = .next t ∧ t.phaseOf .dramCtl = .run ∧ t.dev.step3Dram = true ∧
          t.dev.dramSize = min 3 boot.dramSize ∧ t.dev.selfRefresh = false) ∧
      (s.phaseOf .pcieApp = .releasing → (∀ x, s.rst.unit? .pcieApp = some x → 3 ≤ x.widest) → s.dev.step2 = true →
        s.dev.step3Link = false → s.dev.step3Dram = false → boot.speed ≠ 0 → s.link.perstLow = false →
        ∃ t, exec (.unitReleaseDone .pcieApp boot) s = .next t ∧ t.phaseOf .pcieApp = .run ∧ t.dev.step3Link = true ∧ t.link.up = true ∧
          t.link.speed = boot.speed ∧ t.link.width = boot.width)

/-! ### Rings and jobs (chapter 3) -/

/-- KICK in SERVICE, TEST or RECOVERY with the fabric up (R74 to R77): the doorbell of each enabled submission ring that the offset
names is being read, with one read more noted where one was already in flight (R76). Jobs and DRAM stay, and registers but
PWR_WAKE_CAUSE, which a kick that ends READY_IDLE sets. A kick in STANDBY wakes the part and is held, behind the accesses that already
wait (R36); one in BRING_UP is held; one in CLOSED_STACKS is discarded; and on entry into SERVICE the doorbell of every enabled submission
ring is being read. -/
def Obligations.KicksReadDoorbells : Prop :=
  (∀ (s : State) (off n : Nat), s.dev.state.serves = true → s.fabricUp = true → s.dev.req = none → s.Inv →
      n ∈ kickTargets off → n < 64 → s.ringEn (.sq n) = true →
      ∃ t, exec (.kick off) s = .next t ∧ (t.sq n).reading = true ∧
        ((s.sq n).reading = false → Out.doorbellRead n ∈ t.out) ∧ ((s.sq n).reading = true → (t.sq n).again = true) ∧
        (t.sq n).own = (s.sq n).own ∧ (t.sq n).fetched = (s.sq n).fetched ∧ t.jobs = s.jobs ∧ t.dram = s.dram ∧
        ∀ o, o ≠ rPwrWakeCause → t.reg o = s.reg o) ∧
  (∀ (s : State) (off n : Nat), s.dev.req = none → s.Inv → n ∈ kickTargets off → n < 64 → s.ringEn (.sq n) = true →
      (s.dev.state = .standby → ∃ t, exec (.kick off) s = .next t ∧ t.dev.waking = true ∧ t.dev.power = .exiting ∧
        (t.sq n).kickHeld = true ∧ t.out = s.out ∧
        t.link.waiting = s.link.waiting ++ (if s.link.waiting = [] then [] else [.kick off])) ∧
      (s.dev.state = .bringUp → ∃ t, exec (.kick off) s = .next t ∧ (t.sq n).kickHeld = true ∧ t.out = s.out) ∧
      (s.dev.state = .closedStacks → s.dev.power = .standby → exec (.kick off) s = .next s) ∧
      ((s.enterService.sq n).reading = true ∧ (s.enterService.sq n).kickHeld = false))

/-- DOORBELL_READ_DONE takes the host's count GEN × entries + INDEX modulo 2^16 × entries; with INDEX ≥ entries, or more than entries
pending in a submission ring or occupied in a produced one, the read is discarded: the kept count stays and RING_STATUS.DB_RANGE reads 1
(R72, R73). A completion record held for its full ring is written once the count leaves room (R99). -/
def Obligations.DoorbellCounts : Prop :=
  (∀ (s : State) (n index gen : Nat), n < 64 → s.dev.state ≠ .off → s.Inv → s.emb = false → s.ringEn (.sq n) = true →
    (s.sq n).reading = true → s.rings.cancels = [] → index < 65536 → gen < 65536 →
    ∃ t, exec (.doorbellReadDone n index gen) s = .next t ∧ (t.sq n).own = (s.sq n).own ∧
      (let host := (gen * s.entries (.sq n) + index) % (2 ^ 16 * s.entries (.sq n))
       let pending := modSub (2 ^ 16 * s.entries (.sq n)) host (s.sq n).own
       if index ≥ s.entries (.sq n) ∨ pending > s.entries (.sq n) then
         (t.sq n).host = (s.sq n).host ∧ t.regB rRingStatus 0 = true
       else (t.sq n).host = host ∧ t.regs = s.regs)) ∧
  (∀ (s : State) (rec index gen : Nat) (r : RingId), ringOf rec = some r → 63 < rec → s.dev.state ≠ .off → s.Inv → s.emb = false →
    s.ringEn r = true → (s.prod r).reading = true → s.rings.cancels = [] → index < 65536 → gen < 65536 →
    (∀ n, r = .cq n → (s.cq n).held = []) → (r = .err → s.err.held = [] ∧ s.err.stuck = []) → (r = .ldg → s.ldg.held = []) →
    ∃ t, exec (.doorbellReadDone rec index gen) s = .next t ∧ (t.prod r).own = (s.prod r).own ∧ t.jobs = s.jobs ∧ t.dram = s.dram ∧
      (let host := (gen * s.entries r + index) % (2 ^ 16 * s.entries r)
       let occupied := modSub (2 ^ 16 * s.entries r) (s.prod r).own host
       if index ≥ s.entries r ∨ occupied > s.entries r then (t.prod r).host = (s.prod r).host ∧ t.regB rRingStatus 0 = true
       else (t.prod r).host = host ∧ t.regs = s.regs)) ∧
  ∀ (s : State) (n index gen : Nat) (r : CqRec), n < 64 → s.dev.state ≠ .off → s.Inv → s.emb = false → s.ringEn (.cq n) = true →
    (s.cq n).ring.reading = true → s.rings.cancels = [] → index < s.entries (.cq n) → gen < 65536 → index < 65536 →
    s.ringBase (.cq n) % 4096 = 0 → (s.cq n).held = [r] →
    modSub (2 ^ 16 * s.entries (.cq n)) (s.cq n).ring.own ((gen * s.entries (.cq n) + index) % (2 ^ 16 * s.entries (.cq n))) <
      s.entries (.cq n) →
    ∃ t, exec (.doorbellReadDone (64 + n) index gen) s = .next t ∧ s.cqWrite n r ∈ t.out ∧ (t.cq n).held = []

/-- DESCRIPTOR_FETCH of one pending descriptor that takes a job slot: with R88 and R89 met it takes the lowest free slot (the model's
choice, assumption 59) as a job that waits, the ring's own count advances by one, and the ring has had its class's turn; with a bound of
R88 reached, fetching stopped, or the turn another ring's, nothing changes (R89, R90). A descriptor that takes no slot is fetched whatever
the bounds (R91). -/
def Obligations.FetchWithinBounds : Prop :=
  ∀ (s : State) (n : Nat) (descs rest : List Bytes) (d : Bytes), n < 64 → s.running = true → s.Inv → s.ringEn (.sq n) = true →
    s.turnDescs n descs = d :: rest → s.pendingDescs n = 1 →
    (takesSlot d = true → s.fetchStop = false → s.maySlot n = true → s.turn = some n → ∀ k, s.freeJobSlot = some k →
      ∃ t, exec (.descriptorFetch n descs) s = .next t ∧
        t.jobs = s.jobs ++ [newJob k s.jobCount n (s.ringLc n) d (s.folioTakes d)] ∧ t.jobCount = s.jobCount + 1 ∧
        (t.sq n).own = ((s.sq n).own + 1) % s.countMod (.sq n) ∧ (t.sq n).fetched = (s.sq n).fetched ++ [(d, some k)] ∧
        (if s.ringLc n then t.rings.lastLc = n else t.rings.lastBe = n) ∧ t.dram = s.dram ∧ t.regs = s.regs) ∧
    (takesSlot d = true → (s.fetchStop = true ∨ s.maySlot n = false ∨ s.turn ≠ some n) → exec (.descriptorFetch n descs) s = .next s) ∧
    (takesSlot d = false → s.fetchStop = false →
      ∃ t, exec (.descriptorFetch n descs) s = .next t ∧ t.jobs = s.jobs ∧
        (t.sq n).own = ((s.sq n).own + 1) % s.countMod (.sq n) ∧ (t.sq n).fetched = (s.sq n).fetched ++ [(d, none)])

/-- Completion, error and ledger records leave as one memory write of the record's full size: 32, 32 and 64 bytes, at the ring's entry,
without Relaxed Ordering (R38); what the operation sends besides comes after it. -/
def Obligations.RecordsAreSingleWrites : Prop :=
  ∀ s : State, s.emb = false →
    (∀ (n : Nat) (r : CqRec), s.ringBase (.cq n) % 4096 = 0 → 4 ≤ s.regF (ringCtrl (.cq n)) 1 4 →
      ∃ (b : Bytes) (more : List Out), b.length = 32 ∧
        (s.writeCq n r).out = s.out ++ .hostWrite (s.ringBase (.cq n) + (s.cq n).ring.own % s.entries (.cq n) * 32) b false :: more) ∧
    (∀ r : ErrRec, s.ringBase .err % 4096 = 0 → 4 ≤ s.regF (ringCtrl .err) 1 4 →
      ∃ (b : Bytes) (more : List Out), b.length = 32 ∧
        (s.writeErr r).out = s.out ++ .hostWrite (s.ringBase .err + s.rings.errRing.own % s.entries .err * 32) b false :: more) ∧
    (∀ h : HeldAccount, s.ringBase .ldg % 4096 = 0 → 4 ≤ s.regF (ringCtrl .ldg) 1 4 →
      ∃ (b : Bytes) (more : List Out), b.length = 64 ∧
        (s.writeLdg h).out = s.out ++ .hostWrite (s.ringBase .ldg + s.rings.ldgRing.own % s.entries .ldg * 64) b false :: more)

/-- NOP at the head of its ring completes with OK (R81): its job-end record, in the agreed layout with PHASE as R98 has it, is the first
thing sent; the descriptor is gone and no job slot, and no byte of DRAM, is touched. -/
def Obligations.NopCompletesWithOk : Prop :=
  ∀ (s : State) (n : Nat) (d : Bytes), n < 64 → s.Inv → s.running = true → s.emb = false →
    (s.sq n).fetched = [(d, none)] → dOp d = opNop → (dFence d = true → s.fenceOpen n = true) → s.descFault d = none →
    (s.cq (dCq d)).held = [] → s.occupied (.cq (dCq d)) < s.entries (.cq (dCq d)) →
    s.ringBase (.cq (dCq d)) % 4096 = 0 → 4 ≤ s.regF (ringCtrl (.cq (dCq d))) 1 4 →
    ∃ (t : State) (more : List Out), exec (.nop n) s = .next t ∧ (t.sq n).fetched = [] ∧ t.jobs = s.jobs ∧ t.dram = s.dram ∧
      t.out = s.out ++ .hostWrite (s.ringBase (.cq (dCq d)) + (s.cq (dCq d)).ring.own % s.entries (.cq (dCq d)) * 32)
        (cqRecBytes s.ronvelHi (s.phase (.cq (dCq d))) (jobEndRec n d stOk 0 0 0 0 0 0 none)) false :: more

/-- A write that sets EN of a disabled ring is refused, with REFUSED reading 1 and EN 0, when LOG2_SIZE lies outside 4 to 12; for a
submission ring also when CREDIT is 0 or over 256, ERR_CQ names a ring that is not enabled, or a job of the ring holds a slot. Otherwise
RING_ENABLE sets EN, and the LT8's count for a submission or completion ring is 0 (R112). -/
def Obligations.RingEnableOrRefuse : Prop :=
  ∀ (s : State) (r : RingId) (v : Word), ringValid r = true → wbit v 0 = true → s.Inv → s.dev.state ≠ .off →
    s.dev.state ≠ .standby → s.fabricHidden (ringCtrl r) = false → s.ringEn r = false →
    (let bad := wbits v 1 4 < 4 ∨ 12 < wbits v 1 4 ∨
       ∃ n, r = .sq n ∧ (wbits v 6 9 = 0 ∨ 256 < wbits v 6 9 ∨ s.ringEn (.cq (wbits v 15 6)) = false ∨ ∃ j ∈ s.jobs, j.sq = n)
     (bad → ∃ t, exec (.ringEnable r v) s = .next t ∧ t.regB (ringCtrl r) (refusedBit r) = true ∧ t.ringEn r = false ∧
       t.rings = s.rings) ∧
     (¬bad → ∃ t, exec (.ringEnable r v) s = .next t ∧
       (∀ n, r = .sq n → t.ringEn r = true ∧ t.sq n = SqRing.empty) ∧ (∀ n, r = .cq n → t.ringEn r = true ∧ t.cq n = CqRing.empty) ∧
       (r = .err → s.err.held = [] → s.err.stuck = [] → t.ringEn r = true ∧ t.rings.errRing.own = 0) ∧
       (r = .ldg → s.ldg.held = [] → t.ringEn r = true ∧ t.rings.ldgRing.own = 0)))

/-- SQ_RING_DISABLE stops fetching at once and lets the ring's jobs run on; CQ_RING_DISABLE clears EN, or is refused with REFUSED while
a job in a slot names the ring, an enabled submission ring names it as ERR_CQ, or records are held for it (R114). On a ring that is
disabled already, either is a plain write of the register. -/
def Obligations.RingDisable : Prop :=
  ∀ (s : State) (n : Nat) (v : Word), n < 64 → wbit v 0 = false → s.Inv → s.dev.state ≠ .off → s.dev.state ≠ .standby →
    s.rst.fabricRelease = false →
    (s.ringEn (.sq n) = true → ∃ t, exec (.sqRingDisable n v) s = .next t ∧ t.ringEn (.sq n) = false ∧ t.jobs = s.jobs ∧
      t.sch = s.sch ∧ (t.sq n).fetched = (s.sq n).fetched ∧ t.out = s.out ∧ t.dram = s.dram) ∧
    (s.ringEn (.cq n) = true →
      (let used := (∃ j ∈ s.jobs, dCq j.desc = n) ∨
         (∃ k, k < 64 ∧ s.ringEn (.sq k) = true ∧ s.regF (rRingSqCtrl k) 15 6 = n) ∨ (s.cq n).held ≠ []
       ∃ t, exec (.cqRingDisable n v) s = .next t ∧ t.rings = s.rings ∧ t.jobs = s.jobs ∧
         (used → t.regB (rRingCqCtrl n) 14 = true ∧ t.ringEn (.cq n) = true) ∧ (¬used → t.ringEn (.cq n) = false))) ∧
    (s.ringEn (.sq n) = false → exec (.sqRingDisable n v) s = .next (s.exitIdle.writeWord (rRingSqCtrl n) v)) ∧
    (s.ringEn (.cq n) = false → exec (.cqRingDisable n v) s = .next (s.exitIdle.writeWord (rRingCqCtrl n) v))

/-! ### Accession (chapter 4), RUN and admission (chapters 3 and 14) -/

/-- RECORD_DISPATCH of the next record of a QUIRE job that has none waiting (R128, R131, R136, R139, R143): it is read in two reads,
header first. A record that holds goes to the lowest free lane of its codec when no other job has a record to dispatch and no allocation
waits for room, with its budget and with granules of the plane pool; with no lane free, or when the turn is another job's, it waits, walked.
The job's walk moves behind it, 8-byte aligned. One that fails ends its sequence with the STATUS and DETAIL of the first check that fails,
in the order framing, version, codec and layout, ranges, size; lost framing ends the walk. A BE job's record waits while an LC job has one
for the same lanes. RECORD_DECODED writes the planes row after row, padded to 64 bytes, and frees the lane; a CRC that does not hold ends
the sequence with DECODE_CORRUPT and DETAIL 2, a stream error with its own. DECODE_BUDGET_EXPIRY ends it with DECODE_OVERRUN and the rows
complete. -/
def Obligations.RecordsDecodeOrFail : Prop :=
  ∀ s : State, s.Inv →
    (∀ (j : Job) (f : Folio) (buf : Bytes), s.runs j f → dKind j.desc = 0 → j.walked = [] → j.walkIdx < dInCount j.desc →
      j.walkIdx ∉ j.ended →
      (let i := j.walkIdx
       let avail := dInLen j.desc - j.walkOff
       let addr := dInAddr j.desc + j.walkOff
       let head := sliceB buf 0 (min avail 32)
       let rec_ := sliceB buf 0 (36 + hLen head)
       let walked := j.walkOff + roundUp (36 + hLen rec_) 8
       (framingFault head avail = none → s.headerFault rec_ = none → s.acc.poolQueue = [] → s.pageSlots j.number i ≠ [] →
         ((∀ m ∈ s.jobs, m.number ≠ j.number → s.nextRecord m = none) →
           (∀ k a s', (lanesOf (hCodec rec_)).find? (fun k => (s.lane k).isNone) = some k →
             s.poolTake (recPlanes rec_).bytes (.planes j.number i) 1 = some (a, s') →
             ∃ t r, exec (.recordDispatch j.slot buf) s = .next t ∧ t.lane k = some r ∧ r.idx = i ∧ r.record = rec_ ∧
               r.planes = { recPlanes rec_ with addr := a } ∧ r.budget = s.recordBudget j.sq (hWidth rec_) (hHeight rec_) ∧
               t.acc.pool = s'.acc.pool ∧ t.out = ((s.hostRead addr (min avail 32)).hostRead (addr + 32) (4 + hLen rec_)).out ∧
               t.dram = s.dram ∧ (t.job? j.slot).map (fun k => (k.walkIdx, k.walkOff, k.walked)) = some (i + 1, walked, [])) ∧
           (∀ k, (lanesOf (hCodec rec_)).find? (fun k => (s.lane k).isNone) = some k →
             s.poolTake (recPlanes rec_).bytes (.planes j.number i) 1 = none →
             ∃ t, exec (.recordDispatch j.slot buf) s = .next t ∧ t.acc.lanes = s.acc.lanes ∧
               t.acc.poolQueue = [.planes j.number i])) ∧
         (((lanesOf (hCodec rec_)).find? (fun k => (s.lane k).isNone) = none ∨
             (j.lc = false ∧ ∃ m ∈ s.jobs, m.lc = true ∧ ∃ e, s.nextRecord m = some e ∧
               laneKind (hCodec e.2) = laneKind (hCodec rec_))) →
           ∃ t, exec (.recordDispatch j.slot buf) s = .next t ∧ t.acc.lanes = s.acc.lanes ∧ t.acc.pool = s.acc.pool ∧
             (t.job? j.slot).map (fun k => (k.walkIdx, k.walkOff, k.walked)) = some (i + 1, walked, [(i, rec_)]))) ∧
       (framingFault head avail = none → ∀ e, s.headerFault rec_ = some e → s.openSeq j i →
         ∃ t, exec (.recordDispatch j.slot buf) s = .next t ∧ s.endsSeq t j i (hSample rec_) e.1 0 0 e.2 ∧ t.dram = s.dram ∧
           ∀ k, t.job? j.slot = some k → k.walkIdx = i + 1 ∧ k.walkOff = walked ∧ k.walked = []) ∧
       (∀ detail, framingFault head avail = some detail → s.openSeq j i →
         ∃ t, exec (.recordDispatch j.slot buf) s = .next t ∧ s.endsSeq t j i 0 stCorrupt 0 0 detail ∧
           (∀ k, t.job? j.slot = some k → k.walkIdx = dInCount j.desc) ∧ t.dram = s.dram))) ∧
    (∀ (k : Nat) (r : LaneRec) (j : Job) (f : Folio), s.dev.state ≠ .off → s.fabricUp = true → s.emb = false → s.lane k = some r →
      s.job? r.slot = some j → s.jobFolio j = some f →
      (∀ px, samplesOf r.record = .ok px → recordCrcOk r.record = true →
        ∃ t, exec (.recordDecoded k) s = .next t ∧ t.dram = s.dram.write r.planes.addr (planeBytes r.record px) ∧ t.lane k = none) ∧
      (∀ px, samplesOf r.record = .ok px → recordCrcOk r.record = false → s.openSeq j r.idx →
        ∃ t, exec (.recordDecoded k) s = .next t ∧ s.endsSeq t j r.idx r.planes.sample stCorrupt 0 0 2 ∧ t.lane k = none ∧
          t.dram = s.dram) ∧
      (∀ e, samplesOf r.record = .error e → s.openSeq j r.idx →
        ∃ t, exec (.recordDecoded k) s = .next t ∧ s.endsSeq t j r.idx r.planes.sample e.1 0 0 e.2 ∧ t.lane k = none ∧
          t.dram = s.dram) ∧
      ∀ rows, s.openSeq j r.idx →
        ∃ t, exec (.decodeBudgetExpiry k rows) s = .next t ∧ s.endsSeq t j r.idx r.planes.sample stOverrun 0 0 (min rows 0xFFFF) ∧
          t.lane k = none ∧ t.dram = s.dram)

/-- SEQ_SLOT_GRANT gives the page-side that waits first the lowest free sequence slots of its folio's number, all at once, and a packed
row one of the row slots, for the ENCODE stage that it serves (R350); an entry of a sample list claims the page-side that it matches,
and one that matches none ends with DETAIL 0x43 (R134, R135), as a captured page-side that is not held does with 0x42 (R208). A catalog begins with its generator seeded (R420) and the mask of its start configuration (R411).
BATCH_PACK writes the rows of a batch whose members are all ready, each with its header, segment table and index (R148, R151). KEEP_DROP
releases the claimable kept page-sides that no job has claimed, and no other (R135). -/
def Obligations.PageSidesTakeSlotsAndPack : Prop :=
  ∀ s : State, s.Inv →
    (∀ (j : Job) (f : Folio) (i slot : Nat) (rest : List (Job × Nat)) (slots tables : List Nat), s.slotQueue = (j, i) :: rest → s.runs j f →
      s.freeSeqSlots 0 4032 f.seqSlots = some slots → slots ≠ [] →
      (dKind j.desc = 0 → f.decode = none →
        ∃ t, exec (.seqSlotGrant false slot tables) s = .next t ∧
          t.kv.seqs = s.kv.seqs ++ slots.zipIdx.map (fun e => newSeq e.1 j i false f.decodeAt 0
            (if f.stagesOf 3 = [] then none else f.geomAt f.decodeAt) none none (tables.getD e.2 0) (s.kv.clock + 1)) ∧
          (t.job? j.slot).map (·.nextGrant) = some (i + 1) ∧ t.out = s.out ∧ t.dram = s.dram) ∧
      (dKind j.desc = 0 → ∀ g m, f.decode.isSome = true → s.grammarOf f j.param = some g → gMask s.dram g.2.1 0 [] = m → m ≠ [] →
        ∃ t q c, exec (.seqSlotGrant false slot tables) s = .next t ∧ t.seq? (slots.headD 0) = some q ∧ q.jobNumber = j.number ∧
          q.idx = i ∧ q.cat = some c ∧ c.mask = some m ∧ c.rng = seedOf (pSeed j.param) i ∧ c.state = 0 ∧ c.stack = [] ∧
          c.emitted = [] ∧ t.dram = s.dram) ∧
      (dKind j.desc = 2 → f.decode = none →
        (∀ h, s.heldMatch (s.inputId j i) = some h → s.planeRefused f h.planes.width h.planes.height = false →
          ∃ t, exec (.seqSlotGrant false slot tables) s = .next t ∧
            (∃ q ∈ t.kv.seqs, q.slot = slots.headD 0 ∧ q.jobNumber = j.number ∧ q.idx = i ∧ q.planes = some h.planes) ∧
            (∃ g ∈ t.acc.held, g.planes.addr = h.planes.addr ∧ g.claimedBy = some j.number) ∧ t.out = s.out ∧ t.dram = s.dram) ∧
        (s.heldMatch (s.inputId j i) = none → s.openSeq j i →
          ∃ t, exec (.seqSlotGrant false slot tables) s = .next t ∧ s.endsSeq t j i (s.inputId j i) stCorrupt 0 0 0x43 ∧
            t.dram = s.dram)) ∧
      (dKind j.desc = 1 → s.captured? (s.inputId j i) = none → s.openSeq j i →
        ∃ t, exec (.seqSlotGrant false slot tables) s = .next t ∧ s.endsSeq t j i (dPageId j.desc i) stCorrupt 0 0 0x42 ∧
          t.dram = s.dram)) ∧
    (∀ (j : Job) (f : Folio) (n : Nat) (b : Batch) (tables : List Nat), s.runs j f → s.freeSeqSlots 4032 4096 1 = some [n] →
      s.acc.batches.find? (fun b => b.jobNumber = j.number && b.packed && decide (b.granted < b.rowRuns f)) = some b →
      (let stage := (f.stagesOf 2).getD (b.granted / b.rows.length) 0
       ∃ t, exec (.seqSlotGrant true j.slot tables) s = .next t ∧ t.dram = s.dram ∧
         t.kv.seqs = s.kv.seqs ++ [newSeq n j b.number true stage (b.granted % b.rows.length) (f.geomAt stage) none none
           (tables.headD 0) (s.kv.clock + 1)])) ∧
    (∀ (j : Job) (f : Folio) (number base : Nat) (crops : List (Nat × List CropLine)) (b : Batch) (row : List Segment), s.runs j f →
      s.acc.batches.find? (fun b => b.jobNumber = j.number && b.number = number && !b.packed) = some b →
      (∀ i ∈ b.members, s.cropReady f j.number i = true) →
      packRows (b.members.flatMap fun i => pageSegments i (((crops.find? (·.1 = i)).map (·.2)).getD [])) [] = [row] →
      ∃ t, exec (.batchPack j.slot number crops base) s = .next t ∧
        t.dram.read base (rowHead number 0 row).length = rowHead number 0 row ∧
        ∀ k, t.job? j.slot = some k → k.alive = true →
          ∃ c ∈ t.acc.batches, c.jobNumber = j.number ∧ c.number = number ∧ c.packed = true ∧ c.rows = [base]) ∧
    (s.dev.state ≠ .off → s.dev.state ≠ .standby → s.rst.fabricRelease = false →
      ∃ t, exec .keepDrop s = .next t ∧ t.jobs = s.jobs ∧ t.dram = s.dram ∧
        (∀ h ∈ t.acc.held, h.captured = true ∨ h.claimable = false ∨ h.claimedBy.isSome = true) ∧
        ∀ h ∈ s.acc.held, (h.captured = true ∨ h.claimable = false) → h.claimedBy = none → h ∈ t.acc.held)

/-- RUN that passes the checks of R87, R407 and R440 lets its job wait for admission when its ring is LC, and run when it is BE, with
its parameter block taken, read where the host keeps it; one that fails completes with the STATUS and DETAIL of the check. LC_ADMISSION admits a job when its own
bound and that of every admitted job hold, takes its charges from the others' slack, and otherwise refuses it with REFUSED_BOUND, DETAIL
naming a carrel (R474 to R479). -/
def Obligations.RunsAreCheckedAndAdmitted : Prop :=
  ∀ s : State, s.Inv → s.emb = false →
    (∀ (n : Nat) (d : Bytes) (j : Job) (given : Bytes), s.ready n d (some j.slot) → s.slotJob n d j → dOp d = opRun →
      (∀ e, s.runFault d j.lc j.folioOk = some e → e.1 ≠ stBound → s.cqOpen (s.cqFor n d) →
        ∃ t, exec (.run n given) s = .next t ∧ s.recordsDesc t n d (some j.slot) e.1 e.2 ∧ t.job? j.slot = none ∧ t.dram = s.dram) ∧
      (∀ f, s.runFault d j.lc j.folioOk = none → s.jobFolio j = some f → f.decode.isSome = true →
        (s.paramFault f (s.runBlock d f given).1 = none →
          ∃ t, exec (.run n given) s = .next t ∧ t.out = (s.runBlock d f given).2.out ∧ t.dram = s.dram ∧ (t.sq n).fetched = [] ∧
            t.job? j.slot = some { j with phase := if j.lc then .admission else .running, param := (s.runBlock d f given).1 }) ∧
        (∀ e, s.paramFault f (s.runBlock d f given).1 = some e → s.cqOpen (s.cqFor n d) →
          ∃ t, exec (.run n given) s = .next t ∧ s.recordsDesc t n d (some j.slot) e.1 e.2 ∧ t.job? j.slot = none)) ∧
      (∀ e, s.runFault d j.lc j.folioOk = some e → e.1 = stBound → s.cqOpen (s.cqFor n d) →
        ∃ t detail, exec (.run n given) s = .next t ∧ s.recordsDesc t n d (some j.slot) stBound detail ∧ t.job? j.slot = none) ∧
      (∀ f, s.runFault d j.lc j.folioOk = none → s.jobFolio j = some f → f.decode = none →
        ∃ t, exec (.run n given) s = .next t ∧ t.out = s.out ∧ t.dram = s.dram ∧
          t.job? j.slot = some { j with phase := if j.lc then .admission else .running, param := [] })) ∧
    (∀ (j : Job) (f : Folio) (now : Nat), s.running = true → s.job? j.slot = some j → j.phase = .admission → j.plan = none → s.jobFolio j = some f →
      (s.noCarrel f j = true → s.slotJob j.sq j.desc j → s.cqOpen (s.cqFor j.sq j.desc) →
        ∃ t detail, exec (.lcAdmission j.slot now) s = .next t ∧ s.endsJob t j stBound 0 0 detail) ∧
      (s.noCarrel f j = false → s.boundFault (s.planJob f j) (dBudget j.desc) = none →
        ∃ t k p, exec (.lcAdmission j.slot now) s = .next t ∧ t.job? j.slot = some k ∧ k.phase = .running ∧ k.plan = some p ∧
          p.stages = s.planJob f j ∧ p.budget = dBudget j.desc ∧ p.admittedAt = now ∧ k.admission = some (now, dBudget j.desc) ∧ t.arithNow = max s.arithNow now ∧
          p.slack = dBudget j.desc - planChain (s.planJob f j) - s.planOthers (s.planJob f j) ∧ t.out = s.out ∧
          ∀ m o q, s.job? m = some o → o.plan = some q →
            ((t.job? m).bind (·.plan)).map (·.slack) = some (q.slack - planDelta q.stages (s.planJob f j))) ∧
      (∀ detail, s.noCarrel f j = false → s.boundFault (s.planJob f j) (dBudget j.desc) = some detail → s.slotJob j.sq j.desc j →
        s.cqOpen (s.cqFor j.sq j.desc) →
        ∃ t, exec (.lcAdmission j.slot now) s = .next t ∧ s.endsJob t j stBound 0 0 detail ∧
          t.regF rSchRefused 0 16 = min 65535 (s.regF rSchRefused 0 16 + 1)))

/-! ### Capture (chapter 5) -/

/-- COMMIT with a block that passes R198 is queued for its transports, one that fails ends with CONFIG_REFUSED and the offset of its
first fault, changing nothing (R198 to R200); STOP queues a decommit (R201); CALIBRATE_DARK and CALIBRATE_WHITE wait (R186);
CONFIG_APPLY gives a transport without an open page-side its configuration, its counters kept, with the references whose source entry
names the same PORT, CHANNEL_IN, PIXELS and SAMPLE_BITS, and ends the job with OK (R200, R182). -/
def Obligations.CaptureConfigured : Prop :=
  ∀ (s : State) (n : Nat) (d : Bytes) (j : Job), s.Inv → s.slotJob n d j →
    (s.ready n d (some j.slot) → dOp d = opCapture →
      (∀ block, dAction d = 0 →
        (∀ off, blockFault (s.hostBytes (dConfigAddr d) (dConfigLen d) block) (dConfigLen d) (65536 * s.colGranules) (dSelected d)
            = some off → s.cqOpen (s.cqFor n d) →
          ∃ t, exec (.commit n block) s = .next t ∧ s.endsJob t j stConfig 0 0 off ∧ t.col.transports = s.col.transports ∧
            t.col.refs = s.col.refs ∧ t.col.lsps = s.col.lsps) ∧
        (blockFault (s.hostBytes (dConfigAddr d) (dConfigLen d) block) (dConfigLen d) (65536 * s.colGranules) (dSelected d) = none →
          dSelected d ≠ [] →
          ∃ t, exec (.commit n block) s = .next t ∧ (t.job? j.slot).map (·.phase) = some .capture ∧
            t.col.transports = s.col.transports ∧
            t.col.queue = s.col.queue ++ [(j.slot, dSelected d, (dSelected d).map fun m =>
              (m, parseTransport (s.hostBytes (dConfigAddr d) (dConfigLen d) block) m))])) ∧
      (dAction d = 3 → dSelected d ≠ [] → ∃ t, exec (.stop n) s = .next t ∧ (t.job? j.slot).map (·.phase) = some .capture ∧
        t.col.transports = s.col.transports ∧
        t.col.queue = s.col.queue ++ [(j.slot, dSelected d, (dSelected d).map fun m => (m, none))]) ∧
      (dAction d = 3 → dSelected d = [] → s.cqOpen (s.cqFor n d) →
        ∃ t, exec (.stop n) s = .next t ∧ s.endsJob t j stOk 0 0 0 ∧ t.col.transports = s.col.transports) ∧
      (∀ white, dAction d = (if white then 2 else 1) →
        ∃ t, exec (if white then .calibrateWhite n else .calibrateDark n) s = .next t ∧
          (t.job? j.slot).map (·.phase) = some .calibrating ∧
          t.col.calib = s.col.calib ++ [⟨j.slot, white, dAvg d, dSelected d, false, [], []⟩] ∧ t.col.refs = s.col.refs)) ∧
    (∀ m cfg, m < 4 → s.dev.state ≠ .off → s.colUp = true → (s.transport m).sides = [] → s.col.queue = [(j.slot, [m], [(m, cfg)])] →
      s.captureBlocked j.slot = false → s.cqOpen (s.cqFor n d) →
      ∃ t, exec (.configApply m) s = .next t ∧ (t.transport m).cfg = cfg ∧ (t.transport m).pos = (s.transport m).pos ∧
        (t.transport m).page = (s.transport m).page ∧ t.col.queue = [] ∧ s.endsJob t j stOk 0 0 0 ∧
        (t.col.refs = match cfg with
          | none => s.col.refs
          | some c => s.col.refs.filter fun r => r.transport ≠ m || keepsRefs r c.sources) ∧
        ∀ k, k ≠ m → t.transport k = s.transport k)

/-- CALIBRATION_START begins a calibration whose transports have no page-side open; CAL_LINE_TRIGGER asserts LSYNC on each port that
owes lines, with no lamp driven in a dark one; CALIBRATION_DONE sets each reference to the sum shifted right by AVG and ends with OK and
AMOUNT the dead pixels (R186, R181, R189). -/
def Obligations.CalibrationRuns : Prop :=
  ∀ (s : State) (k : Calib), s.Inv → s.dev.state ≠ .off → s.colUp = true → s.calib? k.slot = some k →
    (k.started = false → s.captureBlocked k.slot = false → (∀ m ∈ k.transports, (s.transport m).sides = []) →
      ∃ t, exec (.calibrationStart k.slot) s = .next t ∧ (t.calib? k.slot).map (·.started) = some true ∧
        t.col.transports = s.col.transports ∧ t.col.refs = s.col.refs ∧ t.out = s.out) ∧
    (k.started = true → ∃ t, exec (.calLineTrigger k.slot) s = .next t ∧ t.col.refs = s.col.refs ∧
      (k.white = false → t.col.lamps = s.col.lamps) ∧
      ∀ p, p < 8 → if s.calTriggers k p = [] then t.lsp p = s.lsp p
        else (t.lsp p).outstanding = s.calTriggers k p ∧ Out.lsync p ∈ t.out) ∧
    (∀ (j : Job) (e : CalSum) (src : Source), k.started = true → k.sums = [e] → s.slotJob j.sq j.desc j → j.slot = k.slot →
      s.cqOpen (s.cqFor j.sq j.desc) → (s.transport e.transport).sources[e.source]? = some src →
      ((s.transport e.transport).cfg.map (·.frameMode)).getD false = false → 2 ^ k.avg ≤ e.lines →
      ∃ t, exec (.calibrationDone k.slot) s = .next t ∧ s.endsJob t j stOk 0 (t.deadPixels e.transport e.source) 0 ∧
        ∀ x, x < e.sums.length →
          t.refsOf e.transport e.source src.sampleBits x =
            let old := s.refsOf e.transport e.source src.sampleBits x
            let mean := e.sums.getD x 0 / 2 ^ k.avg
            if k.white then (old.1, mean) else (mean, old.2))

/-- LEAD_ASSERT on a committed line-scan transport latches P_lead and opens a page-side under the next page number, or notes NO_ROOM; on
one without a configuration nothing opens (R169, R170, R205). LEAD_DEASSERT latches P_trail, not in frame mode (R165); DFEED_ASSERT and STALL_LIMIT mark the open
page-sides; ENC_EDGE counts one quarter count, or ENC_ERR when both inputs change; ILK_OPEN cuts UV strobes alone, which ILK_CLOSE does
not bring back; STROBE_ON and STROBE_OFF move a lamp through its event (R166 to R178, R190 to R192). -/
def Obligations.TransportEvents : Prop :=
  ∀ (s : State) (m : Nat), s.Inv → s.dev.state ≠ .off → m < 4 →
    (∀ c, (s.transport m).cfg = some c → c.frameMode = false → s.colUp = true → (s.transport m).sides = [] →
      (∀ k ∈ s.col.calib, k.started = true → m ∉ k.transports) → (∃ x ∈ c.sources, x.side = 0) → (∀ x ∈ c.sources, x.side = 0) →
      ∃ t, exec (.leadAssert m) s = .next t ∧ (t.transport m).page = ((s.transport m).page + 1) % 2 ^ 45 ∧
        (t.transport m).pLead = (s.transport m).pos ∧ (t.transport m).ilkHeld = (s.transport m).ilkClosed ∧
        (let id := sampleId (s.transport m).page 0 m
         let room := firstRun s.colGranules (granules (c.setBytes 0 c.maxRows)) (poolRuns s.col.pool)
         if room = none then t.regB (rColTEvent m) 8 = true ∧ ∃ h ∈ t.acc.held, h.planes.sample = id ∧ h.fate = .noRoom
         else (∃ o ∈ (t.transport m).sides, o.sample = id) ∨ ∃ h ∈ t.acc.held, h.planes.sample = id ∧ h.fate = .held)) ∧
    ((s.transport m).cfg = none → ∃ t, exec (.leadAssert m) s = .next t ∧ (t.transport m).sides = (s.transport m).sides ∧
      (t.transport m).page = (s.transport m).page ∧ t.dev = s.dev ∧ t.out = s.out) ∧
    ((s.transport m).sides ≠ [] → (s.transport m).pTrail = none →
      (∀ c, (s.transport m).cfg = some c → c.frameMode = true →
        ∃ t, exec (.leadDeassert m) s = .next t ∧ (t.transport m).pTrail = none ∧ (t.transport m).sides = (s.transport m).sides) ∧
      (∀ c, (s.transport m).cfg = some c → c.frameMode = false →
        ∃ t, exec (.leadDeassert m) s = .next t ∧ (t.transport m).pTrail = some (s.transport m).pos ∧
          (t.transport m).page = (s.transport m).page)) ∧
    (s.colUp = true → (s.transport m).sides ≠ [] →
      (∃ t, exec (.dfeedAssert m) s = .next t ∧ t.regB (rColTEvent m) 0 = true ∧
        (t.transport m).sides = (s.transport m).sides.map (·.mark 0)) ∧
      (∀ c, (s.transport m).cfg = some c → c.frameMode = false →
        ∃ t, exec (.stallLimit m) s = .next t ∧ t.regB (rColTEvent m) 1 = true ∧
          (t.transport m).sides = (s.transport m).sides.map (·.mark 1))) ∧
    (∀ a b, (encPhase a b + 4 - encPhase (s.transport m).encA (s.transport m).encB) % 4 = 1 →
      ∃ t, exec (.encEdge m a b) s = .next t ∧
        (t.transport m).pos = (if (s.transport m).dir then wrapN 32 (((s.transport m).pos : Int) - 1)
          else wrapN 32 (((s.transport m).pos : Int) + 1)) ∧ (t.transport m).encA = a ∧ (t.transport m).encB = b) ∧
    (∀ a b, s.colUp = true → a ≠ (s.transport m).encA → b ≠ (s.transport m).encB →
      ∃ t, exec (.encEdge m a b) s = .next t ∧ (t.transport m).pos = (s.transport m).pos ∧
        (t.transport m).encErrs = (s.transport m).encErrs + 1 ∧ t.regB (rColTEvent m) 6 = true) ∧
    (∃ t, exec (.ilkOpen m) s = .next t ∧ (t.transport m).uvHeld = true ∧
      (∀ l ∈ t.col.lamps, l ≠ .delay true m ∧ l ≠ .high true m) ∧
      ∀ (i u : Nat), s.col.lamps[i]? = some (StrobePhase.high false u) → t.col.lamps[i]? = some (StrobePhase.high false u)) ∧
    (∃ t, exec (.ilkClose m) s = .next t ∧ (t.transport m).ilkClosed = true ∧ (t.transport m).ilkHeld = (s.transport m).ilkHeld ∧
      t.col.lamps = s.col.lamps) ∧
    (∀ (i : Nat) (uv : Bool), s.col.lamps[i]? = some (StrobePhase.delay uv m) → ∃ t, exec (.strobeOn i) s = .next t ∧ t.col.lamps[i]? = some (StrobePhase.high uv m) ∧
      t.col.transports = s.col.transports) ∧
    ∀ (i : Nat) (uv : Bool), s.col.lamps[i]? = some (StrobePhase.high uv m) → ∃ t, exec (.strobeOff i) s = .next t ∧ t.col.lamps[i]? = some StrobePhase.idle ∧
      t.col.transports = s.col.transports

/-- LINE_FRAME: the line asked for joins its page-side, corrected, which may close with it; a header CRC failure discards the frame and
counts it (R161, R180). LINE_TRIGGER_DEFERRED fires the trigger held back (R176). FRAME_START opens a page-side on a frame-mode
transport, CSI_LINE adds a line and FRAME_END closes it (R165). ABORT ends the open page-sides with their planes discarded; COL_T_DROP
frees the unclaimed page-sides up to its PAGE (R177, R209). -/
def Obligations.LinesReachPageSides : Prop :=
  ∀ (s : State) (m : Nat) (c : TransportCfg), s.Inv → s.dev.state ≠ .off → s.colUp = true → m < 4 → (s.transport m).cfg = some c →
    (∀ p f i j src o, p < 8 → lfHeaderOk f = true → s.regF rHlkVerAgree1 16 8 ≤ lfVer f → lfVer f ≤ s.regF rHlkVerAgree1 24 8 →
      lfTrailerOk f = true → lfTest f = false → (s.lsp p).muted = false → (∀ e ∈ s.portSources p, frameFits f e.2 = true) →
      (s.lsp p).outstanding = [⟨m, i, j, false⟩] → (s.lsp p).lastSeq = none → c.sources[i]? = some src →
      (s.transport m).sides = [o] → o.side = src.side →
      ∃ t, exec (.lineFrame p f) s = .next t ∧ (t.lsp p).outstanding = [] ∧ (t.lsp p).lastSeq = some (lfSeq f) ∧
        ((∃ q ∈ (t.transport m).sides, q.sample = o.sample ∧
            (i, j, s.shadeLine m i c.whiteTarget (lfBits f) (lfChannel f src.channelIn)) ∈ q.lines) ∨
          ∃ h ∈ t.acc.held, h.planes.sample = o.sample ∧ h.fate = .held)) ∧
    (∀ p f, p < 8 → lfHeaderOk f = false → ∃ t, exec (.lineFrame p f) s = .next t ∧ (t.lsp p).outstanding = [] ∧
      t.regF (rColLspErr p) 0 8 = min 255 (s.regF (rColLspErr p) 0 8 + 1)) ∧
    (∀ p gs rest, p < 8 → (s.lsp p).deferred = gs :: rest →
      ∃ t, exec (.lineTriggerDeferred p) s = .next t ∧ (t.lsp p).outstanding = gs ∧ (t.lsp p).deferred = rest ∧ Out.lsync p ∈ t.out) ∧
    (∀ p, p < 8 → (s.lsp p).deferred = [] → ∃ t, exec (.lineTriggerDeferred p) s = .next t ∧ (t.lsp p).inMinLine = false ∧
      t.out = s.out) ∧
    (∀ port vc d, c.frameMode = true → s.col.calib = [] → (∀ k, k < 4 → k ≠ m → (s.transport k).csiSources port vc = []) →
      ((((s.transport m).csiSources port vc).map (·.2.side)).eraseDups = [d]) →
      ((s.transport m).sides = [] →
        firstRun s.colGranules (granules (c.setBytes d c.maxRows)) (poolRuns s.col.pool) ≠ none →
        ∃ t o, exec (.frameStart port vc) s = .next t ∧ (t.transport m).sides = [o] ∧ o.lines = [] ∧
          o.sample = sampleId (s.transport m).page d m ∧ (t.transport m).page = ((s.transport m).page + 1) % 2 ^ 45) ∧
      (∀ o, (s.transport m).sides = [o] → o.side = d →
        (∃ t, exec (.frameEnd port vc) s = .next t ∧ (t.transport m).sides = [] ∧
          ∃ h ∈ t.acc.held, h.planes.sample = o.sample ∧ h.fate = .held) ∧
        ∀ dt b herr i src, herr < 2 → csiBits dt = some src.sampleBits → (s.transport m).csiSources port vc = [(i, src)] →
          csiLen dt src.pixels ≤ b.length →
          ∃ t, exec (.csiLine port vc dt b herr true) s = .next t ∧
            ((∃ q ∈ (t.transport m).sides, q.sample = o.sample ∧
                (i, nextOf (s.transport m).nextRow i, s.shadeLine m i c.whiteTarget src.sampleBits
                  ((List.range src.pixels).map fun x => csiSample dt b src.channelIn x)) ∈ q.lines) ∨
              ∃ h ∈ t.acc.held, h.planes.sample = o.sample ∧ h.fate = .held))) ∧
    (s.dev.state ≠ .standby → s.rst.fabricRelease = false →
      (∃ t, exec (.abort m) s = .next t ∧ (t.transport m).sides = [] ∧
        (∀ o ∈ (s.transport m).sides, ∃ h ∈ t.acc.held, h.planes.sample = o.sample ∧ h.fate = .aborted)) ∧
      ∀ v : Word, ∃ t, exec (.colTDrop m v) s = .next t ∧
        (∀ h ∈ s.acc.held, h.claimedBy = none →
          (h ∈ t.acc.held ↔ ¬(h.captured = true ∧ idTransport h.planes.sample = m ∧ bitsN h.planes.sample 0 32 ≤ v.toNat))))

/-! ### The host link and the register map (chapters 2 and 20) -/

/-- FLR, HOT_RESET, LINK_LOSS and PERST_N_ASSERT reset the endpoint: Device Control is at its 128 B default, the MSI-X table at its reset
contents with nothing pending, and the link is down after the last three. With MGT_EMB.EN 0 each also requests a Fabric reset, so that jobs end and DRAM and committed
folios stay, and one in CLOSED_STACKS is released at once and logged there (assumption 22); with EN 1 the endpoint alone resets and
work continues (R44). PERST_N_RELEASE lets the transmitter leave electrical idle
once step 3 of bring-up has begun (R612); LINK_UP trains the link while the transmitter works; DEVICE_CONTROL_WRITE sets the payload,
the read size and the Relaxed Ordering enable of a part that is not in STANDBY (R39). Nothing else changes. -/
def Obligations.LinkEvents : Prop :=
  (∀ (s : State) (c : Instr), (c = .flr ∨ c = .hotReset ∨ c = .linkLoss ∨ c = .perstNAssert) → s.dev.state ≠ .off →
      (s.emb = true → ∃ t, exec c s = .next t ∧ t = { s with link := t.link } ∧ t.link.mps = 0 ∧ t.link.msixTable = msixReset ∧
        t.link.msixPending = 0 ∧
        (c ≠ .flr → t.link.up = false) ∧ (c = .flr → t.link.up = s.link.up)) ∧
      (s.emb = false → s.dev.state = .closedStacks → s.rst.asserted = [] → s.rst.epOpen = false →
        (∀ u ∈ s.rst.units, u.phase = .held) →
        ∃ t, exec c s = .next t ∧ t.link.mps = 0 ∧ t.link.msixTable = msixReset ∧ t.dev.state = .closedStacks ∧ t.rst.reqBusy = false ∧
          t.rst.units.map (·.phase) = s.rst.units.map (·.phase) ∧ (.spine ∈ s.rst.units.map (·.unit) → t.rst.logSeq = s.rst.logSeq + 1)) ∧
      (s.emb = false → s.dev.state ≠ .closedStacks → s.allRun → s.rst.units ≠ [] → s.rst.fabricRelease = false → s.dev.req = none →
        ∃ t, exec c s = .next t ∧ t.link.mps = 0 ∧ t.link.msixTable = msixReset ∧ (c ≠ .flr → t.link.up = false) ∧
          (c = .flr → t.link.up = s.link.up) ∧ t.jobs = [] ∧ t.dram = s.dram ∧ t.dev = s.dev ∧
          t.fol.folios = (s.fol.folios.filter (·.committed)).map Folio.settled ∧ ∀ u ∈ t.rst.units, u.phase = .idleReq)) ∧
  (∀ s : State, s.dev.state ≠ .off →
      exec .perstNRelease s =
        .next { s with link := { s.link with perstLow := false, txActive := s.dev.step2 || s.link.txActive } } ∧
      (∀ speed width, speed ≠ 0 → s.link.perstLow = false → s.link.txActive = true → s.link.up = false →
        exec (.linkUp speed width) s = .next { s with link := { s.link with up := true, speed := speed, width := width } }) ∧
      ∀ mps mrrs ro, s.dev.state ≠ .standby → mps ≤ 2 → mrrs ∈ [128, 256, 512, 1024, 2048, 4096] →
        exec (.deviceControlWrite mps mrrs ro) s =
          .next { s with link := { s.link with mps := mps, mrrs := mrrs, relaxed := ro } })

/-- BAR4_ACCESS to an awake part whose BAR4 is present (R41, R42): a write inside the usable capacity is stored from WINDOW × 256 MiB
plus the offset, and every other byte of DRAM stays; a read returns those bytes. While START_OK holds and debug access is locked, reads
return all ones, writes are dropped and BAR4_BLOCKED reads 1. An access that only the host makes waits for SERVICE in STANDBY, which it wakes:
REGISTER_WRITE and the register commands of the blocks that only BAR0 reaches then, configuration writes, AtomicOps, BAR4 accesses and
reads (R595, R616). No register changes
but PWR_WAKE_CAUSE. -/
def Obligations.HostAccessesAndStandby : Prop :=
  (∀ (s : State) (off len : Nat) (data : Bytes), s.Inv → s.dev.state ≠ .off → s.dev.state ≠ .standby → s.link.bar4 = true →
      (let a := s.regF rHlkBar4Base 0 8 * 2 ^ 28 + off
       (s.bar4Locked = false → a + data.length ≤ s.dramBytes →
         ∃ t, exec (.bar4Access true off len data) s = .next t ∧ t.dramRead a data.length = data ∧ t.regs = s.regs ∧
           ∀ b, (b < a ∨ a + data.length ≤ b) → t.dram.get b = s.dram.get b) ∧
       (s.bar4Locked = false → a + len ≤ s.dramBytes →
         ∃ t, exec (.bar4Access false off len data) s = .next t ∧ t.out = s.out ++ [.bar4Data (s.dramRead a len)] ∧
           t.dram = s.dram ∧ t.regs = s.regs) ∧
       (s.bar4Locked = true → ∀ w, ∃ t, exec (.bar4Access w off len data) s = .next t ∧ t.dram = s.dram ∧
         t.regB rHlkStatus 12 = true ∧ t.out = s.out ++ if w then [] else [.bar4Data (List.replicate len 0xFF)]))) ∧
  (∀ (s : State) (c : Instr) (a : HostAccess), s.dev.state = .standby → s.dev.req = none → s.MemWf →
      ((∃ off words, c = .registerWrite off words ∧ a = .write (off / 4 * 4) words) ∨
        (∃ r v, c = .ringEnable r v ∧ a = .write (ringCtrl r) [(v, 15#4)]) ∨
        (∃ n v, c = .sqRingDisable n v ∧ a = .write (rRingSqCtrl n) [(v, 15#4)]) ∨
        (∃ n v, c = .cqRingDisable n v ∧ a = .write (rRingCqCtrl n) [(v, 15#4)]) ∨
        (∃ v, (c = .ledgerEnable v ∨ c = .ledgerDisable v) ∧ a = .write rLdgCtrl [(v, 15#4)]) ∨
        (c = .keepDrop ∧ a = .write rAccKeep [(0x10000#32, 15#4)]) ∨
        (∃ m v, (c = .abort m ∧ a = .write (rColTCtrl m) [(1#32, 15#4)]) ∨ (c = .colTDrop m v ∧ a = .write (rColTDrop m) [(v, 15#4)])) ∨
        (∃ v, (c = .secRbAdvance v ∧ a = .write rSecRbAdvance [(v, 15#4)]) ∨
          (c = .firmwareUpdate v ∧ a = .write rSecFwuCtrl [(v, 15#4)]) ∨ (c = .carInjectArm v ∧ a = .write rCarInject [(v, 15#4)])) ∨
        (∃ mps mrrs ro, c = .deviceControlWrite mps mrrs ro ∧ a = .deviceControl mps mrrs ro) ∨
        (∃ bar off, c = .bar0AtomicOp bar off ∧ a = .atomic bar off) ∨
        (∃ w off len data, c = .bar4Access w off len data ∧ a = .bar4 w off len data) ∨
        (c = .ldgDeviceUjLoRead ∧ a = .ujRead)) →
      ∃ t, exec c s = .next t ∧ t.link.waiting = s.link.waiting ++ [a] ∧ t.dev.waking = true ∧ t.dev.state = .standby ∧
        t.regB rPwrWakeCause 0 = true ∧ t.rings = s.rings ∧ t.ldg = s.ldg ∧ t.dram = s.dram ∧
        ∀ off, off ≠ rPwrWakeCause → t.reg off = s.reg off)

/-- REGISTER_WRITE of one word to an awake part (R7, R591, R592): with every byte enabled, a register whose bits only the access codes
govern takes the written word's RW and W1C bits and keeps the others; a partial word is dropped with SYS_ACCESS.PARTIAL and its offset;
a word of an unmapped offset is ignored with UNMAPPED and its offset. Every other register stays, but SYS_ACCESS itself. SYS_LOCK sets
LOCK, and a later write to a register of RWL fields alone leaves it as it was and records LOCKED with the offset; of the other registers
only SYS_ACCESS changes (R597). -/
def Obligations.RegisterWrites : Prop :=
  (∀ (s : State) (off : Nat) (v : Word) (be : BitVec 4), s.Inv → s.dev.state ≠ .off → s.dev.state ≠ .standby → off % 4 = 0 →
      s.rst.fabricRelease = false →
      (be = 15#4 → ∀ r, regRow? off = some r →
        off ∈ [rPwrIdle, rPwrWakeEn, rPwrThermCtrl, rMgtIntEn, rPwrWakeCause, rClkFail, rRingSlots, rErrCtrl, rSchPolicy] →
        ∃ t, exec (.registerWrite off [(v, be)]) s = .next t ∧ t.reg off = writtenWord r s.locked (s.reg off) v ∧
          (∀ o, o ≠ off → t.reg o = s.reg o) ∧ t.jobs = s.jobs ∧ t.dram = s.dram) ∧
      (be ≠ 15#4 → off < 65536 → ∃ t, exec (.registerWrite off [(v, be)]) s = .next t ∧ t.regB rSysAccess 0 = true ∧
        t.regF rSysAccess 16 16 = off ∧ ∀ o, o ≠ rSysAccess → t.reg o = s.reg o) ∧
      (be = 15#4 → off < 65536 → regRow? off = none → isMsixOffset off = false →
        ∃ t, exec (.registerWrite off [(v, be)]) s = .next t ∧ t.regB rSysAccess 1 = true ∧ t.regF rSysAccess 16 16 = off ∧
          ∀ o, o ≠ rSysAccess → t.reg o = s.reg o)) ∧
  (∀ (s : State) (v : Word) (off : Nat), s.Inv → s.dev.state ≠ .off → off ∈ [rRstCtrl, rRstWdog, rHlkVerAgree0, rHlkVerAgree1, rClkArith] →
      s.dev.state ≠ .standby → s.rst.fabricRelease = false →
      (∃ t, exec .sysLock s = .next t ∧ t.locked = true ∧ ∀ o, o ≠ rSysLock → t.reg o = s.reg o) ∧
      (s.locked = true → ∃ t, exec (.registerWrite off [(v, 15#4)]) s = .next t ∧ t.reg off = s.reg off ∧
        t.regB rSysAccess 2 = true ∧ t.regF rSysAccess 16 16 = off ∧ ∀ o, o ≠ rSysAccess → t.reg o = s.reg o))

/-- AtomicOp requests complete as Unsupported Request and change nothing: in SERVICE and every other state but STANDBY, where the request
waits for SERVICE (HostAccessesAndStandby), BAR0_ATOMIC_OP only adds that completion to what the LT8 has sent, and ends READY_IDLE as any
access does. -/
def Obligations.AtomicOpsUnsupported : Prop :=
  ∀ (s : State) (bar off : Nat), s.dev.state ≠ .off → s.dev.state ≠ .standby →
    (s.dev.power ≠ .readyIdle → exec (.bar0AtomicOp bar off) s = .next { s with out := s.out ++ [.unsupportedRequest] }) ∧
    (s.dev.power = .readyIdle → exec (.bar0AtomicOp bar off) s =
      .next { s with out := s.out ++ [.unsupportedRequest], dev := { s.dev with power := .exiting, idleFor := 0 } })

/-- HLK_VER_AGREE_WRITE of an unlocked part is refused, with both registers unchanged and VER_REFUSED reading 1, while a submission ring
is enabled, or when for an interface it sets LO above HI or a bound outside the advertised range; else the register takes the word. -/
def Obligations.VersionAgreement : Prop :=
  ∀ (s : State) (hi : Bool) (v : Word), s.Inv → s.dev.state ≠ .off → s.dev.state ≠ .standby → s.locked = false →
    (let off := if hi then rHlkVerAgree1 else rHlkVerAgree0
     let cap := s.reg (if hi then rHlkVerCap1 else rHlkVerCap0)
     let bad := (∃ n, n < 64 ∧ s.ringEn (.sq n) = true) ∨
       (∃ k, (k = 0 ∨ k = 16) ∧ (wbits v (k + 8) 8 < wbits v k 8 ∨ wbits v k 8 < wbits cap k 8 ∨
         wbits cap (k + 8) 8 < wbits v (k + 8) 8))
     (bad → ∃ t, exec (.hlkVerAgreeWrite hi v) s = .next t ∧ t.regB rHlkStatus 13 = true ∧
       t.reg rHlkVerAgree0 = s.reg rHlkVerAgree0 ∧ t.reg rHlkVerAgree1 = s.reg rHlkVerAgree1) ∧
     (¬bad → ∃ t, exec (.hlkVerAgreeWrite hi v) s = .next t ∧ t.reg off = v ∧ ∀ o, o ≠ off → t.reg o = s.reg o))

/-- MGT_EMB_WRITE of an unlocked part sets EN as written, but a change while any ring is enabled is refused with REFUSED reading 1 and
EN kept (R60); MGT_WAKE and HOST_ACCESS_WAKE wake a part in STANDBY and record the cause, and abort an entry into STANDBY under way with
SYS_STATE.WAKE_ABORT, the part staying in SERVICE (R32, R537). HOST_BOOT_GO with the length starts a verification while the ROM waits or
has rejected an image, and is ignored while VERIFYING or ACCEPTED; HOST_BOOT_VERIFY_DONE accepts exactly an image that R575 accepts,
which then runs, or rejects it, after which the ROM still waits (R43 and its steps). -/
def Obligations.EmbeddedModeAndHostBoot : Prop :=
  (∀ s : State, s.Inv → s.dev.state ≠ .off →
      (∀ v, s.locked = false →
        (let changes := wbit v 0 ≠ s.emb
         let ringOn := ∃ r, ringValid r = true ∧ s.ringEn r = true
         (changes ∧ ringOn → ∃ t, exec (.mgtEmbWrite v) s = .next t ∧ t.emb = s.emb ∧ t.regB rMgtEmb 1 = true) ∧
         (¬(changes ∧ ringOn) → ∃ t, exec (.mgtEmbWrite v) s = .next t ∧ t.emb = wbit v 0 ∧
           ∀ o, o ≠ rMgtEmb → (o = rErrNumber → s.err.held = []) → t.reg o = s.reg o))) ∧
      (∀ c bit, (c = .hostAccessWake ∧ bit = 0) ∨ (c = .mgtWake 0 ∧ bit = 1) →
        (s.dev.state = .standby → s.dev.req = none → ∃ t, exec c s = .next t ∧ t.dev.waking = true ∧ t.dev.power = .exiting ∧
          t.regB rPwrWakeCause bit = true ∧ t.jobs = s.jobs) ∧
        (s.dev.state = .service → s.dev.req = some .standby → ∃ t, exec c s = .next t ∧ t.dev.req = none ∧
          t.dev.state = .service ∧ t.regB rSysState 10 = true ∧ t.regB rPwrWakeCause bit = true))) ∧
  (∀ (s : State) (len : Nat), s.Inv → s.dev.state = .bringUp → s.dev.hostBoot = true → s.rst.fabricRelease = false →
      (s.regF rHlkBoot 29 2 = 0 ∨ s.regF rHlkBoot 29 2 = 3 →
        ∃ t, exec (.hostBootGo len) s = .next t ∧ t.regF rHlkBoot 29 2 = 1 ∧ t.dev.hostLen = len) ∧
      (s.regF rHlkBoot 29 2 = 1 ∨ s.regF rHlkBoot 29 2 = 2 →
        ∃ t, exec (.hostBootGo len) s = .next t ∧ t.regF rHlkBoot 29 2 = s.regF rHlkBoot 29 2 ∧ t.dev = s.dev) ∧
      (s.regF rHlkBoot 29 2 = 1 →
        (s.imgOk (s.dramRead s.windowBase s.dev.hostLen) s.dev.hostLen = true → ∃ t, exec .hostBootVerifyDone s = .next t ∧
          t.regF rHlkBoot 29 2 = 2 ∧ t.dev.penuo.isSome = true ∧ t.dev.hostBoot = false ∧ t.dram = s.dram) ∧
        (s.imgOk (s.dramRead s.windowBase s.dev.hostLen) s.dev.hostLen = false → ∃ t, exec .hostBootVerifyDone s = .next t ∧
          t.regF rHlkBoot 29 2 = 3 ∧ t.dev = s.dev ∧ t.dram = s.dram)))

/-! ### The management port (chapter 2) -/

/-- The frame of a command is its opcode, in 8D-8D-8D mode the complement, then the address with its most significant byte first, then
the data (R46, R47, R5). MGT_RD_STATUS returns the status word of R48 and leaves LAST, but one of another length sets it; MGT_MODE_8D and MGT_MODE_1S set the mode and MGT_CLEAR_STARTS clears
the failed-start count, each with LAST OK; MGT_BAD_FRAME sets LAST to UNKNOWN_OPCODE, or in 8D-8D-8D mode with a bad complement to
OPCODE_CHECK, and nothing more (R49). MGT_RD_REG of one reachable register returns its word with LAST OK; a word that is not reachable
reads 0 with LAST NOT_AVAILABLE, as every offset outside the always-on blocks does in STANDBY and CLOSED_STACKS. MGT_WR_REG of one word
writes it as a register write does, or, with an unreachable word, writes none (R50, R599, R600). MGT_KICK of a ring has the effect of a
write to its kick-page word, but that the wake it causes is the management port's (R47); MGT_RESET with address 1 or 2 is a software
request of Warm or Fabric reach (R509), refused with BUSY and REQ_REFUSED while one is under way (R530); another address completes with
RANGE. -/
def Obligations.ManagementPort : Prop :=
  (∀ s : State, s.dev.state ≠ .off → s.dev.power ≠ .readyIdle →
      exec (.mgtRdStatus 4) s = .next { s with out := s.out ++ [.mgtData (toLe 4 s.mgtStatus)] } ∧
      (∀ n, n ≠ 4 → exec (.mgtRdStatus n) s = .next { s with mgt := { s.mgt with last := lastAlign } }) ∧
      (∀ n, n ≠ 0 → exec (.mgtClearStarts n) s = .next { s with mgt := { s.mgt with last := lastAlign } }) ∧
      exec (.mgtMode8d 0) s = .next { s with mgt := { s.mgt with last := lastOk, mode8d := true } } ∧
      exec (.mgtMode1s 0) s = .next { s with mgt := { s.mgt with last := lastOk, mode8d := false } } ∧
      exec (.mgtClearStarts 0) s = .next { s with mgt := { s.mgt with last := lastOk }, rst := { s.rst with starts := 0 } } ∧
      exec (.mgtBadFrame true) s = .next { s with mgt := { s.mgt with last := lastUnknown } } ∧
      (s.mgt.mode8d = true → exec (.mgtBadFrame false) s = .next { s with mgt := { s.mgt with last := lastOpcodeCheck } })) ∧
  (∀ (s : State) (off : Nat) (data : Bytes), s.dev.state ≠ .off → s.dev.power ≠ .readyIdle → off % 4 = 0 → off < 65536 →
      data.length = 4 →
      (s.mgtReach off = true → off ≠ rLdgDeviceUjLo →
        exec (.mgtRdReg off 4) s =
          .next { s with mgt := { s.mgt with last := lastOk }, out := s.out ++ [.mgtData (toLe 4 (({ s with mgt := { s.mgt with last := lastOk } } : State).readReg off).toNat)] }) ∧
      (s.mgtReach off = false →
        exec (.mgtRdReg off 4) s =
          .next { s with mgt := { s.mgt with last := lastNotAvailable }, out := s.out ++ [.mgtData [0, 0, 0, 0]] } ∧
        exec (.mgtWrReg off data) s = .next { s with mgt := { s.mgt with last := lastNotAvailable } }) ∧
      (s.mgtReach off = true → exec (.mgtWrReg off data) s =
        .next (({ s with mgt := { s.mgt with last := lastOk } } : State).writeReg off (BitVec.ofNat 32 (leNat data)))) ∧
      ((s.dev.state = .standby ∨ s.dev.state = .closedStacks) → s.mgtReach off = true →
        off < 0x2000 ∨ (0x2080 ≤ off ∧ off < 0x20C0))) ∧
  (∀ s : State, s.dev.state ≠ .off → s.dev.state ≠ .closedStacks → s.dev.power ≠ .readyIdle → s.MemWf →
      (∀ n, n < 64 → exec (.mgtKick n 0) s = .next (({ s with mgt := { s.mgt with last := lastOk } } : State).kickRings [n] .mgt)) ∧
      (∀ n, 63 < n → exec (.mgtKick n 0) s = .next { s with mgt := { s.mgt with last := lastRange } }) ∧
      (s.rst.reqBusy = false →
        exec (.mgtReset 1 0) s = .next (({ s with mgt := { s.mgt with last := lastOk } } : State).requestReset .warm) ∧
        exec (.mgtReset 2 0) s = .next (({ s with mgt := { s.mgt with last := lastOk } } : State).requestReset .fabric) ∧
        ∀ a, a ≠ 1 → a ≠ 2 → exec (.mgtReset a 0) s = .next { s with mgt := { s.mgt with last := lastRange } }) ∧
      (s.rst.reqBusy = true → ∀ a, ∃ t, exec (.mgtReset a 0) s = .next t ∧ t.mgt.last = lastBusy ∧
        t.regB rRstStatus 10 = true ∧ t.rst = s.rst)) ∧
  (∀ (a b c d : Byte) (data : Bytes),
      (let addr := ((a.toNat * 256 + b.toNat) * 256 + c.toNat) * 256 + d.toNat
       mgtCommand false (0x03 :: a :: b :: c :: d :: data) 0 = .mgtWrReg addr data ∧
       (∀ n, mgtCommand false [0x02, a, b, c, d] n = .mgtRdReg addr n) ∧
       mgtCommand true (0x10 :: 0xEF :: a :: b :: c :: d :: data) 0 = .mgtRcvData addr data ∧
       mgtCommand true [0x09, 0xF6, a, b, c, d] 0 = .mgtKick addr 0 ∧
       mgtCommand true (0x0F :: 0xF0 :: a :: b :: c :: d :: data) 0 = .mgtBadFrame true ∧
       ∀ op x : Byte, x.toNat ≠ op.toNat ^^^ 0xFF → mgtCommand true (op :: x :: a :: b :: c :: d :: data) 0 = .mgtBadFrame false))

/-- The DRAM window (R53, R54): MGT_DWIN_FETCH sets BUSY and clears READY, DWIN_FETCH_DONE fills the buffer and sets READY,
MGT_DWIN_READ returns bytes of the last fetch without changing the buffer; MGT_DWIN_WRITE sets BUSY, and DWIN_WRITE_DONE puts the bytes
into DRAM and leaves every other byte. A window command while BUSY completes with BUSY and does nothing more. The mailbox (R57, R58,
R617): MGT_MBOX_WRITE fills the inbound mailbox; MBOX_TAKE empties it and answers with the message's SEQ, an ECHO with the same payload,
any other type as UNKNOWN_TYPE, and a wrong LENGTH as MALFORMED; MGT_MBOX_READ returns the outbound message, padded with zeros to 256
bytes, and frees the mailbox. -/
def Obligations.WindowAndMailbox : Prop :=
  (∀ s : State, s.dev.state.serves = true → s.fabricUp = true → s.dev.power ≠ .readyIdle → s.dram.wf = true →
      (∀ a g, g ≤ 15 → 16 * a + 16 * (g + 1) ≤ s.dramBytes → s.mgt.dwinBusy = false →
        ∃ t, exec (.mgtDwinFetch a [BitVec.ofNat 8 g, 0]) s = .next t ∧ t.mgt.last = lastOk ∧ t.mgt.dwinBusy = true ∧
          t.mgt.dwinReady = false ∧ t.mgt.dwinOp = some (true, 16 * a, 16 * (g + 1), []) ∧ t.dram = s.dram) ∧
      (∀ a n x, s.mgt.dwinOp = some (true, a, n, x) →
        ∃ t, exec .dwinFetchDone s = .next t ∧ t.mgt.dwinBusy = false ∧ t.mgt.dwinReady = true ∧
          t.mgt.window = s.dramRead a n ∧ t.mgt.windowLen = n ∧ t.dram = s.dram) ∧
      (∀ off len, off % 16 = 0 → 0 < len → len ≤ 256 → s.mgt.dwinBusy = false → s.mgt.dwinReady = true →
        off + len ≤ s.mgt.windowLen →
        exec (.mgtDwinRead off len) s =
          .next { s with mgt := { s.mgt with last := lastOk }, out := s.out ++ [.mgtData (sliceB s.mgt.window off len)] }) ∧
      (∀ a (data : Bytes), 16 ≤ data.length → data.length ≤ 256 → data.length % 16 = 0 →
        16 * a + data.length ≤ s.dramBytes → s.mgt.dwinBusy = false →
        ∃ t, exec (.mgtDwinWrite a data) s = .next t ∧ t.mgt.last = lastOk ∧ t.mgt.dwinBusy = true ∧ t.mgt.dwinReady = false ∧
          t.mgt.dwinOp = some (false, 16 * a, data.length, data) ∧ t.dram = s.dram) ∧
      (∀ a n bs, s.mgt.dwinOp = some (false, a, n, bs) →
        ∃ t, exec .dwinWriteDone s = .next t ∧ t.mgt.dwinBusy = false ∧ t.dramRead a bs.length = bs ∧
          ∀ b, (b < a ∨ a + bs.length ≤ b) → t.dram.get b = s.dram.get b) ∧
      (∀ a (data : Bytes), 16 ≤ data.length → data.length ≤ 256 → data.length % 16 = 0 → s.mgt.dwinBusy = true →
        exec (.mgtDwinWrite a data) s = .next { s with mgt := { s.mgt with last := lastBusy } })) ∧
  (∀ s : State, s.running = true → s.dev.power ≠ .readyIdle →
      (∀ data : Bytes, 8 ≤ data.length → data.length ≤ 256 → s.mgt.inbox = none →
        exec (.mgtMboxWrite data) s = .next { s with mgt := { s.mgt with last := lastOk, inbox := some data } }) ∧
      (∀ m : Bytes, s.mgt.inbox = some m → s.mgt.outbox = none → s.mgt.held = [] →
        exec .mboxTake s = .next { s with mgt := { s.mgt with
          inbox := none
          outbox := some (
            if u16 m 2 > 248 ∨ u16 m 2 ≠ m.length - 8 then mboxBytes mtMalformed (u32 m 4) []
            else if u8 m 0 = mtEcho then mboxBytes mtEcho (u32 m 4) (m.drop 8)
            else mboxBytes mtUnknown (u32 m 4) []) } }) ∧
      (∀ m : Bytes, s.mgt.outbox = some m → s.mgt.held = [] → s.err.stuck = [] → s.emb = false →
        exec (.mgtMboxRead 256) s = .next { s with
          mgt := { s.mgt with last := lastOk, outbox := none }, out := s.out ++ [.mgtData (sliceB m 0 256)] }))

/-- The recovery loader (R522, R523), in CLOSED_STACKS: MGT_RCV_DATA of the block expected next programs its 256 bytes at the target
slot and sets PROG_BUSY, which RCV_PROGRAM_DONE clears; a block out of order, or one while PROG_BUSY is 1, is discarded and abandons the
image. MGT_RCV_COMMIT makes RESULT read VERIFYING, and RCV_COMMIT_DONE makes it ACCEPTED, with the slot's record of the next SEQ in both
directory copies, exactly when the image passes, else REJECTED with the flash unchanged. -/
def Obligations.RecoveryLoader : Prop :=
  ∀ s : State, s.dev.state = .closedStacks → s.dev.power ≠ .readyIdle → s.flash.wf = true →
    (∀ k (data : Bytes), data.length = 256 → 0 < k → s.sec.rcvBusy = false → s.sec.rcvNext = some k →
      ∃ t, exec (.mgtRcvData k data) s = .next t ∧ t.sec.rcvBusy = true ∧ t.sec.rcvNext = some (k + 1) ∧
        t.flashRead (s.slotBase s.sec.rcvSlotB + 256 * k) 256 = data ∧
        ∀ b, (b < s.slotBase s.sec.rcvSlotB + 256 * k ∨ s.slotBase s.sec.rcvSlotB + 256 * k + 256 ≤ b) →
          t.flash.get b = s.flash.get b) ∧
    (∀ k (data : Bytes), data.length = 256 → 0 < k → s.sec.rcvBusy = false → s.sec.rcvNext ≠ some k →
      ∃ t, exec (.mgtRcvData k data) s = .next t ∧ t.flash = s.flash ∧ t.sec.rcvSeqErr = true ∧ t.sec.rcvNext = none) ∧
    (∀ k (data : Bytes), data.length = 256 → s.sec.rcvBusy = true →
      ∃ t, exec (.mgtRcvData k data) s = .next t ∧ t.flash = s.flash ∧ t.sec.rcvOverrun = true ∧ t.sec.rcvNext = none) ∧
    exec .rcvProgramDone s = .next { s with sec := { s.sec with rcvBusy := false } } ∧
    (∀ len, ∃ t, exec (.mgtRcvCommit len 0) s = .next t ∧ t.sec.rcvResult = 1 ∧ t.sec.rcvLen = some len ∧ t.flash = s.flash) ∧
    (∀ len, s.sec.rcvLen = some len →
      (let b := s.sec.rcvSlotB
       let img := s.flashRead (s.slotBase b) len
       (s.sec.rcvNext.isSome = true ∧ s.imgOk img len = true → ∃ t, exec .rcvCommitDone s = .next t ∧ t.sec.rcvResult = 2 ∧
         t.flashRead (dirCopy1 + 64 * b2n b) 64 = commitRecord b (s.highSeq + 1) len (imgSvn img) (sha256 img) ∧
         t.flashRead (dirCopy0 + 64 * b2n b) 64 = commitRecord b (s.highSeq + 1) len (imgSvn img) (sha256 img)) ∧
       (s.sec.rcvNext = none ∨ s.imgOk img len = false → ∃ t, exec .rcvCommitDone s = .next t ∧ t.sec.rcvResult = 3 ∧
         t.flash = s.flash)))

/-! ### Errors, self-test, ends of jobs and the ledger (chapters 3, 15 and 18) -/

/-- ERROR_RECORD_ISSUE acts by the severity of R551: a corrected event stops nothing, but that an error of scratch stays in its word (R266); a contained one marks the job charged for its
teardown, stops that job's contexts and touches no other job; a unit-fatal one in a bay stops the bay; a device-fatal one moves the
device from SERVICE or TEST to RECOVERY with DEVICE_FATAL set and every job marked. The record counts in NUMBER, which skips 0. With no event
named, the oldest summary on its way up becomes the record (R552). -/
def Obligations.ErrorsActBySeverity : Prop :=
  ∀ (s : State) (ev : ErrEvent), s.dev.state ≠ .off → s.Inv → s.errRingBlocked = false → s.emb = false →
    (∀ k j, severityOf ev.kind true = sevContained → ev.job = some k → s.job? k = some j → j.alive = true →
      ∃ t, exec (.errorRecordIssue (some ev)) s = .next t ∧ (t.job? k).map (·.phase) = some .teardown ∧
        (∀ x ∈ t.sch.ctxs, x.jobNumber = j.number → x.stopped = true) ∧ (∀ m, m ≠ k → t.job? m = s.job? m) ∧
        t.err.number = nextNumber s.err.number ∧ t.dev = s.dev ∧ t.dram = s.dram) ∧
    (severityOf ev.kind ev.job.isSome = sevCorrected →
      ∃ t, exec (.errorRecordIssue (some ev)) s = .next t ∧ t.jobs = s.jobs ∧ t.sch = { s.sch with carrels := t.sch.carrels } ∧
        (ev.kind ≠ ekScratchCe → t.sch.carrels = s.sch.carrels) ∧ t.dev = s.dev ∧ t.dram = s.dram) ∧
    (severityOf ev.kind ev.job.isSome = sevUnitFatal → ev.kind ≠ ekForcedReset → uaLevel ev.unit = 1 →
      ∃ t, exec (.errorRecordIssue (some ev)) s = .next t ∧ t.bayStopped (uaFlatBay ev.unit) = true ∧ t.dev = s.dev ∧
        t.err.number = nextNumber s.err.number) ∧
    (severityOf ev.kind ev.job.isSome = sevDeviceFatal → (s.dev.state = .service ∨ s.dev.state = .test) →
      ∃ t, exec (.errorRecordIssue (some ev)) s = .next t ∧ t.dev.state = .recovery ∧ t.dev.fatalEntry = true ∧
        t.regB rErrStatus 0 = true ∧ ∀ j ∈ t.jobs, j.alive = false) ∧
    (∀ rest, s.err.pending = ev :: rest → severityOf ev.kind ev.job.isSome ≠ sevCorrected →
      ∃ t, exec (.errorRecordIssue none) s = .next t ∧ t.err.number = nextNumber s.err.number ∧ t.err.pending = rest ∧ t.dram = s.dram) ∧
    (s.err.pending = [ev] → uaLevel ev.unit ≠ 0 →
      exec (.errorRecordIssue none) s = exec (.errorRecordIssue (some ev)) { s with err := { s.err with pending := [] } })

/-- An event makes its pair of unit and kind lasting when the event T − 1 places before it lies fewer than 2^W_LOG2 AO cycles earlier:
the record then carries LASTING and the unit's bit sets; LASTING_CLEAR of that bit clears the bit and the marks of every kind for the
unit, and empties its history (R557, R558). FENCE_WRITE takes the bits as written, and the shards of a fenced bay leave the directory;
no job, context or severity changes (R561, R562). -/
def Obligations.LastingMarksAndFences : Prop :=
  ∀ s : State, s.dev.state ≠ .off → s.dev.state ≠ .standby → s.Inv → s.rst.fabricRelease = false →
    (∀ (ev : ErrEvent) (p : ErrPair) (old : Nat), s.err.pairs = [p] → p.unit = ev.unit → p.kind = ev.kind → uaLevel ev.unit = 1 →
      uaFlatBay ev.unit < 24 → p.times[s.lastingT - 2]? = some old → s.aoTime - old < s.lastingW →
      ∃ t, exec (.errorRecordIssue (some ev)) s = .next t ∧ t.regB rErrLastingU (uaFlatBay ev.unit) = true ∧
        ∀ q ∈ t.err.pairs, q.lasting = true) ∧
    (∀ v : Word, ∃ t, exec (.lastingClear 6 v) s = .next t ∧
      (∀ i, i < 29 → t.regB rErrLastingU i = (s.regB rErrLastingU i && !wbit v i)) ∧
      (∀ p ∈ t.err.pairs, uaLevel p.unit = 1 → uaFlatBay p.unit < 24 → wbit v (uaFlatBay p.unit) = true →
        p.times = [] ∧ p.lasting = false) ∧ t.jobs = s.jobs ∧ t.sch = s.sch) ∧
    (∀ (k : Nat) (v : Word), k < 6 → ∃ t, exec (.fenceWrite k v) s = .next t ∧ t.reg (rErrFenceC k) = v ∧ t.jobs = s.jobs ∧
      t.sch = s.sch ∧ t.fol = s.fol ∧ t.dram = s.dram) ∧
    ∀ v : Word, ∃ t, exec (.fenceWrite 6 v) s = .next t ∧ (∀ b, b < 24 → t.regB rErrFenceB b = wbit v b) ∧
      (∀ d ∈ t.fol.shards, wbit v d.bay = false) ∧ t.fol.folios = s.fol.folios ∧ t.jobs = s.jobs ∧ t.sch = s.sch

/-- JOB_TEARDOWN ends the job charged with an error with CONTEXT_FAULT and VOID, DETAIL naming its first record (R499). CANCEL ends
every job with its TARGET_SQ and TARGET_TAG that has no job-end record written, and completes with OK and AMOUNT their number (R101 to
R104): a job that works ends at once with CANCELLED, its record before the CANCEL's; with none to end AMOUNT is 0. Other jobs, the
contexts of other jobs and DRAM stay; a job whose context had an engine taken for it goes on. -/
def Obligations.TeardownAndCancelEndJobs : Prop :=
  ∀ s : State, s.dev.state ≠ .off → s.Inv →
    (∀ k j, s.job? k = some j → j.phase = .teardown → s.emb = false →
      ∃ t, exec (.jobTeardown k) s = .next t ∧ t.dram = s.dram ∧ (∀ x ∈ t.sch.ctxs, x.jobNumber ≠ j.number) ∧
        ∀ i, t.job? k = some i → i.phase = .ended) ∧
    (∀ n d, s.ready n d none → dOp d = opCancel → s.emb = false →
      ∃ t, exec (.cancel n) s = .next t ∧ (t.sq n).fetched = [] ∧ t.dram = s.dram ∧
        ∀ j ∈ s.cancelTargets d, (j.alive = true → ∀ x ∈ t.sch.ctxs, x.jobNumber ≠ j.number) ∧
          ∀ i, t.job? j.slot = some i → i.phase = .ended) ∧
    (s.sch.bistQueue = [] →
    (∀ k j, s.job? k = some j → j.phase = .teardown → s.enginesFree → s.cqOpen (s.cqFor j.sq j.desc) →
      ∃ t, exec (.jobTeardown k) s = .next t ∧ s.endsJob t j stContextFault flVoid j.seqRecs j.errNumber ∧ t.dram = s.dram ∧
        (∀ x ∈ t.sch.ctxs, x.jobNumber ≠ j.number)) ∧
    (∀ n d, s.ready n d none → dOp d = opCancel → s.cqOpen (s.cqFor n d) → s.rings.cancels = [] → s.cancelTargets d = [] →
      ∃ t, exec (.cancel n) s = .next t ∧ s.recordsDesc t n d none stOk 0 ∧ t.jobs = s.jobs ∧ t.dram = s.dram) ∧
    (∀ n d j, s.ready n d none → dOp d = opCancel → s.enginesFree → s.rings.cancels = [] → s.cancelTargets d = [j] → j.alive = true →
      s.cqOpen (s.cqFor n d) → s.cqOpen (s.cqFor j.sq j.desc) → s.cqFor n d ≠ s.cqFor j.sq j.desc →
      ∃ t, exec (.cancel n) s = .next t ∧ s.endsJob t j stCancelled 0 j.seqRecs 0 ∧
        s.cqWrite (s.cqFor n d) (jobEndRec n d stOk 0 1 0 0 0 0 none) ∈ t.out ∧ (t.sq n).fetched = [] ∧ t.dram = s.dram ∧
        (∀ x ∈ t.sch.ctxs, x.jobNumber ≠ j.number) ∧ ∀ m, m ≠ j.slot → (t.job? m).map (·.phase) = (s.job? m).map (·.phase)) ∧
    (∀ n d, s.ready n d none → dOp d = opCancel → s.emb = false → s.enginesFree →
      ∃ t, exec (.cancel n) s = .next t ∧ t.cancelTargets d = [] ∧ (t.sq n).fetched = [] ∧ t.dram = s.dram ∧
        ∀ m j, s.job? m = some j → j ∉ s.cancelTargets d → (t.job? m).map (·.phase) = some j.phase))

/-- BAY_BIST in TEST or RECOVERY takes its bay out of service; outside them, or for a bay above 23 or a stopped one, it completes with
REFUSED_RESOURCES (R566, R568). BIST_DRAIN_DONE begins the tests of the empty bay, BIST_DRAIN_TIMEOUT refuses with DETAIL 3, and
BIST_TESTS_DONE releases the bay and completes with OK and AMOUNT equal to the failing items of those that TESTS selects, a failure stopping the bay (R567). -/
def Obligations.BayBistRuns : Prop :=
  ∀ s : State, s.dev.state ≠ .off → s.Inv →
    (∀ n d j, s.ready n d (some j.slot) → s.slotJob n d j → dOp d = opBayBist → s.sch.bist = none → s.sch.bistQueue = [] →
      ((s.dev.state = .test ∨ s.dev.state = .recovery) → dBay d < 24 → s.bayStopped (dBay d) = false →
        ∃ t, exec (.bayBist n) s = .next t ∧ t.sch.bist = some (dBay d, j.slot) ∧ (t.job? j.slot).map (·.phase) = some .bistDrain ∧
          t.out = s.out ∧ t.dram = s.dram) ∧
      (∀ detail, (s.dev.state = .service ∧ detail = 1) ∨
          (s.dev.state ≠ .service ∧ (23 < dBay d ∨ s.bayStopped (dBay d) = true) ∧ detail = 2) → s.cqOpen (s.cqFor n d) →
        ∃ t, exec (.bayBist n) s = .next t ∧ s.endsJob t j stResources 0 0 detail)) ∧
    (∀ b j, s.bistIn .bistDrain = some (b, j) → s.bayEmpty b = true →
      ∃ t, exec .bistDrainDone s = .next t ∧ t.bistIn .bistTest = some (b, { j with phase := .bistTest }) ∧ t.sch = s.sch ∧
        (∀ d ∈ t.fol.shards, d.bay ≠ b) ∧ t.dram = s.dram) ∧
    (∀ b j, s.bistIn .bistDrain = some (b, j) → s.bayEmpty b = false → s.slotJob j.sq j.desc j → s.cqOpen (s.cqFor j.sq j.desc) →
      s.sch.bistQueue = [] →
      ∃ t, exec .bistDrainTimeout s = .next t ∧ s.endsJob t j stResources 0 0 3 ∧ t.sch.bist = none ∧ t.dram = s.dram) ∧
    (∀ b j fails, s.bistIn .bistTest = some (b, j) → b < 24 → s.slotJob j.sq j.desc j → s.cqOpen (s.cqFor j.sq j.desc) →
      s.sch.bistQueue = [] →
      ∃ t, exec (.bistTestsDone fails) s = .next t ∧ t.sch.bist = none ∧
        s.endsJob t j stOk 0 ((List.range 27).filter fun i => (fails &&& bistItems (u8 j.desc 6)).testBit i).length 0 ∧
        t.sch.shelves[b]? = some [] ∧ (b ∈ t.sch.stoppedBays ↔ fails &&& bistItems (u8 j.desc 6) ≠ 0))

/-- LEDGER_ENABLE with the ledger ring enabled starts interval 0 against the present device state, 2^INTERVAL_LOG2 AO cycles long with a
value outside 8 to 13 taken as 13 (R485, R488), and is refused with REFUSED and EN 0
with it disabled (R485, R503); LEDGER_INTERVAL_CLOSE closes the interval, its length after it began, and opens the next one, LEDGER_DISABLE closes it early (R486,
R487); the energy of one account in SERVICE leaves its remainder in its client's carry (R493). -/
def Obligations.LedgerIntervals : Prop :=
  ∀ s : State, s.dev.state ≠ .off → s.dev.state ≠ .standby → s.Inv → s.emb = false →
    (∀ v : Word, wbit v 0 = true → s.regB rLdgCtrl 0 = false → s.ringEn .ldg = true →
      ∃ t, exec (.ledgerEnable v) s = .next t ∧ t.regB rLdgCtrl 0 = true ∧ t.regF rLdgInterval 0 32 = 0 ∧ t.ldg.accounts = [] ∧
        t.ldg.intervalState = s.dev.state ∧ t.ldg.openedAt = s.aoTime ∧ t.out = s.out ∧
        t.ldg.length = 2 ^ (if 8 ≤ wbits v 1 4 ∧ wbits v 1 4 ≤ 13 then wbits v 1 4 else 13)) ∧
    (∀ v : Word, wbit v 0 = true → s.regB rLdgCtrl 0 = false → s.ringEn .ldg = false →
      ∃ t, exec (.ledgerEnable v) s = .next t ∧ t.regB rLdgCtrl 5 = true ∧ t.regB rLdgCtrl 0 = false ∧ t.ldg = s.ldg) ∧
    (∀ v : Word, wbit v 0 = false →
      ∃ t, exec (.ledgerDisable v) s = .next t ∧ t.regB rLdgCtrl 0 = false ∧ (s.regB rLdgCtrl 0 = true → t.ldg.accounts = []) ∧
        t.jobs = s.jobs ∧ t.dram = s.dram) ∧
    (s.regB rLdgCtrl 0 = true →
      ∃ t, exec .ledgerIntervalClose s = .next t ∧ t.ldg.accounts = [] ∧ t.ldg.intervalState = s.dev.state ∧
        t.regF rLdgInterval 0 32 = (s.regF rLdgInterval 0 32 + 1) % 2 ^ 32 ∧ t.aoTime = max s.aoTime (s.ldg.openedAt + s.ldg.length) ∧
        t.ldg.openedAt = t.aoTime ∧ t.ldg.length = s.intervalLen ∧ t.jobs = s.jobs ∧ t.dram = s.dram ∧
        ∀ a, s.ldg.accounts = [a] → a.isZero = false → s.ldg.intervalState = .service →
          t.carry a.client = (s.energyPj a + s.carry a.client) % 10 ^ 6) ∧
    (∃ t, exec .ldgSlowPop s = .next t ∧ t.ldg.slow = s.ldg.slow.drop 1 ∧ t.ldg.accounts = s.ldg.accounts ∧ t.regs = s.regs) ∧
    (∃ t, exec .ldgDeviceUjLoRead s = .next t ∧ t.out = s.out ++ [.bar0Data (BitVec.ofNat 32 (s.ldg.devicePj / 10 ^ 6))] ∧
      t.ldg.latchedHi = s.ldg.devicePj / 10 ^ 6 % 2 ^ 64 / 2 ^ 32 ∧ t.ldg.devicePj = s.ldg.devicePj)

/-! ### Security (chapter 19) -/

/-- SEC_OTP_PROG.GO in TEST programs its field with the staged bytes, a hash only while absent; any other GO sets REFUSED and programs
nothing; OTP_PROG_DONE sets DONE, or-ing the field into OTP, and MS_1 is extended by the digest of OTP bytes 0 to 145 (R572, R573,
R582). A write of n to SEC_RB_ADVANCE in SERVICE or TEST is accepted, with none under way, when c < n ≤ the running SVN; any other write
sets REFUSED, which wins over the clear that the same write asks for (R8), and burns nothing; ROLLBACK_BURN_DONE sets bits 0 to n − 1, so that the counter
reads n (R579). An accepted SEC_FWU_CTRL.GO starts an update from SEC_FWU_SRC; a GO while one runs or outside SERVICE and TEST reads 6.
At its end STATUS is 3 for a header or signature that fails, 4 for an SVN below c, 5 for a flash error, else 2 with the image in the
slot that Penuo was not booted from; the running Penuo, OTP, jobs and DRAM stay (R578). -/
def Obligations.OtpRollbackAndUpdate : Prop :=
  (∀ s : State, s.dev.state ≠ .off → s.dev.state ≠ .standby → s.rst.fabricRelease = false → s.Inv →
      (∀ (f : Nat) (c : Instr), (f, c) ∈ [(0, .otpProgCustHash0), (1, .otpProgCustHash1), (2, .otpProgRevoke0), (3, .otpProgRevoke1),
          (4, .otpProgDebugDisable)] →
        (let free := f < 2 → ∀ i, i < 32 → s.otpByte (32 + 32 * f + i) = 0
         (s.dev.state = .test → s.sec.otpBusy = none → free →
           ∃ t, exec c s = .next t ∧ t.sec = { s.sec with otpBusy := some (f, s.otpStaged) } ∧ t.regs = s.regs) ∧
         (s.dev.state ≠ .test ∨ s.sec.otpBusy ≠ none ∨ ¬free →
           ∃ t, exec c s = .next t ∧ t.sec = s.sec ∧ t.regB rSecOtpProg 6 = true))) ∧
      ∀ f d, s.sec.otpBusy = some (f, d) → f < 5 → d.length = 32 →
        ∃ t, exec .otpProgDone s = .next t ∧ t.sec.otpBusy = none ∧ t.regB rSecOtpProg 5 = true ∧
          (∀ a, t.sec.otp.get a =
            if f < 2 ∧ 32 + 32 * f ≤ a ∧ a < 64 + 32 * f then s.sec.otp.get a ||| d.getD (a - (32 + 32 * f)) 0
            else if 2 ≤ f ∧ a = 104 then s.sec.otp.get a ||| BitVec.ofNat 8 ([1, 2, 8].getD (f - 2) 0)
            else s.sec.otp.get a) ∧
          t.sec.ms[1]? = some (sha256 ((s.sec.ms.getD 1 []) ++ sha256 (t.sec.otp.read 0 146)))) ∧
  (∀ (s : State) (n svn : Nat), s.dev.state ≠ .off → s.dev.state ≠ .standby → s.rst.fabricRelease = false → s.Inv →
      (s.dev.penuo.map (·.svn)).getD 0 = svn → svn ≤ 64 →
      (∀ v : Word, wbits v 0 7 = n →
        ((s.dev.state = .service ∨ s.dev.state = .test) → s.rollback < n → n ≤ svn → s.sec.rbBusy = none →
          ∃ t, exec (.secRbAdvance v) s = .next t ∧ t.sec = { s.sec with rbBusy := some n }) ∧
        (¬((s.dev.state = .service ∨ s.dev.state = .test) ∧ s.rollback < n ∧ n ≤ svn ∧ s.sec.rbBusy = none) →
          ∃ t, exec (.secRbAdvance v) s = .next t ∧ t.sec = s.sec ∧ t.regB rSecRbAdvance 7 = true)) ∧
      (∀ c, s.sec.rbBusy = some n → n ≤ 64 → c ≤ n → s.otpBytes 96 8 = toLe 8 (2 ^ c - 1) →
        ∃ t, exec .rollbackBurnDone s = .next t ∧ t.sec.rbBusy = none ∧ t.otpBytes 96 8 = toLe 8 (2 ^ n - 1) ∧ t.flash = s.flash)) ∧
  (∀ s : State, s.dev.state ≠ .off → s.dev.state ≠ .standby → s.rst.fabricRelease = false → s.Inv → s.emb = false →
      (∀ v : Word, wbit v 28 = true →
        (if s.sec.fwu = none ∧ (s.dev.state = .service ∨ s.dev.state = .test) then
          ∃ t, exec (.firmwareUpdate v) s = .next t ∧
            t.sec = { s.sec with fwu := some (wbits v 0 28, s.regPair rSecFwuSrcLo rSecFwuSrcHi), fwuStatus := 1 }
        else ∃ t, exec (.firmwareUpdate v) s = .next t ∧ t.sec = { s.sec with fwuStatus := 6 })) ∧
      ∀ len src img flashError, s.sec.fwu = some (len, src) → img.length = len →
        ∃ t, exec (.firmwareUpdateDone img flashError) s = .next t ∧ t.sec.fwu = none ∧ t.sec.otp = s.sec.otp ∧
          t.dev.penuo = s.dev.penuo ∧ t.jobs = s.jobs ∧ t.dram = s.dram ∧
          t.sec.fwuStatus = (if s.imgSigned img len = false then 3 else if imgSvn img < s.rollback then 4
            else if flashError then 5 else 2) ∧
          (t.sec.fwuStatus = 3 ∨ t.sec.fwuStatus = 4 → t.flash = s.flash) ∧
          (t.sec.fwuStatus = 2 → 0x100000 ≤ s.slotBase s.updateSlot → t.flash.read (s.slotBase s.updateSlot) len = img))

/-- REPORT with OUT_LEN below 708 + CHAIN_LEN is refused with DETAIL 56; a REPORT or EXTEND that is taken waits for the signing engine;
ATTEST_DONE ends the job that it takes with OK: an EXTEND sets MS_i to SHA-256(MS_i ∥ VALUE) and answers AMOUNT 0, a REPORT writes 708
bytes and its chain (R581 to R586). CHALLENGE shifts out 48 bytes: random, SERIAL and the challenge count, or zeros after 8 failures.
RESPONSE uses the challenge up, and fails with none outstanding; at DEBUG_VERIFY_DONE a response that verifies unlocks SCOPE and extends
MS_4, unless DEBUG_DISABLE is set, and one that fails raises FAILS, held at 8 (R587, R588). -/
def Obligations.AttestationAndDebug : Prop :=
  (∀ (s : State) (n : Nat) (d : Bytes) (j : Job), s.Inv → s.slotJob n d j →
      (s.ready n d (some j.slot) → dOp d = opAttest → u8 d 5 = 0 → dReportLen d < 708 + (if dChain d then s.chainLen else 0) →
        s.cqOpen (s.cqFor n d) → ∃ t, exec (.report n) s = .next t ∧ s.endsJob t j stResources 0 0 56) ∧
      (s.ready n d (some j.slot) → dOp d = opAttest → u8 d 5 = 0 → 708 + (if dChain d then s.chainLen else 0) ≤ dReportLen d →
        (dChain d = true → sha256 s.deviceCert = s.otpBytes 106 32) →
        ∃ t, exec (.report n) s = .next t ∧ t.sec.attest = s.sec.attest ++ [⟨j.slot, d⟩] ∧
          (t.job? j.slot).map (·.phase) = some .attest ∧ t.sec.ms = s.sec.ms ∧ t.out = s.out) ∧
      (s.ready n d (some j.slot) → dOp d = opAttest → u8 d 5 = 1 →
        ∃ t, exec (.extend n) s = .next t ∧ t.sec.attest = s.sec.attest ++ [⟨j.slot, d⟩] ∧
          (t.job? j.slot).map (·.phase) = some .attest ∧ t.sec.ms = s.sec.ms ∧ t.out = s.out) ∧
      (s.sec.attest = [⟨j.slot, d⟩] → s.fabricUp = true → s.dev.state ≠ .off → s.cqOpen (s.cqFor n d) → dMsSlot d < 8 →
        (u8 d 5 = 1 → ∃ t, exec .attestDone s = .next t ∧ t.sec.attest = [] ∧ s.endsJob t j stOk 0 0 0 ∧
          t.sec.ms = s.sec.ms.set (dMsSlot d) (sha256 (s.sec.ms.getD (dMsSlot d) [] ++ dValue d)) ∧
          t.sec.extendCount = s.sec.extendCount + 1) ∧
        (u8 d 5 = 0 → ∃ t, exec .attestDone s = .next t ∧ t.sec.attest = [] ∧ t.sec.ms = s.sec.ms ∧
          s.endsJob t j stOk 0 (708 + if dChain d then s.chainLen else 0) 0))) ∧
  (∀ s : State, s.dev.state ≠ .off → s.Inv →
      (s.sec.fails < 8 → ∃ r : Bytes, r.length = 32 ∧ ∃ t, exec .challenge s = .next t ∧
        t.out = s.out ++ [.tdo (r ++ s.otpBytes 138 8 ++ toLe 8 (s.sec.challengeCount + 1))] ∧
        t.sec.challengeBytes = some (r ++ s.otpBytes 138 8 ++ toLe 8 (s.sec.challengeCount + 1)) ∧ t.sec.scope = s.sec.scope) ∧
      (8 ≤ s.sec.fails → ∃ t, exec .challenge s = .next t ∧ t.out = s.out ++ [.tdo (List.replicate 48 0)] ∧
        t.sec.challengeBytes = none ∧ t.sec.scope = s.sec.scope) ∧
      (∀ scope block, s.sec.challengeBytes = none → s.sec.fails ≤ 8 → ∃ t, exec (.response scope block) s = .next t ∧
        t.sec = { s.sec with fails := min 8 (s.sec.fails + 1) }) ∧
      (∀ scope block c, s.sec.challengeBytes = some c → scope.length = 8 → block.length = 776 →
        ∃ t, exec (.response scope block) s = .next t ∧
          t.sec = { s.sec with challengeBytes := none, response := some (c, scope, block) }) ∧
      ∀ c scope block, s.sec.response = some (c, scope, block) → s.sec.fails ≤ 8 →
        ∃ t, exec .debugVerifyDone s = .next t ∧ t.sec.response = none ∧ t.out = s.out ∧
          (if s.verify block (c ++ scope) = false then t.sec = { s.sec with response := none, fails := min 8 (s.sec.fails + 1) }
           else if bitN (s.otpByte 104) 3 = true then t.sec = { s.sec with response := none }
           else t.sec.scope = s.sec.scope ||| leNat scope % 8 ∧ t.sec.fails = s.sec.fails ∧
             t.sec.ms[4]? = some (sha256 (s.sec.ms.getD 4 [] ++ sha256 (scope ++ block)))))

/-! ### Sleep, clocks and temperature (chapter 17) -/

/-- READY_IDLE_ENTRY after its conditions have held for HOLD turns the bays off, or is aborted with nothing lost; an exit turns every
domain on again (R533 to R535). WAKE_COMPLETE leads from STANDBY to SERVICE with every domain on and the accesses that waited served;
COLLATION_READY lets the collation unit resume before it (R539). -/
def Obligations.IdleAndWake : Prop :=
  ∀ s : State, s.Inv →
    (s.idle = true → s.idleHold ≤ s.dev.idleFor → ∃ t, exec (.readyIdleEntry false) s = .next t ∧ t.dev.power = .readyIdle ∧
      (∀ b, b < 24 → t.dev.domains.testBit b = false) ∧ t.dev.domains.testBit 29 = s.dev.domains.testBit 29 ∧
      t.dev.state = .service ∧ t.fol.shards = [] ∧ t.fol.folios = s.fol.folios ∧ t.dram = s.dram ∧ t.col = s.col) ∧
    (s.idle = true → s.idleHold ≤ s.dev.idleFor → ∃ t, exec (.readyIdleEntry true) s = .next t ∧ t.regB rPwrStatus 3 = true ∧
      t.dev.power = s.dev.power ∧ t.dev.domains = s.dev.domains ∧ t.fol = s.fol ∧ t.sch = s.sch) ∧
    (s.dev.power = .exiting → s.dev.state = .service → (∀ x ∈ s.col.transports, x.leadLatch = none) → ∃ t, exec .readyIdleExitDone s = .next t ∧ t.dev.power = .active ∧
      (∀ b, b < 30 → t.dev.domains.testBit b = true) ∧ t.dev.state = .service ∧ t.jobs = s.jobs ∧ t.dram = s.dram) ∧
    (s.dev.waking = true → s.dev.state = .standby → s.link.waiting = [] → (∀ x ∈ s.col.transports, x.leadLatch = none) →
      ∃ t, exec .wakeComplete s = .next t ∧ t.dev.state = .service ∧ t.dev.prev = .standby ∧ t.dev.power = .active ∧
        t.dev.waking = false ∧ t.dev.selfRefresh = false ∧ (∀ b, b < 30 → t.dev.domains.testBit b = true) ∧ t.dram = s.dram ∧
        ∀ n, n < 64 → s.ringEn (.sq n) = true → (t.sq n).reading = true) ∧
    (s.dev.waking = true → s.dev.state = .standby → (∀ x ∈ s.col.transports, x.leadLatch = none) →
      ∃ t, exec .collationReady s = .next t ∧ t.dev.colReady = true ∧
      t.dev.state = .standby ∧ t.jobs = s.jobs ∧ t.dram = s.dram)

/-- CLK_ARITH_STEP takes effect in SERVICE, TEST and RECOVERY while unlocked, and is ignored elsewhere, locked with SYS_ACCESS.LOCKED
(R542, R597); WAKE_TIMER_WRITE starts the counter from its value; its expiry stops it at 0 and wakes the part from STANDBY where enabled
(R540); AO_CLOCK_FALLBACK raises one AO_CLOCK event until the next power-on (R544). TEMP_UPDATE with one sensor powered: TEMP and SENSOR
read it; at WARN_C an armed warning sets WARN and disarms, 5 °C below it re-arms; THERM_N is driven from 115 °C and released below 110
°C; no domain, clock or job changes (R545 to R548). -/
def Obligations.ClocksAndTemperature : Prop :=
  (∀ s : State, s.dev.state ≠ .off → s.Inv →
      (∀ v : Word, s.dev.state.serves = true → s.locked = false → ∃ t, exec (.clkArithStep v) s = .next t ∧
        t.dev.step = (if wbits v 0 2 = 3 then 0 else wbits v 0 2) ∧ t.jobs = s.jobs ∧ t.dram = s.dram) ∧
      (∀ v : Word, s.locked = true → ∃ t, exec (.clkArithStep v) s = .next t ∧ t.dev.step = s.dev.step ∧
        t.regB rSysAccess 2 = true) ∧
      (∀ v : Word, ∃ t, exec (.wakeTimerWrite v) s = .next t ∧ t.regF rPwrWakeTimer 0 24 = wbits v 0 24 ∧ t.dev.state = s.dev.state ∧
        t.jobs = s.jobs ∧ t.dram = s.dram) ∧
      (s.regF rPwrWakeTimer 0 24 ≠ 0 → ∃ t, exec .wakeTimerExpiry s = .next t ∧ t.regF rPwrWakeTimer 0 24 = 0 ∧
        (s.dev.state = .standby → s.dev.req = none → s.regB rPwrWakeEn 8 = true →
          t.dev.waking = true ∧ t.dev.power = .exiting ∧ t.regB rPwrWakeCause 10 = true) ∧
        (s.regB rPwrWakeEn 8 = false → t.dev = s.dev)) ∧
      (s.dev.aoFallback = false → ∃ t, exec .aoClockFallback s = .next t ∧ t.dev.aoFallback = true ∧
        t.err.pending = s.err.pending ++ [⟨ekAoClock, unitChip 7, none, none, 0⟩] ∧ t.jobs = s.jobs) ∧
      (s.dev.aoFallback = true → exec .aoClockFallback s = .next s)) ∧
  (∀ (s : State) (k : Nat) (temp : Int), s.dev.state ≠ .off → s.Inv → s.emb = false → s.sensorOn k = true → k < 16 → -40 ≤ temp → temp ≤ 125 →
      ∃ t, exec (.tempUpdate [(k, temp)]) s = .next t ∧ t.regF rPwrThermStatus 0 8 = (temp % 256).toNat ∧
        t.regF rPwrThermStatus 8 4 = k ∧
        (s.dev.thermArmed = true → (s.regF rPwrThermCtrl 0 8 : Int) ≤ temp →
          t.regB rPwrThermStatus 12 = true ∧ t.dev.thermArmed = false ∧ t.regB rMgtIntStatus 4 = true) ∧
        (temp ≤ (s.regF rPwrThermCtrl 0 8 : Int) - 5 → t.dev.thermArmed = true) ∧
        t.dev.thermN = (if 115 ≤ temp then true else if temp < 110 then false else s.dev.thermN) ∧
        t.dev.state = s.dev.state ∧ t.dev.power = s.dev.power ∧ t.dev.domains = s.dev.domains ∧ t.dev.step = s.dev.step ∧
        t.jobs = s.jobs ∧ t.dram = s.dram)

/-! ### Contexts and command lists (chapters 7, 8, 9 and 14) -/

/-- CONTEXT_PLACE of a context that does not exist yet takes the slot and carrel that R460 to R462 choose among those that nobody waits
for, with the lowest free scratch units, clear (R263, R264), its list from its first command (R268); when it displaces a BE context, that
one leaves as a spill image in the bay's spill area and a switch of the cost of R469 begins (R471). Without a place it waits, in order
(R461 to R463), and without room in the plane pool its buffer waits (R131, R435). A spilled context resumes in its own bay with its
register bank and its live region (R473, R254). CONTEXT_SWITCH_DONE lets the entering context issue, and writes what the combiner held
for it (R470, R362). SPILL_MOVE moves the bay's oldest BE image to the plane pool when one has to go; without room it waits (R472). -/
def Obligations.ContextsTakeSlotsAndSpill : Prop :=
  ∀ s : State, s.Inv →
    (∀ (p : CtxPlan) (j : Job) (f : Folio) (g : Stage),
      s.runs j f → p.job = j.slot → f.stages[p.stage]? = some g → g.listLen ≠ 0 → p.part < g.wingParts → s.listRight j f g p = true →
      (let p' := s.spreadOf f g p
       let lc := j.lc && !s.isOverplan j f g p.stage p.part
       let carrels := (s.placeOn j f g p' lc).filter fun c => s.bayGrants (c / 8) g && !s.keptFor j.number p' g lc c
       (∀ (batch : List (Nat × Option (Nat × Nat))) (s' : State), s.sch.ctxs.find? (fun x => x.same j.number p' g) = none →
         s.refuseRange j f g p' = none → s.runSeqs j f g p' = some batch →
         (∀ e, s.takeAll f p.stage (s.pagesOf (batch.map (·.1))) = .error e →
           ∃ t, exec (.contextPlace p) s = .next t ∧ e.1 ∈ t.acc.poolQueue ∧ t.sch.ctxs = s.sch.ctxs ∧ t.dram = s.dram) ∧
         (s.takeAll f p.stage (s.pagesOf (batch.map (·.1))) = .ok s' →
           (∀ c k, s.findRoom carrels lc g.units = .free c k → s.noCatalog g c batch = false →
             ∃ t x, exec (.contextPlace p) s = .next t ∧ t.ctxAt c k = some x ∧ x.id = s.sch.nextCtx ∧ x.jobNumber = j.number ∧
               x.lc = lc ∧ x.plan.stage = p.stage ∧ x.plan.part = p.part ∧ x.units = g.units ∧ x.queue = [] ∧ x.nextIssue = 0 ∧
               x.nextFetch = 0 ∧ x.listAt = listPlace f g p' ∧ x.listLen = (if p.list = [] then g.listLen else p.list.length) ∧
               (t.slotOf c k).1 = (s.freeUnits c).take g.units ∧ t.locRead x 0 (8192 * g.units) = zeros (8192 * g.units) ∧
               (∀ c' k', (c', k') ≠ (c, k) → t.slotOf c' k' = s.slotOf c' k') ∧ (t.carrel c).switching = (s.carrel c).switching ∧
               t.dram = (if p.list = [] ∨ p.listAt.base = 15 then s.dram else s.dram.write p.listAt.off p.list.flatten) ∧
               t.out = s.out) ∧
           (∀ c k v y, s.findRoom carrels lc g.units = .displace c k v → s.ctx? v = some y → y.bay = c / 8 →
             s.noCatalog g c batch = false → s.noInject → s.enginesFree →
             ∃ t x z i, exec (.contextPlace p) s = .next t ∧ t.ctxAt c k = some x ∧ x.id = s.sch.nextCtx ∧ x.jobNumber = j.number ∧
               x.lc = true ∧ t.ctx? v = some z ∧ z.place = none ∧ z.image = some (i, s.liveBytes y) ∧ z.pooled = false ∧
               (t.carrel c).switching = some ⟨k, some v, some s.sch.nextCtx, 32 + switchTerm (s.liveBytes y)⟩ ∧
               (y.tmac = none → p.list = [] → t.dram = s.dram ∧
                 (t.shelfOf (c / 8)).read i (bankBytes y.vregs ++ s.locRead y 0 (s.liveBytes y)).length =
                   bankBytes y.vregs ++ s.locRead y 0 (s.liveBytes y))) ∧
           (s.findRoom carrels lc g.units = .wait →
             ∃ t, exec (.contextPlace p) s = .next t ∧ t.sch.ctxs = s.sch.ctxs ∧ t.sch.carrels = s.sch.carrels ∧ t.dram = s.dram ∧
               t.sch.waiting.any (·.is j.number p' g) = true) ∧
           (∀ b n, s.findRoom carrels lc g.units = .waitSpill b n →
             ∃ t, exec (.contextPlace p) s = .next t ∧ t.sch.ctxs = s.sch.ctxs ∧ t.sch.carrels = s.sch.carrels ∧ t.dram = s.dram ∧
               t.sch.waiting.any (·.is j.number p' g) = true ∧ (b, n, j.number) ∈ t.sch.spillNeed))) ∧
       (∀ (x : Ctx) (i n c k : Nat), s.sch.ctxs.find? (fun x => x.same j.number p' g) = some x → x.place = none → x.stopped = false →
         s.resumeTurn x = true → x.image = some (i, n) → n ≤ 8192 * x.units → x.pooled = false → x.outstanding = [] →
         s.enginesFree → (s.carrel c).switching = none →
         (let own := (s.placeOn j f g { x.plan with listAt := x.listAt } x.lc).filter fun c => c / 8 = x.bay
          own ≠ [] ∧ s.findRoom own x.lc x.units = .free c k) →
         ∃ t y, exec (.contextPlace p) s = .next t ∧ t.ctxAt c k = some y ∧ y.id = x.id ∧ y.image = none ∧
           y.vregs = bankOfBytes ((s.imageOf x).take 4096) ∧ t.locRead y 0 n = (s.imageOf x).drop 4096 ∧
           (t.slotOf c k).1 = (s.freeUnits c).take x.units ∧
           (t.carrel c).switching = some ⟨k, none, some x.id, 32 + switchTerm n⟩ ∧ t.dram = s.dram ∧ t.jobs = s.jobs))) ∧
    (∀ (c : Nat) (w : Switch), s.dev.state ≠ .off → (s.carrel c).switching = some w →
      ∃ t, exec (.contextSwitchDone c) s = .next t ∧ (t.carrel c).switching = none ∧ t.out = s.out ∧ t.dram = s.dram ∧
        (w.entering.bind s.ctx? = none → t.sch.ctxs = s.sch.ctxs) ∧
        ∀ x, w.entering.bind s.ctx? = some x →
          (x.heldOut = none → t.sch.ctxs = s.sch.ctxs) ∧
          ∀ a out, x.heldOut = some (a, out) → a + out.length ≤ s.localSize x →
            t.locRead x a out.length = out ∧ (t.ctx? x.id).map (·.heldOut) = some none) ∧
    ∀ (b : Nat), s.dev.state ≠ .off → s.fabricUp = true →
      (s.moveDue b = false → exec (.spillMove b) s = .next s) ∧
      ∀ (x : Ctx) (i n : Nat), s.moveDue b = true → s.oldestSpill b = some x → x.image = some (i, n) →
        (∀ a s', s.poolTake (imageBytes n) (.spill x.id) 1 = some (a, s') →
          ∃ t y, exec (.spillMove b) s = .next t ∧ t.ctx? x.id = some y ∧ y.pooled = true ∧ y.image = some (a, n) ∧
            t.acc.pool = s'.acc.pool ∧ t.dram = s.dram.write a (s.imageOf x) ∧ t.sch.carrels = s.sch.carrels) ∧
        (s.poolTake (imageBytes n) (.spill x.id) 1 = none →
          exec (.spillMove b) s = .next s ∧ (b < 24 → s.spillWaits = true))

/-- CMD_LINE_FETCH brings the next aligned 256-byte line of a slot's list, wherever the list lies (R268), into its queue (R269). ENGINE_PREEMPT takes the array or the
vector unit for an LC context from every BE context that runs on it, an ATTN taking and yielding both (R465). FENCE, WAITSIG and NOP do nothing but
issue; SIGNAL adds to a counter of the job modulo 2^32, or sets it; a WAITSIG whose condition does not hold leaves everything as it was
(R281 to R284, R304). -/
def Obligations.LinesEnginesAndSignals : Prop :=
  ∀ s : State, s.Inv →
    (∀ (c k : Nat) (x : Ctx), s.dev.state ≠ .off → s.fabricUp = true → s.ctxAt c k = some x → x.queue = [] → x.idle = false →
      x.stopped = false → x.nextFetch < x.listLen →
      (let n := min (8 - (x.listAt.off + 32 * x.nextFetch) / 32 % 8) (x.listLen - x.nextFetch)
       ∃ t y, exec (.cmdLineFetch c k) s = .next t ∧ t.ctxAt c k = some y ∧
         y = { x with queue := (List.range n).map (fun i => s.listCmd x (x.nextFetch + i)), nextFetch := x.nextFetch + n } ∧
         t.dram = s.dram ∧ t.jobs = s.jobs)) ∧
    (∀ (c k m : Nat) (vec : Bool) (x z : Ctx) (d : Bytes), s.dev.state ≠ .off → s.ctxAt c k = some x → x.queue.head? = some d →
      x.lc = true → x.stopped = false → x.idle = false →
      (let mask := if opClass (cmdOp d) = 6 then 6 else if vec then 4 else 2
       opClass (cmdOp d) &&& mask ≠ 0 → x.busy mask = false → (m, z) ∈ s.residents c → z.lc = false → z.busy mask = true →
       ∃ t y, exec (.enginePreempt c k vec) s = .next t ∧ t.jobs = s.jobs ∧ t.dram = s.dram ∧ t.ctxAt c k = some x ∧
         t.ctx? z.id = some y ∧ (mask &&& 2 ≠ 0 → z.busy 2 = true → y.taken.testBit 0 = true) ∧
         (mask &&& 4 ≠ 0 → z.busy 4 = true → y.taken.testBit 1 = true) ∧
         (z.outstanding.any (fun o => o.cls = 6) = true → y.taken.testBit 0 = true ∧ y.taken.testBit 1 = true))) ∧
    (∀ (c k now : Nat) (x : Ctx) (d : Bytes), s.issuable c k x d →
      (∀ i : Instr, (cmdOp d = coFence ∧ i = .fence c k now ∨ cmdOp d = coWaitsig ∧ i = .waitsig c k now ∨
          cmdOp d = coNop ∧ i = .cmdNop c k now) →
        ∃ t y, exec i s = .next t ∧ s.issuesTo t c k now x d false y ∧ t.jobs = s.jobs ∧ t.dram = s.dram ∧ t.out = s.out) ∧
      (cmdOp d = coSignal → ∀ j, s.jobNum? x.jobNumber = some j → u8 d 4 < j.signals.length →
        ∃ t y, exec (.signal c k now) s = .next t ∧ s.issuesTo t c k now x d false y ∧ t.dram = s.dram ∧
          t.jobNum? x.jobNumber = some { j with signals := (j.signals.set (u8 d 4)
            (if u8 d 6 = 0 then (j.signals.getD (u8 d 4) 0 + u32 d 8) % 2 ^ 32 else u32 d 8)) })) ∧
    ∀ (c k now : Nat) (x : Ctx) (d : Bytes), s.ctxAt c k = some x → x.queue.head? = some d → cmdOp d = coWaitsig → x.drain = none →
      s.sigHolds x d = false → exec (.waitsig c k now) s = .next s

/-- The data-movement commands, with every address in range (R263, R271) and no error armed. LOAD of one row brings its bytes from far
memory to scratch, and STORE takes them the other way (R287); STREAM opens its handle, whose prefetcher holds at most WIN KiB, and the ring as much as it has space for (R289, R290); EXPAND of one window writes its row of
codes into the expansion buffer (R312); PACK writes the positions' SEG_INDEX bytes and START and LENGTH of the segment's entry (R303). -/
def Obligations.MovementCommandsMoveBytes : Prop :=
  ∀ (s : State) (c k now : Nat) (x : Ctx) (d : Bytes), s.Inv → s.noInject → s.issuable c k x d →
    (cmdOp d = coLoad → s.farRowsFault x d = none → s.scrRowsFault x d = none →
      ∃ t y, exec (.load c k now) s = .next t ∧ s.issuesTo t c k now x d true y ∧ t.dram = s.dram ∧ t.out = s.out ∧ t.jobs = s.jobs ∧
        (u16 d 10 = 1 → u8 d 9 = 0 → (s.far x (farBase (u40 d 4))).kind = .dram →
          t.locRead y (rowScr d 0).toNat (u16 d 12) =
            s.dramRead ((s.far x (farBase (u40 d 4))).addr + (rowFar d 0).toNat) (u16 d 12)) ∧
        (u16 d 10 = 1 → u8 d 9 = 0 → (s.far x (farBase (u40 d 4))).kind = .shelf →
          t.locRead y (rowScr d 0).toNat (u16 d 12) =
            (s.shelfOf x.bay).read ((s.far x (farBase (u40 d 4))).addr + (rowFar d 0).toNat) (u16 d 12))) ∧
    (cmdOp d = coStore → s.farRowsFault x d = none → s.scrRowsFault x d = none →
      ∃ t y, exec (.store c k now) s = .next t ∧ s.issuesTo t c k now x d true y ∧ t.jobs = s.jobs ∧
        (u16 d 10 = 1 → (s.far x (farBase (u40 d 4))).kind = .dram → t.out = s.out ∧
          t.dram = s.dram.write ((s.far x (farBase (u40 d 4))).addr + (rowFar d 0).toNat)
            (s.locRead x (rowScr d 0).toNat (u16 d 12)))) ∧
    (cmdOp d = coStream → (∀ o ∈ streamRows d, s.farFault x (farBase (u40 d 8)) o (u16 d 14) = none) →
      s.locFault x (256 * u16 d 28 : Nat) (2 ^ u8 d 13) = none →
      ∃ t y, exec (.stream c k now) s = .next t ∧ s.issuesTo t c k now x d true y ∧ t.dram = s.dram ∧ t.jobs = s.jobs ∧
        ∃ h, handleOf y (u8 d 4 % 4) = some h ∧ h.cmd = d ∧ h.total = streamTotal d ∧ h.consumed = 0 ∧ h.ringed ≤ 2 ^ u8 d 13 ∧
          h.ringed + h.ahead.length ≤ 1024 * u16 d 6) ∧
    (cmdOp d = coExpand → exRows d = 1 → (exOutW d).toNat = 1 → (exY0 d + 1 : Int) ≤ exOutH d → exPadLen d ≤ exDst d →
      exDst d + exRp d ≤ (x.expand.getD (0, 0)).2 → x.bay < 24 →
      (∀ a ∈ exCovered (exY0 d) 1 (exSh d) (exPt d) (exKh d) (exH d), ∀ v ∈ exCovered 0 1 (exSw d) (exPl d) (exKw d) (exW d),
        s.farFault x (farBase (u40 d 4)) (farOff (u40 d 4) + a * exPitch d + v * exBp d : Nat) (exBp d) = none) →
      (s.far x (farBase (u40 d 4))).kind = .dram →
      ∃ t y, exec (.expand c k now) s = .next t ∧ s.issuesTo t c k now x d true y ∧ t.dram = s.dram ∧ t.jobs = s.jobs ∧
        (t.shelfOf x.bay).read ((x.expand.getD (0, 0)).1 + exDst d) (s.exRow x d (exY0 d) 0).1.length =
          (s.exRow x d (exY0 d) 0).1) ∧
    (cmdOp d = coPack → u8 d 21 ≤ 63 → ceilDiv (u16 d 10) 8 ≤ 1024 → u16 d 22 + ceilDiv (u16 d 10) 8 ≤ 4096 →
      (∀ r, r < 32 → s.farFault x (farBase (u40 d 4)) (farOff (u40 d 4) + u32 d 12 * r : Nat) (u16 d 10) = none) →
      (∀ p ∈ [(rowPosOff + 256 * u16 d 22, 256 * ceilDiv (u16 d 10) 8), (rowIndexOff + u16 d 22, ceilDiv (u16 d 10) 8),
          (rowSegEntry (u8 d 21), 13)], s.farFault x (farBase (u40 d 16)) (farOff (u40 d 16) + p.1 : Nat) p.2 = none) →
      (s.far x (farBase (u40 d 16))).kind = .dram →
      (let row := (s.far x (farBase (u40 d 16))).addr + farOff (u40 d 16)
       let n := ceilDiv (u16 d 10) 8
       ∃ t y, exec (.pack c k now) s = .next t ∧ s.issuesTo t c k now x d true y ∧ t.jobs = s.jobs ∧
         t.dram.read (row + rowIndexOff + u16 d 22) n = List.replicate n (BitVec.ofNat 8 (u8 d 21)) ∧
         t.dram.read (row + rowSegEntry (u8 d 21)) 4 = toLe 2 (u16 d 22) ++ toLe 2 n ∧
         t.dram.read (row + rowSegEntry (u8 d 21) + 6) 2 = toLe 2 (u16 d 24) ∧
         t.dram.get (row + rowSegEntry (u8 d 21) + 12) = BitVec.ofNat 8 (u8 d 26)))

/-- The array and vector commands with their operands in local space (R263) and no error armed. TMAC with DRAIN 0 leaves its M × N
matrix to the REQ or KVAPP that follows (R279), with DRAIN 1 in the registers; REQ writes its requantised rows at the pitch of R273 and
counts saturations, zero-collapses and elements (R227 to R231); VEC of one load or one lane-wise operation writes its register, of one
store its bytes (R298 to R300); ARGMAX writes the class of each pixel (R326). -/
def Obligations.ArrayAndVectorCommandsCompute : Prop :=
  ∀ (s : State) (c k now : Nat) (x : Ctx) (d : Bytes), s.Inv → s.noInject → s.issuable c k x d →
    (cmdOp d = coTmac →
      (let nA := if opStream (u32 d 4) then tmStreamA d else tmM d * tmPitchA d
       let nW := if opStream (u32 d 8) then tmStreamW d else tmN d * tmPitchW d
       s.locFaults x (opRange (u32 d 4) nA ++ opRange (u32 d 8) nW ++
         [(opAddr (u32 d 12), if tmGroup d = 0 then 0 else tmN d * tmPitchG d), (1024 * u8 d 26, 1024),
          (256 * u16 d 30, if tmInit d then 1024 * tmMt d * tmNt d else 0)]) = none →
       opReady x (u32 d 4) nA = true → opReady x (u32 d 8) nW = true →
       ∃ t y, exec (.tmac c k now) s = .next t ∧ s.issuesTo t c k now x d true y ∧ t.dram = s.dram ∧ t.out = s.out ∧
         (tmDrain d = false → ∃ m, y.drain = some m ∧ m.rows = tmM d ∧ m.cols = tmN d ∧ m.cells.length = tmM d * tmN d ∧
           y.vregs = x.vregs ∧ t.jobs = s.jobs) ∧
         (tmDrain d = true → y.drain = x.drain))) ∧
    (cmdOp d = coReq → ∀ m, x.drain = some m →
      s.locFaults x ((opAddr (u32 d 4), m.rows * rqPitch d m.cols) :: rqRanges d m.cols) = none →
      residueFault m.cols m.cells = none →
      ∃ t y, exec (.req c k now) s = .next t ∧ s.issuesTo t c k now x d true y ∧ y.drain = none ∧ t.dram = s.dram ∧ t.out = s.out ∧
        y.tiles.head? = some ⟨u16 d 18, opAddr (u32 d 4), m.rows * rqPitch d m.cols, m.cols,
          if rqRange d then some (opAddr (u32 d 20)) else none⟩ ∧
        (rqRange d = false →
          (m.rows = 1 → ∃ row, row = packCodes (rqOfmt d) ((((s.rqIn x d m.cols).plain d m).1).headD []) ∧
            t.locRead y (opAddr (u32 d 4)) row.length = row) ∧
          ∀ j, s.jobNum? x.jobNumber = some j → j.counts = [] →
            (t.jobNum? x.jobNumber).map (·.counts) =
              some [⟨u16 d 18, min ((s.rqIn x d m.cols).plain d m).2.1 (2 ^ 32 - 1),
                min ((s.rqIn x d m.cols).plain d m).2.2 (2 ^ 32 - 1), m.rows * m.cols⟩])) ∧
    (cmdOp d = coVec → (∀ p ∈ vecRanges d, s.locFault x p.1 p.2 = none) →
      ∃ t y, exec (.vec c k now) s = .next t ∧ s.issuesTo t c k now x d true y ∧ t.dram = s.dram ∧ t.jobs = s.jobs ∧ t.out = s.out ∧
        ∀ i, vecInstrs d = [i] → u16 d 6 = 1 →
          (viOp i = 1 → y.vregs = x.vregs.set (viVd i) (veLoad (viTy i) (s.locRead x (viAddr i) (veBytes (viTy i))))) ∧
          (viOp i = 2 → viTy i ≤ 4 → (vreg x (viVd i)).length = 32 →
            t.locRead y (viAddr i) (veBytes (viTy i)) = veStore (viTy i) (vreg x (viVd i))) ∧
          ∀ lanes, viOp i ≠ 0 → viOp i ≠ 1 → viOp i ≠ 2 → viOp i < 0x38 → (viOp i = 0x1A → bitN (viImm i) 7 = false) →
            (List.range 32).map (fun l => veLane (viOp i) (viTy i) (viImm i) ((vreg x (viA i)).getD l 0)
              ((vreg x (viB i)).getD l 0) ((vreg x (viC i)).getD l 0)) = lanes.map some →
            y.vregs = x.vregs.set (viVd i) lanes) ∧
    (cmdOp d = coArgmax →
      (let n := u16 d 12
       let bp := fmtBytes (u8 d 16) (u16 d 14)
       s.locFaults x [(opAddr (u32 d 4), n * bp), (opAddr (u32 d 8), n), (opAddr (u32 d 20), amZbytes d)] = none →
       ∃ t y, exec (.argmax c k now) s = .next t ∧ s.issuesTo t c k now x d true y ∧ t.dram = s.dram ∧ t.jobs = s.jobs ∧ t.out = s.out ∧
         t.locRead y (opAddr (u32 d 8)) n = (List.range n).map fun p =>
           BitVec.ofNat 8 (amClass d (s.locRead x (opAddr (u32 d 4) + p * bp) bp) (s.locRead x (opAddr (u32 d 20)) (amZbytes d)))))

/-- ATTN whose operands and parameter block hold takes its snapshot at issue, with O and l at +0 and m at −inf in every row (R339, R351,
R357), and reads nothing of a sequence that has ended; KV_DESCRIPTOR_EMIT brings the next page's descriptor to a queue of 8 (R340,
R341), which an ATTN with its engines empties. COMBINE_PART hands a part's rows to the combiner, which waits for the others (R361). -/
def Obligations.AttentionWalksItsPages : Prop :=
  ∀ s : State, s.Inv →
    (∀ (c k now : Nat) (x : Ctx) (d : Bytes), s.noInject → s.issuable c k x d → cmdOp d = coAttn →
      (∀ q g, atSeq d ∉ x.gone → s.seq? (atSeq d) = some q → q.geom = some g → atDim d = g.hdim → atKfmt d = g.fmt → s.locFault x (atPoff d : Nat) 64 = none →
        (let s1 := s.locWrite x (atPoff d + 11) [BitVec.ofNat 8 x.partCount, BitVec.ofNat 8 x.part]
         let p := s1.locRead x (atPoff d) 64
         paramOk d p g x.part x.partCount (max (s1.liveOf x) (cmdLive d)) = true → s1.locFaults x (atRanges d p) = none →
         atBeyond d (s1.walkPages x d p q g) = false →
         ∃ t y, exec (.attn c k now) s = .next t ∧ s.issuesTo t c k now x d true y ∧ t.dram = s.dram ∧ t.out = s.out ∧
           t.jobs = s.jobs ∧ t.kv = s.kv ∧ y.walk = some ⟨atSeq d, x.nextIssue, s1.walkPages x d p q g, 0, 0, [], false, false⟩ ∧
           t.locRead y (atLoff d) (4 * atRows d) = zeros (4 * atRows d))) ∧
      (atSeq d ∈ x.gone →
        ∃ t y, exec (.attn c k now) s = .next t ∧ s.issuesTo t c k now x d true y ∧ t.kv = s.kv ∧ t.dram = s.dram ∧
          y.walk = some ⟨atSeq d, x.nextIssue, [], 0, 0, [], false, false⟩)) ∧
    (∀ (c k : Nat) (x : Ctx) (w : Walk) (o : OutCmd), s.dev.state ≠ .off → s.ctxAt c k = some x → x.walk = some w → x.attnCmd = some o →
      x.stopped = false → w.emitted < w.pages.length → w.queued < 8 → (∀ q, s.seq? w.seq = some q → q.applying = false) →
      ∃ t y v, exec (.kvDescriptorEmit c k) s = .next t ∧ t.ctxAt c k = some y ∧ y.walk = some v ∧ v.emitted = w.emitted + 1 ∧
        v.pages = w.pages ∧ v.queued = (if x.taken = 0 then 0 else w.queued + 1) ∧ y.outstanding = x.outstanding ∧
        t.dram = s.dram ∧ t.kv = s.kv ∧ t.jobs = s.jobs) ∧
    (∀ (c k : Nat) (x : Ctx) (w : Walk) (o : OutCmd), s.dev.state ≠ .off → s.noInject → s.ctxAt c k = some x → x.walk = some w →
      x.attnCmd = some o → x.stopped = false → atMode o.cmd = 1 → w.done = true → w.handed = false → s.sch.combiners.any (·.matches x o.idx) = false →
      1 < x.partCount →
      ∃ t y v, exec (.combinePart c k) s = .next t ∧ t.ctxAt c k = some y ∧ y.walk = some v ∧ v.handed = true ∧
        t.sch.combiners = s.sch.combiners ++ [⟨x.jobNumber, x.plan.stage, x.plan.seqs, o.idx, x.partCount,
          [(x.part, (List.range (atRows o.cmd)).map fun i => s.partRow x o.cmd i)]⟩] ∧ t.dram = s.dram ∧ t.kv = s.kv)

/-- COMMAND_COMPLETE of an outstanding command at its completion point (R280) takes it, and the TMAC of its pair (R279), off the
context, the others staying, and an ATTN of MODE 0 leaves its final output (R358); with it the last of the list, the run ends: a decode context idles in its slot, every other context is gone
(R458), and every job it served counts the run's measured and static cycles (R494). -/
def Obligations.CommandsCompleteAndRunsEnd : Prop :=
  ∀ (s : State) (c k idx now : Nat) (x : Ctx) (o : OutCmd), s.Inv → s.noInject → s.dev.state ≠ .off → s.fabricUp = true → s.emb = false →
    s.ctxAt c k = some x → x.outstanding.find? (·.idx = idx) = some o → x.stopped = false → (s.carrel c).entering x.id = false →
    s.mayComplete c x o = true →
    (let left := x.outstanding.filter fun p =>
       p.idx ≠ idx && !((cmdOp o.cmd = coReq || cmdOp o.cmd = coKvapp) && p.idx + 1 = idx && pairedTmac p.cmd)
     (x.nextIssue < x.listLen ∨ left ≠ [] →
       ∃ t y, exec (.commandComplete c k idx now) s = .next t ∧ t.ctxAt c k = some y ∧ y.outstanding = left ∧
         y.queue = x.queue ∧ y.nextIssue = x.nextIssue ∧ t.arithNow = max s.arithNow now ∧ t.jobs = s.jobs ∧
         ((cmdOp o.cmd = coAttn → atScore o.cmd = false) → t.dram = s.dram) ∧
         (cmdOp o.cmd = coAttn → atMode o.cmd = 0 → s.enginesFree → atO o.cmd + 4 * atRows o.cmd * atDim o.cmd ≤ s.localSize x →
           ∃ out, out = s.attnOut x o.cmd ((List.range (atRows o.cmd)).map (s.partRow x o.cmd)) ∧ y.walk = none ∧
             t.locRead y (atO o.cmd) out.length = out)) ∧
     (x.listLen ≤ x.nextIssue → left = [] → ∀ g, s.stageOf x = some g →
       ∃ t, exec (.commandComplete c k idx now) s = .next t ∧ t.arithNow = max s.arithNow now ∧
         ((cmdOp o.cmd = coAttn → atScore o.cmd = false) → t.dram = s.dram) ∧
         (g.kind ≠ 3 → t.ctx? x.id = none) ∧
         (g.kind = 3 → ∀ y, t.ctx? x.id = some y → y.idle = true ∧ y.outstanding = [] ∧ y.queue = []) ∧
         ∀ j i, s.jobNum? x.jobNumber = some j → t.jobNum? x.jobNumber = some i →
           i.runs = j.runs + 1 ∧ i.sumS = j.sumS + g.cost ∧
             i.sumM = j.sumM + (max s.arithNow now - x.runStart.getD (max s.arithNow now))))

/-! ### KV memory and the catalog (chapters 10, 11 and 12) -/

/-- KVAPP of one drained row writes its codes at the cursor in the layout of R330, raises FILL, and advances the cursor when its ADVANCE
bit asks (R334, R335); with no page for the position and no spare, or a full table, it waits
(R337, R333), and for a sequence that has been let go it writes nothing. SPARE_TAKE gives the sequence a page of its size from
the free list (R336), and KVAPP_RESUME appends it as a new entry behind the last and goes on. -/
def Obligations.KvappAppendsRows : Prop :=
  ∀ s : State, s.Inv →
    (∀ (c k now : Nat) (x : Ctx) (d : Bytes) (m : Drain) (q : SeqSlot) (g : KvDecl), s.noInject → s.issuable c k x d → cmdOp d = coKvapp →
      kaSeq d ∉ x.gone →
      x.drain = some m → m.rows = 1 → x.kvDone = 0 → s.seq? (kaSeq d) = some q → q.geom = some g → rqOfmt d = g.fmt →
      m.cols = g.heads * g.hdim → kaLayer d < g.layers → q.cursor + 1 < 2 ^ 32 - 1 →
      (∀ e ∈ q.table, e.valid = true → e.shared = true → e.basePos < q.cursor + 1 → e.basePos + e.size ≤ q.cursor) →
      s.locFaults x (rqRanges d m.cols) = none → residueFault m.cols m.cells = none →
      (∀ e, q.covering q.cursor = some e → q.pte? e.basePos = some e → rqRange d = false →
        (q.tableAt + 16 * q.table.length ≤ e.addr ∨ e.addr + g.pageBytes e.log2 ≤ q.tableAt) →
        ∃ t y r, exec (.kvapp c k now) s = .next t ∧ s.issuesTo t c k now x d true y ∧ y.drain = none ∧ y.kvWait = false ∧
          t.seq? (kaSeq d) = some r ∧ r.cursor = (if kaAdvance d then q.cursor + 1 else q.cursor) ∧
          (r.pte? e.basePos).map (·.fill) = some (max e.fill (q.cursor - e.basePos + 1)) ∧ t.out = s.out ∧
          (kaValues d = false → ∀ h, h < g.heads →
            t.dram.read (e.addr + g.keyAt e.size (kaLayer d) h (q.cursor - e.basePos) 0) g.hdim =
              (((((s.rqIn x d m.cols).plain d m).1.headD []).drop (h * g.hdim)).take g.hdim).map (BitVec.ofNat 8))) ∧
      (q.covering q.cursor = none → q.nextSpare = none →
        ∃ t y, exec (.kvapp c k now) s = .next t ∧ s.issuesTo t c k now x d true y ∧ y.drain = some m ∧ y.kvWait = true ∧
          t.kv = s.kv ∧ t.dram = s.dram)) ∧
    (∀ (c k now : Nat) (x : Ctx) (d : Bytes) (m : Drain), s.issuable c k x d → cmdOp d = coKvapp → x.drain = some m →
      kaSeq d ∈ x.gone →
      ∃ t y, exec (.kvapp c k now) s = .next t ∧ s.issuesTo t c k now x d true y ∧ y.drain = none ∧ y.kvWait = false ∧ t.kv = s.kv ∧
        t.dram = s.dram ∧ t.jobs = s.jobs) ∧
    (∀ (n : Nat) (q : SeqSlot) (g : KvDecl), s.dev.state ≠ .off → s.seq? n = some q → q.spare = none → q.geom = some g →
      (∀ p rest, s.freePages g.log2Page (g.pageBytes g.log2Page) = p :: rest →
        ∃ t, exec (.spareTake n) s = .next t ∧ (t.seq? n).map (·.spare) = some (some p) ∧
          t.kv.free = s.kv.free.modify (g.log2Page - 4) (·.erase p) ∧ t.dram = s.dram) ∧
      (s.freePages g.log2Page (g.pageBytes g.log2Page) = [] → exec (.spareTake n) s = .next s)) ∧
    ∀ (c k : Nat) (x : Ctx) (o : OutCmd) (m : Drain) (q : SeqSlot) (g : KvDecl) (page : Nat), s.dev.state ≠ .off → s.noInject →
      s.ctxAt c k = some x → x.kvWait = true → x.stopped = false → x.outstanding.find? (fun o => cmdOp o.cmd = coKvapp) = some o →
      x.drain = some m → m.rows = 1 → x.kvDone = 0 → s.seq? (kaSeq o.cmd) = some q → q.geom = some g → q.nextSpare = some page →
      kaSeq o.cmd ∉ x.gone →
      rqOfmt o.cmd = g.fmt → m.cols = g.heads * g.hdim → kaLayer o.cmd < g.layers → q.cursor + 1 < 2 ^ 32 - 1 →
      (∀ e ∈ q.table, e.valid = true → e.shared = true → e.basePos < q.cursor + 1 → e.basePos + e.size ≤ q.cursor) →
      s.locFaults x (rqRanges o.cmd m.cols) = none → residueFault m.cols m.cells = none → g.budgetPos = 0 →
      q.covering q.cursor = none → q.pte? q.tableEnd = none → q.tableEnd ≤ q.cursor → q.cursor < q.tableEnd + 2 ^ g.log2Page →
      ∃ t y r e, exec (.kvappResume c k) s = .next t ∧ t.ctxAt c k = some y ∧ y.kvWait = false ∧ y.drain = none ∧
        t.seq? (kaSeq o.cmd) = some r ∧ r.spare = none ∧ r.pte? q.tableEnd = some e ∧ e.page = page ∧ e.log2 = g.log2Page ∧
        e.fill = q.cursor - q.tableEnd + 1 ∧ r.cursor = (if kaAdvance o.cmd then q.cursor + 1 else q.cursor) ∧ t.out = s.out

/-- EDIT_APPLY queues an edit while a step is open and applies it at once otherwise, GEN up by 1 and the table's
entries in DRAM (R332, R333); after a step it applies the queue together, GEN up by 1 once, and an edit requested meanwhile makes an
application of its own (R344, R345). An edit that would break R333 changes no entry (the model's choice, log 34). PREFIX_MATCH gives a fresh prompt the shared entries of the nodes it matches and moves the
cursor behind them (R371, R373). FREE_LIST_RESTOCK brings a list to its low-water mark, or leaves neither arena space nor an idle leaf
for it (R382); FLUSH leaves no idle node that is nobody's parent (R374); CARD_SUMMARY_BUILD gives a full page its card (R389). -/
def Obligations.PagesTablesAndConcordance : Prop :=
  ∀ s : State, s.Inv → s.dev.state ≠ .off →
    (∀ (n : Nat) (q : SeqSlot), s.seq? n = some q →
      (∀ e, 0 < q.stepOpen →
        ∃ t, exec (.editApply n (some e)) s = .next t ∧ t.seq? n = some { q with edits := q.edits ++ [e] } ∧
          t.kv.free = s.kv.free ∧ t.dram = s.dram) ∧
      (∀ e, q.stepOpen = 0 → q.applying = true →
        ∃ t, exec (.editApply n (some e)) s = .next t ∧ t.seq? n = some { q with after := q.after ++ [[e]] } ∧
          t.kv.free = s.kv.free ∧ t.dram = s.dram) ∧
      (∀ e, q.stepOpen = 0 → q.applying = false →
        ∃ t r, exec (.editApply n (some e)) s = .next t ∧ t.seq? n = some r ∧ r.gen = (q.gen + 1) % 2 ^ 32 ∧ r.edits = q.edits ∧
          (editMoves e = false ∨ tableOk (editTable q.table e) = true → r.table = editTable q.table e ∧
            t.dram = s.dram.write q.tableAt (r.table.flatMap Pte.bytes)) ∧
          (editMoves e = true → tableOk (editTable q.table e) = false → r.table = q.table ∧ t.dram = s.dram)) ∧
      (q.applying = true → q.edits ≠ [] →
        ∃ t r, exec (.editApply n none) s = .next t ∧ t.seq? n = some r ∧ r.gen = (q.gen + 1) % 2 ^ 32 ∧ r.edits = q.after.headD [] ∧
          r.after = q.after.drop 1 ∧ r.applying = decide (q.after ≠ []))) ∧
    (∀ (n : Nat) (q : SeqSlot) (f : Folio) (g : KvDecl) (prompt : List Nat), s.seq? n = some q → q.started = false → q.table = [] →
      q.prompt = [] → q.row = false → s.seqFolio q = some f → q.geom = some g →
      (let ns := if s.concOn f then s.matchChain f g.log2Page prompt (min tableMax (prompt.length + 1)) 0 none else []
       ∃ t r, exec (.prefixMatch n prompt) s = .next t ∧ t.seq? n = some r ∧ r.prompt = prompt ∧
         r.table = ns.zipIdx.map (fun p => { SeqSlot.emptyPte with
           page := p.1.page, log2 := g.log2Page, shared := true, fill := 2 ^ g.log2Page, basePos := p.2 * 2 ^ g.log2Page }) ∧ (ns = [] → r.cursor = q.cursor) ∧
         (ns ≠ [] → r.cursor = ns.length * 2 ^ g.log2Page ∧ r.gen = (q.gen + 1) % 2 ^ 32 ∧ r.shared = ns.length) ∧
         t.dram = (if ns = [] then s.dram else s.dram.write q.tableAt (r.table.flatMap Pte.bytes)))) ∧
    (∀ k, k < 8 →
      ∃ t, exec (.freeListRestock k) s = .next t ∧ t.kv.seqs = s.kv.seqs ∧ t.dram = s.dram ∧ s.freeCount k ≤ t.freeCount k ∧
        (t.freeCount k ≥ s.lowWater k ∨ ((t.carve k).isNone = true ∧ (t.reclaimLeaf (k + 4)).isNone = true))) ∧
    (s.dev.state ≠ .standby → s.rst.fabricRelease = false →
      ∃ t, exec .flush s = .next t ∧ t.kv.seqs = s.kv.seqs ∧ t.dram = s.dram ∧ (∀ n ∈ t.kv.nodes, n ∈ s.kv.nodes) ∧
        ∀ n ∈ t.kv.nodes, t.idleLeaf n = false) ∧
    ∀ (n base : Nat) (q : SeqSlot) (g : KvDecl) (e : Pte) (st : Stage), s.seq? n = some q → q.geom = some g → q.pte? base = some e →
      (s.seqFolio q).bind Folio.decode = some st →
      (st.card = true → e.card = none → e.fill = e.size → e.swapped = false →
        ∃ t r, exec (.cardSummaryBuild n base) s = .next t ∧ t.seq? n = some r ∧
          r.pte? base = some { e with card := some (s.cardOf g e) } ∧ t.dram = s.dram ∧ t.jobs = s.jobs) ∧
      (e.fill ≠ e.size → exec (.cardSummaryBuild n base) s = .next s)

/-- SWAP_OUT sends the next victim's unshared pages to the swap area when nothing else can supply a waiting KVAPP: every one of its
entries is SWAPPED, GEN is up by 1 once, and the runs of R385 are taken; when nothing can help, the waiting sequence's job ends with
KV_SWAP_EXHAUSTED and the DETAIL of R387. SWAP_IN makes a sequence resident again once its job has work for it and every page it
needs is free (R386). -/
def Obligations.SwapOutAndIn : Prop :=
  ∀ s : State, s.Inv → s.dev.state ≠ .off →
    (∀ (w v : SeqSlot) (g : KvDecl) (r : List (Pte × Nat) × List (Nat × Nat × Nat)), s.waitingSeq = some w → w.spare = none →
      s.spareAhead w = false → s.swapFail = none → s.swapVictim = some v → v.geom = some g → v.stepOpen = 0 → v.applying = false →
      s.placeSwap v.slot g v.swappable s.kv.swapRuns = some r → (v.table.map (·.basePos)).Nodup → s.seq? v.slot = some v →
      ∃ t q, exec .swapOut s = .next t ∧ t.seq? v.slot = some q ∧ q.gen = (v.gen + 1) % 2 ^ 32 ∧ q.swappedAt.isSome = true ∧
        q.fresh = false ∧ q.cursor = v.cursor ∧ (∀ e ∈ q.table, e.valid = true → e.shared = false → e.swapped = true) ∧
        t.kv.swapRuns = r.2 ∧ t.jobs = s.jobs) ∧
    (∀ (w : SeqSlot) (j : Job) (detail : Nat), s.waitingSeq = some w → w.spare = none → s.spareAhead w = false →
      s.swapFail = some detail → s.job? w.jobSlot = some j → s.cqOpen (s.cqFor j.sq j.desc) →
      ∃ t, exec .swapOut s = .next t ∧ s.endsJob t j stSwapExhausted 0 j.seqRecs detail ∧ t.dram = s.dram) ∧
    ∀ (n : Nat) (q : SeqSlot) (g : KvDecl) (data : Bytes), s.seq? n = some q → q.geom = some g → q.swappedAt.isSome = true →
      (q.table.map (·.basePos)).Nodup → (∀ e ∈ q.swappedPtes, 4 ≤ e.log2 ∧ e.log2 < 12) →
      s.kv.free.flatten.Nodup →
      (s.canSwapIn q = true →
        (∀ o ∈ s.kv.seqs, o.swappedAt.isSome = true → s.canSwapIn o = true → s.swapBefore o q = false) →
        ∃ t r, exec (.swapIn n data) s = .next t ∧ t.seq? n = some r ∧ r.swappedPtes = [] ∧ r.swappedAt = none ∧
          r.gen = (q.gen + 1) % 2 ^ 32 ∧ r.cursor = q.cursor ∧ r.table.map (·.basePos) = q.table.map (·.basePos) ∧ t.jobs = s.jobs) ∧
      (s.canSwapIn q = false → exec (.swapIn n data) s = .next s)

/-- CATHAND hands each row of logits to its sequence's catalog unit (R302, R428). TOKEN_CHOICE takes the highest-ranked token that the
mask allows, or under TOPK the one that the generator picks, with its margin; a paused run ignores the row and resumes with its forced
token, once what it feeds back has gone into the step; every token taken goes back into the decoder (R410, R416 to R421).
CATALOG_ADVANCE of a token that ends nothing appends its bytes and moves to the next configuration: where one token alone is allowed,
that one is taken, and a run of 256 of them pauses (R408 to R410); the end token ends the sequence with OK and AMOUNT the bytes emitted (R408, R412). -/
def Obligations.CatalogTakesTokens : Prop :=
  ∀ s : State, s.Inv → s.dev.state ≠ .off →
    (∀ (c k now : Nat) (x : Ctx) (d : Bytes), s.noInject → s.issuable c k x d → cmdOp d = coCathand →
      s.locFaults x [(opAddr (u32 d 4), chRows d * chPitch d), (opAddr (u32 d 8), 2 * chRows d)] = none →
      ∃ t y, exec (.cathand c k now) s = .next t ∧ s.issuesTo t c k now x d true y ∧ t.dram = s.dram ∧ t.jobs = s.jobs ∧ t.out = s.out ∧
        ∀ n q z, s.chSeqs x d = [n] → n ∉ x.gone → s.seq? n = some q → q.cat = some z →
          t.seq? n = some { q with cat := some { z with row := some (s.chRow x d 0), rowAt := 16 * s.sch.issueCount } }) ∧
    (∀ (n : Nat) (q : SeqSlot) (z : CatSeq) (j : Job) (row : List Word) (m : List Nat), s.seq? n = some q → q.cat = some z →
      s.job? q.jobSlot = some j → j.alive = true → q.ended = false → s.fabricUp = true → z.row = some row → z.mask = some m →
      z.token = none → s.rowTurn z j.lc = true →
      (z.paused = true → ∃ t, exec (.tokenChoice n) s = .next t ∧ t.regs = s.regs ∧ t.dram = s.dram ∧
        t.seq? n = some { q with cat := some { (if z.feed.length ≤ q.chunkFed then z.resume else z) with row := none } } ∧
        ∀ tok rest, m = tok :: rest → z.resume.token = some (tok, marginInf) ∧ z.resume.paused = false ∧ z.resume.run = 0 ∧
          z.resume.feed = (if tok = tokEnd then z.feed else z.feed ++ [tok])) ∧
      (z.paused = false →
        (let v := fun t => logitOf (row.getD t 0xFF800000)
         let r := chooseToken j.param v m (ranked v m) z.rng
         ∃ t, exec (.tokenChoice n) s = .next t ∧ t.dram = s.dram ∧
           t.seq? n = some { q with cat := some { z with
             row := none, rng := r.2, token := some (r.1, choiceMargin v (ranked v m)),
             feed := if r.1 = tokEnd then z.feed else z.feed ++ [r.1] } } ∧
           (pTopk j.param = false → m ≠ [] → r.1 ∈ m ∧ r.2 = z.rng ∧ ∀ u ∈ m, numLt (v r.1) (v u) = false)))) ∧
    (∀ (n : Nat) (q : SeqSlot) (z : CatSeq) (j : Job) (tok : Nat) (margin : BitVec 16) (p : Nat), s.seq? n = some q → q.cat = some z →
      s.job? q.jobSlot = some j → j.alive = true → q.ended = false → s.fabricUp = true → s.emb = false → z.token = some (tok, margin) →
      gPair s.dram z.grammarAddr z.state z.stack = some p →
      (tok = tokEnd → s.openSeq j q.idx → z.openField = none → z.fields = [] →
        ∃ t, exec (.catalogAdvance n) s = .next t ∧ t.dram = s.dram ∧
          s.endsSeq t j q.idx q.sample stOkEnd (if (unitsOf (z.emitted.map (·.1))).2 then flPartialUtf8 else 0) z.emitted.length 0) ∧
      (∀ out, tok ≠ tokEnd → emitBytes j.param (dMaxBytes j.desc) margin (tokenBytes s.dram z.grammarAddr tok) z.emitted = .all out →
        (let g := gStep s.dram z.grammarAddr (gAction s.dram z.grammarAddr p tok) z.stack
         let run := if z.mask = some [tok] then z.run + 1 else 0
         ∀ m, gMask s.dram z.grammarAddr g.1 g.2 = m → m ≠ [] →
           ∃ t r w, exec (.catalogAdvance n) s = .next t ∧ t.seq? n = some r ∧ r.cat = some w ∧ w.emitted = out ∧ w.state = g.1 ∧
             w.stack = g.2 ∧ w.mask = some m ∧ w.rng = z.rng ∧ t.dram = s.dram ∧ t.jobs = s.jobs ∧
             (1 < m.length → w.token = none ∧ w.run = 0 ∧ w.feed = z.feed) ∧
             ∀ u, m = [u] →
               (run < 256 → w.token = some (u, marginInf) ∧ w.run = run ∧ w.feed = (if u = tokEnd then z.feed else z.feed ++ [u])) ∧
               (256 ≤ run → w.token = none ∧ w.paused = true ∧ w.feed = z.feed))))

/-! ### Folios and the reserve shelf (chapter 13) -/

/-- FOLIO_LOAD claims its handle and the lowest fitting region of the model area, and is refused with cause 0x11 while the handle is in
use, 0x10 without a region (R438, R439). FOLIO_FETCH_DONE verifies the image: at the first fault of R445's order the load ends with the
cause's STATUS and DETAIL, MDL_FAULT holding the offset; else the image with its fix-ups stands in DRAM and the load may commit.
FOLIO_COMMIT commits the folio, extends the model and grammar measurements, and completes with OK and AMOUNT the image's length (R440,
R583). -/
def Obligations.FoliosLoadAndCommit : Prop :=
  ∀ s : State, s.Inv → s.emb = false →
    (∀ (n : Nat) (d : Bytes) (j : Job), s.ready n d (some j.slot) → s.slotJob n d j → dOp d = opFolioLoad →
      (dFolio d ≤ 31 → s.fol.folios.any (·.handle = dFolio d) = false → ∀ a, s.mdlRegion (dLen d) = some a →
        ∃ t, exec (.folioLoad n) s = .next t ∧ t.out = s.out ∧ t.dram = s.dram ∧ (t.job? j.slot).map (·.phase) = some .loadFetch ∧
          t.fol.folios = s.fol.folios ++ [claimFolio (dFolio d) a (dLen d) (dGrammarBase d) j.slot (dPin d)]) ∧
      ((31 < dFolio d ∨ s.fol.folios.any (·.handle = dFolio d) = true) → s.cqOpen (s.cqFor n d) →
        ∃ t, exec (.folioLoad n) s = .next t ∧ s.recordsDesc t n d (some j.slot) stResources 0x113F ∧ t.fol = s.fol) ∧
      (dFolio d ≤ 31 → s.fol.folios.any (·.handle = dFolio d) = false → s.mdlRegion (dLen d) = none → s.cqOpen (s.cqFor n d) →
        ∃ t, exec (.folioLoad n) s = .next t ∧ s.endsJob t j stResources 0 0 0x103F ∧ t.reg (rMdlFault (dFolio d)) = 8#32)) ∧
    (∀ (j : Job) (f0 : Folio) (image : Bytes), s.dev.state ≠ .off → s.fabricUp = true → s.job? j.slot = some j →
      s.charged j.slot = false →
      s.fol.folios.find? (fun f => f.loaderSlot = some j.slot && !f.committed) = some f0 →
      (j.phase = .loadFetch →
        (let img := sliceB image 0 f0.len
         let f := parseFolio img f0.handle f0.addr f0.len f0.grammarBase j.slot f0.pinWanted
         (s.verifyFolio img f = none →
           ∃ t, exec (.folioFetchDone j.slot image) s = .next t ∧ (t.job? j.slot).map (·.phase) = some .loadCommit ∧
             t.fol.folios = updFirst (·.handle = f.handle) (fun g => if f0.pinWanted then { g with pinned := true } else g)
               (updFirst (·.handle = f.handle) (fun _ => f) s.fol.folios) ∧ t.out = (s.hostRead (dSrc j.desc) f0.len).out ∧
             t.dram = ((s.dramWrite f0.addr img).applyFixups f0.addr img).dram ∧
             ((fixups img) = [] → t.dram = s.dram.write f0.addr img)) ∧
         (∀ e, s.verifyFolio img f = some e → s.slotJob j.sq j.desc j → s.cqOpen (s.cqFor j.sq j.desc) → f0.handle ≤ 31 →
           ∃ t, exec (.folioFetchDone j.slot image) s = .next t ∧ s.endsJob t j e.status 0 0 e.detail ∧
             t.reg (rMdlFault f0.handle) = BitVec.ofNat 32 e.off))) ∧
      (j.phase = .loadCommit → s.slotJob j.sq j.desc j → s.cqOpen (s.cqFor j.sq j.desc) →
        ∃ t, exec (.folioCommit j.slot) s = .next t ∧ s.endsJob t j stOk 0 f0.len 0 ∧ t.dram = s.dram ∧
          (∃ f ∈ t.fol.folios, f.handle = f0.handle ∧ f.committed = true ∧ f.loaderSlot = none) ∧
          (∀ m, s.sec.ms[2]? = some m → t.sec.ms[2]? = some (sha256 (m ++ f0.digest))) ∧
          t.sec.ms[0]? = s.sec.ms[0]? ∧ t.sec.ms[1]? = s.sec.ms[1]?))

/-- FOLIO_UNLOAD of a committed folio waits until no job names it, and is refused with DETAIL 5 when none is; FOLIO_UNLOAD_RELEASE then
takes the folio, its nodes and its shards away and completes with OK (R443). FOLIO_PIN pins a committed folio's resident shards and
fills the others as far as the wing's bays have places, FOLIO_UNPIN lets them go, and a pin that cannot be is refused (R452, R454); MDL_SHELF_SPLIT takes a new split only
with every ring disabled (R449); REFILL_DONE enters a shard in the roomiest bay, or in the place
of the one least recently read (R450, R452); CAR_INJECT_ARM outside TEST is refused (R267). -/
def Obligations.FoliosUnloadAndShelfShards : Prop :=
  ∀ s : State, s.Inv → s.emb = false → s.dev.state ≠ .off →
    (∀ (n : Nat) (d : Bytes) (j : Job), s.ready n d (some j.slot) → s.slotJob n d j → dOp d = opFolioUnload →
      (s.fol.folios.any (fun f => f.loaderSlot = some j.slot && f.unloading) = true →
        ∃ t, exec (.folioUnload n) s = .next t ∧ (t.job? j.slot).map (·.phase) = some .unloading ∧ t.fol = s.fol ∧ t.out = s.out) ∧
      (s.fol.folios.any (fun f => f.loaderSlot = some j.slot && f.unloading) = false → s.cqOpen (s.cqFor n d) →
        ∃ t, exec (.folioUnload n) s = .next t ∧ s.recordsDesc t n d (some j.slot) stResources 5 ∧ t.fol = s.fol)) ∧
    (∀ (j : Job) (f : Folio), s.fabricUp = true → s.job? j.slot = some j → j.phase = .unloading →
      s.fol.folios.find? (fun f => f.loaderSlot = some j.slot && f.unloading) = some f →
      (s.jobs.any (·.names f) = true → exec (.folioUnloadRelease j.slot) s = .next s) ∧
      (s.jobs.any (·.names f) = false → s.slotJob j.sq j.desc j → s.cqOpen (s.cqFor j.sq j.desc) →
        ∃ t, exec (.folioUnloadRelease j.slot) s = .next t ∧ s.endsJob t j stOk 0 0 0 ∧ (∀ g ∈ t.fol.folios, g.handle ≠ f.handle) ∧
          (∀ g ∈ t.fol.shards, g.handle ≠ f.handle) ∧ (∀ m ∈ t.kv.nodes, m.folio ≠ f.handle) ∧ t.dram = s.dram)) ∧
    (s.dev.state ≠ .standby → s.rst.fabricRelease = false →
      (∀ (h : Nat) (f : Folio), h < 32 → s.fol.folios.find? (·.handle = h) = some f → f.committed = true →
        (s.pinTooMuch f = false →
          ∃ t, exec (.folioPin h) s = .next t ∧ (∀ g ∈ t.fol.shards, g.handle = h → g.pinned = true) ∧ t.jobs = s.jobs ∧
            t.dram = s.dram ∧ (t.fol.folios.find? (·.handle = h)).map (·.pinned) = some true ∧
            ∀ w, w < 4 → ∀ k ∈ f.cacheable w, t.resident w h k = true ∨ (w, h, k) ∈ t.fol.refills ∨
              t.shelfPlaces w ≤ (t.fol.refills.filter (·.1 = w)).length) ∧
        (s.pinTooMuch f = true → ∃ t, exec (.folioPin h) s = .next t ∧ t.regB rMdlPinCtrl 6 = true ∧ t.fol = s.fol) ∧
        ∃ t, exec (.folioUnpin h) s = .next t ∧ (∀ g ∈ t.fol.shards, g.handle = h → g.pinned = false) ∧
          t.fol.refills = s.fol.refills ∧ t.jobs = s.jobs ∧ t.dram = s.dram) ∧
      (∀ v : Word, wbit v 3 = false → wbits v 0 3 ≠ s.regF rMdlShelfSplit 0 3 → s.jobs = [] → s.fol.folios = [] →
        ((∀ n, n < 64 → s.ringEn (.sq n) = false) →
          ∃ t, exec (.shelfSplitWrite v) s = .next t ∧ t.regF rMdlShelfSplit 0 3 = wbits v 0 3 ∧ t.fol.shards = [] ∧ t.dram = s.dram) ∧
        ∀ n, n < 64 → s.ringEn (.sq n) = true → exec (.shelfSplitWrite v) s = .next s.exitIdle) ∧
      ∀ v : Word, wbit v 10 = true → s.dev.state ≠ .test →
        ∃ t, exec (.carInjectArm v) s = .next t ∧ t.regB rCarInject 11 = true ∧ t.regB rCarInject 10 = s.regB rCarInject 10 ∧
          t.jobs = s.jobs ∧ t.sch = s.sch ∧ t.dram = s.dram) ∧
    (s.dev.state = .test → s.rst.fabricRelease = false → ∀ v : Word, wbit v 10 = true → wbits v 0 8 ≤ 191 →
      ∃ t, exec (.carInjectArm v) s = .next t ∧ t.regB rCarInject 10 = true ∧ t.regF rCarInject 0 8 = wbits v 0 8 ∧
        t.regF rCarInject 8 2 = wbits v 8 2 ∧ t.jobs = s.jobs ∧ t.sch = s.sch ∧ t.dram = s.dram) ∧
    ∀ (w h n b : Nat) (f : Folio), (w, h, n) ∈ s.fol.refills → s.fabricUp = true → s.dev.selfRefresh = false →
      s.fol.folios.find? (·.handle = h) = some f →
      (s.roomiest w = none → ∀ e, s.evictee w = some e →
        ∃ t g, exec (.refillDone w h n) s = .next t ∧ t.fol.refills = s.fol.refills.erase (w, h, n) ∧ t.fol.folios = s.fol.folios ∧
          t.fol.shards = s.fol.shards.erase e ++ [g] ∧ g.wing = w ∧ g.bay = e.bay ∧ g.handle = h ∧ g.number = n ∧ g.pinned = f.pinned ∧
          t.dram = s.dram ∧ t.jobs = s.jobs) ∧
      (s.roomiest w = some b →
      ∃ t, exec (.refillDone w h n) s = .next t ∧ t.fol.refills = s.fol.refills.erase (w, h, n) ∧ t.fol.folios = s.fol.folios ∧
        t.dram = s.dram ∧ t.jobs = s.jobs ∧ ∃ g, t.fol.shards = s.fol.shards ++ [g] ∧ g.wing = w ∧ g.bay = b ∧ g.handle = h ∧
          g.number = n ∧ g.pinned = f.pinned)

/-! ### Numbers (chapter 6) -/

/-- A cell of the array over one pass stays within 32 bits; while no addition saturates it, it holds its initial value plus the exact
sum of products, less the column zero point times the sum of the row's differences, and its residue is its value modulo 3, whatever the
lookup width and the group shifts (R243 to R247, R255). A requantised element lies within its format; one that is not marked saturated
is the rounded shift of value plus bias, moved by the zero point, and a zero-collapse is a code at the zero point of an element that was
not zero (R227, R229, R230). -/
def Obligations.ArrayNumbersAreExactOrMarked : Prop :=
  (∀ (pairs : List (Int × Int)) (p : Nat) (groups : Option (Nat × List Nat)) (init zCol : Int), 0 < p → -2 ^ 31 ≤ init → init < 2 ^ 31 →
    (let c := cellPass pairs p groups init zCol
     (c.sat = false → c.residue = res3 c.value) ∧ -2 ^ 31 ≤ c.value ∧ c.value < 2 ^ 31 ∧
     (groups = none → c.sat = false →
       c.value = init + (pairs.map fun e => e.1 * e.2).sum - zCol * (pairs.map (·.1)).sum))) ∧
  ∀ (v bias k z lo hi : Int) (satIn : Bool), lo ≤ hi →
    (let r := requant v bias k z lo hi satIn
     lo ≤ r.code ∧ r.code ≤ hi ∧ (r.sat = false → r.code = shiftStep (v + bias) k + z) ∧
     (satIn = true → r.sat = true) ∧ (r.zc = true → r.code = z ∧ v + bias ≠ 0 ∧ r.sat = false))

/-! ### The whole machine -/

/-- At reset the invariant holds: memories and the register file in canonical form, the fixed numbers of the part, no shared names. -/
def Obligations.ResetMeetsTheInvariant : Prop := State.reset.Inv

/-- Every step keeps every memory, and the register file, in canonical form: equal contents are equal data (the model's own form). -/
def Obligations.StepsKeepMemoriesCanonical : Prop := ∀ s t : State, step s = .next t → s.MemWf → t.MemWf

/-- Every step keeps the fixed numbers of what the part has: rings, lanes, transports, ports, lamps, carrels with four slots, shelves,
measurements and page-size lists (R11, R66, R128, R154, R331, R459, R582). -/
def Obligations.StepsKeepTheFixedNumbers : Prop := ∀ s t : State, step s = .next t → s.Numbers → t.Numbers

/-- Every step keeps jobs, contexts and scratch units apart: one job to a slot and number, one context to an identifier and to the slot
that names it, and no scratch unit of a carrel twice (R88, R263, R459). -/
def Obligations.StepsKeepThingsApart : Prop := ∀ s t : State, step s = .next t → s.Apart → t.Apart

/-- An OTP bit changes only from 0 to 1, whatever command is taken. -/
def Obligations.OtpBitsNeverClear : Prop :=
  ∀ (s t : State) (a i : Nat), s.MemWf → step s = .next t → (s.sec.otp.get a).getLsbD i = true → (t.sec.otp.get a).getLsbD i = true
end

