-- ==== Sys2Proof/Laws/Cells.lean ====
section
/-! SUPPORT. The laws of cells: a read after a write, and the canonical form that every write keeps; for memories and for the
register file. -/

namespace Sys2Proof.Machine

section Cells

variable {α : Type} [DecidableEq α] (dflt : Nat → α)

/-- A canonical list above `lo` is canonical above anything lower. -/
theorem cellsFrom_mono {lo lo' : Nat} (h : lo' ≤ lo) (l : List (Nat × α)) (hl : cellsFrom dflt lo l = true) :
    cellsFrom dflt lo' l = true := by
  cases l with
  | nil => rfl
  | cons p l =>
    simp only [cellsFrom, Bool.and_eq_true, decide_eq_true_eq] at hl ⊢
    exact ⟨⟨by omega, hl.1.2⟩, hl.2⟩

/-- Below its first address a canonical list reads as unlisted. -/
theorem getCell_below {lo a : Nat} (h : a < lo) (l : List (Nat × α)) (hl : cellsFrom dflt lo l = true) :
    getCell dflt a l = dflt a := by
  cases l with
  | nil => rfl
  | cons p l =>
    obtain ⟨b, v⟩ := p
    simp only [cellsFrom, Bool.and_eq_true, decide_eq_true_eq] at hl
    have h1 : a ≠ b := by omega
    have h2 : a < b := by omega
    simp [getCell, h1, h2]

/-- A write keeps the canonical form. -/
theorem cellsFrom_putCell {lo a : Nat} (h : lo ≤ a) (v : α) (l : List (Nat × α)) (hl : cellsFrom dflt lo l = true) :
    cellsFrom dflt lo (putCell dflt a v l) = true := by
  induction l generalizing lo with
  | nil =>
    simp only [putCell]
    split
    · rfl
    · simp_all [cellsFrom]
  | cons p l ih =>
    obtain ⟨b, w⟩ := p
    have hc := hl
    simp only [cellsFrom, Bool.and_eq_true, decide_eq_true_eq] at hl
    simp only [putCell]
    split
    · rename_i e
      subst e
      split
      · exact cellsFrom_mono dflt (by omega) l hl.2
      · simp_all [cellsFrom]
    · split
      · split
        · exact hc
        · simp only [cellsFrom, Bool.and_eq_true, decide_eq_true_eq]
          exact ⟨⟨h, ‹_›⟩, ⟨by omega, hl.1.2⟩, hl.2⟩
      · simp only [cellsFrom, Bool.and_eq_true, decide_eq_true_eq]
        exact ⟨hl.1, ih (by omega) hl.2⟩

/-- A read after a write to the same address gives the value written. -/
theorem getCell_putCell_same {lo : Nat} (a : Nat) (v : α) (l : List (Nat × α)) (hl : cellsFrom dflt lo l = true) :
    getCell dflt a (putCell dflt a v l) = v := by
  induction l generalizing lo with
  | nil =>
    simp only [putCell]
    split <;> simp_all [getCell]
  | cons p l ih =>
    obtain ⟨b, w⟩ := p
    simp only [cellsFrom, Bool.and_eq_true, decide_eq_true_eq] at hl
    simp only [putCell]
    split
    · rename_i e
      subst e
      split
      · rename_i e
        rw [getCell_below dflt (Nat.lt_succ_self a) l hl.2, e]
      · simp [getCell]
    · split
      · split
        · rename_i h1 h2 e
          simp [getCell, h1, h2, e]
        · simp [getCell]
      · rename_i h1 h2
        simp [getCell, h1, h2, ih hl.2]

/-- A write leaves every other address as it was. -/
theorem getCell_putCell_other {lo a c : Nat} (hac : c ≠ a) (v : α) (l : List (Nat × α))
    (hl : cellsFrom dflt lo l = true) : getCell dflt c (putCell dflt a v l) = getCell dflt c l := by
  induction l generalizing lo with
  | nil =>
    simp only [putCell]
    split
    · rfl
    · simp [getCell, hac]
  | cons p l ih =>
    obtain ⟨b, w⟩ := p
    simp only [cellsFrom, Bool.and_eq_true, decide_eq_true_eq] at hl
    simp only [putCell]
    split
    · rename_i e
      subst e
      have hlow : c < a → getCell dflt c l = dflt c := fun h =>
        getCell_below dflt (by omega : c < a + 1) l hl.2
      split
      · by_cases h : c < a
        · simp [getCell, hac, h, hlow h]
        · simp [getCell, hac, h]
      · simp [getCell, hac]
    · split
      · rename_i h1 h2
        split
        · rfl
        · by_cases h : c < a
          · have h3 : c ≠ b := by omega
            have h4 : c < b := by omega
            simp [getCell, hac, h, h3, h4]
          · simp [getCell, hac, h]
      · by_cases h : c = b
        · simp [getCell, h]
        · by_cases h5 : c < b
          · simp [getCell, h, h5]
          · simp [getCell, h, h5, ih hl.2]

end Cells

/-! ### Memories -/

theorem Mem.put_wf (m : Mem) (a : Nat) (v : Byte) (h : m.wf = true) : (m.put a v).wf = true :=
  cellsFrom_putCell Mem.blank (Nat.zero_le a) v m h

theorem Mem.write_wf (bs : Bytes) (m : Mem) (a : Nat) (h : m.wf = true) : (m.write a bs).wf = true := by
  induction bs generalizing m a with
  | nil => exact h
  | cons b bs ih => exact ih (m.put a b) (a + 1) (m.put_wf a b h)

theorem Mem.get_put_same (m : Mem) (a : Nat) (v : Byte) (h : m.wf = true) : (m.put a v).get a = v :=
  getCell_putCell_same Mem.blank a v m h

theorem Mem.get_put_other (m : Mem) (a c : Nat) (v : Byte) (hc : c ≠ a) (h : m.wf = true) :
    (m.put a v).get c = m.get c :=
  getCell_putCell_other Mem.blank hc v m h

/-- A write leaves every byte outside its own as it was. -/
theorem Mem.get_write_other (bs : Bytes) (m : Mem) (a c : Nat) (h : m.wf = true) (hc : c < a ∨ a + bs.length ≤ c) :
    (m.write a bs).get c = m.get c := by
  induction bs generalizing m a with
  | nil => rfl
  | cons b bs ih =>
    simp only [List.length_cons] at hc
    rw [Mem.write, ih (m.put a b) (a + 1) (m.put_wf a b h) (by omega), m.get_put_other a c b (by omega) h]

/-- A byte inside a write reads as written. -/
theorem Mem.get_write_in (bs : Bytes) (m : Mem) (a i : Nat) (h : m.wf = true) (hi : i < bs.length) :
    (m.write a bs).get (a + i) = bs[i] := by
  induction bs generalizing m a i with
  | nil => simp at hi
  | cons b bs ih =>
    cases i with
    | zero =>
      rw [Mem.write, Mem.get_write_other bs _ _ _ (m.put_wf a b h) (by omega)]
      simpa using m.get_put_same a b h
    | succ i =>
      have h2 := ih (m.put a b) (a + 1) i (m.put_wf a b h) (by simpa using hi)
      rw [Mem.write]
      simpa [Nat.add_assoc, Nat.add_comm 1 i] using h2

@[simp] theorem Mem.read_length (m : Mem) (a n : Nat) : (m.read a n).length = n := by
  induction n generalizing a with
  | zero => rfl
  | succ n ih => simp [Mem.read, ih]

/-- What was written is read back. -/
theorem Mem.read_write (bs : Bytes) (m : Mem) (a : Nat) (h : m.wf = true) : (m.write a bs).read a bs.length = bs := by
  induction bs generalizing m a with
  | nil => rfl
  | cons b bs ih =>
    rw [List.length_cons, Mem.read, Mem.write, ih (m.put a b) (a + 1) (m.put_wf a b h),
      Mem.get_write_other bs _ _ _ (m.put_wf a b h) (by omega), m.get_put_same a b h]

/-! ### Registers -/

theorem State.reg_setReg_same (s : State) (off : Nat) (v : Word) (h : cellsFrom regReset 0 s.regs = true) :
    (s.setReg off v).reg off = v :=
  getCell_putCell_same regReset off v s.regs h

theorem State.reg_setReg_other (s : State) (off c : Nat) (v : Word) (hc : c ≠ off) (h : cellsFrom regReset 0 s.regs = true) :
    (s.setReg off v).reg c = s.reg c :=
  getCell_putCell_other regReset hc v s.regs h

theorem State.setReg_regsWf (s : State) (off : Nat) (v : Word) (h : cellsFrom regReset 0 s.regs = true) :
    cellsFrom regReset 0 (s.setReg off v).regs = true :=
  cellsFrom_putCell regReset (Nat.zero_le off) v s.regs h

end Sys2Proof.Machine
end

