-- ==== Sys2Proof/Laws/Bits.lean ====
section
/-! SUPPORT. The laws of bit fields and of the register fields read and written with them. -/

namespace Sys2Proof.Machine

/-- A field's replacement, part by part: what lies above, the new value, what lies below. -/
theorem putBitsN_parts (v lo n x : Nat) :
    putBitsN v lo n x = 2 ^ lo * (2 ^ n * (v / 2 ^ (lo + n)) + x % 2 ^ n) + v % 2 ^ lo := by
  have h1 : v = 2 ^ lo * (v / 2 ^ lo) + v % 2 ^ lo := (Nat.div_add_mod _ _).symm
  have h2 : v / 2 ^ lo = 2 ^ n * (v / 2 ^ (lo + n)) + v / 2 ^ lo % 2 ^ n := by
    rw [Nat.pow_add, ← Nat.div_div_eq_div_mul]
    exact (Nat.div_add_mod _ _).symm
  simp only [putBitsN, bitsN, Nat.shiftRight_eq_div_pow, Nat.shiftLeft_eq]
  generalize v / 2 ^ (lo + n) = a at *
  generalize v / 2 ^ lo % 2 ^ n = m at *
  generalize v % 2 ^ lo = r at *
  generalize v / 2 ^ lo = d at *
  subst h2
  subst h1
  have e : 2 ^ lo * (2 ^ n * a + m) = 2 ^ lo * (2 ^ n * a) + m * 2 ^ lo := by ring
  rw [e, show 2 ^ lo * (2 ^ n * a) + m * 2 ^ lo + r - m * 2 ^ lo = 2 ^ lo * (2 ^ n * a) + r by omega]
  ring

/-- Bit `i` after a field is replaced. -/
theorem testBit_putBitsN (v lo n x i : Nat) :
    (putBitsN v lo n x).testBit i = if lo ≤ i ∧ i < lo + n then x.testBit (i - lo) else v.testBit i := by
  rw [putBitsN_parts, Nat.testBit_two_pow_mul_add _ (Nat.mod_lt _ (Nat.two_pow_pos lo))]
  by_cases h : i < lo
  · have h2 : ¬(lo ≤ i ∧ i < lo + n) := by omega
    simp [h, h2, Nat.testBit_mod_two_pow]
  · rw [if_neg h, Nat.testBit_two_pow_mul_add _ (Nat.mod_lt _ (Nat.two_pow_pos n))]
    by_cases h3 : i - lo < n
    · have h4 : lo ≤ i ∧ i < lo + n := by omega
      simp [h3, h4, Nat.testBit_mod_two_pow]
    · have h4 : ¬(lo ≤ i ∧ i < lo + n) := by omega
      rw [if_neg h3, if_neg h4, Nat.testBit_div_two_pow]
      congr 1
      omega

/-- Bit `i` of a word after a field is replaced. -/
theorem wbit_wput (w : Word) (lo n x i : Nat) (hi : i < 32) :
    wbit (wput w lo n x) i = if lo ≤ i ∧ i < lo + n then x.testBit (i - lo) else wbit w i := by
  simp only [wbit, wput, BitVec.toNat_ofNat, Nat.testBit_mod_two_pow, hi, decide_true, Bool.true_and, testBit_putBitsN]

/-- A field reads as written. -/
theorem wbits_wput_same (w : Word) (lo n x : Nat) (h : lo + n ≤ 32) : wbits (wput w lo n x) lo n = x % 2 ^ n := by
  apply Nat.eq_of_testBit_eq
  intro i
  simp only [wbits, bitsN, wput, BitVec.toNat_ofNat, Nat.testBit_mod_two_pow, Nat.testBit_shiftRight, testBit_putBitsN]
  by_cases hi : i < n
  · have h1 : lo + i < 32 := by omega
    have h2 : lo ≤ lo + i ∧ lo + i < lo + n := by omega
    simp [hi, h1]
  · simp [hi]

/-- A field apart from the one written reads as before. -/
theorem wbits_wput_other (w : Word) (lo n x lo' n' : Nat) (h : lo' + n' ≤ 32) (hd : lo' + n' ≤ lo ∨ lo + n ≤ lo') :
    wbits (wput w lo n x) lo' n' = wbits w lo' n' := by
  apply Nat.eq_of_testBit_eq
  intro i
  simp only [wbits, bitsN, wput, BitVec.toNat_ofNat, Nat.testBit_mod_two_pow, Nat.testBit_shiftRight, testBit_putBitsN]
  by_cases hi : i < n'
  · have h1 : lo' + i < 32 := by omega
    have h2 : ¬(lo ≤ lo' + i ∧ lo' + i < lo + n) := by omega
    simp [hi, h1, h2]
  · simp [hi]

/-! ### Register fields -/

theorem State.regF_setRegF_same (s : State) (off lo n v : Nat) (h : cellsFrom regReset 0 s.regs = true)
    (hn : lo + n ≤ 32) : (s.setRegF off lo n v).regF off lo n = v % 2 ^ n := by
  rw [State.regF, State.setRegF, State.reg_setReg_same _ _ _ h, wbits_wput_same _ _ _ _ hn]

theorem State.regF_setRegF_field (s : State) (off lo n v lo' n' : Nat) (h : cellsFrom regReset 0 s.regs = true)
    (hn : lo' + n' ≤ 32) (hd : lo' + n' ≤ lo ∨ lo + n ≤ lo') :
    (s.setRegF off lo n v).regF off lo' n' = s.regF off lo' n' := by
  rw [State.regF, State.setRegF, State.reg_setReg_same _ _ _ h, wbits_wput_other _ _ _ _ _ _ hn hd, State.regF]

theorem State.reg_setRegF_other (s : State) (off c lo n v : Nat) (hc : c ≠ off) (h : cellsFrom regReset 0 s.regs = true) :
    (s.setRegF off lo n v).reg c = s.reg c :=
  s.reg_setReg_other off c _ hc h

theorem State.setRegF_regsWf (s : State) (off lo n v : Nat) (h : cellsFrom regReset 0 s.regs = true) :
    cellsFrom regReset 0 (s.setRegF off lo n v).regs = true :=
  s.setReg_regsWf off _ h

/-- A flagged bit reads 1. -/
theorem State.regB_flag_same (s : State) (off i : Nat) (h : cellsFrom regReset 0 s.regs = true) (hi : i < 32) :
    (s.flag off i).regB off i = true := by
  rw [State.flag, State.setRegF, State.regB, State.reg_setReg_same _ _ _ h, wbit_wput _ _ _ _ _ hi]
  simp

/-- A flag leaves every other bit of its register as it was. -/
theorem State.regB_flag_other (s : State) (off i k : Nat) (h : cellsFrom regReset 0 s.regs = true) (hk : k < 32)
    (hne : k ≠ i) : (s.flag off i).regB off k = s.regB off k := by
  rw [State.flag, State.setRegF, State.regB, State.reg_setReg_same _ _ _ h, wbit_wput _ _ _ _ _ hk]
  have h2 : ¬(i ≤ k ∧ k < i + 1) := by omega
  rw [if_neg h2, State.regB]

theorem State.reg_flag_other (s : State) (off i c : Nat) (hc : c ≠ off) (h : cellsFrom regReset 0 s.regs = true) :
    (s.flag off i).reg c = s.reg c :=
  s.reg_setReg_other off c _ hc h

theorem State.flag_regsWf (s : State) (off i : Nat) (h : cellsFrom regReset 0 s.regs = true) :
    cellsFrom regReset 0 (s.flag off i).regs = true :=
  s.setReg_regsWf off _ h

end Sys2Proof.Machine
end

