-- ==== Sys2Proof/Laws/Check.lean ====
section
/-! SUPPORT. A Boolean form of the invariant, so that a concrete state can be shown to meet it by evaluation. -/

namespace Sys2Proof.Machine

/-- `State.MemWf`, evaluated. -/
def State.memOk (s : State) : Bool :=
  s.dram.wf && s.flash.wf && s.sec.otp.wf && s.link.msixTable.wf && s.sch.shelves.all (·.wf) &&
    s.sch.carrels.all (·.scratch.wf) && s.sch.coreL1.all (fun m => m.1.wf && m.2.wf) && s.sch.wingL2.all (·.wf) && cellsFrom regReset 0 s.regs

/-- `State.Numbers`, evaluated. -/
def State.numbersOk (s : State) : Bool :=
  decide (s.rings.sqs.length = 64) && decide (s.rings.cqs.length = 64) && decide (s.acc.lanes.length = 11) &&
    decide (s.col.transports.length = 4) && decide (s.col.lsps.length = 8) && decide (s.col.lamps.length = 16) &&
    decide (s.sch.carrels.length = 192) && s.sch.carrels.all (fun r => decide (r.slots.length = 4)) &&
    decide (s.sch.shelves.length = 24) && decide (s.sch.coreL1.length = 16) &&
    decide (s.sch.wingL2.length = 4) && decide (s.sec.ms.length = 8) && decide (s.kv.free.length = 8)

/-- A slot's occupant, if any, is a context that knows where it sits. -/
def State.seatOk (s : State) (c k : Nat) (p : List Nat × Option Nat) : Bool :=
  match p.2 with
  | none => true
  | some id =>
    match s.ctx? id with
    | none => false
    | some x => decide (x.place = some (c, k))

/-- `State.Apart`, evaluated. -/
def State.apartOk (s : State) : Bool :=
  decide (s.jobs.map (·.slot)).Nodup && decide (s.jobs.map (·.number)).Nodup &&
    s.jobs.all (fun j => decide (j.number < s.jobCount)) && decide (s.sch.ctxs.map (·.id)).Nodup &&
    s.sch.ctxs.all (fun x => decide (x.id < s.sch.nextCtx)) &&
    s.sch.carrels.all (fun r => decide (r.slots.flatMap (·.1)).Nodup) &&
    s.sch.carrels.zipIdx.all (fun e => e.1.slots.zipIdx.all fun p => s.seatOk e.2 p.2 p.1)

/-- `State.Inv`, evaluated. -/
def State.invOk (s : State) : Bool := s.memOk && s.numbersOk && s.apartOk

theorem State.memWf_of_ok (s : State) (h : s.memOk = true) : s.MemWf := by
  simp only [State.memOk, Bool.and_eq_true, List.all_eq_true] at h
  obtain ⟨⟨⟨⟨⟨⟨⟨⟨h1, h2⟩, h3⟩, h4⟩, h5⟩, h6⟩, h7⟩, h8⟩, h9⟩ := h
  exact ⟨h1, h2, h3, h4, h5, h6, h7, h8, h9⟩

theorem State.numbers_of_ok (s : State) (h : s.numbersOk = true) : s.Numbers := by
  simp only [State.numbersOk, Bool.and_eq_true, List.all_eq_true, decide_eq_true_eq] at h
  constructor <;> simp_all

theorem State.apart_of_ok (s : State) (h : s.apartOk = true) : s.Apart := by
  simp only [State.apartOk, Bool.and_eq_true, List.all_eq_true, decide_eq_true_eq] at h
  obtain ⟨⟨⟨⟨⟨⟨h1, h2⟩, h3⟩, h4⟩, h5⟩, h6⟩, h7⟩ := h
  refine ⟨h1, h2, h3, h4, h5, h6, ?_⟩
  intro c k id hid
  simp only [State.slotOf, State.carrel] at hid
  rw [List.getD_eq_getElem?_getD, List.getD_eq_getElem?_getD] at hid
  by_cases hc : c < s.sch.carrels.length
  · rw [List.getElem?_eq_getElem hc, Option.getD_some] at hid
    by_cases hk : k < (s.sch.carrels[c]).slots.length
    · rw [List.getElem?_eq_getElem hk, Option.getD_some] at hid
      have m1 : (s.sch.carrels[c], c) ∈ s.sch.carrels.zipIdx := by
        rw [List.mem_zipIdx_iff_getElem?]; simp [hc]
      have m2 : ((s.sch.carrels[c]).slots[k], k) ∈ (s.sch.carrels[c]).slots.zipIdx := by
        rw [List.mem_zipIdx_iff_getElem?]; simp [hk]
      have := h7 _ m1 _ m2
      simp only [State.seatOk, hid] at this
      split at this
      · cases this
      · exact ⟨_, by assumption, by simpa using this⟩
    · rw [List.getElem?_eq_none (l := (s.sch.carrels[c]).slots) (by omega)] at hid; cases hid
  · rw [List.getElem?_eq_none (l := s.sch.carrels) (by omega), Option.getD_none] at hid; simp [Carrel.none] at hid

/-- A state that passes the check meets the invariant. -/
theorem State.inv_of_ok (s : State) (h : s.invOk = true) : s.Inv := by
  simp only [State.invOk, Bool.and_eq_true] at h
  exact ⟨s.memWf_of_ok h.1.1, s.numbers_of_ok h.1.2, s.apart_of_ok h.2⟩

end Sys2Proof.Machine
end

