-- ==== Sys2Proof/Laws/State.lean ====
section
/-! SUPPORT. What each named update of the state leaves in each field: one lemma per field per update, true by definition, so that
no proof unfolds a record update. -/

namespace Sys2Proof.Machine

variable (s : State)

/-! ### onDev -/

@[simp] theorem State.onDev_pending (f : Dev → Dev) : (s.onDev f).pending = s.pending := rfl
@[simp] theorem State.onDev_regs (f : Dev → Dev) : (s.onDev f).regs = s.regs := rfl
@[simp] theorem State.onDev_fresh (f : Dev → Dev) : (s.onDev f).fresh = s.fresh := rfl
@[simp] theorem State.onDev_out (f : Dev → Dev) : (s.onDev f).out = s.out := rfl
@[simp] theorem State.onDev_aoTime (f : Dev → Dev) : (s.onDev f).aoTime = s.aoTime := rfl
@[simp] theorem State.onDev_arithNow (f : Dev → Dev) : (s.onDev f).arithNow = s.arithNow := rfl
@[simp] theorem State.onDev_dev (f : Dev → Dev) : (s.onDev f).dev = f s.dev := rfl
@[simp] theorem State.onDev_rst (f : Dev → Dev) : (s.onDev f).rst = s.rst := rfl
@[simp] theorem State.onDev_link (f : Dev → Dev) : (s.onDev f).link = s.link := rfl
@[simp] theorem State.onDev_mgt (f : Dev → Dev) : (s.onDev f).mgt = s.mgt := rfl
@[simp] theorem State.onDev_rings (f : Dev → Dev) : (s.onDev f).rings = s.rings := rfl
@[simp] theorem State.onDev_jobs (f : Dev → Dev) : (s.onDev f).jobs = s.jobs := rfl
@[simp] theorem State.onDev_jobCount (f : Dev → Dev) : (s.onDev f).jobCount = s.jobCount := rfl
@[simp] theorem State.onDev_acc (f : Dev → Dev) : (s.onDev f).acc = s.acc := rfl
@[simp] theorem State.onDev_col (f : Dev → Dev) : (s.onDev f).col = s.col := rfl
@[simp] theorem State.onDev_fol (f : Dev → Dev) : (s.onDev f).fol = s.fol := rfl
@[simp] theorem State.onDev_sch (f : Dev → Dev) : (s.onDev f).sch = s.sch := rfl
@[simp] theorem State.onDev_kv (f : Dev → Dev) : (s.onDev f).kv = s.kv := rfl
@[simp] theorem State.onDev_ldg (f : Dev → Dev) : (s.onDev f).ldg = s.ldg := rfl
@[simp] theorem State.onDev_err (f : Dev → Dev) : (s.onDev f).err = s.err := rfl
@[simp] theorem State.onDev_sec (f : Dev → Dev) : (s.onDev f).sec = s.sec := rfl
@[simp] theorem State.onDev_dram (f : Dev → Dev) : (s.onDev f).dram = s.dram := rfl
@[simp] theorem State.onDev_flash (f : Dev → Dev) : (s.onDev f).flash = s.flash := rfl

/-! ### onRst -/

@[simp] theorem State.onRst_pending (f : Rst → Rst) : (s.onRst f).pending = s.pending := rfl
@[simp] theorem State.onRst_regs (f : Rst → Rst) : (s.onRst f).regs = s.regs := rfl
@[simp] theorem State.onRst_fresh (f : Rst → Rst) : (s.onRst f).fresh = s.fresh := rfl
@[simp] theorem State.onRst_out (f : Rst → Rst) : (s.onRst f).out = s.out := rfl
@[simp] theorem State.onRst_aoTime (f : Rst → Rst) : (s.onRst f).aoTime = s.aoTime := rfl
@[simp] theorem State.onRst_arithNow (f : Rst → Rst) : (s.onRst f).arithNow = s.arithNow := rfl
@[simp] theorem State.onRst_dev (f : Rst → Rst) : (s.onRst f).dev = s.dev := rfl
@[simp] theorem State.onRst_rst (f : Rst → Rst) : (s.onRst f).rst = f s.rst := rfl
@[simp] theorem State.onRst_link (f : Rst → Rst) : (s.onRst f).link = s.link := rfl
@[simp] theorem State.onRst_mgt (f : Rst → Rst) : (s.onRst f).mgt = s.mgt := rfl
@[simp] theorem State.onRst_rings (f : Rst → Rst) : (s.onRst f).rings = s.rings := rfl
@[simp] theorem State.onRst_jobs (f : Rst → Rst) : (s.onRst f).jobs = s.jobs := rfl
@[simp] theorem State.onRst_jobCount (f : Rst → Rst) : (s.onRst f).jobCount = s.jobCount := rfl
@[simp] theorem State.onRst_acc (f : Rst → Rst) : (s.onRst f).acc = s.acc := rfl
@[simp] theorem State.onRst_col (f : Rst → Rst) : (s.onRst f).col = s.col := rfl
@[simp] theorem State.onRst_fol (f : Rst → Rst) : (s.onRst f).fol = s.fol := rfl
@[simp] theorem State.onRst_sch (f : Rst → Rst) : (s.onRst f).sch = s.sch := rfl
@[simp] theorem State.onRst_kv (f : Rst → Rst) : (s.onRst f).kv = s.kv := rfl
@[simp] theorem State.onRst_ldg (f : Rst → Rst) : (s.onRst f).ldg = s.ldg := rfl
@[simp] theorem State.onRst_err (f : Rst → Rst) : (s.onRst f).err = s.err := rfl
@[simp] theorem State.onRst_sec (f : Rst → Rst) : (s.onRst f).sec = s.sec := rfl
@[simp] theorem State.onRst_dram (f : Rst → Rst) : (s.onRst f).dram = s.dram := rfl
@[simp] theorem State.onRst_flash (f : Rst → Rst) : (s.onRst f).flash = s.flash := rfl

/-! ### onLink -/

@[simp] theorem State.onLink_pending (f : Link → Link) : (s.onLink f).pending = s.pending := rfl
@[simp] theorem State.onLink_regs (f : Link → Link) : (s.onLink f).regs = s.regs := rfl
@[simp] theorem State.onLink_fresh (f : Link → Link) : (s.onLink f).fresh = s.fresh := rfl
@[simp] theorem State.onLink_out (f : Link → Link) : (s.onLink f).out = s.out := rfl
@[simp] theorem State.onLink_aoTime (f : Link → Link) : (s.onLink f).aoTime = s.aoTime := rfl
@[simp] theorem State.onLink_arithNow (f : Link → Link) : (s.onLink f).arithNow = s.arithNow := rfl
@[simp] theorem State.onLink_dev (f : Link → Link) : (s.onLink f).dev = s.dev := rfl
@[simp] theorem State.onLink_rst (f : Link → Link) : (s.onLink f).rst = s.rst := rfl
@[simp] theorem State.onLink_link (f : Link → Link) : (s.onLink f).link = f s.link := rfl
@[simp] theorem State.onLink_mgt (f : Link → Link) : (s.onLink f).mgt = s.mgt := rfl
@[simp] theorem State.onLink_rings (f : Link → Link) : (s.onLink f).rings = s.rings := rfl
@[simp] theorem State.onLink_jobs (f : Link → Link) : (s.onLink f).jobs = s.jobs := rfl
@[simp] theorem State.onLink_jobCount (f : Link → Link) : (s.onLink f).jobCount = s.jobCount := rfl
@[simp] theorem State.onLink_acc (f : Link → Link) : (s.onLink f).acc = s.acc := rfl
@[simp] theorem State.onLink_col (f : Link → Link) : (s.onLink f).col = s.col := rfl
@[simp] theorem State.onLink_fol (f : Link → Link) : (s.onLink f).fol = s.fol := rfl
@[simp] theorem State.onLink_sch (f : Link → Link) : (s.onLink f).sch = s.sch := rfl
@[simp] theorem State.onLink_kv (f : Link → Link) : (s.onLink f).kv = s.kv := rfl
@[simp] theorem State.onLink_ldg (f : Link → Link) : (s.onLink f).ldg = s.ldg := rfl
@[simp] theorem State.onLink_err (f : Link → Link) : (s.onLink f).err = s.err := rfl
@[simp] theorem State.onLink_sec (f : Link → Link) : (s.onLink f).sec = s.sec := rfl
@[simp] theorem State.onLink_dram (f : Link → Link) : (s.onLink f).dram = s.dram := rfl
@[simp] theorem State.onLink_flash (f : Link → Link) : (s.onLink f).flash = s.flash := rfl

/-! ### onMgt -/

@[simp] theorem State.onMgt_pending (f : Mgt → Mgt) : (s.onMgt f).pending = s.pending := rfl
@[simp] theorem State.onMgt_regs (f : Mgt → Mgt) : (s.onMgt f).regs = s.regs := rfl
@[simp] theorem State.onMgt_fresh (f : Mgt → Mgt) : (s.onMgt f).fresh = s.fresh := rfl
@[simp] theorem State.onMgt_out (f : Mgt → Mgt) : (s.onMgt f).out = s.out := rfl
@[simp] theorem State.onMgt_aoTime (f : Mgt → Mgt) : (s.onMgt f).aoTime = s.aoTime := rfl
@[simp] theorem State.onMgt_arithNow (f : Mgt → Mgt) : (s.onMgt f).arithNow = s.arithNow := rfl
@[simp] theorem State.onMgt_dev (f : Mgt → Mgt) : (s.onMgt f).dev = s.dev := rfl
@[simp] theorem State.onMgt_rst (f : Mgt → Mgt) : (s.onMgt f).rst = s.rst := rfl
@[simp] theorem State.onMgt_link (f : Mgt → Mgt) : (s.onMgt f).link = s.link := rfl
@[simp] theorem State.onMgt_mgt (f : Mgt → Mgt) : (s.onMgt f).mgt = f s.mgt := rfl
@[simp] theorem State.onMgt_rings (f : Mgt → Mgt) : (s.onMgt f).rings = s.rings := rfl
@[simp] theorem State.onMgt_jobs (f : Mgt → Mgt) : (s.onMgt f).jobs = s.jobs := rfl
@[simp] theorem State.onMgt_jobCount (f : Mgt → Mgt) : (s.onMgt f).jobCount = s.jobCount := rfl
@[simp] theorem State.onMgt_acc (f : Mgt → Mgt) : (s.onMgt f).acc = s.acc := rfl
@[simp] theorem State.onMgt_col (f : Mgt → Mgt) : (s.onMgt f).col = s.col := rfl
@[simp] theorem State.onMgt_fol (f : Mgt → Mgt) : (s.onMgt f).fol = s.fol := rfl
@[simp] theorem State.onMgt_sch (f : Mgt → Mgt) : (s.onMgt f).sch = s.sch := rfl
@[simp] theorem State.onMgt_kv (f : Mgt → Mgt) : (s.onMgt f).kv = s.kv := rfl
@[simp] theorem State.onMgt_ldg (f : Mgt → Mgt) : (s.onMgt f).ldg = s.ldg := rfl
@[simp] theorem State.onMgt_err (f : Mgt → Mgt) : (s.onMgt f).err = s.err := rfl
@[simp] theorem State.onMgt_sec (f : Mgt → Mgt) : (s.onMgt f).sec = s.sec := rfl
@[simp] theorem State.onMgt_dram (f : Mgt → Mgt) : (s.onMgt f).dram = s.dram := rfl
@[simp] theorem State.onMgt_flash (f : Mgt → Mgt) : (s.onMgt f).flash = s.flash := rfl

/-! ### onRings -/

@[simp] theorem State.onRings_pending (f : Rings → Rings) : (s.onRings f).pending = s.pending := rfl
@[simp] theorem State.onRings_regs (f : Rings → Rings) : (s.onRings f).regs = s.regs := rfl
@[simp] theorem State.onRings_fresh (f : Rings → Rings) : (s.onRings f).fresh = s.fresh := rfl
@[simp] theorem State.onRings_out (f : Rings → Rings) : (s.onRings f).out = s.out := rfl
@[simp] theorem State.onRings_aoTime (f : Rings → Rings) : (s.onRings f).aoTime = s.aoTime := rfl
@[simp] theorem State.onRings_arithNow (f : Rings → Rings) : (s.onRings f).arithNow = s.arithNow := rfl
@[simp] theorem State.onRings_dev (f : Rings → Rings) : (s.onRings f).dev = s.dev := rfl
@[simp] theorem State.onRings_rst (f : Rings → Rings) : (s.onRings f).rst = s.rst := rfl
@[simp] theorem State.onRings_link (f : Rings → Rings) : (s.onRings f).link = s.link := rfl
@[simp] theorem State.onRings_mgt (f : Rings → Rings) : (s.onRings f).mgt = s.mgt := rfl
@[simp] theorem State.onRings_rings (f : Rings → Rings) : (s.onRings f).rings = f s.rings := rfl
@[simp] theorem State.onRings_jobs (f : Rings → Rings) : (s.onRings f).jobs = s.jobs := rfl
@[simp] theorem State.onRings_jobCount (f : Rings → Rings) : (s.onRings f).jobCount = s.jobCount := rfl
@[simp] theorem State.onRings_acc (f : Rings → Rings) : (s.onRings f).acc = s.acc := rfl
@[simp] theorem State.onRings_col (f : Rings → Rings) : (s.onRings f).col = s.col := rfl
@[simp] theorem State.onRings_fol (f : Rings → Rings) : (s.onRings f).fol = s.fol := rfl
@[simp] theorem State.onRings_sch (f : Rings → Rings) : (s.onRings f).sch = s.sch := rfl
@[simp] theorem State.onRings_kv (f : Rings → Rings) : (s.onRings f).kv = s.kv := rfl
@[simp] theorem State.onRings_ldg (f : Rings → Rings) : (s.onRings f).ldg = s.ldg := rfl
@[simp] theorem State.onRings_err (f : Rings → Rings) : (s.onRings f).err = s.err := rfl
@[simp] theorem State.onRings_sec (f : Rings → Rings) : (s.onRings f).sec = s.sec := rfl
@[simp] theorem State.onRings_dram (f : Rings → Rings) : (s.onRings f).dram = s.dram := rfl
@[simp] theorem State.onRings_flash (f : Rings → Rings) : (s.onRings f).flash = s.flash := rfl

/-! ### onAcc -/

@[simp] theorem State.onAcc_pending (f : Acc → Acc) : (s.onAcc f).pending = s.pending := rfl
@[simp] theorem State.onAcc_regs (f : Acc → Acc) : (s.onAcc f).regs = s.regs := rfl
@[simp] theorem State.onAcc_fresh (f : Acc → Acc) : (s.onAcc f).fresh = s.fresh := rfl
@[simp] theorem State.onAcc_out (f : Acc → Acc) : (s.onAcc f).out = s.out := rfl
@[simp] theorem State.onAcc_aoTime (f : Acc → Acc) : (s.onAcc f).aoTime = s.aoTime := rfl
@[simp] theorem State.onAcc_arithNow (f : Acc → Acc) : (s.onAcc f).arithNow = s.arithNow := rfl
@[simp] theorem State.onAcc_dev (f : Acc → Acc) : (s.onAcc f).dev = s.dev := rfl
@[simp] theorem State.onAcc_rst (f : Acc → Acc) : (s.onAcc f).rst = s.rst := rfl
@[simp] theorem State.onAcc_link (f : Acc → Acc) : (s.onAcc f).link = s.link := rfl
@[simp] theorem State.onAcc_mgt (f : Acc → Acc) : (s.onAcc f).mgt = s.mgt := rfl
@[simp] theorem State.onAcc_rings (f : Acc → Acc) : (s.onAcc f).rings = s.rings := rfl
@[simp] theorem State.onAcc_jobs (f : Acc → Acc) : (s.onAcc f).jobs = s.jobs := rfl
@[simp] theorem State.onAcc_jobCount (f : Acc → Acc) : (s.onAcc f).jobCount = s.jobCount := rfl
@[simp] theorem State.onAcc_acc (f : Acc → Acc) : (s.onAcc f).acc = f s.acc := rfl
@[simp] theorem State.onAcc_col (f : Acc → Acc) : (s.onAcc f).col = s.col := rfl
@[simp] theorem State.onAcc_fol (f : Acc → Acc) : (s.onAcc f).fol = s.fol := rfl
@[simp] theorem State.onAcc_sch (f : Acc → Acc) : (s.onAcc f).sch = s.sch := rfl
@[simp] theorem State.onAcc_kv (f : Acc → Acc) : (s.onAcc f).kv = s.kv := rfl
@[simp] theorem State.onAcc_ldg (f : Acc → Acc) : (s.onAcc f).ldg = s.ldg := rfl
@[simp] theorem State.onAcc_err (f : Acc → Acc) : (s.onAcc f).err = s.err := rfl
@[simp] theorem State.onAcc_sec (f : Acc → Acc) : (s.onAcc f).sec = s.sec := rfl
@[simp] theorem State.onAcc_dram (f : Acc → Acc) : (s.onAcc f).dram = s.dram := rfl
@[simp] theorem State.onAcc_flash (f : Acc → Acc) : (s.onAcc f).flash = s.flash := rfl

/-! ### onCol -/

@[simp] theorem State.onCol_pending (f : Col → Col) : (s.onCol f).pending = s.pending := rfl
@[simp] theorem State.onCol_regs (f : Col → Col) : (s.onCol f).regs = s.regs := rfl
@[simp] theorem State.onCol_fresh (f : Col → Col) : (s.onCol f).fresh = s.fresh := rfl
@[simp] theorem State.onCol_out (f : Col → Col) : (s.onCol f).out = s.out := rfl
@[simp] theorem State.onCol_aoTime (f : Col → Col) : (s.onCol f).aoTime = s.aoTime := rfl
@[simp] theorem State.onCol_arithNow (f : Col → Col) : (s.onCol f).arithNow = s.arithNow := rfl
@[simp] theorem State.onCol_dev (f : Col → Col) : (s.onCol f).dev = s.dev := rfl
@[simp] theorem State.onCol_rst (f : Col → Col) : (s.onCol f).rst = s.rst := rfl
@[simp] theorem State.onCol_link (f : Col → Col) : (s.onCol f).link = s.link := rfl
@[simp] theorem State.onCol_mgt (f : Col → Col) : (s.onCol f).mgt = s.mgt := rfl
@[simp] theorem State.onCol_rings (f : Col → Col) : (s.onCol f).rings = s.rings := rfl
@[simp] theorem State.onCol_jobs (f : Col → Col) : (s.onCol f).jobs = s.jobs := rfl
@[simp] theorem State.onCol_jobCount (f : Col → Col) : (s.onCol f).jobCount = s.jobCount := rfl
@[simp] theorem State.onCol_acc (f : Col → Col) : (s.onCol f).acc = s.acc := rfl
@[simp] theorem State.onCol_col (f : Col → Col) : (s.onCol f).col = f s.col := rfl
@[simp] theorem State.onCol_fol (f : Col → Col) : (s.onCol f).fol = s.fol := rfl
@[simp] theorem State.onCol_sch (f : Col → Col) : (s.onCol f).sch = s.sch := rfl
@[simp] theorem State.onCol_kv (f : Col → Col) : (s.onCol f).kv = s.kv := rfl
@[simp] theorem State.onCol_ldg (f : Col → Col) : (s.onCol f).ldg = s.ldg := rfl
@[simp] theorem State.onCol_err (f : Col → Col) : (s.onCol f).err = s.err := rfl
@[simp] theorem State.onCol_sec (f : Col → Col) : (s.onCol f).sec = s.sec := rfl
@[simp] theorem State.onCol_dram (f : Col → Col) : (s.onCol f).dram = s.dram := rfl
@[simp] theorem State.onCol_flash (f : Col → Col) : (s.onCol f).flash = s.flash := rfl

/-! ### onFol -/

@[simp] theorem State.onFol_pending (f : Fol → Fol) : (s.onFol f).pending = s.pending := rfl
@[simp] theorem State.onFol_regs (f : Fol → Fol) : (s.onFol f).regs = s.regs := rfl
@[simp] theorem State.onFol_fresh (f : Fol → Fol) : (s.onFol f).fresh = s.fresh := rfl
@[simp] theorem State.onFol_out (f : Fol → Fol) : (s.onFol f).out = s.out := rfl
@[simp] theorem State.onFol_aoTime (f : Fol → Fol) : (s.onFol f).aoTime = s.aoTime := rfl
@[simp] theorem State.onFol_arithNow (f : Fol → Fol) : (s.onFol f).arithNow = s.arithNow := rfl
@[simp] theorem State.onFol_dev (f : Fol → Fol) : (s.onFol f).dev = s.dev := rfl
@[simp] theorem State.onFol_rst (f : Fol → Fol) : (s.onFol f).rst = s.rst := rfl
@[simp] theorem State.onFol_link (f : Fol → Fol) : (s.onFol f).link = s.link := rfl
@[simp] theorem State.onFol_mgt (f : Fol → Fol) : (s.onFol f).mgt = s.mgt := rfl
@[simp] theorem State.onFol_rings (f : Fol → Fol) : (s.onFol f).rings = s.rings := rfl
@[simp] theorem State.onFol_jobs (f : Fol → Fol) : (s.onFol f).jobs = s.jobs := rfl
@[simp] theorem State.onFol_jobCount (f : Fol → Fol) : (s.onFol f).jobCount = s.jobCount := rfl
@[simp] theorem State.onFol_acc (f : Fol → Fol) : (s.onFol f).acc = s.acc := rfl
@[simp] theorem State.onFol_col (f : Fol → Fol) : (s.onFol f).col = s.col := rfl
@[simp] theorem State.onFol_fol (f : Fol → Fol) : (s.onFol f).fol = f s.fol := rfl
@[simp] theorem State.onFol_sch (f : Fol → Fol) : (s.onFol f).sch = s.sch := rfl
@[simp] theorem State.onFol_kv (f : Fol → Fol) : (s.onFol f).kv = s.kv := rfl
@[simp] theorem State.onFol_ldg (f : Fol → Fol) : (s.onFol f).ldg = s.ldg := rfl
@[simp] theorem State.onFol_err (f : Fol → Fol) : (s.onFol f).err = s.err := rfl
@[simp] theorem State.onFol_sec (f : Fol → Fol) : (s.onFol f).sec = s.sec := rfl
@[simp] theorem State.onFol_dram (f : Fol → Fol) : (s.onFol f).dram = s.dram := rfl
@[simp] theorem State.onFol_flash (f : Fol → Fol) : (s.onFol f).flash = s.flash := rfl

/-! ### onSch -/

@[simp] theorem State.onSch_pending (f : Sch → Sch) : (s.onSch f).pending = s.pending := rfl
@[simp] theorem State.onSch_regs (f : Sch → Sch) : (s.onSch f).regs = s.regs := rfl
@[simp] theorem State.onSch_fresh (f : Sch → Sch) : (s.onSch f).fresh = s.fresh := rfl
@[simp] theorem State.onSch_out (f : Sch → Sch) : (s.onSch f).out = s.out := rfl
@[simp] theorem State.onSch_aoTime (f : Sch → Sch) : (s.onSch f).aoTime = s.aoTime := rfl
@[simp] theorem State.onSch_arithNow (f : Sch → Sch) : (s.onSch f).arithNow = s.arithNow := rfl
@[simp] theorem State.onSch_dev (f : Sch → Sch) : (s.onSch f).dev = s.dev := rfl
@[simp] theorem State.onSch_rst (f : Sch → Sch) : (s.onSch f).rst = s.rst := rfl
@[simp] theorem State.onSch_link (f : Sch → Sch) : (s.onSch f).link = s.link := rfl
@[simp] theorem State.onSch_mgt (f : Sch → Sch) : (s.onSch f).mgt = s.mgt := rfl
@[simp] theorem State.onSch_rings (f : Sch → Sch) : (s.onSch f).rings = s.rings := rfl
@[simp] theorem State.onSch_jobs (f : Sch → Sch) : (s.onSch f).jobs = s.jobs := rfl
@[simp] theorem State.onSch_jobCount (f : Sch → Sch) : (s.onSch f).jobCount = s.jobCount := rfl
@[simp] theorem State.onSch_acc (f : Sch → Sch) : (s.onSch f).acc = s.acc := rfl
@[simp] theorem State.onSch_col (f : Sch → Sch) : (s.onSch f).col = s.col := rfl
@[simp] theorem State.onSch_fol (f : Sch → Sch) : (s.onSch f).fol = s.fol := rfl
@[simp] theorem State.onSch_sch (f : Sch → Sch) : (s.onSch f).sch = f s.sch := rfl
@[simp] theorem State.onSch_kv (f : Sch → Sch) : (s.onSch f).kv = s.kv := rfl
@[simp] theorem State.onSch_ldg (f : Sch → Sch) : (s.onSch f).ldg = s.ldg := rfl
@[simp] theorem State.onSch_err (f : Sch → Sch) : (s.onSch f).err = s.err := rfl
@[simp] theorem State.onSch_sec (f : Sch → Sch) : (s.onSch f).sec = s.sec := rfl
@[simp] theorem State.onSch_dram (f : Sch → Sch) : (s.onSch f).dram = s.dram := rfl
@[simp] theorem State.onSch_flash (f : Sch → Sch) : (s.onSch f).flash = s.flash := rfl

/-! ### onKv -/

@[simp] theorem State.onKv_pending (f : Kv → Kv) : (s.onKv f).pending = s.pending := rfl
@[simp] theorem State.onKv_regs (f : Kv → Kv) : (s.onKv f).regs = s.regs := rfl
@[simp] theorem State.onKv_fresh (f : Kv → Kv) : (s.onKv f).fresh = s.fresh := rfl
@[simp] theorem State.onKv_out (f : Kv → Kv) : (s.onKv f).out = s.out := rfl
@[simp] theorem State.onKv_aoTime (f : Kv → Kv) : (s.onKv f).aoTime = s.aoTime := rfl
@[simp] theorem State.onKv_arithNow (f : Kv → Kv) : (s.onKv f).arithNow = s.arithNow := rfl
@[simp] theorem State.onKv_dev (f : Kv → Kv) : (s.onKv f).dev = s.dev := rfl
@[simp] theorem State.onKv_rst (f : Kv → Kv) : (s.onKv f).rst = s.rst := rfl
@[simp] theorem State.onKv_link (f : Kv → Kv) : (s.onKv f).link = s.link := rfl
@[simp] theorem State.onKv_mgt (f : Kv → Kv) : (s.onKv f).mgt = s.mgt := rfl
@[simp] theorem State.onKv_rings (f : Kv → Kv) : (s.onKv f).rings = s.rings := rfl
@[simp] theorem State.onKv_jobs (f : Kv → Kv) : (s.onKv f).jobs = s.jobs := rfl
@[simp] theorem State.onKv_jobCount (f : Kv → Kv) : (s.onKv f).jobCount = s.jobCount := rfl
@[simp] theorem State.onKv_acc (f : Kv → Kv) : (s.onKv f).acc = s.acc := rfl
@[simp] theorem State.onKv_col (f : Kv → Kv) : (s.onKv f).col = s.col := rfl
@[simp] theorem State.onKv_fol (f : Kv → Kv) : (s.onKv f).fol = s.fol := rfl
@[simp] theorem State.onKv_sch (f : Kv → Kv) : (s.onKv f).sch = s.sch := rfl
@[simp] theorem State.onKv_kv (f : Kv → Kv) : (s.onKv f).kv = f s.kv := rfl
@[simp] theorem State.onKv_ldg (f : Kv → Kv) : (s.onKv f).ldg = s.ldg := rfl
@[simp] theorem State.onKv_err (f : Kv → Kv) : (s.onKv f).err = s.err := rfl
@[simp] theorem State.onKv_sec (f : Kv → Kv) : (s.onKv f).sec = s.sec := rfl
@[simp] theorem State.onKv_dram (f : Kv → Kv) : (s.onKv f).dram = s.dram := rfl
@[simp] theorem State.onKv_flash (f : Kv → Kv) : (s.onKv f).flash = s.flash := rfl

/-! ### onLdg -/

@[simp] theorem State.onLdg_pending (f : Ldg → Ldg) : (s.onLdg f).pending = s.pending := rfl
@[simp] theorem State.onLdg_regs (f : Ldg → Ldg) : (s.onLdg f).regs = s.regs := rfl
@[simp] theorem State.onLdg_fresh (f : Ldg → Ldg) : (s.onLdg f).fresh = s.fresh := rfl
@[simp] theorem State.onLdg_out (f : Ldg → Ldg) : (s.onLdg f).out = s.out := rfl
@[simp] theorem State.onLdg_aoTime (f : Ldg → Ldg) : (s.onLdg f).aoTime = s.aoTime := rfl
@[simp] theorem State.onLdg_arithNow (f : Ldg → Ldg) : (s.onLdg f).arithNow = s.arithNow := rfl
@[simp] theorem State.onLdg_dev (f : Ldg → Ldg) : (s.onLdg f).dev = s.dev := rfl
@[simp] theorem State.onLdg_rst (f : Ldg → Ldg) : (s.onLdg f).rst = s.rst := rfl
@[simp] theorem State.onLdg_link (f : Ldg → Ldg) : (s.onLdg f).link = s.link := rfl
@[simp] theorem State.onLdg_mgt (f : Ldg → Ldg) : (s.onLdg f).mgt = s.mgt := rfl
@[simp] theorem State.onLdg_rings (f : Ldg → Ldg) : (s.onLdg f).rings = s.rings := rfl
@[simp] theorem State.onLdg_jobs (f : Ldg → Ldg) : (s.onLdg f).jobs = s.jobs := rfl
@[simp] theorem State.onLdg_jobCount (f : Ldg → Ldg) : (s.onLdg f).jobCount = s.jobCount := rfl
@[simp] theorem State.onLdg_acc (f : Ldg → Ldg) : (s.onLdg f).acc = s.acc := rfl
@[simp] theorem State.onLdg_col (f : Ldg → Ldg) : (s.onLdg f).col = s.col := rfl
@[simp] theorem State.onLdg_fol (f : Ldg → Ldg) : (s.onLdg f).fol = s.fol := rfl
@[simp] theorem State.onLdg_sch (f : Ldg → Ldg) : (s.onLdg f).sch = s.sch := rfl
@[simp] theorem State.onLdg_kv (f : Ldg → Ldg) : (s.onLdg f).kv = s.kv := rfl
@[simp] theorem State.onLdg_ldg (f : Ldg → Ldg) : (s.onLdg f).ldg = f s.ldg := rfl
@[simp] theorem State.onLdg_err (f : Ldg → Ldg) : (s.onLdg f).err = s.err := rfl
@[simp] theorem State.onLdg_sec (f : Ldg → Ldg) : (s.onLdg f).sec = s.sec := rfl
@[simp] theorem State.onLdg_dram (f : Ldg → Ldg) : (s.onLdg f).dram = s.dram := rfl
@[simp] theorem State.onLdg_flash (f : Ldg → Ldg) : (s.onLdg f).flash = s.flash := rfl

/-! ### onErr -/

@[simp] theorem State.onErr_pending (f : Errs → Errs) : (s.onErr f).pending = s.pending := rfl
@[simp] theorem State.onErr_regs (f : Errs → Errs) : (s.onErr f).regs = s.regs := rfl
@[simp] theorem State.onErr_fresh (f : Errs → Errs) : (s.onErr f).fresh = s.fresh := rfl
@[simp] theorem State.onErr_out (f : Errs → Errs) : (s.onErr f).out = s.out := rfl
@[simp] theorem State.onErr_aoTime (f : Errs → Errs) : (s.onErr f).aoTime = s.aoTime := rfl
@[simp] theorem State.onErr_arithNow (f : Errs → Errs) : (s.onErr f).arithNow = s.arithNow := rfl
@[simp] theorem State.onErr_dev (f : Errs → Errs) : (s.onErr f).dev = s.dev := rfl
@[simp] theorem State.onErr_rst (f : Errs → Errs) : (s.onErr f).rst = s.rst := rfl
@[simp] theorem State.onErr_link (f : Errs → Errs) : (s.onErr f).link = s.link := rfl
@[simp] theorem State.onErr_mgt (f : Errs → Errs) : (s.onErr f).mgt = s.mgt := rfl
@[simp] theorem State.onErr_rings (f : Errs → Errs) : (s.onErr f).rings = s.rings := rfl
@[simp] theorem State.onErr_jobs (f : Errs → Errs) : (s.onErr f).jobs = s.jobs := rfl
@[simp] theorem State.onErr_jobCount (f : Errs → Errs) : (s.onErr f).jobCount = s.jobCount := rfl
@[simp] theorem State.onErr_acc (f : Errs → Errs) : (s.onErr f).acc = s.acc := rfl
@[simp] theorem State.onErr_col (f : Errs → Errs) : (s.onErr f).col = s.col := rfl
@[simp] theorem State.onErr_fol (f : Errs → Errs) : (s.onErr f).fol = s.fol := rfl
@[simp] theorem State.onErr_sch (f : Errs → Errs) : (s.onErr f).sch = s.sch := rfl
@[simp] theorem State.onErr_kv (f : Errs → Errs) : (s.onErr f).kv = s.kv := rfl
@[simp] theorem State.onErr_ldg (f : Errs → Errs) : (s.onErr f).ldg = s.ldg := rfl
@[simp] theorem State.onErr_err (f : Errs → Errs) : (s.onErr f).err = f s.err := rfl
@[simp] theorem State.onErr_sec (f : Errs → Errs) : (s.onErr f).sec = s.sec := rfl
@[simp] theorem State.onErr_dram (f : Errs → Errs) : (s.onErr f).dram = s.dram := rfl
@[simp] theorem State.onErr_flash (f : Errs → Errs) : (s.onErr f).flash = s.flash := rfl

/-! ### onSec -/

@[simp] theorem State.onSec_pending (f : Sec → Sec) : (s.onSec f).pending = s.pending := rfl
@[simp] theorem State.onSec_regs (f : Sec → Sec) : (s.onSec f).regs = s.regs := rfl
@[simp] theorem State.onSec_fresh (f : Sec → Sec) : (s.onSec f).fresh = s.fresh := rfl
@[simp] theorem State.onSec_out (f : Sec → Sec) : (s.onSec f).out = s.out := rfl
@[simp] theorem State.onSec_aoTime (f : Sec → Sec) : (s.onSec f).aoTime = s.aoTime := rfl
@[simp] theorem State.onSec_arithNow (f : Sec → Sec) : (s.onSec f).arithNow = s.arithNow := rfl
@[simp] theorem State.onSec_dev (f : Sec → Sec) : (s.onSec f).dev = s.dev := rfl
@[simp] theorem State.onSec_rst (f : Sec → Sec) : (s.onSec f).rst = s.rst := rfl
@[simp] theorem State.onSec_link (f : Sec → Sec) : (s.onSec f).link = s.link := rfl
@[simp] theorem State.onSec_mgt (f : Sec → Sec) : (s.onSec f).mgt = s.mgt := rfl
@[simp] theorem State.onSec_rings (f : Sec → Sec) : (s.onSec f).rings = s.rings := rfl
@[simp] theorem State.onSec_jobs (f : Sec → Sec) : (s.onSec f).jobs = s.jobs := rfl
@[simp] theorem State.onSec_jobCount (f : Sec → Sec) : (s.onSec f).jobCount = s.jobCount := rfl
@[simp] theorem State.onSec_acc (f : Sec → Sec) : (s.onSec f).acc = s.acc := rfl
@[simp] theorem State.onSec_col (f : Sec → Sec) : (s.onSec f).col = s.col := rfl
@[simp] theorem State.onSec_fol (f : Sec → Sec) : (s.onSec f).fol = s.fol := rfl
@[simp] theorem State.onSec_sch (f : Sec → Sec) : (s.onSec f).sch = s.sch := rfl
@[simp] theorem State.onSec_kv (f : Sec → Sec) : (s.onSec f).kv = s.kv := rfl
@[simp] theorem State.onSec_ldg (f : Sec → Sec) : (s.onSec f).ldg = s.ldg := rfl
@[simp] theorem State.onSec_err (f : Sec → Sec) : (s.onSec f).err = s.err := rfl
@[simp] theorem State.onSec_sec (f : Sec → Sec) : (s.onSec f).sec = f s.sec := rfl
@[simp] theorem State.onSec_dram (f : Sec → Sec) : (s.onSec f).dram = s.dram := rfl
@[simp] theorem State.onSec_flash (f : Sec → Sec) : (s.onSec f).flash = s.flash := rfl

/-! ### setReg -/

@[simp] theorem State.setReg_pending (off : Nat) (v : Word) : (s.setReg off v).pending = s.pending := rfl
@[simp] theorem State.setReg_regs (off : Nat) (v : Word) : (s.setReg off v).regs = putCell regReset off v s.regs := rfl
@[simp] theorem State.setReg_fresh (off : Nat) (v : Word) : (s.setReg off v).fresh = s.fresh := rfl
@[simp] theorem State.setReg_out (off : Nat) (v : Word) : (s.setReg off v).out = s.out := rfl
@[simp] theorem State.setReg_aoTime (off : Nat) (v : Word) : (s.setReg off v).aoTime = s.aoTime := rfl
@[simp] theorem State.setReg_arithNow (off : Nat) (v : Word) : (s.setReg off v).arithNow = s.arithNow := rfl
@[simp] theorem State.setReg_dev (off : Nat) (v : Word) : (s.setReg off v).dev = s.dev := rfl
@[simp] theorem State.setReg_rst (off : Nat) (v : Word) : (s.setReg off v).rst = s.rst := rfl
@[simp] theorem State.setReg_link (off : Nat) (v : Word) : (s.setReg off v).link = s.link := rfl
@[simp] theorem State.setReg_mgt (off : Nat) (v : Word) : (s.setReg off v).mgt = s.mgt := rfl
@[simp] theorem State.setReg_rings (off : Nat) (v : Word) : (s.setReg off v).rings = s.rings := rfl
@[simp] theorem State.setReg_jobs (off : Nat) (v : Word) : (s.setReg off v).jobs = s.jobs := rfl
@[simp] theorem State.setReg_jobCount (off : Nat) (v : Word) : (s.setReg off v).jobCount = s.jobCount := rfl
@[simp] theorem State.setReg_acc (off : Nat) (v : Word) : (s.setReg off v).acc = s.acc := rfl
@[simp] theorem State.setReg_col (off : Nat) (v : Word) : (s.setReg off v).col = s.col := rfl
@[simp] theorem State.setReg_fol (off : Nat) (v : Word) : (s.setReg off v).fol = s.fol := rfl
@[simp] theorem State.setReg_sch (off : Nat) (v : Word) : (s.setReg off v).sch = s.sch := rfl
@[simp] theorem State.setReg_kv (off : Nat) (v : Word) : (s.setReg off v).kv = s.kv := rfl
@[simp] theorem State.setReg_ldg (off : Nat) (v : Word) : (s.setReg off v).ldg = s.ldg := rfl
@[simp] theorem State.setReg_err (off : Nat) (v : Word) : (s.setReg off v).err = s.err := rfl
@[simp] theorem State.setReg_sec (off : Nat) (v : Word) : (s.setReg off v).sec = s.sec := rfl
@[simp] theorem State.setReg_dram (off : Nat) (v : Word) : (s.setReg off v).dram = s.dram := rfl
@[simp] theorem State.setReg_flash (off : Nat) (v : Word) : (s.setReg off v).flash = s.flash := rfl

/-! ### emit -/

@[simp] theorem State.emit_pending (o : Out) : (s.emit o).pending = s.pending := rfl
@[simp] theorem State.emit_regs (o : Out) : (s.emit o).regs = s.regs := rfl
@[simp] theorem State.emit_fresh (o : Out) : (s.emit o).fresh = s.fresh := rfl
@[simp] theorem State.emit_out (o : Out) : (s.emit o).out = s.out ++ [o] := rfl
@[simp] theorem State.emit_aoTime (o : Out) : (s.emit o).aoTime = s.aoTime := rfl
@[simp] theorem State.emit_arithNow (o : Out) : (s.emit o).arithNow = s.arithNow := rfl
@[simp] theorem State.emit_dev (o : Out) : (s.emit o).dev = s.dev := rfl
@[simp] theorem State.emit_rst (o : Out) : (s.emit o).rst = s.rst := rfl
@[simp] theorem State.emit_link (o : Out) : (s.emit o).link = s.link := rfl
@[simp] theorem State.emit_mgt (o : Out) : (s.emit o).mgt = s.mgt := rfl
@[simp] theorem State.emit_rings (o : Out) : (s.emit o).rings = s.rings := rfl
@[simp] theorem State.emit_jobs (o : Out) : (s.emit o).jobs = s.jobs := rfl
@[simp] theorem State.emit_jobCount (o : Out) : (s.emit o).jobCount = s.jobCount := rfl
@[simp] theorem State.emit_acc (o : Out) : (s.emit o).acc = s.acc := rfl
@[simp] theorem State.emit_col (o : Out) : (s.emit o).col = s.col := rfl
@[simp] theorem State.emit_fol (o : Out) : (s.emit o).fol = s.fol := rfl
@[simp] theorem State.emit_sch (o : Out) : (s.emit o).sch = s.sch := rfl
@[simp] theorem State.emit_kv (o : Out) : (s.emit o).kv = s.kv := rfl
@[simp] theorem State.emit_ldg (o : Out) : (s.emit o).ldg = s.ldg := rfl
@[simp] theorem State.emit_err (o : Out) : (s.emit o).err = s.err := rfl
@[simp] theorem State.emit_sec (o : Out) : (s.emit o).sec = s.sec := rfl
@[simp] theorem State.emit_dram (o : Out) : (s.emit o).dram = s.dram := rfl
@[simp] theorem State.emit_flash (o : Out) : (s.emit o).flash = s.flash := rfl

/-! ### dramWrite -/

@[simp] theorem State.dramWrite_pending (a : Nat) (bs : Bytes) : (s.dramWrite a bs).pending = s.pending := rfl
@[simp] theorem State.dramWrite_regs (a : Nat) (bs : Bytes) : (s.dramWrite a bs).regs = s.regs := rfl
@[simp] theorem State.dramWrite_fresh (a : Nat) (bs : Bytes) : (s.dramWrite a bs).fresh = s.fresh := rfl
@[simp] theorem State.dramWrite_out (a : Nat) (bs : Bytes) : (s.dramWrite a bs).out = s.out := rfl
@[simp] theorem State.dramWrite_aoTime (a : Nat) (bs : Bytes) : (s.dramWrite a bs).aoTime = s.aoTime := rfl
@[simp] theorem State.dramWrite_arithNow (a : Nat) (bs : Bytes) : (s.dramWrite a bs).arithNow = s.arithNow := rfl
@[simp] theorem State.dramWrite_dev (a : Nat) (bs : Bytes) : (s.dramWrite a bs).dev = s.dev := rfl
@[simp] theorem State.dramWrite_rst (a : Nat) (bs : Bytes) : (s.dramWrite a bs).rst = s.rst := rfl
@[simp] theorem State.dramWrite_link (a : Nat) (bs : Bytes) : (s.dramWrite a bs).link = s.link := rfl
@[simp] theorem State.dramWrite_mgt (a : Nat) (bs : Bytes) : (s.dramWrite a bs).mgt = s.mgt := rfl
@[simp] theorem State.dramWrite_rings (a : Nat) (bs : Bytes) : (s.dramWrite a bs).rings = s.rings := rfl
@[simp] theorem State.dramWrite_jobs (a : Nat) (bs : Bytes) : (s.dramWrite a bs).jobs = s.jobs := rfl
@[simp] theorem State.dramWrite_jobCount (a : Nat) (bs : Bytes) : (s.dramWrite a bs).jobCount = s.jobCount := rfl
@[simp] theorem State.dramWrite_acc (a : Nat) (bs : Bytes) : (s.dramWrite a bs).acc = s.acc := rfl
@[simp] theorem State.dramWrite_col (a : Nat) (bs : Bytes) : (s.dramWrite a bs).col = s.col := rfl
@[simp] theorem State.dramWrite_fol (a : Nat) (bs : Bytes) : (s.dramWrite a bs).fol = s.fol := rfl
@[simp] theorem State.dramWrite_sch (a : Nat) (bs : Bytes) : (s.dramWrite a bs).sch = s.sch := rfl
@[simp] theorem State.dramWrite_kv (a : Nat) (bs : Bytes) : (s.dramWrite a bs).kv = s.kv := rfl
@[simp] theorem State.dramWrite_ldg (a : Nat) (bs : Bytes) : (s.dramWrite a bs).ldg = s.ldg := rfl
@[simp] theorem State.dramWrite_err (a : Nat) (bs : Bytes) : (s.dramWrite a bs).err = s.err := rfl
@[simp] theorem State.dramWrite_sec (a : Nat) (bs : Bytes) : (s.dramWrite a bs).sec = s.sec := rfl
@[simp] theorem State.dramWrite_dram (a : Nat) (bs : Bytes) : (s.dramWrite a bs).dram = s.dram.write a bs := rfl
@[simp] theorem State.dramWrite_flash (a : Nat) (bs : Bytes) : (s.dramWrite a bs).flash = s.flash := rfl

/-! ### setRegF: only registers change -/

@[simp] theorem State.setRegF_pending (off lo n v : Nat) : (s.setRegF off lo n v).pending = s.pending := rfl
@[simp] theorem State.setRegF_fresh (off lo n v : Nat) : (s.setRegF off lo n v).fresh = s.fresh := rfl
@[simp] theorem State.setRegF_out (off lo n v : Nat) : (s.setRegF off lo n v).out = s.out := rfl
@[simp] theorem State.setRegF_aoTime (off lo n v : Nat) : (s.setRegF off lo n v).aoTime = s.aoTime := rfl
@[simp] theorem State.setRegF_arithNow (off lo n v : Nat) : (s.setRegF off lo n v).arithNow = s.arithNow := rfl
@[simp] theorem State.setRegF_dev (off lo n v : Nat) : (s.setRegF off lo n v).dev = s.dev := rfl
@[simp] theorem State.setRegF_rst (off lo n v : Nat) : (s.setRegF off lo n v).rst = s.rst := rfl
@[simp] theorem State.setRegF_link (off lo n v : Nat) : (s.setRegF off lo n v).link = s.link := rfl
@[simp] theorem State.setRegF_mgt (off lo n v : Nat) : (s.setRegF off lo n v).mgt = s.mgt := rfl
@[simp] theorem State.setRegF_rings (off lo n v : Nat) : (s.setRegF off lo n v).rings = s.rings := rfl
@[simp] theorem State.setRegF_jobs (off lo n v : Nat) : (s.setRegF off lo n v).jobs = s.jobs := rfl
@[simp] theorem State.setRegF_jobCount (off lo n v : Nat) : (s.setRegF off lo n v).jobCount = s.jobCount := rfl
@[simp] theorem State.setRegF_acc (off lo n v : Nat) : (s.setRegF off lo n v).acc = s.acc := rfl
@[simp] theorem State.setRegF_col (off lo n v : Nat) : (s.setRegF off lo n v).col = s.col := rfl
@[simp] theorem State.setRegF_fol (off lo n v : Nat) : (s.setRegF off lo n v).fol = s.fol := rfl
@[simp] theorem State.setRegF_sch (off lo n v : Nat) : (s.setRegF off lo n v).sch = s.sch := rfl
@[simp] theorem State.setRegF_kv (off lo n v : Nat) : (s.setRegF off lo n v).kv = s.kv := rfl
@[simp] theorem State.setRegF_ldg (off lo n v : Nat) : (s.setRegF off lo n v).ldg = s.ldg := rfl
@[simp] theorem State.setRegF_err (off lo n v : Nat) : (s.setRegF off lo n v).err = s.err := rfl
@[simp] theorem State.setRegF_sec (off lo n v : Nat) : (s.setRegF off lo n v).sec = s.sec := rfl
@[simp] theorem State.setRegF_dram (off lo n v : Nat) : (s.setRegF off lo n v).dram = s.dram := rfl
@[simp] theorem State.setRegF_flash (off lo n v : Nat) : (s.setRegF off lo n v).flash = s.flash := rfl

/-! ### flag: only registers change -/

@[simp] theorem State.flag_pending (off i : Nat) : (s.flag off i).pending = s.pending := rfl
@[simp] theorem State.flag_fresh (off i : Nat) : (s.flag off i).fresh = s.fresh := rfl
@[simp] theorem State.flag_out (off i : Nat) : (s.flag off i).out = s.out := rfl
@[simp] theorem State.flag_aoTime (off i : Nat) : (s.flag off i).aoTime = s.aoTime := rfl
@[simp] theorem State.flag_arithNow (off i : Nat) : (s.flag off i).arithNow = s.arithNow := rfl
@[simp] theorem State.flag_dev (off i : Nat) : (s.flag off i).dev = s.dev := rfl
@[simp] theorem State.flag_rst (off i : Nat) : (s.flag off i).rst = s.rst := rfl
@[simp] theorem State.flag_link (off i : Nat) : (s.flag off i).link = s.link := rfl
@[simp] theorem State.flag_mgt (off i : Nat) : (s.flag off i).mgt = s.mgt := rfl
@[simp] theorem State.flag_rings (off i : Nat) : (s.flag off i).rings = s.rings := rfl
@[simp] theorem State.flag_jobs (off i : Nat) : (s.flag off i).jobs = s.jobs := rfl
@[simp] theorem State.flag_jobCount (off i : Nat) : (s.flag off i).jobCount = s.jobCount := rfl
@[simp] theorem State.flag_acc (off i : Nat) : (s.flag off i).acc = s.acc := rfl
@[simp] theorem State.flag_col (off i : Nat) : (s.flag off i).col = s.col := rfl
@[simp] theorem State.flag_fol (off i : Nat) : (s.flag off i).fol = s.fol := rfl
@[simp] theorem State.flag_sch (off i : Nat) : (s.flag off i).sch = s.sch := rfl
@[simp] theorem State.flag_kv (off i : Nat) : (s.flag off i).kv = s.kv := rfl
@[simp] theorem State.flag_ldg (off i : Nat) : (s.flag off i).ldg = s.ldg := rfl
@[simp] theorem State.flag_err (off i : Nat) : (s.flag off i).err = s.err := rfl
@[simp] theorem State.flag_sec (off i : Nat) : (s.flag off i).sec = s.sec := rfl
@[simp] theorem State.flag_dram (off i : Nat) : (s.flag off i).dram = s.dram := rfl
@[simp] theorem State.flag_flash (off i : Nat) : (s.flag off i).flash = s.flash := rfl

/-! ### bump: only registers change -/

@[simp] theorem State.bump_pending (off lo n k : Nat) : (s.bump off lo n k).pending = s.pending := rfl
@[simp] theorem State.bump_fresh (off lo n k : Nat) : (s.bump off lo n k).fresh = s.fresh := rfl
@[simp] theorem State.bump_out (off lo n k : Nat) : (s.bump off lo n k).out = s.out := rfl
@[simp] theorem State.bump_aoTime (off lo n k : Nat) : (s.bump off lo n k).aoTime = s.aoTime := rfl
@[simp] theorem State.bump_arithNow (off lo n k : Nat) : (s.bump off lo n k).arithNow = s.arithNow := rfl
@[simp] theorem State.bump_dev (off lo n k : Nat) : (s.bump off lo n k).dev = s.dev := rfl
@[simp] theorem State.bump_rst (off lo n k : Nat) : (s.bump off lo n k).rst = s.rst := rfl
@[simp] theorem State.bump_link (off lo n k : Nat) : (s.bump off lo n k).link = s.link := rfl
@[simp] theorem State.bump_mgt (off lo n k : Nat) : (s.bump off lo n k).mgt = s.mgt := rfl
@[simp] theorem State.bump_rings (off lo n k : Nat) : (s.bump off lo n k).rings = s.rings := rfl
@[simp] theorem State.bump_jobs (off lo n k : Nat) : (s.bump off lo n k).jobs = s.jobs := rfl
@[simp] theorem State.bump_jobCount (off lo n k : Nat) : (s.bump off lo n k).jobCount = s.jobCount := rfl
@[simp] theorem State.bump_acc (off lo n k : Nat) : (s.bump off lo n k).acc = s.acc := rfl
@[simp] theorem State.bump_col (off lo n k : Nat) : (s.bump off lo n k).col = s.col := rfl
@[simp] theorem State.bump_fol (off lo n k : Nat) : (s.bump off lo n k).fol = s.fol := rfl
@[simp] theorem State.bump_sch (off lo n k : Nat) : (s.bump off lo n k).sch = s.sch := rfl
@[simp] theorem State.bump_kv (off lo n k : Nat) : (s.bump off lo n k).kv = s.kv := rfl
@[simp] theorem State.bump_ldg (off lo n k : Nat) : (s.bump off lo n k).ldg = s.ldg := rfl
@[simp] theorem State.bump_err (off lo n k : Nat) : (s.bump off lo n k).err = s.err := rfl
@[simp] theorem State.bump_sec (off lo n k : Nat) : (s.bump off lo n k).sec = s.sec := rfl
@[simp] theorem State.bump_dram (off lo n k : Nat) : (s.bump off lo n k).dram = s.dram := rfl
@[simp] theorem State.bump_flash (off lo n k : Nat) : (s.bump off lo n k).flash = s.flash := rfl

/-! ### bumpSat: only registers change -/

@[simp] theorem State.bumpSat_pending (off lo n k : Nat) : (s.bumpSat off lo n k).pending = s.pending := rfl
@[simp] theorem State.bumpSat_fresh (off lo n k : Nat) : (s.bumpSat off lo n k).fresh = s.fresh := rfl
@[simp] theorem State.bumpSat_out (off lo n k : Nat) : (s.bumpSat off lo n k).out = s.out := rfl
@[simp] theorem State.bumpSat_aoTime (off lo n k : Nat) : (s.bumpSat off lo n k).aoTime = s.aoTime := rfl
@[simp] theorem State.bumpSat_arithNow (off lo n k : Nat) : (s.bumpSat off lo n k).arithNow = s.arithNow := rfl
@[simp] theorem State.bumpSat_dev (off lo n k : Nat) : (s.bumpSat off lo n k).dev = s.dev := rfl
@[simp] theorem State.bumpSat_rst (off lo n k : Nat) : (s.bumpSat off lo n k).rst = s.rst := rfl
@[simp] theorem State.bumpSat_link (off lo n k : Nat) : (s.bumpSat off lo n k).link = s.link := rfl
@[simp] theorem State.bumpSat_mgt (off lo n k : Nat) : (s.bumpSat off lo n k).mgt = s.mgt := rfl
@[simp] theorem State.bumpSat_rings (off lo n k : Nat) : (s.bumpSat off lo n k).rings = s.rings := rfl
@[simp] theorem State.bumpSat_jobs (off lo n k : Nat) : (s.bumpSat off lo n k).jobs = s.jobs := rfl
@[simp] theorem State.bumpSat_jobCount (off lo n k : Nat) : (s.bumpSat off lo n k).jobCount = s.jobCount := rfl
@[simp] theorem State.bumpSat_acc (off lo n k : Nat) : (s.bumpSat off lo n k).acc = s.acc := rfl
@[simp] theorem State.bumpSat_col (off lo n k : Nat) : (s.bumpSat off lo n k).col = s.col := rfl
@[simp] theorem State.bumpSat_fol (off lo n k : Nat) : (s.bumpSat off lo n k).fol = s.fol := rfl
@[simp] theorem State.bumpSat_sch (off lo n k : Nat) : (s.bumpSat off lo n k).sch = s.sch := rfl
@[simp] theorem State.bumpSat_kv (off lo n k : Nat) : (s.bumpSat off lo n k).kv = s.kv := rfl
@[simp] theorem State.bumpSat_ldg (off lo n k : Nat) : (s.bumpSat off lo n k).ldg = s.ldg := rfl
@[simp] theorem State.bumpSat_err (off lo n k : Nat) : (s.bumpSat off lo n k).err = s.err := rfl
@[simp] theorem State.bumpSat_sec (off lo n k : Nat) : (s.bumpSat off lo n k).sec = s.sec := rfl
@[simp] theorem State.bumpSat_dram (off lo n k : Nat) : (s.bumpSat off lo n k).dram = s.dram := rfl
@[simp] theorem State.bumpSat_flash (off lo n k : Nat) : (s.bumpSat off lo n k).flash = s.flash := rfl

/-! ### access: only registers change -/

@[simp] theorem State.access_pending (b off : Nat) : (s.access b off).pending = s.pending := rfl
@[simp] theorem State.access_fresh (b off : Nat) : (s.access b off).fresh = s.fresh := rfl
@[simp] theorem State.access_out (b off : Nat) : (s.access b off).out = s.out := rfl
@[simp] theorem State.access_aoTime (b off : Nat) : (s.access b off).aoTime = s.aoTime := rfl
@[simp] theorem State.access_arithNow (b off : Nat) : (s.access b off).arithNow = s.arithNow := rfl
@[simp] theorem State.access_dev (b off : Nat) : (s.access b off).dev = s.dev := rfl
@[simp] theorem State.access_rst (b off : Nat) : (s.access b off).rst = s.rst := rfl
@[simp] theorem State.access_link (b off : Nat) : (s.access b off).link = s.link := rfl
@[simp] theorem State.access_mgt (b off : Nat) : (s.access b off).mgt = s.mgt := rfl
@[simp] theorem State.access_rings (b off : Nat) : (s.access b off).rings = s.rings := rfl
@[simp] theorem State.access_jobs (b off : Nat) : (s.access b off).jobs = s.jobs := rfl
@[simp] theorem State.access_jobCount (b off : Nat) : (s.access b off).jobCount = s.jobCount := rfl
@[simp] theorem State.access_acc (b off : Nat) : (s.access b off).acc = s.acc := rfl
@[simp] theorem State.access_col (b off : Nat) : (s.access b off).col = s.col := rfl
@[simp] theorem State.access_fol (b off : Nat) : (s.access b off).fol = s.fol := rfl
@[simp] theorem State.access_sch (b off : Nat) : (s.access b off).sch = s.sch := rfl
@[simp] theorem State.access_kv (b off : Nat) : (s.access b off).kv = s.kv := rfl
@[simp] theorem State.access_ldg (b off : Nat) : (s.access b off).ldg = s.ldg := rfl
@[simp] theorem State.access_err (b off : Nat) : (s.access b off).err = s.err := rfl
@[simp] theorem State.access_sec (b off : Nat) : (s.access b off).sec = s.sec := rfl
@[simp] theorem State.access_dram (b off : Nat) : (s.access b off).dram = s.dram := rfl
@[simp] theorem State.access_flash (b off : Nat) : (s.access b off).flash = s.flash := rfl

/-! ### mgtInt: only registers change -/

@[simp] theorem State.mgtInt_pending (k : Nat) : (s.mgtInt k).pending = s.pending := rfl
@[simp] theorem State.mgtInt_fresh (k : Nat) : (s.mgtInt k).fresh = s.fresh := rfl
@[simp] theorem State.mgtInt_out (k : Nat) : (s.mgtInt k).out = s.out := rfl
@[simp] theorem State.mgtInt_aoTime (k : Nat) : (s.mgtInt k).aoTime = s.aoTime := rfl
@[simp] theorem State.mgtInt_arithNow (k : Nat) : (s.mgtInt k).arithNow = s.arithNow := rfl
@[simp] theorem State.mgtInt_dev (k : Nat) : (s.mgtInt k).dev = s.dev := rfl
@[simp] theorem State.mgtInt_rst (k : Nat) : (s.mgtInt k).rst = s.rst := rfl
@[simp] theorem State.mgtInt_link (k : Nat) : (s.mgtInt k).link = s.link := rfl
@[simp] theorem State.mgtInt_mgt (k : Nat) : (s.mgtInt k).mgt = s.mgt := rfl
@[simp] theorem State.mgtInt_rings (k : Nat) : (s.mgtInt k).rings = s.rings := rfl
@[simp] theorem State.mgtInt_jobs (k : Nat) : (s.mgtInt k).jobs = s.jobs := rfl
@[simp] theorem State.mgtInt_jobCount (k : Nat) : (s.mgtInt k).jobCount = s.jobCount := rfl
@[simp] theorem State.mgtInt_acc (k : Nat) : (s.mgtInt k).acc = s.acc := rfl
@[simp] theorem State.mgtInt_col (k : Nat) : (s.mgtInt k).col = s.col := rfl
@[simp] theorem State.mgtInt_fol (k : Nat) : (s.mgtInt k).fol = s.fol := rfl
@[simp] theorem State.mgtInt_sch (k : Nat) : (s.mgtInt k).sch = s.sch := rfl
@[simp] theorem State.mgtInt_kv (k : Nat) : (s.mgtInt k).kv = s.kv := rfl
@[simp] theorem State.mgtInt_ldg (k : Nat) : (s.mgtInt k).ldg = s.ldg := rfl
@[simp] theorem State.mgtInt_err (k : Nat) : (s.mgtInt k).err = s.err := rfl
@[simp] theorem State.mgtInt_sec (k : Nat) : (s.mgtInt k).sec = s.sec := rfl
@[simp] theorem State.mgtInt_dram (k : Nat) : (s.mgtInt k).dram = s.dram := rfl
@[simp] theorem State.mgtInt_flash (k : Nat) : (s.mgtInt k).flash = s.flash := rfl

/-! ### sysEvent: only registers change -/

@[simp] theorem State.sysEvent_pending (b : Nat) : (s.sysEvent b).pending = s.pending := rfl
@[simp] theorem State.sysEvent_fresh (b : Nat) : (s.sysEvent b).fresh = s.fresh := rfl
@[simp] theorem State.sysEvent_out (b : Nat) : (s.sysEvent b).out = s.out := rfl
@[simp] theorem State.sysEvent_aoTime (b : Nat) : (s.sysEvent b).aoTime = s.aoTime := rfl
@[simp] theorem State.sysEvent_arithNow (b : Nat) : (s.sysEvent b).arithNow = s.arithNow := rfl
@[simp] theorem State.sysEvent_dev (b : Nat) : (s.sysEvent b).dev = s.dev := rfl
@[simp] theorem State.sysEvent_rst (b : Nat) : (s.sysEvent b).rst = s.rst := rfl
@[simp] theorem State.sysEvent_link (b : Nat) : (s.sysEvent b).link = s.link := rfl
@[simp] theorem State.sysEvent_mgt (b : Nat) : (s.sysEvent b).mgt = s.mgt := rfl
@[simp] theorem State.sysEvent_rings (b : Nat) : (s.sysEvent b).rings = s.rings := rfl
@[simp] theorem State.sysEvent_jobs (b : Nat) : (s.sysEvent b).jobs = s.jobs := rfl
@[simp] theorem State.sysEvent_jobCount (b : Nat) : (s.sysEvent b).jobCount = s.jobCount := rfl
@[simp] theorem State.sysEvent_acc (b : Nat) : (s.sysEvent b).acc = s.acc := rfl
@[simp] theorem State.sysEvent_col (b : Nat) : (s.sysEvent b).col = s.col := rfl
@[simp] theorem State.sysEvent_fol (b : Nat) : (s.sysEvent b).fol = s.fol := rfl
@[simp] theorem State.sysEvent_sch (b : Nat) : (s.sysEvent b).sch = s.sch := rfl
@[simp] theorem State.sysEvent_kv (b : Nat) : (s.sysEvent b).kv = s.kv := rfl
@[simp] theorem State.sysEvent_ldg (b : Nat) : (s.sysEvent b).ldg = s.ldg := rfl
@[simp] theorem State.sysEvent_err (b : Nat) : (s.sysEvent b).err = s.err := rfl
@[simp] theorem State.sysEvent_sec (b : Nat) : (s.sysEvent b).sec = s.sec := rfl
@[simp] theorem State.sysEvent_dram (b : Nat) : (s.sysEvent b).dram = s.dram := rfl
@[simp] theorem State.sysEvent_flash (b : Nat) : (s.sysEvent b).flash = s.flash := rfl

/-! ### writeWord: only registers change -/

@[simp] theorem State.writeWord_pending (off : Nat) (v : Word) : (s.writeWord off v).pending = s.pending := by
  simp only [State.writeWord]
  split <;> [rfl; (split <;> rfl)]
@[simp] theorem State.writeWord_fresh (off : Nat) (v : Word) : (s.writeWord off v).fresh = s.fresh := by
  simp only [State.writeWord]
  split <;> [rfl; (split <;> rfl)]
@[simp] theorem State.writeWord_out (off : Nat) (v : Word) : (s.writeWord off v).out = s.out := by
  simp only [State.writeWord]
  split <;> [rfl; (split <;> rfl)]
@[simp] theorem State.writeWord_aoTime (off : Nat) (v : Word) : (s.writeWord off v).aoTime = s.aoTime := by
  simp only [State.writeWord]
  split <;> [rfl; (split <;> rfl)]
@[simp] theorem State.writeWord_arithNow (off : Nat) (v : Word) : (s.writeWord off v).arithNow = s.arithNow := by
  simp only [State.writeWord]
  split <;> [rfl; (split <;> rfl)]
@[simp] theorem State.writeWord_dev (off : Nat) (v : Word) : (s.writeWord off v).dev = s.dev := by
  simp only [State.writeWord]
  split <;> [rfl; (split <;> rfl)]
@[simp] theorem State.writeWord_rst (off : Nat) (v : Word) : (s.writeWord off v).rst = s.rst := by
  simp only [State.writeWord]
  split <;> [rfl; (split <;> rfl)]
@[simp] theorem State.writeWord_link (off : Nat) (v : Word) : (s.writeWord off v).link = s.link := by
  simp only [State.writeWord]
  split <;> [rfl; (split <;> rfl)]
@[simp] theorem State.writeWord_mgt (off : Nat) (v : Word) : (s.writeWord off v).mgt = s.mgt := by
  simp only [State.writeWord]
  split <;> [rfl; (split <;> rfl)]
@[simp] theorem State.writeWord_rings (off : Nat) (v : Word) : (s.writeWord off v).rings = s.rings := by
  simp only [State.writeWord]
  split <;> [rfl; (split <;> rfl)]
@[simp] theorem State.writeWord_jobs (off : Nat) (v : Word) : (s.writeWord off v).jobs = s.jobs := by
  simp only [State.writeWord]
  split <;> [rfl; (split <;> rfl)]
@[simp] theorem State.writeWord_jobCount (off : Nat) (v : Word) : (s.writeWord off v).jobCount = s.jobCount := by
  simp only [State.writeWord]
  split <;> [rfl; (split <;> rfl)]
@[simp] theorem State.writeWord_acc (off : Nat) (v : Word) : (s.writeWord off v).acc = s.acc := by
  simp only [State.writeWord]
  split <;> [rfl; (split <;> rfl)]
@[simp] theorem State.writeWord_col (off : Nat) (v : Word) : (s.writeWord off v).col = s.col := by
  simp only [State.writeWord]
  split <;> [rfl; (split <;> rfl)]
@[simp] theorem State.writeWord_fol (off : Nat) (v : Word) : (s.writeWord off v).fol = s.fol := by
  simp only [State.writeWord]
  split <;> [rfl; (split <;> rfl)]
@[simp] theorem State.writeWord_sch (off : Nat) (v : Word) : (s.writeWord off v).sch = s.sch := by
  simp only [State.writeWord]
  split <;> [rfl; (split <;> rfl)]
@[simp] theorem State.writeWord_kv (off : Nat) (v : Word) : (s.writeWord off v).kv = s.kv := by
  simp only [State.writeWord]
  split <;> [rfl; (split <;> rfl)]
@[simp] theorem State.writeWord_ldg (off : Nat) (v : Word) : (s.writeWord off v).ldg = s.ldg := by
  simp only [State.writeWord]
  split <;> [rfl; (split <;> rfl)]
@[simp] theorem State.writeWord_err (off : Nat) (v : Word) : (s.writeWord off v).err = s.err := by
  simp only [State.writeWord]
  split <;> [rfl; (split <;> rfl)]
@[simp] theorem State.writeWord_sec (off : Nat) (v : Word) : (s.writeWord off v).sec = s.sec := by
  simp only [State.writeWord]
  split <;> [rfl; (split <;> rfl)]
@[simp] theorem State.writeWord_dram (off : Nat) (v : Word) : (s.writeWord off v).dram = s.dram := by
  simp only [State.writeWord]
  split <;> [rfl; (split <;> rfl)]
@[simp] theorem State.writeWord_flash (off : Nat) (v : Word) : (s.writeWord off v).flash = s.flash := by
  simp only [State.writeWord]
  split <;> [rfl; (split <;> rfl)]

/-! ### msix: only the output and the pending-bit array change -/

@[simp] theorem State.msix_pending (v : Nat) : (s.msix v).pending = s.pending := by
  simp only [State.msix]
  split <;> [rfl; (split <;> rfl)]
@[simp] theorem State.msix_regs (v : Nat) : (s.msix v).regs = s.regs := by
  simp only [State.msix]
  split <;> [rfl; (split <;> rfl)]
@[simp] theorem State.msix_fresh (v : Nat) : (s.msix v).fresh = s.fresh := by
  simp only [State.msix]
  split <;> [rfl; (split <;> rfl)]
@[simp] theorem State.msix_aoTime (v : Nat) : (s.msix v).aoTime = s.aoTime := by
  simp only [State.msix]
  split <;> [rfl; (split <;> rfl)]
@[simp] theorem State.msix_arithNow (v : Nat) : (s.msix v).arithNow = s.arithNow := by
  simp only [State.msix]
  split <;> [rfl; (split <;> rfl)]
@[simp] theorem State.msix_dev (v : Nat) : (s.msix v).dev = s.dev := by
  simp only [State.msix]
  split <;> [rfl; (split <;> rfl)]
@[simp] theorem State.msix_rst (v : Nat) : (s.msix v).rst = s.rst := by
  simp only [State.msix]
  split <;> [rfl; (split <;> rfl)]
@[simp] theorem State.msix_mgt (v : Nat) : (s.msix v).mgt = s.mgt := by
  simp only [State.msix]
  split <;> [rfl; (split <;> rfl)]
@[simp] theorem State.msix_rings (v : Nat) : (s.msix v).rings = s.rings := by
  simp only [State.msix]
  split <;> [rfl; (split <;> rfl)]
@[simp] theorem State.msix_jobs (v : Nat) : (s.msix v).jobs = s.jobs := by
  simp only [State.msix]
  split <;> [rfl; (split <;> rfl)]
@[simp] theorem State.msix_jobCount (v : Nat) : (s.msix v).jobCount = s.jobCount := by
  simp only [State.msix]
  split <;> [rfl; (split <;> rfl)]
@[simp] theorem State.msix_acc (v : Nat) : (s.msix v).acc = s.acc := by
  simp only [State.msix]
  split <;> [rfl; (split <;> rfl)]
@[simp] theorem State.msix_col (v : Nat) : (s.msix v).col = s.col := by
  simp only [State.msix]
  split <;> [rfl; (split <;> rfl)]
@[simp] theorem State.msix_fol (v : Nat) : (s.msix v).fol = s.fol := by
  simp only [State.msix]
  split <;> [rfl; (split <;> rfl)]
@[simp] theorem State.msix_sch (v : Nat) : (s.msix v).sch = s.sch := by
  simp only [State.msix]
  split <;> [rfl; (split <;> rfl)]
@[simp] theorem State.msix_kv (v : Nat) : (s.msix v).kv = s.kv := by
  simp only [State.msix]
  split <;> [rfl; (split <;> rfl)]
@[simp] theorem State.msix_ldg (v : Nat) : (s.msix v).ldg = s.ldg := by
  simp only [State.msix]
  split <;> [rfl; (split <;> rfl)]
@[simp] theorem State.msix_err (v : Nat) : (s.msix v).err = s.err := by
  simp only [State.msix]
  split <;> [rfl; (split <;> rfl)]
@[simp] theorem State.msix_sec (v : Nat) : (s.msix v).sec = s.sec := by
  simp only [State.msix]
  split <;> [rfl; (split <;> rfl)]
@[simp] theorem State.msix_dram (v : Nat) : (s.msix v).dram = s.dram := by
  simp only [State.msix]
  split <;> [rfl; (split <;> rfl)]
@[simp] theorem State.msix_flash (v : Nat) : (s.msix v).flash = s.flash := by
  simp only [State.msix]
  split <;> [rfl; (split <;> rfl)]

end Sys2Proof.Machine
end

