-- ==== Sys2Proof/Laws/Jobs.lean ====
section
/-! SUPPORT. What the ends of contexts, sequences and jobs leave alone: everything outside the job table, the rings' waiting
descriptors and the units that held something. -/

namespace Sys2Proof.Machine

/-- What the release of a job's holdings never touches. -/
structure Frame where
  pending : List Instr
  regs : RegFile
  out : List Out
  aoTime : Nat
  arithNow : Nat
  dev : Dev
  rst : Rst
  link : Link
  mgt : Mgt
  cqs : List CqRing
  errRing : ProdRing
  ldgRing : ProdRing
  cancels : List (Nat × CqRec × List Nat)
  jobCount : Nat
  ldg : Ldg
  err : Errs
  dram : Mem
  flash : Mem

def State.frame (s : State) : Frame :=
  ⟨s.pending, s.regs, s.out, s.aoTime, s.arithNow, s.dev, s.rst, s.link, s.mgt, s.rings.cqs, s.rings.errRing, s.rings.ldgRing,
    s.rings.cancels, s.jobCount, s.ldg, s.err, s.dram, s.flash⟩

variable (s : State)

@[simp] theorem State.onSch_frame (f : Sch → Sch) : (s.onSch f).frame = s.frame := rfl
@[simp] theorem State.onKv_frame (f : Kv → Kv) : (s.onKv f).frame = s.frame := rfl
@[simp] theorem State.onAcc_frame (f : Acc → Acc) : (s.onAcc f).frame = s.frame := rfl
@[simp] theorem State.onCol_frame (f : Col → Col) : (s.onCol f).frame = s.frame := rfl
@[simp] theorem State.onFol_frame (f : Fol → Fol) : (s.onFol f).frame = s.frame := rfl
@[simp] theorem State.onSec_frame (f : Sec → Sec) : (s.onSec f).frame = s.frame := rfl
@[simp] theorem State.onJob_frame (k : Nat) (f : Job → Job) : (s.onJob k f).frame = s.frame := rfl
@[simp] theorem State.onJobNum_frame (k : Nat) (f : Job → Job) : (s.onJobNum k f).frame = s.frame := rfl
@[simp] theorem State.onSeq_frame (k : Nat) (f : SeqSlot → SeqSlot) : (s.onSeq k f).frame = s.frame := rfl
@[simp] theorem State.onCarrel_frame (k : Nat) (f : Carrel → Carrel) : (s.onCarrel k f).frame = s.frame := rfl
@[simp] theorem State.onRefs_frame (a : Nat) (f : Nat → Nat) : (s.onRefs a f).frame = s.frame := rfl
@[simp] theorem State.sweepPools_frame : s.sweepPools.frame = s.frame := rfl
@[simp] theorem State.freePage_frame (p l : Nat) : (s.freePage p l).frame = s.frame := rfl
@[simp] theorem State.freeSwap_frame (p l : Nat) : (s.freeSwap p l).frame = s.frame := rfl

/-- A fold of operations that keep the frame keeps it. -/
theorem foldl_frame {α : Type} (f : State → α → State) (h : ∀ s a, (f s a).frame = s.frame) (l : List α) :
    (l.foldl f s).frame = s.frame := by
  induction l generalizing s with
  | nil => rfl
  | cons a l ih => rw [List.foldl_cons, ih, h]

@[simp] theorem State.dropHold_frame (p l : Nat) : (s.dropHold p l).frame = s.frame := by
  unfold State.dropHold; split <;> simp

@[simp] theorem State.dropEntry_frame (k : Nat) (p : Pte) : (s.dropEntry k p).frame = s.frame := by
  unfold State.dropEntry
  repeat' first | rfl | split | simp

@[simp] theorem State.removePte_frame (k b : Nat) : (s.removePte k b).frame = s.frame := by
  unfold State.removePte
  split <;> simp

@[simp] theorem State.releasePages_frame (k : Nat) : (s.releasePages k).frame = s.frame := by
  unfold State.releasePages
  split
  · rfl
  · have h := foldl_frame s (fun s b => s.removePte k b) (fun s b => State.removePte_frame s k _)
    split <;> simp [h]

@[simp] theorem State.releaseSeq_frame (k : Nat) : (s.releaseSeq k).frame = s.frame := by
  simp [State.releaseSeq]

@[simp] theorem State.poolDone_frame (p : PoolOwner → Bool) : (s.poolDone p).frame = s.frame := rfl

/-- A fold of operations that do nothing does nothing. -/
theorem foldl_same {α : Type} (f : State → α → State) (h : ∀ a, f s a = s) (l : List α) : l.foldl f s = s := by
  induction l with
  | nil => rfl
  | cons a l ih => rw [List.foldl_cons, h, ih]

theorem State.mem_of_ctx? {id : Nat} {x : Ctx} (h : s.ctx? id = some x) : x ∈ s.sch.ctxs := List.mem_of_find?_eq_some h

/-- With every engine where it belongs, nothing goes on as a context leaves its carrel. -/
theorem State.giveBack_of_free (c : Nat) (h : s.enginesFree) : s.giveBack c = s := by
  unfold State.giveBack State.returnEngines
  rw [foldl_same s _ (fun id => ?_), foldl_same s _ (fun id => ?_)]
  · unfold State.attnGoesOn
    split
    · rename_i x o e
      obtain ⟨y, hy, e⟩ := Option.bind_eq_some_iff.mp e
      obtain ⟨_, -, e⟩ := Option.map_eq_some_iff.mp e
      cases e
      have := h _ (s.mem_of_ctx? hy)
      simp [this.1, this.2]
    · rfl
  · unfold State.returnTo
    split
    · rfl
    · rename_i x e
      simp [(h _ (s.mem_of_ctx? e)).1]

@[simp] theorem State.dropRefs_frame (l : List Nat) : (s.dropRefs l).frame = s.frame := by
  rw [State.dropRefs, State.sweepPools_frame, foldl_frame _ _ (fun _ _ => by simp)]

@[simp] theorem State.dropPageBuffers_frame (n i : Nat) (l : List Nat) : (s.dropPageBuffers n i l).frame = s.frame := by
  rw [State.dropPageBuffers, State.sweepPools_frame, foldl_frame _ _ (fun _ _ => by simp), State.onAcc_frame]

@[simp] theorem State.leaveBatch_frame (n i : Nat) : (s.leaveBatch n i).frame = s.frame := rfl

@[simp] theorem State.onRefs_sch (a : Nat) (f : Nat → Nat) : (s.onRefs a f).sch = s.sch := rfl
@[simp] theorem State.sweepPools_sch : s.sweepPools.sch = s.sch := rfl

@[simp] theorem State.dropRefs_sch (l : List Nat) : (s.dropRefs l).sch = s.sch := by
  rw [State.dropRefs, State.sweepPools_sch]
  induction l generalizing s with
  | nil => rfl
  | cons a l ih => rw [List.foldl_cons, ih, State.onRefs_sch]

/-- The end of a context, with every engine where it belongs: the frame stays, and so does that. -/
theorem State.endCtx_frame (i : Nat) (h : s.enginesFree) : (s.endCtx i).frame = s.frame ∧ (s.endCtx i).enginesFree := by
  unfold State.endCtx
  split
  · exact ⟨rfl, h⟩
  · rename_i x e
    have key : ∀ t : State, t.sch.ctxs = s.sch.ctxs.filter (·.id ≠ i) → t.enginesFree := fun t ht y hy => by
      rw [ht] at hy; exact h y (List.mem_filter.mp hy).1
    cases hp : x.place with
    | none => exact ⟨by simp, key _ (by simp)⟩
    | some p =>
      dsimp only
      rw [State.giveBack_of_free _ _ (key _ rfl)]
      exact ⟨by simp, key _ (by simp; rfl)⟩

/-- The end of several contexts. -/
theorem State.endCtxs_frame (l : List Ctx) (h : s.enginesFree) :
    (l.foldl (fun s x => s.endCtx x.id) s).frame = s.frame := by
  induction l generalizing s with
  | nil => rfl
  | cons x l ih =>
    have := s.endCtx_frame x.id h
    rw [List.foldl_cons, ih _ this.2, this.1]

@[simp] theorem State.abandonStep_frame (k : Nat) : (s.abandonStep k).frame = s.frame := rfl

@[simp] theorem State.dropPlan_frame (j : Job) : (s.dropPlan j).frame = s.frame := by
  unfold State.dropPlan
  split
  · rfl
  · rw [State.onJob_frame, foldl_frame _ _ (fun _ _ => by simp)]

/-- Releasing what a job holds sends nothing, writes no register and no memory, and leaves every completion ring: when it holds no
context, or every engine is where it belongs. -/
theorem State.releaseJob_frame (k : Nat)
    (h : s.enginesFree ∨ ∀ j, s.job? k = some j → ∀ x ∈ s.sch.ctxs, x.jobNumber ≠ j.number) : (s.releaseJob k).frame = s.frame := by
  unfold State.releaseJob
  split
  · rfl
  · rename_i j e
    have ends : ((s.sch.ctxs.filter (·.jobNumber = j.number)).foldl (fun s x => s.endCtx x.id) s).frame = s.frame := by
      rcases h with h | h
      · exact s.endCtxs_frame _ h
      · rw [List.filter_eq_nil_iff.mpr fun x hx => by simpa using h j e x hx]; rfl
    simp only [State.dropPlan_frame]
    rw [show ∀ (x : State) (f : Rings → Rings), (∀ r, (f r).cqs = r.cqs ∧ (f r).errRing = r.errRing ∧ (f r).ldgRing = r.ldgRing ∧
      (f r).cancels = r.cancels) → (x.onRings f).frame = x.frame from fun x f h => by
        obtain ⟨a, b, c, d⟩ := h x.rings
        simp [State.frame, a, b, c, d]]
    · simp only [State.onSec_frame, State.onCol_frame, State.onFol_frame, State.sweepPools_frame]
      rw [State.poolDone_frame, foldl_frame _ _ (fun _ _ => by simp), State.onAcc_frame, State.onSch_frame, foldl_frame _ _ (fun _ _ => by simp),
        foldl_frame _ _ (fun _ _ => by simp), ends]
    · intro r; simp

end Sys2Proof.Machine
end

