-- ==== Sys2Proof/WellFormed.lean ====
section
/-! DEFINITION. The commands that the outside can send: every operand within the range that the spec gives it. The machine
gives every command a meaning; an ill-formed one names a ring, port or unit that does not exist. -/

namespace Sys2Proof

/-- A ring that exists (R67). -/
def RingId.wf : RingId → Bool
  | .sq n => decide (n < 64)
  | .cq n => decide (n < 64)
  | .err => true
  | .ldg => true

/-- A unit that exists (R11, R504). -/
def RstUnit.wf : RstUnit → Bool
  | .bay b => decide (b < 24)
  | .wing w => decide (w < 4)
  | _ => true

def jobSlotOk (n : Nat) : Bool := decide (n < 256)
def ringOk (n : Nat) : Bool := decide (n < 64)
def transportOk (n : Nat) : Bool := decide (n < 4)
def portOk (n : Nat) : Bool := decide (n < 8)
def csiOk (port vc : Nat) : Bool := decide (port < 4) && decide (vc < 4)
def seqSlotOk (n : Nat) : Bool := decide (n < 4096)
def place (carrel slot : Nat) : Bool := decide (carrel < 192) && decide (slot < 4)

/-- An entry that Penuo inserts: FLAGS bits 0 to 2 (R332). -/
def EntryFields.wf (e : EntryFields) : Bool :=
  decide (e.page < 2 ^ 32) && decide (4 ≤ e.log2) && decide (e.log2 ≤ 11) && decide (e.flags < 8) && decide (e.fill ≤ 2 ^ e.log2) &&
    decide (e.basePos < 2 ^ 32)

def editOk : Edit → Bool
  | .insert e => e.wf
  | .replace _ e => e.wf
  | .setLog2 _ k => decide (4 ≤ k) && decide (k ≤ 11)
  | .setBase _ n => decide (n < 2 ^ 32)
  | _ => true

/-- Every operand lies in its range. -/
def Instr.wf : Instr → Bool
  | .kick off => decide (off < 4096)
  | .doorbellReadDone rec_ index gen => decide (rec_ < 130) && decide (index < 65536) && decide (gen < 65536)
  | .descriptorFetch sq descs => ringOk sq && decide (descs.length ≤ 8) && descs.all (·.length = 64)
  | .nop sq => ringOk sq
  | .run sq param => ringOk sq && decide (param.length ≤ 352)
  | .cancel sq => ringOk sq
  | .folioLoad sq => ringOk sq
  | .folioFetchDone slot _ => jobSlotOk slot
  | .folioCommit slot => jobSlotOk slot
  | .folioUnload sq => ringOk sq
  | .folioUnloadRelease slot => jobSlotOk slot
  | .bayBist sq => ringOk sq
  | .bistDrainDone => true
  | .bistDrainTimeout => true
  | .bistTestsDone fails => decide (fails < 2 ^ 27)
  | .commit sq _ => ringOk sq
  | .calibrateDark sq => ringOk sq
  | .calibrateWhite sq => ringOk sq
  | .stop sq => ringOk sq
  | .configApply t => transportOk t
  | .calibrationStart slot => jobSlotOk slot
  | .calLineTrigger slot => jobSlotOk slot
  | .calibrationDone slot => jobSlotOk slot
  | .report sq => ringOk sq
  | .extend sq => ringOk sq
  | .attestDone => true
  | .stateReqStandby => true
  | .stateReqService => true
  | .stateReqTest => true
  | .stateReqRecovery => true
  | .stateTransitionDone => true
  | .standbyEntryDone => true
  | .startOk => true
  | .startWindowExpiry => true
  | .watchdogRestart => true
  | .watchdogExpiry => true
  | .powerOn => true
  | .powerOnRelease _ => true
  | .vddAoLost => true
  | .brownOut => true
  | .brownOutRelease => true
  | .resetNAssert => true
  | .resetNRelease => true
  | .rstReqBay bay => decide (bay < 32)
  | .rstReqWing wing => decide (wing < 32)
  | .rstReqFabric => true
  | .rstReqWarm => true
  | .debugResetRequest _ => true
  | .debugResetWithdraw => true
  | .clockFailure pll => decide (pll < 6)
  | .lockUp wing => wing.all fun w => decide (w < 4)
  | .unitIdleAck u => u.wf
  | .handshakeTimeout u => u.wf
  | .forcedResetApplied u => u.wf
  | .unitReleaseDone u boot => u.wf && decide (boot.dramSize < 4) && decide (boot.bootSel < 4)
  | .flr => true
  | .hotReset => true
  | .perstNAssert => true
  | .perstNRelease => true
  | .linkLoss => true
  | .hostAccessWake => true
  | .bar4Access _ off len data => decide (off + len ≤ 2 ^ 28) && decide (off + data.length ≤ 2 ^ 28)
  | .bar0AtomicOp bar _ => decide (bar = 0) || decide (bar = 2)
  | .registerWrite off words => decide (off % 4 = 0) && decide (off + 4 * words.length ≤ 65536)
  | .ldgDeviceUjLoRead => true
  | .sysLock => true
  | .hlkVerAgreeWrite _ _ => true
  | .mgtEmbWrite _ => true
  | .hostBootGo length => decide (length < 2 ^ 28)
  | .hostBootVerifyDone => true
  | .ringEnable r v => r.wf && v.toNat.testBit 0
  | .sqRingDisable n v => ringOk n && !v.toNat.testBit 0
  | .cqRingDisable n v => ringOk n && !v.toNat.testBit 0
  | .keepDrop => true
  | .abort t => transportOk t
  | .colTDrop t _ => transportOk t
  | .carInjectArm v => v.toNat.testBit 10
  | .shelfSplitWrite _ => true
  | .folioPin h => decide (h < 32)
  | .folioUnpin h => decide (h < 32)
  | .flush => true
  | .ledgerEnable v => v.toNat.testBit 0
  | .ledgerDisable v => !v.toNat.testBit 0
  | .ldgSlowPop => true
  | .clkArithStep _ => true
  | .wakeTimerWrite _ => true
  | .wakeTimerExpiry => true
  | .fenceWrite k _ => decide (k < 7)
  | .lastingClear k _ => decide (k < 7)
  | .otpProgCustHash0 => true
  | .otpProgCustHash1 => true
  | .otpProgRevoke0 => true
  | .otpProgRevoke1 => true
  | .otpProgDebugDisable => true
  | .otpProgDone => true
  | .secRbAdvance _ => true
  | .rollbackBurnDone => true
  | .firmwareUpdate v => v.toNat.testBit 28
  | .firmwareUpdateDone _ _ => true
  | .mgtRdStatus _ => true
  | .mgtRdReg addr _ => decide (addr < 2 ^ 32)
  | .mgtWrReg addr data => decide (addr < 2 ^ 32) && decide (data.length ≤ 256)
  | .mgtDwinFetch addr data => decide (addr < 2 ^ 32) && decide (data.length ≤ 256)
  | .dwinFetchDone => true
  | .mgtDwinRead addr _ => decide (addr < 2 ^ 32)
  | .mgtDwinWrite addr data => decide (addr < 2 ^ 32) && decide (data.length ≤ 256)
  | .dwinWriteDone => true
  | .mgtMboxWrite data => decide (data.length ≤ 256)
  | .mboxTake => true
  | .mgtMboxRead _ => true
  | .mgtKick addr _ => decide (addr < 2 ^ 32)
  | .mgtWake _ => true
  | .mgtReset addr _ => decide (addr < 2 ^ 32)
  | .mgtClearStarts _ => true
  | .mgtMode8d _ => true
  | .mgtMode1s _ => true
  | .mgtRcvData addr data => decide (addr < 2 ^ 32) && decide (data.length ≤ 256)
  | .rcvProgramDone => true
  | .mgtRcvCommit image _ => decide (image < 2 ^ 32)
  | .rcvCommitDone => true
  | .mgtBadFrame _ => true
  | .recordDispatch slot _ => jobSlotOk slot
  | .recordDecoded lane => decide (lane < 11)
  | .decodeBudgetExpiry lane rows => decide (lane < 11) && decide (rows < 65536)
  | .seqSlotGrant _ slot tables => jobSlotOk slot && tables.all fun a => decide (a % 64 = 0)
  | .batchPack slot _ _ rowBase => jobSlotOk slot && decide (rowBase % 64 = 0)
  | .lcAdmission slot _ => jobSlotOk slot
  | .contextPlace p => jobSlotOk p.job && decide (p.stage < 16) && p.seqs.all seqSlotOk
  | .contextSwitchDone carrel => decide (carrel < 192)
  | .spillMove bay => decide (bay < 24)
  | .cmdLineFetch carrel slot => place carrel slot
  | .enginePreempt carrel slot _ => place carrel slot
  | .load carrel slot _ => place carrel slot
  | .store carrel slot _ => place carrel slot
  | .stream carrel slot _ => place carrel slot
  | .expand carrel slot _ => place carrel slot
  | .tmac carrel slot _ => place carrel slot
  | .vec carrel slot _ => place carrel slot
  | .req carrel slot _ => place carrel slot
  | .attn carrel slot _ => place carrel slot
  | .kvapp carrel slot _ => place carrel slot
  | .argmax carrel slot _ => place carrel slot
  | .pack carrel slot _ => place carrel slot
  | .cathand carrel slot _ => place carrel slot
  | .fence carrel slot _ => place carrel slot
  | .signal carrel slot _ => place carrel slot
  | .waitsig carrel slot _ => place carrel slot
  | .cmdNop carrel slot _ => place carrel slot
  | .commandComplete carrel slot _ _ => place carrel slot
  | .kvDescriptorEmit carrel slot => place carrel slot
  | .combinePart carrel slot => place carrel slot
  | .spareTake seq => seqSlotOk seq
  | .kvappResume carrel slot => place carrel slot
  | .editApply seq edit => seqSlotOk seq && edit.all editOk
  | .prefixMatch seq _ => seqSlotOk seq
  | .freeListRestock k => decide (k < 8)
  | .swapOut => true
  | .swapIn seq _ => seqSlotOk seq
  | .cardSummaryBuild seq _ => seqSlotOk seq
  | .refillDone wing handle shard => decide (wing < 4) && decide (handle < 32) && decide (shard < 2 ^ 16)
  | .tokenChoice seq => seqSlotOk seq
  | .catalogAdvance seq => seqSlotOk seq
  | .lineFrame port _ => portOk port
  | .frameStart port vc => csiOk port vc
  | .frameEnd port vc => csiOk port vc
  | .csiLine port vc _ _ _ _ => csiOk port vc
  | .encEdge t _ _ => transportOk t
  | .lineTriggerDeferred port => portOk port
  | .strobeOn m => decide (m < 16)
  | .strobeOff m => decide (m < 16)
  | .stallLimit t => transportOk t
  | .leadAssert t => transportOk t
  | .leadDeassert t => transportOk t
  | .dfeedAssert t => transportOk t
  | .ilkOpen t => transportOk t
  | .ilkClose t => transportOk t
  | .readyIdleEntry _ => true
  | .readyIdleExitDone => true
  | .wakeComplete => true
  | .collationReady => true
  | .tempUpdate readings => readings.all fun p => decide (p.1 < 9)
  | .aoClockFallback => true
  | .ledgerIntervalClose => true
  | .errorRecordIssue _ => true
  | .jobTeardown slot => jobSlotOk slot
  | .challenge => true
  | .response scope block => decide (scope.length = 8) && decide (block.length = 776)
  | .debugVerifyDone => true
  | .deviceControlWrite mps mrrs _ => decide (mps < 8) && decide (mrrs ≤ 4096)
  | .linkUp speed width => decide (3 ≤ speed) && decide (speed ≤ 5) && decide (width ∈ [1, 2, 4, 8])

end Sys2Proof
end

