-- ==== Sys2Proof/Tests/Slice0.lean ====
section
/-! SUPPORT. The model's own tests: the WellFormed smoke, a witness for the premises of every statement with premises (wit_…, most of
them with what the command then leaves), and worked examples of the spec (test_…). -/

open Sys2Proof Sys2Proof.Machine

namespace Sys2Proof.Tests

set_option maxRecDepth 10000
set_option Elab.async false

/-! ### Small states -/

/-- What a command leaves; no command of this machine stops. -/
def after (c : Instr) (s : State) : State :=
  match exec c s with
  | .next t => t
  | _ => State.reset

/-- Register words set one after the other. -/
def withRegs (l : List (Nat × Nat)) (s : State) : State := l.foldl (fun s e => s.setReg e.1 (BitVec.ofNat 32 e.2)) s

/-- SERVICE with every unit at work, DRAM of 16 GB trained, Penuo of SVN 5 running and the collation unit ready; registers at reset. -/
def svc : State :=
  { State.reset with
    dev := { Dev.reset with
      state := .service, prev := .bringUp, domains := 2 ^ 30 - 1, locked := 31, colReady := true, dramSize := 1, dramReset := true,
      bflReset := true, penuo := some ⟨false, true, false, 5⟩, wdog := some 65536, step2 := true, step3Dram := true,
      step3Link := true, step4 := true }
    rst := { Rst.reset with units := allUnits.map fun u => ⟨u, .run, 0, 0⟩, asserted := [], epOpen := false, epSources := [], epWidest := 0 }
    link := { Link.reset with up := true, speed := 5, width := 8, txActive := true, bar4 := true } }

/-- The same part in another device state. -/
def inState (st : DeviceState) (s : State) : State := { s with dev := { s.dev with state := st } }

/-- STANDBY: the switched domains off, DRAM in self-refresh. -/
def asleep (s : State) : State :=
  { s with dev := { s.dev with state := .standby, power := .standby, domains := 0, selfRefresh := true, wdog := none, colReady := false } }

/-- Submission rings 0 (BE) and 1 (LC) of 64 entries with CREDIT 8 and ERR_CQ 3, completion ring 3, the error ring and the ledger ring
of 256 entries, all enabled, in SERVICE. -/
def rg : State :=
  withRegs [(rRingSqCtrl 0, 1 + 6 * 2 + 8 * 64 + 3 * 2 ^ 15), (rRingSqCtrl 1, 1 + 6 * 2 + 32 + 8 * 64 + 3 * 2 ^ 15),
    (rRingCqBaseLo 3, 0x10020000), (rRingCqBaseHi 3, 0x40), (rRingCqCtrl 3, 0x1B1), (rRingErrBaseLo, 0x10030000), (rRingErrCtrl, 0x11),
    (rRingLdgBaseLo, 0x10040000), (rRingLdgCtrl, 0x11)] svc

/-- 64 bytes with the given (offset, size, value) fields, zero elsewhere. -/
def fields (n : Nat) (l : List (Nat × Nat × Nat)) : Bytes :=
  l.foldl (fun b e => (b.take e.1) ++ toLe e.2.1 e.2.2 ++ b.drop (e.1 + e.2.1)) (zeros n)

/-- A descriptor of an opcode for completion ring 3 with tag 0x55, Ronvel 1.0. -/
def desc (op : Nat) (l : List (Nat × Nat × Nat)) : Bytes := fields 64 ([(0, 1, 0x10), (1, 1, op), (4, 1, 3), (8, 4, 0x55)] ++ l)

def nopD : Bytes := desc opNop []

/-- A descriptor, with its slot, fetched from ring `n`. -/
def fetched (n : Nat) (d : Bytes) (slot : Option Nat) (s : State) : State := s.onSq n fun q => { q with fetched := [(d, slot)] }

/-- A job 7 in slot 2 of ring 0. -/
def job (d : Bytes) (p : JobPhase) : Job := { newJob 2 7 0 false d true with phase := p }

def withJob (j : Job) (s : State) : State := { s with jobs := [j], jobCount := 8 }

/-- A source asserted alone, with every unit held, in an episode of width `w`. -/
def held (src : RstSource) (r : Reach) (w : Nat) (s : State) : State :=
  { s with rst := { s.rst with
      units := allUnits.map fun u => ⟨u, .held, w, 0⟩, asserted := [(src, r)], epOpen := true, epSources := [src], epWidest := w,
      epPrior := s.dev.state } }

/-- A stage with a list of 4 commands at the start of the image's COMMAND section, 2 scratch units and a bound of 1,000 cycles. -/
def stage (kind input : Nat) : Stage :=
  { kind := kind, input := input, wingParts := 1, conc := false, card := false, list := 0, listLen := 4, units := 2, streams := 1,
    winKib := 16, expand4k := 0, stripeH := 8, minW := 1, maxW := 4096, minH := 1, maxH := 4096, bound := 1000, catAllow := 0,
    textClasses := 0, kv := none, shelfOff := 0, shelfShards := 0 }

/-- A committed folio at handle 0 in 64 KiB from DRAM address 0x20_0000, its command section at offset 0x1000. -/
def folio (stages : List Stage) : Folio :=
  { handle := 0, addr := 0x200000, len := 65536, version := 0x20, committed := true, unloading := false, loaderSlot := none,
    pinned := false, pinWanted := false, grammarBase := 0, grammars := [(0x8000, 4096)], defaultGrammar := 0, prefixSeed := 0,
    seqSlots := 1, stages := stages, kvs := [⟨1, 1, 16, 0, 4, 0, 0, 0⟩], quant := [], commandOff := 0x1000, params := none,
    bindings := [], fixups := [], digest := zeros 32, grammarDigests := [zeros 32] }

/-- A decode stage with KV declaration 0 that follows no other stage. -/
def decodeStage : Stage := { stage 3 0xFF with kv := some 0 }

def withFolio (f : Folio) (s : State) : State := { s with fol := { s.fol with folios := [f] } }

/-- The grammar image of the folio above, at 0x20_8000: two classes, one state, one pair for every stack symbol; A, B and END allowed,
each leading back to the state. -/
def grammarMem : Mem :=
  [(0x208006, 2), (0x208008, 1), (0x208010, 1), (0x208014, 1), (0x208018, 1), (0x208140, 1), (0x2081C4, 1), (0x208200, 0xFE), (0x208201, 0xFF),
    (0x208248, 6), (0x208260, 1)]

/-- Sequence slot 0 of job 7, page-side 0. -/
def seq0 (j : Job) : SeqSlot := newSeq 0 j 0 false 0 9 (some ⟨1, 1, 16, 0, 4, 0, 0, 0⟩) none none 0x280000 1

def withSeq (q : SeqSlot) (s : State) : State := { s with kv := { s.kv with seqs := [q] } }

/-- The plane pool: 16 granules from 16 MiB; the capture pool: 16 granules from 32 MiB. -/
def pools : State → State :=
  withRegs [(rAccPoolBaseLo, 0x1000000), (rAccPoolSize, 16), (rColPoolBaseLo, 0x2000000), (rColPoolSize, 16)]

theorem inv_svc : svc.Inv := State.inv_of_ok _ (by decide +kernel)
theorem inv_rg : rg.Inv := State.inv_of_ok _ (by decide +kernel)
theorem cqOpen_rg : rg.cqOpen 3 := by constructor <;> decide +kernel

/-- A context of job 7 for stage 0 and sequence slot 0, with 16 KiB of scratch in slot 0 of carrel 0 and 64 KiB of DRAM from 3 MiB at
far base 0; its queue holds the given commands. -/
def ctx0 (q : List Bytes) : Ctx :=
  { newCtx 0 ⟨2, 0, 0, [0], 0, 0, (0, 1), [], ⟨0, 0⟩, []⟩ 7 false false (folio [stage 4 0xFF]) (stage 4 0xFF) 0 (none, []) [(0, 0x300000, 65536)] none [] [] with
    place := some (0, 0), queue := q, nextFetch := q.length }

def withCtx (x : Ctx) (s : State) : State :=
  { s with sch := { s.sch with
      carrels := s.sch.carrels.modify 0 fun r => { r with slots := r.slots.set 0 ([0, 1], some 0) }, ctxs := [x], nextCtx := 1 } }

/-! ### The step, device states, resets -/

theorem wit_StepRunsFrontCommand : ({ svc with pending := [.nop 0] } : State).pending = .nop 0 :: [] := rfl

theorem wit_EmptyQueueIsOneAoCycle :
    let s := withRegs [(rPwrWakeTimer, 2)] svc
    s.pending = [] ∧ s.dev.state ≠ .off ∧ s.memOk = true ∧ s.regB rRstWdog 0 = true ∧
      ∃ t, step s = .next t ∧ t.regF rPwrWakeTimer 0 24 = 1 ∧ t.dev.wdog = some 65535 :=
  ⟨rfl, by decide +kernel, by decide +kernel, by decide +kernel, _, rfl, by decide +kernel, by decide +kernel⟩

theorem wit_EmptyQueue_off : (inState .off svc).pending = [] ∧ (inState .off svc).dev.state = .off := ⟨rfl, rfl⟩

theorem wit_OffHearsOnlyPowerOn :
    let s := inState .off svc
    s.dev.state = .off ∧ s.rst.asserted = [] ∧ Instr.vddAoLost ≠ .powerOn ∧ Instr.kick 0 ≠ .powerOn ∧ after (.kick 0) s = s := by
  decide +kernel

theorem wit_StateRequests_accepted :
    stateReqOf .standby = some .stateReqStandby ∧ svc.dev.state ≠ .off ∧ svc.dev.req = none ∧ svc.requestHolds .standby ∧
      (after .stateReqStandby svc).dev.req = some .standby :=
  ⟨rfl, by decide, rfl, ⟨rfl, rfl, by decide⟩, by decide +kernel⟩

theorem wit_StateRequests_done :
    let s := { svc with dev := { svc.dev with req := some .test } }
    s.dev.state ≠ .off ∧ s.dev.req = some .test ∧ (after .stateTransitionDone s).dev.state = .test := by decide +kernel

theorem wit_StateRequests_standby :
    let s := { svc with dev := { svc.dev with req := some .standby } }
    s.dev.state ≠ .off ∧ s.dev.req = some .standby ∧ (after .standbyEntryDone s).dev.power = .standby := by decide +kernel

theorem wit_StateRequestRefused_edge :
    stateReqOf .standby = some .stateReqStandby ∧ (inState .test svc).dev.state ≠ .off ∧ (inState .test svc).MemWf ∧
      ¬(inState .test svc).requestHolds .standby ∧ (after .stateReqStandby (inState .test svc)).regB rSysState 9 = true := by
  refine ⟨rfl, by decide, State.memWf_of_ok _ (by decide +kernel), ?_, by decide +kernel⟩
  rintro ⟨h, -⟩
  cases h

theorem wit_StateRequestRefused_busy :
    let s := { svc with dev := { svc.dev with req := some .test } }
    stateReqOf .standby = some .stateReqStandby ∧ s.dev.state ≠ .off ∧ s.MemWf ∧ s.dev.req.isSome = true ∧
      (after .stateReqStandby s).dev.req = some .test :=
  ⟨rfl, by decide, State.memWf_of_ok _ (by decide +kernel), rfl, by decide +kernel⟩

/-- BRING_UP with the start window running. -/
def starting : State :=
  { inState .bringUp svc with rst := { svc.rst with windowRun := true, starts := 6 }, dev := { svc.dev with state := .bringUp, wdog := none } }

theorem wit_StartWindow_ok :
    starting.dev.state = .bringUp ∧ starting.rst.windowRun = true ∧ starting.dev.penuo.isSome = true ∧
      (∀ u ∈ starting.rst.units, u.phase = .run) ∧ starting.memOk = true ∧ starting.regB rErrStatus 0 = false ∧
      (after .startOk starting).dev.state = .service := by decide +kernel

theorem wit_StartWindow_okFatal :
    let s := withRegs [(rErrStatus, 1)] starting
    s.dev.state = .bringUp ∧ s.rst.windowRun = true ∧ s.dev.penuo.isSome = true ∧ (∀ u ∈ s.rst.units, u.phase = .run) ∧
      s.memOk = true ∧ s.regB rErrStatus 0 = true ∧ (after .startOk s).dev.fatalEntry = true := by decide +kernel

theorem wit_StartWindow_expiry :
    starting.dev.state = .bringUp ∧ starting.rst.windowRun = true ∧ starting.calm ∧
      (after .startWindowExpiry starting).dev.state = .closedStacks ∧ (after .startWindowExpiry starting).rst.starts = 7 := by
  unfold State.calm; decide +kernel

theorem wit_Watchdog_fabric :
    let s := withRegs [(rRstCtrl, 0x85)] svc
    s.dev.state.serves = true ∧ s.regB rRstWdog 0 = true ∧ s.allRun ∧ s.rst.fabricRelease = false ∧ s.rst.units ≠ [] ∧
      s.regB rRstCtrl 0 = true ∧ (after .watchdogExpiry s).dev.state = .service := by
  unfold State.allRun; decide +kernel

theorem wit_Watchdog_warm :
    svc.dev.state.serves = true ∧ svc.regB rRstWdog 0 = true ∧ svc.calm ∧ svc.regB rRstCtrl 0 = false ∧
      (after .watchdogExpiry svc).dev.state = .bringUp ∧ (after .watchdogRestart svc).dev.wdog = some 65536 := by
  unfold State.calm; decide +kernel

theorem wit_PowerOn :
    let s := inState .off svc
    s.dev.state = .off ∧ (after .powerOn s).rst.asserted = [(.powerOn, .cold)] ∧ (after .vddAoLost s).dev.state = .off := by
  decide +kernel

theorem wit_PowerOnRelease :
    State.reset.rst.asserted = [(.powerOn, .cold)] ∧ State.reset.rst.epOpen = true ∧ State.reset.rst.epWidest = 4 ∧
      (after (.powerOnRelease false) State.reset).rst.windowRun = true ∧
      (after (.powerOnRelease true) State.reset).rst.asserted = [(.brownOut, .cold)] := by decide +kernel

theorem wit_PinResets :
    svc.dev.state ≠ .off ∧ svc.calm ∧ (after .brownOut svc).rst.asserted = [(.brownOut, .cold)] ∧
      (after .resetNAssert svc).rst.asserted = [(.resetN, .warm)] := by
  unfold State.calm; decide +kernel

theorem wit_PinReleases :
    (let s := held .brownOut .cold 4 svc
     s.dev.state ≠ .off ∧ s.rst.epOpen = true ∧ s.rst.epWidest = 4 ∧ s.rst.asserted = [(.brownOut, .cold)] ∧
       (after .brownOutRelease s).dev.prev = .off) ∧
    let s := held .resetN .warm 3 svc
    s.dev.state ≠ .off ∧ s.rst.epOpen = true ∧ s.rst.epWidest = 3 ∧ s.rst.asserted = [(.resetN, .warm)] ∧
      (after .resetNRelease s).dev.prev = .service := by decide +kernel

theorem wit_SoftwareResets :
    svc.dev.state ≠ .off ∧ svc.allRun ∧ svc.rst.reqBusy = false ∧ svc.rst.fabricRelease = false ∧
      svc.rst.units.map (·.unit) = allUnits ∧ svc.dev.state ≠ .bringUp ∧ svc.dev.state ≠ .closedStacks ∧
      (after (.rstReqBay 23) svc).phaseOf (.bay 23) = .idleReq ∧ (after (.rstReqWing 3) svc).phaseOf (.bay 18) = .idleReq ∧
      (after (.rstReqWing 3) svc).phaseOf (.bay 17) = .run ∧ (after .rstReqFabric svc).phaseOf .spine = .idleReq ∧
      (after .rstReqWarm svc).dev.state = .bringUp := by
  unfold State.allRun; decide +kernel

theorem wit_SoftwareResets_refused :
    svc.dev.state ≠ .off ∧ svc.memOk = true ∧ (after (.rstReqBay 24) svc).regB rRstStatus 10 = true ∧
      (after (.rstReqWing 4) svc).regB rRstStatus 10 = true ∧
      (let s := { svc with rst := { svc.rst with reqBusy := true } }
       s.rst.reqBusy = true ∧ s.memOk = true ∧ (after .rstReqWarm s).regB rRstStatus 10 = true) ∧
      (inState .closedStacks svc).memOk = true ∧ (after (.rstReqBay 0) (inState .closedStacks svc)).regB rRstStatus 10 = true := by
  decide +kernel

/-- A request meets an episode that another source holds open: its units stay held, and a Fabric request ends the jobs. -/
theorem wit_SoftwareResets_held :
    let s := withJob (job nopD .running) (held .resetN .warm 3 svc)
    s.dev.state ≠ .off ∧ s.rst.reqBusy = false ∧ s.dev.state ≠ .bringUp ∧ s.dev.state ≠ .closedStacks ∧ s.rst.fabricRelease = false ∧
      (after (.rstReqBay 0) s).phaseOf (.bay 0) = .held ∧ (after (.rstReqBay 0) s).jobs.length = 1 ∧ (after .rstReqFabric s).jobs = [] := by
  decide +kernel

/-- Debug access with the reset bit unlocked. -/
def debugOpen : State := { svc with sec := { svc.sec with scope := 4 } }

theorem wit_DebugReset :
    (bitN svc.sec.scope 2 = false ∧ after (.debugResetRequest true) svc = svc) ∧
    debugOpen.dev.state ≠ .off ∧ debugOpen.calm ∧ debugOpen.allRun ∧ debugOpen.rst.fabricRelease = false ∧
      bitN debugOpen.sec.scope 2 = true ∧ (after (.debugResetRequest true) debugOpen).rst.asserted = [(.debug, .warm)] ∧
      (after (.debugResetRequest false) debugOpen).rst.asserted = [(.debug, .fabric)] ∧
      (let s := held .debug .warm 3 svc
       s.rst.asserted = [(.debug, .warm)] ∧ s.rst.epOpen = true ∧ s.rst.epWidest = 3 ∧
         (after .debugResetWithdraw s).rst.asserted = []) := by
  unfold State.calm State.allRun; decide +kernel

theorem wit_ClockFailureAndLockUp :
    svc.dev.state ≠ .off ∧ svc.memOk = true ∧ svc.dev.locked.testBit 4 = true ∧ svc.calm ∧ svc.allRun ∧ svc.regB rRstCtrl 1 = false ∧
      svc.rst.units.map (·.unit) = allUnits ∧ (after (.clockFailure 4) svc).regB rClkFail 4 = true ∧
      (after (.lockUp (some 3)) svc).phaseOf (.wing 3) = .idleReq ∧ (after (.lockUp none) svc).dev.state = .bringUp ∧
      (let s := withRegs [(rRstCtrl, 0x86)] svc
       s.dev.state ≠ .off ∧ s.memOk = true ∧ s.regB rRstCtrl 1 = true ∧ s.calm ∧ (after (.lockUp (some 0)) s).dev.state = .bringUp) := by
  unfold State.calm State.allRun; decide +kernel

/-- One unit in a phase of a Bay episode, the others at work. -/
def unitIn (u : RstUnit) (p : RstPhase) : State :=
  { svc with rst := { svc.rst with units := allUnits.map fun v => if v = u then ⟨v, p, 0, 0⟩ else ⟨v, .run, 0, 0⟩ } }

theorem wit_UnitsResetAndReturn :
    (let s := unitIn (.bay 23) .idleReq
     s.dev.state ≠ .off ∧ s.rst.epOpen = false ∧ s.phaseOf (.bay 23) = .idleReq ∧
       (after (.unitIdleAck (.bay 23)) s).phaseOf (.bay 23) = .releasing ∧
       (after (.handshakeTimeout (.bay 23)) s).phaseOf (.bay 23) = .forced) ∧
    (let s := unitIn (.wing 3) .forced
     s.phaseOf (.wing 3) = .forced ∧ (after (.forcedResetApplied (.wing 3)) s).err.pending.length = 1) ∧
    let s := unitIn (.bay 23) .releasing
    s.phaseOf (.bay 23) = .releasing ∧ (∀ x, s.rst.unit? (.bay 23) = some x → x.widest < 3) ∧ s.rst.fabricRelease = false ∧
      s.sch.shelves.length = 24 ∧ s.sch.carrels.length = 192 :=
  ⟨by decide +kernel, by decide +kernel, by decide +kernel, fun x h => by
    rw [show (unitIn (.bay 23) .releasing).rst.unit? (.bay 23) = some ⟨.bay 23, .releasing, 0, 0⟩ by decide +kernel] at h
    cases h; decide, by decide +kernel, by decide +kernel, by decide +kernel⟩

/-- A wing core and the DRAM controller come back from a Fabric episode. -/
theorem wit_UnitsReturn :
    (let s := unitIn (.wing 3) .releasing
     s.dev.state ≠ .off ∧ s.phaseOf (.wing 3) = .releasing ∧ (s.rst.unit? (.wing 3)).all (fun x => decide (x.widest < 3)) = true ∧
       s.numbersOk = true ∧ (after (.unitReleaseDone (.wing 3) ⟨0, 0, 0, 0⟩) s).phaseOf (.wing 3) = .run) ∧
    (let s := unitIn .dramCtl .releasing
     s.phaseOf .dramCtl = .releasing ∧ (s.rst.unit? .dramCtl).all (fun x => decide (x.widest < 3)) = true ∧
       (after (.unitReleaseDone .dramCtl ⟨0, 0, 0, 0⟩) s).phaseOf .dramCtl = .run) := by decide +kernel

/-- A bring-up with every unit releasing; step 2 done or not. -/
def bringing (two : Bool) : State :=
  { held .powerOn .cold 4 (inState .bringUp svc) with
    dev := { Dev.reset with state := .bringUp, step2 := two }
    rst := { Rst.reset with asserted := [], epOpen := false, windowRun := true, units := allUnits.map fun u => ⟨u, .releasing, 4, 0⟩ } }

theorem wit_UnitsInBringUp :
    (bringing false).dev.state = .bringUp ∧ (bringing false).rst.fabricRelease = false ∧ (bringing false).phaseOf .spine = .releasing ∧
      ((bringing false).rst.unit? .spine).all (fun x => decide (3 ≤ x.widest)) = true ∧
      (after (.unitReleaseDone .spine ⟨1, 0, 5, 8⟩) (bringing false)).dev.locked = 0x1F ∧
      (bringing true).phaseOf .dramCtl = .releasing ∧ (bringing true).phaseOf .pcieApp = .releasing ∧ (bringing true).dev.step2 = true ∧
      (bringing true).dev.step3Dram = false ∧ (bringing true).dev.step3Link = false ∧ (bringing true).link.perstLow = false ∧
      (after (.unitReleaseDone .dramCtl ⟨1, 0, 5, 8⟩) (bringing true)).dev.step3Dram = true ∧
      (after (.unitReleaseDone .pcieApp ⟨1, 0, 5, 8⟩) (bringing true)).link.up = true := by decide +kernel

/-! ### Rings and jobs -/

theorem wit_Kicks :
    rg.dev.state.serves = true ∧ rg.fabricUp = true ∧ rg.dev.req = none ∧ rg.Inv ∧ 1 ∈ kickTargets 4 ∧ 1 ∈ kickTargets 256 ∧
      rg.ringEn (.sq 1) = true ∧ (after (.kick 4) rg).out = [.doorbellRead 1] ∧
      (let s := rg.onSq 1 fun q => { q with reading := true }
       (s.sq 1).reading = true ∧ ((after (.kick 4) s).sq 1).again = true) :=
  ⟨by decide +kernel, by decide +kernel, by decide +kernel, inv_rg, by decide +kernel⟩

theorem inv_asleep : (asleep rg).Inv := State.inv_of_ok _ (by decide +kernel)
theorem inv_bringUp : (inState .bringUp rg).Inv := State.inv_of_ok _ (by decide +kernel)

theorem wit_Kicks_elsewhere :
    ((asleep rg).dev.req = none ∧ (asleep rg).Inv ∧ (asleep rg).ringEn (.sq 1) = true ∧ (asleep rg).dev.state = .standby ∧
      ((after (.kick 4) (asleep rg)).sq 1).kickHeld = true) ∧
    ((inState .bringUp rg).Inv ∧ ((after (.kick 4) (inState .bringUp rg)).sq 1).kickHeld = true) ∧
    let s := inState .closedStacks (asleep rg)
    s.invOk = true ∧ s.dev.state = .closedStacks ∧ s.dev.power = .standby ∧ after (.kick 4) s = s :=
  ⟨⟨by decide +kernel, inv_asleep, by decide +kernel⟩, ⟨inv_bringUp, by decide +kernel⟩, by decide +kernel⟩

/-- Ring 0 reads its doorbell, having fetched two descriptors of the first lap. -/
def reading : State := rg.onSq 0 fun q => { q with reading := true, own := 2, host := 2 }

theorem wit_DoorbellCounts :
    reading.dev.state ≠ .off ∧ reading.invOk = true ∧ reading.emb = false ∧ reading.ringEn (.sq 0) = true ∧
      (reading.sq 0).reading = true ∧ reading.rings.cancels = [] ∧ ((after (.doorbellReadDone 0 63 0) reading).sq 0).host = 63 ∧
      ((after (.doorbellReadDone 0 2 1) reading).sq 0).host = 66 ∧ ((after (.doorbellReadDone 0 3 1) reading).sq 0).host = 2 ∧
      (after (.doorbellReadDone 0 64 0) reading).regB rRingStatus 0 = true := by decide +kernel

/-- Completion ring 3 reads its doorbell, full with one record held; and the error ring reads its own. -/
def fullCq : State :=
  rg.onCq 3 fun q => { q with ring := { q.ring with own := 256, reading := true }, held := [jobEndRec 0 nopD stOk 0 0 0 0 0 0 none] }
def errReading : State := rg.onProd .err fun p => { p with own := 5, reading := true }

theorem wit_ProducedDoorbells :
    (ringOf 128 = some .err ∧ errReading.invOk = true ∧ errReading.emb = false ∧ errReading.ringEn .err = true ∧
      (errReading.prod .err).reading = true ∧ errReading.rings.cancels = [] ∧ errReading.err.held = [] ∧ errReading.err.stuck = [] ∧
      ((after (.doorbellReadDone 128 5 0) errReading).prod .err).host = 5 ∧
      (after (.doorbellReadDone 128 6 0) errReading).regB rRingStatus 0 = true) ∧
    (fullCq.invOk = true ∧ fullCq.ringEn (.cq 3) = true ∧ (fullCq.cq 3).ring.reading = true ∧ fullCq.ringBase (.cq 3) % 4096 = 0 ∧
      fullCq.entries (.cq 3) = 256 ∧ modSub (2 ^ 16 * 256) (fullCq.cq 3).ring.own 1 < 256 ∧
      ((after (.doorbellReadDone 67 1 0) fullCq).cq 3).held = []) := by decide +kernel

/-- Ring 0 has one descriptor pending. -/
def pending1 : State := rg.onSq 0 fun q => { q with host := 1 }

/-- A RUN of folio 0 over one Quire record, without a grammar or catalog budget of its own. -/
def runD : Bytes := desc opRun [(16, 8, 0x1000), (24, 4, 64), (28, 2, 1), (30, 2, 64), (32, 8, 0x2000), (40, 4, 64)]

theorem wit_FetchWithinBounds :
    pending1.running = true ∧ pending1.invOk = true ∧ pending1.ringEn (.sq 0) = true ∧ pending1.turnDescs 0 [runD] = runD :: [] ∧
      pending1.pendingDescs 0 = 1 ∧ dOp runD ≠ opFolioUnload ∧ takesSlot runD = true ∧ pending1.fetchStop = false ∧
      pending1.maySlot 0 = true ∧ pending1.turn = some 0 ∧ pending1.freeJobSlot = some 0 ∧
      (after (.descriptorFetch 0 [runD]) pending1).jobs.map (·.slot) = [0] ∧ dOp nopD ≠ opFolioUnload ∧ takesSlot nopD = false ∧
      ((after (.descriptorFetch 0 [nopD]) pending1).sq 0).fetched = [(nopD, none)] := by decide +kernel

theorem wit_FetchWithinBounds_stopped :
    let s := withRegs [(rRingSqCtrl 0, 1 + 6 * 2 + 1 * 64 + 3 * 2 ^ 15)] (withJob (job runD .running) pending1)
    s.running = true ∧ s.invOk = true ∧ s.ringEn (.sq 0) = true ∧ s.turnDescs 0 [runD] = runD :: [] ∧ s.pendingDescs 0 = 1 ∧
      takesSlot runD = true ∧ s.maySlot 0 = false ∧ after (.descriptorFetch 0 [runD]) s = s := by decide +kernel

theorem wit_RecordsAreSingleWrites :
    rg.emb = false ∧ rg.ringBase (.cq 3) % 4096 = 0 ∧ 4 ≤ rg.regF (ringCtrl (.cq 3)) 1 4 ∧ rg.ringBase .err % 4096 = 0 ∧
      4 ≤ rg.regF (ringCtrl .err) 1 4 ∧ rg.ringBase .ldg % 4096 = 0 ∧ 4 ≤ rg.regF (ringCtrl .ldg) 1 4 := by decide +kernel

theorem wit_NopCompletesWithOk :
    let s := fetched 0 nopD none rg
    s.invOk = true ∧ s.running = true ∧ s.emb = false ∧ (s.sq 0).fetched = [(nopD, none)] ∧ dOp nopD = opNop ∧
      (dFence nopD = true → s.fenceOpen 0 = true) ∧ s.descFault nopD = none ∧ (s.cq (dCq nopD)).held = [] ∧
      s.occupied (.cq (dCq nopD)) < s.entries (.cq (dCq nopD)) ∧ s.ringBase (.cq (dCq nopD)) % 4096 = 0 ∧
      4 ≤ s.regF (ringCtrl (.cq (dCq nopD))) 1 4 ∧ ((after (.nop 0) s).sq 0).fetched = [] ∧
      (after (.nop 0) s).out.head? = some (.hostWrite 0x4010020000
        (zeros 8 ++ [0x55, 0, 0, 0, 0, 0, 0, 0xC0, 0, 0, 0, 0, 0xFF, 0xFF] ++ zeros 10) false) := by decide +kernel

/-- SERVICE with completion ring 3 alone enabled. -/
def cq3 : State := withRegs [(rRingCqCtrl 3, 0x1B1)] svc

theorem wit_RingEnable :
    ringValid (.sq 63) = true ∧ wbit (1 + 12 * 2 + 256 * 64 + 3 * 2 ^ 15 : Word) 0 = true ∧ cq3.invOk = true ∧ cq3.dev.state ≠ .off ∧
      cq3.dev.state ≠ .standby ∧ cq3.fabricHidden (ringCtrl (.sq 63)) = false ∧ cq3.ringEn (.sq 63) = false ∧
      (after (.ringEnable (.sq 63) (1 + 12 * 2 + 256 * 64 + 3 * 2 ^ 15 : Word)) cq3).ringEn (.sq 63) = true ∧
      (after (.ringEnable (.sq 63) (1 + 4 * 2 + 257 * 64 + 3 * 2 ^ 15 : Word)) cq3).regB (ringCtrl (.sq 63)) 21 = true ∧
      (after (.ringEnable (.sq 63) (1 + 4 * 2 + 1 * 64 + 4 * 2 ^ 15 : Word)) cq3).regB (ringCtrl (.sq 63)) 21 = true ∧
      (after (.ringEnable (.cq 63) (1 + 4 * 2 : Word)) cq3).ringEn (.cq 63) = true ∧
      (after (.ringEnable (.cq 63) (1 + 3 * 2 : Word)) cq3).regB (ringCtrl (.cq 63)) 14 = true ∧
      (after (.ringEnable .err (1 + 13 * 2 : Word)) cq3).regB (ringCtrl .err) 13 = true ∧
      (after (.ringEnable .ldg (1 + 8 * 2 : Word)) cq3).ringEn .ldg = true := by decide +kernel

/-- No ground of R113 stands against enabling submission ring 63 with this word. -/
theorem wit_RingEnable_good (v : Word) (hv : v = (1 + 12 * 2 + 256 * 64 + 3 * 2 ^ 15 : Word)) :
    ¬(wbits v 1 4 < 4 ∨ 12 < wbits v 1 4 ∨ ∃ n, RingId.sq 63 = .sq n ∧
      (wbits v 6 9 = 0 ∨ 256 < wbits v 6 9 ∨ cq3.ringEn (.cq (wbits v 15 6)) = false ∨ ∃ j ∈ cq3.jobs, j.sq = n)) := by
  subst hv
  rintro (h | h | ⟨n, -, h | h | h | ⟨j, h, -⟩⟩)
  · revert h; decide +kernel
  · revert h; decide +kernel
  · revert h; decide +kernel
  · revert h; decide +kernel
  · revert h; decide +kernel
  · cases h

theorem wit_RingDisable :
    wbit (0 : Word) 0 = false ∧ rg.Inv ∧ rg.dev.state ≠ .off ∧ rg.dev.state ≠ .standby ∧ rg.rst.fabricRelease = false ∧
      rg.ringEn (.sq 0) = true ∧ (after (.sqRingDisable 0 0) rg).ringEn (.sq 0) = false ∧ rg.ringEn (.cq 3) = true ∧
      (∃ k, k < 64 ∧ rg.ringEn (.sq k) = true ∧ rg.regF (rRingSqCtrl k) 15 6 = 3) ∧ (after (.cqRingDisable 3 0) rg).ringEn (.cq 3) = true :=
  ⟨by decide +kernel, inv_rg, by decide +kernel, by decide +kernel, by decide +kernel, by decide +kernel, by decide +kernel,
    by decide +kernel, ⟨0, by decide +kernel⟩, by decide +kernel⟩

theorem wit_RingDisable_unused :
    cq3.invOk = true ∧ cq3.ringEn (.cq 3) = true ∧
      ¬((∃ j ∈ cq3.jobs, dCq j.desc = 3) ∨ (∃ k, k < 64 ∧ cq3.ringEn (.sq k) = true ∧ cq3.regF (rRingSqCtrl k) 15 6 = 3) ∨
        (cq3.cq 3).held ≠ []) ∧ (after (.cqRingDisable 3 0) cq3).ringEn (.cq 3) = false := by
  refine ⟨by decide +kernel, by decide +kernel, ?_, by decide +kernel⟩
  rintro (⟨j, h, -⟩ | ⟨k, hk, h, -⟩ | h)
  · cases h
  · have : ∀ k, k < 64 → cq3.ringEn (.sq k) = false := by decide +kernel
    rw [this k hk] at h; cases h
  · revert h; decide +kernel

/-- Rings that are disabled already. -/
theorem wit_RingDisable_plain :
    cq3.ringEn (.sq 0) = false ∧ cq3.ringEn (.cq 4) = false ∧
      after (.sqRingDisable 0 0) cq3 = cq3.exitIdle.writeWord (rRingSqCtrl 0) 0 := by decide +kernel

/-! ### Accession and RUN -/

/-- A Quire 1.0 record: RAW, 8-bit grey, 4 by 2 pixels at 300 dpi, with its CRC. -/
def rec0 : Bytes :=
  let b := fields 32 [(0, 4, 0x52495551), (4, 1, 0x10), (6, 1, 2), (8, 8, 0xAB), (16, 2, 4), (18, 2, 2), (20, 2, 300), (24, 4, 8)] ++
    [1, 2, 3, 4, 5, 6, 7, 8]
  b ++ toLe 4 (crc32c b)

/-- CRC-32C of the digits 1 to 9, the check value of R117's code. -/
theorem test_crc32c : crc32c [0x31, 0x32, 0x33, 0x34, 0x35, 0x36, 0x37, 0x38, 0x39] = 0xE3069283 := by decide +kernel

def runJob : Job := job (desc opRun [(16, 8, 0x1000), (24, 4, 44), (28, 2, 1), (30, 2, 64), (32, 8, 0x2000), (40, 4, 64)]) .running

/-- A RUN of a folio with one GENERIC stage at work, its page-side holding sequence slot 0. -/
def quire : State := pools (withSeq (seq0 runJob) (withJob runJob (withFolio (folio [stage 4 0xFF]) rg)))

theorem runs_quire : quire.runs runJob (folio [stage 4 0xFF]) := by constructor <;> decide +kernel
theorem inv_quire : quire.Inv := State.inv_of_ok _ (by decide +kernel)
theorem open_quire : quire.openSeq runJob 0 :=
  ⟨by decide +kernel, by decide +kernel, by decide +kernel, by unfold State.enginesFree; decide +kernel,
    by constructor <;> decide +kernel⟩

theorem wit_RecordDispatch :
    quire.Inv ∧ quire.runs runJob (folio [stage 4 0xFF]) ∧ dKind runJob.desc = 0 ∧ runJob.walked = [] ∧
      runJob.walkIdx < dInCount runJob.desc ∧ runJob.walkIdx ∉ runJob.ended ∧ quire.acc.poolQueue = [] ∧
      (∀ m ∈ quire.jobs, m.number ≠ 7 → quire.nextRecord m = none) ∧ framingFault (sliceB rec0 0 32) 44 = none ∧ quire.headerFault (sliceB rec0 0 44) = none ∧
      (lanesOf (hCodec rec0)).find? (fun k => (quire.lane k).isNone) = some 10 ∧ quire.pageSlots 7 0 ≠ [] ∧
      (quire.poolTake (recPlanes rec0).bytes (.planes 7 0) 1).isSome = true ∧
      ((after (.recordDispatch 2 rec0) quire).lane 10).map (·.budget) = some (1024 * 0x40 + 0x4D00) :=
  ⟨inv_quire, runs_quire, by decide +kernel, by decide +kernel, by decide +kernel, by decide +kernel, by decide +kernel, by decide +kernel,
    by decide +kernel, by decide +kernel, by decide +kernel, by decide +kernel, by decide +kernel⟩

/-- A record of an unknown version, and one without the magic. -/
theorem wit_RecordDispatch_fails :
    quire.openSeq runJob 0 ∧
    (let b := rec0.set 4 0x12
     framingFault (sliceB b 0 32) 44 = none ∧ quire.headerFault (sliceB b 0 44) = some (stVersion, 0x12) ∧
       (after (.recordDispatch 2 b) quire).job? 2 = none) ∧
    let b := rec0.set 0 0
    framingFault (sliceB b 0 32) 44 = some 1 ∧ (after (.recordDispatch 2 b) quire).job? 2 = none :=
  ⟨open_quire, by decide +kernel⟩

/-- The record on lane 10. -/
def lane10 (b : Bytes) : LaneRec :=
  { slot := 2, jobNumber := 7, idx := 0, record := b, budget := 100, planes := { recPlanes rec0 with addr := 0x1000000 } }

def onLane (b : Bytes) : State := quire.setLane 10 (some (lane10 b))

/-- With the raw lane busy the record waits, walked; with the plane pool full its planes wait. -/
theorem wit_RecordDispatch_waits :
    (let s := onLane rec0
     s.invOk = true ∧ (lanesOf (hCodec rec0)).find? (fun k => (s.lane k).isNone) = none ∧
       ((after (.recordDispatch 2 rec0) s).job? 2).map (·.walked) = some [(0, rec0)]) ∧
    let s := { quire with acc := { quire.acc with pool := [⟨0, 16, .planes 6 0, 1⟩] } }
    s.invOk = true ∧ (s.poolTake (recPlanes rec0).bytes (.planes 7 0) 1).isNone = true ∧ s.headerFault (sliceB rec0 0 44) = none ∧
      (after (.recordDispatch 2 rec0) s).acc.poolQueue = [.planes 7 0] := by decide +kernel

theorem open_lane : (onLane rec0).openSeq runJob 0 ∧ (onLane (rec0.set 43 0)).openSeq runJob 0 :=
  ⟨⟨by decide +kernel, by decide +kernel, by decide +kernel, by unfold State.enginesFree; decide +kernel,
      by constructor <;> decide +kernel⟩,
    ⟨by decide +kernel, by decide +kernel, by decide +kernel, by unfold State.enginesFree; decide +kernel,
      by constructor <;> decide +kernel⟩⟩

/-- A record whose CRC holds, one whose CRC does not, one over its budget; a JPEG record may meet a stream error. -/
theorem wit_RecordDecoded :
    (let s := onLane rec0
     s.invOk = true ∧ s.dev.state ≠ .off ∧ s.fabricUp = true ∧ s.emb = false ∧ s.lane 10 = some (lane10 rec0) ∧
       s.job? (lane10 rec0).slot = some runJob ∧ s.jobFolio runJob = some (folio [stage 4 0xFF]) ∧
       samplesOf rec0 = .ok [1, 2, 3, 4, 5, 6, 7, 8] ∧ recordCrcOk rec0 = true ∧
       (after (.recordDecoded 10) s).dram.read 0x1000040 5 = [5, 6, 7, 8, 0]) ∧
    (let b := rec0.set 43 0
     (onLane b).invOk = true ∧ samplesOf b = .ok [1, 2, 3, 4, 5, 6, 7, 8] ∧ recordCrcOk b = false ∧
       (after (.recordDecoded 10) (onLane b)).lane 10 = none) ∧
    (after (.decodeBudgetExpiry 10 1) (onLane rec0)).lane 10 = none := by decide +kernel

/-- Bytes that are no JPEG stream, and no T.6 stream. -/
theorem wit_RecordDecoded_stream :
    samplesOf (rec0.set 5 1) = .error (stCorrupt, 0x10) ∧ samplesOf (rec0.set 5 2) = .error (stCorrupt, 0x20) ∧
      (after (.recordDecoded 10) (onLane (rec0.set 5 1))).lane 10 = none := by decide +kernel

/-- A baseline stream of one 8 by 8 block without a coefficient. -/
def flatJpeg : Bytes :=
  [0xFF, 0xD8, 0xFF, 0xDB, 0x00, 0x43, 0x00] ++ List.replicate 64 1 ++
    [0xFF, 0xC0, 0x00, 0x0B, 0x08, 0x00, 0x08, 0x00, 0x08, 0x01, 0x01, 0x11, 0x00] ++
    [0xFF, 0xC4, 0x00, 0x14, 0x00, 0x01] ++ zeros 15 ++ [0x00, 0xFF, 0xC4, 0x00, 0x14, 0x10, 0x01] ++ zeros 15 ++ [0x00] ++
    [0xFF, 0xDA, 0x00, 0x08, 0x01, 0x01, 0x00, 0x00, 0x3F, 0x00, 0x3F, 0xFF, 0xD9]

theorem test_jpeg_flat :
    (match jpegDecode flatJpeg 8 8 1 with | .ok px => px.length | .error _ => 0) = 64 := by decide +kernel

/-- A frame of another size, and a progressive one (R142). -/
theorem test_jpeg_refused :
    jpegDecode flatJpeg 8 9 1 = .error (stCorrupt, 0x13) ∧ jpegDecode (flatJpeg.set 72 0xC2) 8 8 1 = .error (stUnsupported, 2) := by
  decide +kernel

/-- Two white rows by vertical mode V(0) each; and end of facsimile block before the second row (R125, R142). -/
theorem test_t6 :
    t6Decode [0xC0, 0x04, 0x00, 0x40] 4 2 = .ok (List.replicate 8 0) ∧
      t6Decode [0x80, 0x08, 0x00, 0x80] 4 2 = .error (stCorrupt, 0x21) := by decide +kernel

/-- The same RUN before its page-side has a slot. -/
def waiting : State := pools (withJob runJob (withFolio (folio [stage 4 0xFF]) rg))

/-- A RUN of a folio with a decode stage, its parameter block the built-in one. -/
def catJob : Job := { runJob with param := builtinParams }
def catWaiting : State :=
  { pools (withJob catJob (withFolio (folio [decodeStage]) rg)) with dram := grammarMem }

theorem runs_waiting : waiting.runs runJob (folio [stage 4 0xFF]) := by constructor <;> decide +kernel
theorem runs_catWaiting : catWaiting.runs catJob (folio [decodeStage]) := by constructor <;> decide +kernel

theorem wit_SeqSlotGrant :
    (waiting.invOk = true ∧ waiting.runs runJob (folio [stage 4 0xFF]) ∧ waiting.slotQueue = (runJob, 0) :: [] ∧
      dKind runJob.desc = 0 ∧ waiting.freeSeqSlots 0 4032 1 = some [0] ∧ (folio [stage 4 0xFF]).decode = none) ∧
    (catWaiting.invOk = true ∧ catWaiting.runs catJob (folio [decodeStage]) ∧ catWaiting.slotQueue = (catJob, 0) :: [] ∧
      catWaiting.freeSeqSlots 0 4032 1 = some [0] ∧ (folio [decodeStage]).decode.isSome = true ∧
      catWaiting.grammarOf (folio [decodeStage]) catJob.param = some (0, 0x208000, 4096) ∧
      gMask catWaiting.dram 0x208000 0 [] = [0x41, 0x42, 0x100] ∧
      ((after (.seqSlotGrant false 0 [0x280000]) catWaiting).seq? 0).bind (·.cat) =
        some { newCat 0x208000 0 0 with mask := some [0x41, 0x42, 0x100] }) :=
  ⟨⟨by decide +kernel, runs_waiting, by decide +kernel⟩, by decide +kernel, runs_catWaiting, by decide +kernel⟩

/-- RUNs of one entry of a sample list, at 5 MiB, which names 0xAB, and of one captured page-side, page 0 of transport 0. -/
def listJob (kind addr : Nat) : Job :=
  job (desc opRun [(6, 1, kind), (16, 8, addr), (24, 4, 8), (28, 2, 1), (30, 2, 64), (32, 8, 0x2000), (40, 4, 64)]) .running
def listed (held : List HeldSide) : State :=
  let s := pools (withJob (listJob 2 0x500000) (withFolio (folio [stage 4 0xFF]) rg))
  { s with dram := [(0x500000, 0xAB)], acc := { s.acc with held := held } }
def passed : State :=
  (pools (withJob (listJob 1 0) (withFolio (folio [stage 4 0xFF]) rg))).onTransport 0 fun x => { x with page := 1 }

theorem runs_listed (l : List HeldSide) (h : l = [] ∨ l = [⟨recPlanes rec0, false, 5, 0, true, 0, none, .held⟩]) :
    (listed l).runs (listJob 2 0x500000) (folio [stage 4 0xFF]) := by
  rcases h with rfl | rfl <;> constructor <;> decide +kernel
theorem open_listed : (listed []).openSeq (listJob 2 0x500000) 0 :=
  ⟨by decide +kernel, by decide +kernel, by decide +kernel, by unfold State.enginesFree; decide +kernel,
    by constructor <;> decide +kernel⟩
theorem open_passed : passed.openSeq (listJob 1 0) 0 :=
  ⟨by decide +kernel, by decide +kernel, by decide +kernel, by unfold State.enginesFree; decide +kernel,
    by constructor <;> decide +kernel⟩

theorem wit_SeqSlotGrant_held :
    (let s := listed [⟨recPlanes rec0, false, 5, 0, true, 0, none, .held⟩]
     s.invOk = true ∧ s.slotQueue = (listJob 2 0x500000, 0) :: [] ∧ dKind (listJob 2 0x500000).desc = 2 ∧
       s.freeSeqSlots 0 4032 1 = some [0] ∧ s.inputId (listJob 2 0x500000) 0 = 0xAB ∧
       s.heldMatch 0xAB = some ⟨recPlanes rec0, false, 5, 0, true, 0, none, .held⟩ ∧ s.planeRefused (folio [stage 4 0xFF]) 4 2 = false ∧
       (after (.seqSlotGrant false 2 [0x280000]) s).acc.held.map (·.claimedBy) = [some 7]) ∧
    ((listed []).invOk = true ∧ (listed []).heldMatch 0xAB = none ∧ (after (.seqSlotGrant false 2 []) (listed [])).jobs = []) ∧
    (passed.invOk = true ∧ passed.slotQueue = (listJob 1 0, 0) :: [] ∧ dKind (listJob 1 0).desc = 1 ∧ passed.captured? 0 = none ∧
      (after (.seqSlotGrant false 2 []) passed).jobs = []) := by decide +kernel

/-- A batch of page-side 0 whose planes are ready: one line of 8 positions from its top left corner. -/
def batch0 : Batch := { jobNumber := 7, number := 0, limit := 1, members := [0], packed := false, rows := [], granted := 0, encoded := [] }
def cropping : State :=
  let s := withSeq { seq0 runJob with planes := some { recPlanes rec0 with addr := 0x1000000 } } waiting
  { s with acc := { s.acc with batches := [batch0] } }
def packedRow : State := { withFolio (folio [stage 2 0xFF]) waiting with acc := { waiting.acc with batches := [{ batch0 with packed := true, rows := [0x1010000] }] } }

theorem runs_cropping : cropping.runs runJob (folio [stage 4 0xFF]) := by constructor <;> decide +kernel
theorem runs_packedRow : packedRow.runs runJob (folio [stage 2 0xFF]) := by constructor <;> decide +kernel

theorem wit_RowsPacked :
    (packedRow.invOk = true ∧ packedRow.runs runJob (folio [stage 2 0xFF]) ∧ packedRow.freeSeqSlots 4032 4096 1 = some [4032] ∧
      packedRow.acc.batches.find? (fun b => b.jobNumber = 7 && b.packed && decide (b.granted < b.rowRuns (folio [stage 2 0xFF]))) =
        some { batch0 with packed := true, rows := [0x1010000] } ∧
      ((after (.seqSlotGrant true 2 [0x280000]) packedRow).seq? 4032).isSome = true) ∧
    (cropping.invOk = true ∧ cropping.runs runJob (folio [stage 4 0xFF]) ∧
      cropping.acc.batches.find? (fun b => b.jobNumber = 7 && b.number = 0 && !b.packed) = some batch0 ∧
      (∀ i ∈ batch0.members, cropping.cropReady (folio [stage 4 0xFF]) 7 i = true) ∧
      (packRows (pageSegments 0 [⟨0, 0, 8⟩]) []).length = 1) :=
  ⟨⟨by decide +kernel, runs_packedRow, by decide +kernel⟩, by decide +kernel, runs_cropping, by decide +kernel⟩

/-- Two kept page-sides, one claimable and one of a job that still runs. -/
def keeping : State :=
  { rg with acc := { rg.acc with held := [⟨recPlanes rec0, false, 5, 0, true, 0, none, .held⟩, ⟨recPlanes rec0, false, 7, 0, false, 0, none, .held⟩] } }

theorem wit_KeepDrop :
    keeping.invOk = true ∧ keeping.dev.state ≠ .off ∧ keeping.dev.state ≠ .standby ∧ keeping.rst.fabricRelease = false ∧
      (after .keepDrop keeping).acc.held.map (·.jobNumber) = [7] := by decide +kernel

/-- A RUN fetched and not begun, on the BE ring 0 and on the LC ring 1. -/
def runHead (j : Job) (f : Folio) : State := pools (fetched j.sq j.desc (some 2) (withJob j (withFolio f rg)))
def beRun : Job := { runJob with phase := .queued }
def lcRunD (budget : Nat) : Bytes :=
  desc opRun [(12, 4, budget), (16, 8, 0x1000), (24, 4, 44), (28, 2, 1), (30, 2, 64), (32, 8, 0x2000), (40, 4, 64)]
def lcRun (budget : Nat) : Job := { runJob with phase := .queued, sq := 1, lc := true, desc := lcRunD budget }

theorem wit_Run_begins :
    (runHead beRun (folio [stage 4 0xFF])).Inv ∧ (runHead beRun (folio [stage 4 0xFF])).emb = false ∧
      (runHead beRun (folio [stage 4 0xFF])).ready 0 beRun.desc (some 2) ∧ (runHead beRun (folio [stage 4 0xFF])).slotJob 0 beRun.desc beRun ∧
      dOp beRun.desc = opRun ∧ (runHead beRun (folio [stage 4 0xFF])).runFault beRun.desc false true = none ∧
      (runHead beRun (folio [stage 4 0xFF])).jobFolio beRun = some (folio [stage 4 0xFF]) ∧ (folio [stage 4 0xFF]).decode = none ∧
      ((after (.run 0 []) (runHead beRun (folio [stage 4 0xFF]))).job? 2).map (·.phase) = some .running :=
  ⟨State.inv_of_ok _ (by decide +kernel), by decide +kernel, by constructor <;> decide +kernel, by constructor <;> decide +kernel,
    by decide +kernel⟩

theorem wit_Run_decodes :
    let s := runHead (lcRun 9) (folio [decodeStage])
    s.invOk = true ∧ s.runFault (lcRun 9).desc true true = none ∧ s.jobFolio (lcRun 9) = some (folio [decodeStage]) ∧
      (folio [decodeStage]).decode.isSome = true ∧ s.paramFault (folio [decodeStage]) builtinParams = none ∧
      ((after (.run 1 []) s).job? 2).map (·.phase) = some .admission := by decide +kernel

theorem ready_lc9 : (runHead (lcRun 9) (folio [decodeStage])).ready 1 (lcRun 9).desc (some 2) := by constructor <;> decide +kernel
theorem slot_lc9 : (runHead (lcRun 9) (folio [decodeStage])).slotJob 1 (lcRun 9).desc (lcRun 9) := by constructor <;> decide +kernel

/-- A folio without a default grammar refuses the built-in block; one without stages, or not loaded, refuses the RUN; LC with BUDGET 0. -/
theorem wit_Run_refused :
    (let f := { folio [decodeStage] with defaultGrammar := 0xFF }
     let s := runHead beRun f
     s.invOk = true ∧ s.paramFault f builtinParams = some (stResources, 0x200) ∧ (after (.run 0 []) s).job? 2 = none) ∧
    (let s := runHead beRun (folio [])
     s.invOk = true ∧ s.runFault beRun.desc false true = some (stResources, 5) ∧ (after (.run 0 []) s).job? 2 = none) ∧
    let s := runHead (lcRun 0) (folio [stage 4 0xFF])
    s.invOk = true ∧ s.runFault (lcRun 0).desc true true = some (stBound, 0) ∧ (after (.run 1 []) s).job? 2 = none := by decide +kernel

/-- An LC RUN of one GENERIC stage waits for its admission, with carrel 0 alone unfenced: Q is its 1,000 cycles and the 1,120 of
R476. -/
def admitting (budget : Nat) : State :=
  withRegs [(rErrFenceC 0, 0xFFFFFFFE), (rErrFenceC 1, 0xFFFFFFFF), (rErrFenceC 2, 0xFFFFFFFF), (rErrFenceC 3, 0xFFFFFFFF),
      (rErrFenceC 4, 0xFFFFFFFF), (rErrFenceC 5, 0xFFFFFFFF)]
    (withJob { lcRun budget with phase := .admission } (withFolio (folio [stage 4 0xFF]) rg))

/-- The plan: one run of stage 0 on carrel 0. -/
theorem plan_admitting (budget : Nat) (h : budget = 2120 ∨ budget = 2119) :
    (admitting budget).planJob (folio [stage 4 0xFF]) { lcRun budget with phase := .admission } = [(0, [0], 1000)] := by
  rcases h with rfl | rfl <;> decide +kernel

theorem wit_LcAdmission_admitted :
    (admitting 2120).invOk = true ∧ (admitting 2120).emb = false ∧ (admitting 2120).running = true ∧
      (admitting 2120).noCarrel (folio [stage 4 0xFF]) { lcRun 2120 with phase := .admission } = false ∧
      (admitting 2120).boundFault [(0, [0], 1000)] 2120 = none ∧
      (((after (.lcAdmission 2 0) (admitting 2120)).job? 2).bind (·.plan)).map (·.slack) = some 0 := by decide +kernel

theorem wit_LcAdmission_refused :
    (admitting 2119).boundFault [(0, [0], 1000)] 2119 = some 0 ∧ (after (.lcAdmission 2 0) (admitting 2119)).job? 2 = none := by
  decide +kernel

theorem wit_LcAdmission_noCarrel :
    let s := withRegs [(rErrFenceC 0, 0xFFFFFFFF)] (admitting 2120)
    s.invOk = true ∧ s.noCarrel (folio [stage 4 0xFF]) { lcRun 2120 with phase := .admission } = true ∧
      (after (.lcAdmission 2 0) s).job? 2 = none := by decide +kernel

/-! ### Capture -/

/-- A CAPTURE_CONFIG descriptor with an action for the transports of a mask. -/
def captureD (action mask : Nat) : Bytes :=
  desc opCapture ([(5, 1, action), (6, 1, mask)] ++ if action = 0 then [(16, 8, 0x4000), (24, 4, 176)] else [])

/-- A configuration block: transport 0 takes 4 rows of 4 pixels from channel 0 of port 0. -/
def configBlock (filter : Nat) : Bytes :=
  let b := fields 176 [(0, 4, 0x46434C43), (4, 1, 1), (18, 2, 4), (20, 4, 0x10000), (34, 2, 1), (36, 2, 4), (40, 1, filter), (41, 1, 255),
    (150, 1, 1), (151, 1, 1), (158, 2, 4), (160, 1, 8), (161, 1, 1), (164, 1, 12)]
  b.take 8 ++ toLe 4 (crc32c (b.drop 16)) ++ b.drop 12

def capJob (action mask : Nat) : Job := job (captureD action mask) .queued
def capHead (action mask : Nat) : State :=
  pools (fetched 0 (captureD action mask) (some 2) (withJob (capJob action mask) rg))

theorem ready_capture (a : Nat) (h : a = 0 ∨ a = 1 ∨ a = 2 ∨ a = 3) : (capHead a 1).ready 0 (captureD a 1) (some 2) := by
  rcases h with rfl | rfl | rfl | rfl <;> constructor <;> decide +kernel
theorem slot_capture (a : Nat) (h : a = 0 ∨ a = 1 ∨ a = 2 ∨ a = 3) : (capHead a 1).slotJob 0 (captureD a 1) (capJob a 1) := by
  rcases h with rfl | rfl | rfl | rfl <;> constructor <;> decide +kernel
theorem cqOpen_capture : (capHead 0 1).cqOpen ((capHead 0 1).cqFor 0 (captureD 0 1)) := by constructor <;> decide +kernel

theorem wit_Commit :
    (capHead 0 1).invOk = true ∧ dOp (captureD 0 1) = opCapture ∧ dAction (captureD 0 1) = 0 ∧ dSelected (captureD 0 1) = [0] ∧
      blockFault (configBlock 1) 176 0x100000 [0] = none ∧ blockFault (configBlock 0) 176 0x100000 [0] = some 40 ∧
      65536 * (capHead 0 1).colGranules = 0x100000 ∧ (capHead 0 1).hostBytes 0x4000 176 (configBlock 1) = configBlock 1 ∧
      (after (.commit 0 (configBlock 1)) (capHead 0 1)).col.queue.length = 1 ∧
      (after (.commit 0 (configBlock 0)) (capHead 0 1)).job? 2 = none := by decide +kernel

/-- A STOP that selects no transport ends at once. -/
theorem wit_StopNothing :
    (capHead 3 0).invOk = true ∧ dAction (captureD 3 0) = 3 ∧ dSelected (captureD 3 0) = [] ∧
      (after (.stop 0) (capHead 3 0)).job? 2 = none := by decide +kernel
theorem ready_stopNothing : (capHead 3 0).ready 0 (captureD 3 0) (some 2) := by constructor <;> decide +kernel

theorem wit_StopAndCalibrate :
    ((capHead 3 1).invOk = true ∧ dAction (captureD 3 1) = 3 ∧ dSelected (captureD 3 1) ≠ [] ∧
      (after (.stop 0) (capHead 3 1)).col.queue.length = 1) ∧
    ((capHead 1 1).invOk = true ∧ dAction (captureD 1 1) = 1 ∧ (after (.calibrateDark 0) (capHead 1 1)).col.calib.length = 1) ∧
    ((capHead 2 1).invOk = true ∧ dAction (captureD 2 1) = 2 ∧ (after (.calibrateWhite 0) (capHead 2 1)).col.calib.length = 1) := by
  decide +kernel

/-- One source of 4 pixels, and transports fed by it. -/
def src0 (port : Nat) : Source :=
  { port := port, vc := 0, transport := 0, side := 0, channelIn := 0, plane := 0, ratioY := 1, ratioX := 1, off := 0, xDest := 0,
    pixels := 4, sampleBits := 8, channels := 1, minLine := 0, mclkDiv := 12, kind := 0 }
def cfgOf (frame : Bool) (port : Nat) : TransportCfg :=
  { frameMode := frame, dir := false, leadHigh := true, dfeedHigh := true, ilkClosedHigh := true, maxRows := 4, pitch := 65536,
    topQc := 0, tailQc := 0, revLim := 100, stallLim := 1, width0 := 4, width1 := 0, filter := 1, whiteTarget := 255,
    sources := [src0 port], strobes := [] }
def withTransport (m : Nat) (x : Transport) (s : State) : State := s.onTransport m fun _ => x
def lineT : Transport := { Transport.reset with cfg := some (cfgOf false 0) }
def frameT : Transport := { Transport.reset with cfg := some (cfgOf true 8) }

def applying : State :=
  let s := withJob { capJob 0 8 with phase := .capture } rg
  { s with col := { s.col with queue := [(2, [3], [(3, some (cfgOf false 0))])] } }

theorem cqOpen_applying : applying.cqOpen (applying.cqFor 0 (captureD 0 8)) := by constructor <;> decide +kernel

theorem wit_ConfigApply :
    applying.invOk = true ∧ applying.dev.state ≠ .off ∧ applying.colUp = true ∧ (applying.transport 3).sides = [] ∧
      applying.col.queue = [(2, [3], [(3, some (cfgOf false 0))])] ∧ applying.captureBlocked 2 = false ∧
      ((after (.configApply 3) applying).transport 3).cfg = some (cfgOf false 0) ∧ (after (.configApply 3) applying).job? 2 = none := by
  decide +kernel

/-- A calibration of transport 0 in slot 2: waiting, or under way with its one line still to come or come. -/
def calibrating (white : Bool) (k : Calib) : State :=
  let s := withTransport 0 lineT (withJob { capJob (if white then 2 else 1) 1 with phase := .calibrating } rg)
  { s with col := { s.col with calib := [k] } }
def calWait (white : Bool) : Calib := ⟨2, white, 0, [0], false, [], []⟩
def calRun (white : Bool) (lines : Nat) (sums : List Nat) : Calib := ⟨2, white, 0, [0], true, [⟨0, 0, lines, 0, sums⟩], []⟩

theorem wit_CalibrationStart :
    let s := calibrating false (calWait false)
    s.invOk = true ∧ s.dev.state ≠ .off ∧ s.colUp = true ∧ s.calib? 2 = some (calWait false) ∧ s.captureBlocked 2 = false ∧
      (∀ m ∈ (calWait false).transports, (s.transport m).sides = []) ∧
      ((after (.calibrationStart 2) s).calib? 2).map (·.started) = some true := by decide +kernel

theorem wit_CalLineTrigger :
    let s := calibrating false (calRun false 0 [])
    s.invOk = true ∧ s.calib? 2 = some (calRun false 0 []) ∧ s.calTriggers (calRun false 0 []) 0 = [⟨0, 0, 0, true⟩] ∧
      s.calTriggers (calRun false 0 []) 7 = [] ∧ (after (.calLineTrigger 2) s).out = [.lsync 0] := by decide +kernel

/-- A white line of which pixel 3 stays at the dark level: one dead pixel. -/
theorem wit_CalibrationDone :
    let s := calibrating true (calRun true 1 [200, 201, 202, 0])
    s.invOk = true ∧ s.calib? 2 = some (calRun true 1 [200, 201, 202, 0]) ∧ (s.transport 0).sources[0]? = some (src0 0) ∧
      ((s.transport 0).cfg.map (·.frameMode)).getD false = false ∧ (after (.calibrationDone 2) s).job? 2 = none ∧
      (after (.calibrationDone 2) s).refsOf 0 0 8 1 = (0, 201) ∧ (after (.calibrationDone 2) s).deadPixels 0 0 = 1 := by decide +kernel

theorem slot_calibrating :
    (calibrating true (calRun true 1 [200, 201, 202, 0])).slotJob 0 (captureD 2 1) { capJob 2 1 with phase := .calibrating } ∧
      (calibrating true (calRun true 1 [200, 201, 202, 0])).cqOpen 3 := by
  constructor <;> constructor <;> decide +kernel

/-- An open page-side on side 0, with room of one granule. -/
def open0 : OpenSide := ⟨sampleId 8 0 0, 0, 0x2000000, [], [], 0, 0, 0⟩
def ready0 : State := pools (withTransport 0 { lineT with page := 8, pos := 5, ilkClosed := true } rg)
def opened (x : Transport) : State :=
  let s := pools (withTransport 0 { x with page := 9, sides := [open0] } rg)
  { s with col := { s.col with pool := [⟨0, 1, .capture (sampleId 8 0 0), 1⟩] } }

theorem wit_LeadAssert :
    (ready0.invOk = true ∧ ready0.dev.state ≠ .off ∧ (ready0.transport 0).cfg = some (cfgOf false 0) ∧ ready0.colUp = true ∧
      (ready0.transport 0).sides = [] ∧ (∀ k ∈ ready0.col.calib, k.started = true → 0 ∉ k.transports) ∧
      (∃ x ∈ (cfgOf false 0).sources, x.side = 0) ∧ (∀ x ∈ (cfgOf false 0).sources, x.side = 0) ∧
      ((after (.leadAssert 0) ready0).transport 0).page = 9 ∧ ((after (.leadAssert 0) ready0).transport 0).sides.length = 1) ∧
    (let s := withRegs [(rColPoolSize, 0)] ready0
     s.invOk = true ∧ firstRun s.colGranules (granules ((cfgOf false 0).setBytes 0 4)) (poolRuns s.col.pool) = none ∧
       (after (.leadAssert 0) s).regB (rColTEvent 0) 8 = true) ∧
    ((rg.transport 3).cfg = none ∧ ((after (.leadAssert 3) rg).transport 3).page = 0) := by decide +kernel

theorem wit_OpenSideEvents :
    let s := opened lineT
    s.invOk = true ∧ s.colUp = true ∧ (s.transport 0).sides ≠ [] ∧ (s.transport 0).pTrail = none ∧
      (s.transport 0).cfg = some (cfgOf false 0) ∧ ((after (.leadDeassert 0) s).transport 0).pTrail = some 0 ∧
      (after (.dfeedAssert 0) s).regB (rColTEvent 0) 0 = true ∧ (after (.stallLimit 0) s).regB (rColTEvent 0) 1 = true ∧
      ((opened frameT).transport 0).cfg = some (cfgOf true 8) ∧ (opened frameT).invOk = true ∧
      ((after (.leadDeassert 0) (opened frameT)).transport 0).pTrail = none := by decide +kernel

theorem wit_EncoderAndLamps :
    (encPhase true false + 4 - encPhase (rg.transport 3).encA (rg.transport 3).encB) % 4 = 1 ∧ rg.colUp = true ∧
      ((after (.encEdge 3 true false) rg).transport 3).pos = 1 ∧ true ≠ (rg.transport 3).encA ∧ true ≠ (rg.transport 3).encB ∧
      (after (.encEdge 3 true true) rg).regB (rColTEvent 3) 6 = true ∧
      (let s := { rg with col := { rg.col with lamps := rg.col.lamps.set 15 (.delay true 0) } }
       s.invOk = true ∧ s.col.lamps[15]? = some (.delay true 0) ∧ (after (.strobeOn 15) s).col.lamps[15]? = some (.high true 0) ∧
         (after (.ilkOpen 0) s).col.lamps[15]? = some .idle) ∧
      (let s := { rg with col := { rg.col with lamps := rg.col.lamps.set 15 (.high false 0) } }
       s.invOk = true ∧ s.col.lamps[15]? = some (.high false 0) ∧ (after (.strobeOff 15) s).col.lamps[15]? = some .idle ∧
         (after (.ilkOpen 0) s).col.lamps[15]? = some (.high false 0)) ∧
      ((after (.ilkClose 3) rg).transport 3).ilkClosed = true := by decide +kernel

/-- CRC-16 of the digits 1 to 9, the check value of R157's code. -/
theorem test_crc16 : crc16 0xFFFF [0x31, 0x32, 0x33, 0x34, 0x35, 0x36, 0x37, 0x38, 0x39] = 0x29B1 := by decide +kernel

/-- A line frame of version 1.0: one channel of four 8-bit pixels, LINE_SEQ 5. -/
def frame5 : Bytes :=
  let h := fields 12 [(0, 1, 0x10), (1, 1, 1), (2, 1, 8), (4, 2, 4), (6, 2, 5)]
  h ++ toLe 2 (crc16 0xFFFF h) ++ [0, 0, 10, 20, 30, 255]

def asked : State := (opened lineT).onLsp 0 fun l => { l with outstanding := [⟨0, 0, 2, false⟩] }

theorem wit_LineFrame :
    (asked.invOk = true ∧ asked.colUp = true ∧ lfHeaderOk frame5 = true ∧ asked.regF rHlkVerAgree1 16 8 ≤ lfVer frame5 ∧
      lfVer frame5 ≤ asked.regF rHlkVerAgree1 24 8 ∧ lfTrailerOk frame5 = true ∧ lfTest frame5 = false ∧ (asked.lsp 0).muted = false ∧
      (∀ e ∈ asked.portSources 0, frameFits frame5 e.2 = true) ∧ (asked.lsp 0).outstanding = [⟨0, 0, 2, false⟩] ∧
      (asked.lsp 0).lastSeq = none ∧ (cfgOf false 0).sources[0]? = some (src0 0) ∧ (asked.transport 0).sides = [open0] ∧
      open0.side = (src0 0).side ∧ ((after (.lineFrame 0 frame5) asked).lsp 0).lastSeq = some 5) ∧
    (lfHeaderOk (frame5.set 0 0x11) = false ∧ (after (.lineFrame 7 (frame5.set 0 0x11)) asked).regF (rColLspErr 7) 0 8 = 1) ∧
    (let s := asked.onLsp 7 fun l => { l with deferred := [[⟨0, 0, 3, false⟩]], inMinLine := true }
     (s.lsp 7).deferred = [⟨0, 0, 3, false⟩] :: [] ∧ ((after (.lineTriggerDeferred 7) s).lsp 7).outstanding = [⟨0, 0, 3, false⟩]) ∧
    ((asked.lsp 6).deferred = [] ∧ (after (.lineTriggerDeferred 6) asked).out = []) := by decide +kernel

/-- Frame mode: the start of a frame, its lines and its end on port 8, virtual channel 0. -/
theorem wit_Frames :
    (let s := pools (withTransport 0 { frameT with page := 8 } rg)
     s.invOk = true ∧ s.dev.state ≠ .off ∧ s.colUp = true ∧ (s.transport 0).cfg = some (cfgOf true 8) ∧ s.col.calib = [] ∧
       (∀ k, k < 4 → k ≠ 0 → (s.transport k).csiSources 0 0 = []) ∧
       (((s.transport 0).csiSources 0 0).map (·.2.side)).eraseDups = [0] ∧ (s.transport 0).sides = [] ∧
       firstRun s.colGranules (granules ((cfgOf true 8).setBytes 0 4)) (poolRuns s.col.pool) ≠ none) ∧
    let s := opened frameT
    s.invOk = true ∧ s.colUp = true ∧ (∀ k, k < 4 → k ≠ 0 → (s.transport k).csiSources 0 0 = []) ∧
      (((s.transport 0).csiSources 0 0).map (·.2.side)).eraseDups = [0] ∧ (s.transport 0).sides = [open0] ∧ open0.side = 0 ∧
      csiBits 0x2A = some (src0 8).sampleBits ∧ (s.transport 0).csiSources 0 0 = [(0, src0 8)] ∧ csiLen 0x2A 4 ≤ 4 ∧
      ((after (.csiLine 0 0 0x2A [9, 8, 7, 6] 1 true) s).transport 0).sides.map (·.lines) = [[(0, 0, [9, 8, 7, 6])]] ∧
      ((after (.frameEnd 0 0) s).transport 0).sides = [] := by decide +kernel

theorem wit_AbortAndDrop :
    let s := opened lineT
    s.dev.state ≠ .off ∧ s.dev.state ≠ .standby ∧ s.rst.fabricRelease = false ∧ ((after (.abort 0) s).transport 0).sides = [] ∧
      (after (.abort 0) s).acc.held.map (·.fate) = [.aborted] ∧
      ((after (.colTDrop 0 8) (after (.abort 0) s)).acc.held = []) ∧ ((after (.colTDrop 0 7) (after (.abort 0) s)).acc.held.length = 1) := by
  decide +kernel

/-! ### Host link, register map, management port, host boot and recovery -/

/-- The modulus of a key pair made for these tests; its private half signed the signatures below. -/
def testModulus : Nat := 0xa613cde36e2cc58907428085602cad144b325e4b4cb7cea126802130c54c7b05d42523ea2c28510a35153ba00a6b524bb29e7473431504ed24cfa2cc7d7c9e9e75d9bfd5f715596564f888b62dfc038bf592f640f78de57f2e280afa1231018e6f3ea95b1c21e6070243db7839d8fb6bfd7b534a37ffa03d02490ba4f896a146c9ed2835041d72ec8217458d619d8c4eee4ca0be18fe9a3d2b9bf867290155e838d18d5633243814502105a7c9ce5073ea772e67dddc221de408375f87c43cbdb206c580e1aee51f0a8ee20c7e82a8e1611d5b932f7c7c8a432ffc5eba010719551a6862b99fee25218095739cbd6bb81dda4fbc0d9b2ac701afa2a0cde4feabb51f799e4519e54f43250bd1f54c90a8ef9a68538293e1a491f309b1aea733e5d3cc2b9248a81c46baf3a960c373fe70e7933a7cefa3bfef0885bb305d41bd0a0a3afec0c764e539035a3cd0b2c9451abcae31916216db5ec6ad254145cae92cf80f12dd45fc9f12c8dcfb3faf89ea3b99779126216be3db43ac023e74ebc169

/-- SHA-256 of the modulus and the exponent: what OTP holds as the hash of key 0. -/
def testKeyHash : Bytes := toBe 32 0x4ca20523d09de2e660efa65cea0b1e43ccf3df0a4491f0e4d2ef78d3717d8616

/-- A signature block of key 0 with a signature. -/
def sigBlock (signature : Nat) : Bytes := zeros 4 ++ toBe 384 testModulus ++ toLe 4 65537 ++ toBe 384 signature

/-- A Penuo image of SVN 5 without code, signed with salt 0 to 31. -/
def imageHead : Bytes := fields 64 [(0, 4, 0x554E4550), (4, 1, 0x10), (5, 1, 5), (8, 4, 896), (12, 4, 64)]
def image : Bytes :=
  imageHead ++ sigBlock 0x2c6d4d1e0892a358799c9bc773a108229be4bab4f05a353d8844eb8c5a2803c18e278ad3f2ced6089bf5c0473025732406df5e3f43c2e416ccd032c61f0e24b04b4407120b25b3394f652d14a200de0cee73261f585cd3d8bab97e56ed9f303c133b466cf958b35818cc1053c4244d206e134aab573724e827280bba551de5ded14c498824c4681a62ba979fe7407f07152539d7aa1080f34f37a8eaf2aad4850755e5cf37c61081f39ec3af950e76cfd06ad896405fb8bc3b365fdc7167bb2f500de8ef35748da06e438c93abb0e3a0b329a6dfcdaaca3828202bc67acf1ca0c47ba664a57fd7fee70f0f53f1993990790e562602e856234761a72141519979df837ac6081cdb05dcabc90368175eccbfdc19a10d951c51597edc2617e5a05dddb3f1a8c3b46563fad1c9a9f8f127ac9906c9cfd99e1b48ca15d038c8679001b93327efc490c17c99986af9a803c0a614e8e43f76a1b586f2b7dbad36d78c2e9c2a375342b0103346fa97b6c144899a050efc489fd9e3bffbf9bf2ce6471f0e ++ zeros 56

/-- The answer to a challenge of 48 zero bytes with SCOPE 7. -/
def debugBlock : Bytes :=
  sigBlock 0x8a9e4253077dd8ead1d2b2863c0ebc04c0be6a8ca4d6d1d6db01507a4d12d4e180db3981be921d7b9a609ebadba5695e3b9d21bf5a56884e687af41c521b3e93a6eb0f41b8b2b71eac7e5d65a311e0671ec06f4e8459a9eb5e34083b85f93b7936c5edae5567e50ed49b14074800d820afb43f232ab31dc9016cc4c705dbe9ad5e988717fe7a000f98387ea35c384a7fa733915366b0f2c50d679a30dcb075792bc5d98c4d9e7d18cf6036ed4306fd30bd610a47a1ea20f33fb2a7e3661e2b61f515ce7fa8be2ecd631bafadd42031f34b0210784e44ec003b6c47fcbe514274f157e9774e6235388b63f79af9c1428c43ec1d0c5dc94afb34c5ec3ebe328e514e647b697fcd6b3a36179b49f9001aeae24084519a410e9910c8efa79f32180f42910e62a9f19ce722675468ba67e2ff2e687a18392e963a7c671f970128a4157c4af25cb1a433d12e3b973950e5e9727ba6967e5394a17c317267ea0934def4628509d0f6524c427173fcbcb548f33931071b7617a854505a86cb07197c31fd

/-- A folio image of one GENERIC stage whose list is a NOP and a FENCE. -/
def folioHead : Bytes :=
  fields 256 [(0, 4, 0x4F494C46), (4, 1, 0x20), (6, 2, 3), (8, 4, 1088), (12, 1, 1), (14, 1, 255), (32, 2, 1),
    (64, 1, 1), (68, 4, 128), (72, 4, 64), (80, 1, 4), (84, 4, 192), (88, 4, 64), (96, 1, 12), (100, 4, 256), (104, 4, 776),
    (128, 1, 4), (129, 1, 255), (130, 1, 1), (136, 2, 2), (138, 1, 1), (152, 4, 100), (159, 1, 255),
    (193, 1, 2), (224, 1, 13), (225, 1, 2), (228, 1, 15)]
def folioImage : Bytes :=
  folioHead ++ sigBlock 0x4ceeb7882e278684819b363367f4721ff7083ef738ab7c528f5cccb121ec2a1fc158e5b672265dcfeb79d6da8f801aa6ebcd1288447c5bbf0dac4c823b8e49a6e5c5a0a129b7278a56c61fca822c37bacd2aef180fa2a3b0f0d0a5c87c09ae1499895a6ca7f2b6f9cf6283d24877edba86bf6c0369f9408fca6c27bbd88b8c18366933ac799ae1a5c69ed22957f4dfda9564c41f0e8b04aac8aac99440722e27f5d7da9514df77b7bc37ebe46242151141ee500d94084e03990f35012a596578e46e44df982eb6079b07e253cf3cc05151ce7983c7079c62b2f5b2ce053cd6db9ec306ac131b5b9a78a9dbd22e45bc3e8d9fd317176fac73a873757c6af2453755f7062762f9458a67965e34c75077eeba7a20f38261eb3ffa0c55016f9d8bf278c81330e2b969a7cda3ea41dd59456c2d34cc813fa08405f611422630af3df57cfba3889f16baeab6ca3bdb6d3f8e612863b0d57f85e9e65a5b45cf85230ba9699906c4fdb2525bfd8e99c10970186625b18e16ba08bad3680f66a78afd31b7 ++ zeros 56

/-- OTP with the key hash alone, and SVN floor 0. -/
def otpKey : Mem := Mem.write [] 0 testKeyHash

/-- A memory that holds the image from an address. -/
def imageMem (a : Nat) : Mem := Mem.write [] a image

theorem image_length : image.length = 896 := by decide +kernel

theorem imageMem_read (a : Nat) : (imageMem a).read a 896 = image := by
  rw [← image_length]
  exact Mem.read_write image [] a rfl

theorem imageMem_wf (a : Nat) : (imageMem a).wf = true := Mem.write_wf image [] a rfl

/-- OTP holds the test key's hash. -/
def keyed (s : State) : State := { s with sec := { s.sec with otp := otpKey } }

/-- The signature of RSASSA-PSS made outside Lean verifies, and with one byte of the image changed it does not (R570, R575). -/
theorem test_image_verifies : (keyed svc).imgOk image 896 = true := by decide +kernel
theorem test_image_tampered : (keyed svc).imgOk (image.set 5 6) 896 = false := by decide +kernel
theorem test_debugBlock_verifies : (keyed svc).verify debugBlock (zeros 48 ++ [7, 0, 0, 0, 0, 0, 0, 0]) = true := by decide +kernel

/-- SHA-256 of the empty message (FIPS 180-4, which R570 names). -/
theorem test_sha256_empty : beNat (sha256 []) = 0xe3b0c44298fc1c149afbf4c8996fb92427ae41e4649b934ca495991b7852b855 := by
  decide +kernel

theorem wit_LinkEvents :
    svc.dev.state ≠ .off ∧ svc.dev.state ≠ .closedStacks ∧ svc.emb = false ∧ svc.allRun ∧ svc.rst.units ≠ [] ∧
      svc.rst.fabricRelease = false ∧ svc.dev.req = none ∧ (after .linkLoss svc).link.up = false ∧
      (∀ u ∈ (after .flr svc).rst.units, u.phase = .idleReq) ∧
      (let s := withRegs [(rMgtEmb, 1)] svc
       s.emb = true ∧ (after .hotReset s).link.up = false ∧ (∀ u ∈ (after .perstNAssert s).rst.units, u.phase = .run)) := by
  unfold State.allRun; decide +kernel

/-- In closed-stacks mode, with every unit held, a link event is logged and leaves the part there. -/
theorem wit_LinkEvents_closed :
    let s := { inState .closedStacks svc with rst := { svc.rst with units := allUnits.map fun u => ⟨u, .held, 4, 0⟩ } }
    s.dev.state = .closedStacks ∧ s.emb = false ∧ s.rst.asserted = [] ∧ s.rst.epOpen = false ∧ (∀ u ∈ s.rst.units, u.phase = .held) ∧
      .spine ∈ s.rst.units.map (·.unit) ∧ (after .hotReset s).rst.logSeq = 1 ∧ (after .hotReset s).dev.state = .closedStacks := by
  decide +kernel

theorem wit_LinkUp :
    let s := { svc with link := { svc.link with up := false } }
    s.dev.state ≠ .off ∧ s.link.perstLow = false ∧ s.link.txActive = true ∧ s.link.up = false ∧ (after (.linkUp 5 8) s).link.up = true ∧
      (after (.deviceControlWrite 2 4096 true) s).link.mps = 2 ∧ (after .perstNRelease s).link.perstLow = false := by decide +kernel

theorem wit_Bar4 :
    svc.Inv ∧ svc.dev.state ≠ .off ∧ svc.dev.state ≠ .standby ∧ svc.link.bar4 = true ∧ svc.bar4Locked = false ∧
      svc.regF rHlkBar4Base 0 8 * 2 ^ 28 + 0x100 + 2 ≤ svc.dramBytes ∧
      (after (.bar4Access false 0x100 2 []) (after (.bar4Access true 0x100 0 [7, 8]) svc)).out = [.bar4Data [7, 8]] ∧
      (let s := withRegs [(rRstStart, 1)] svc
       s.invOk = true ∧ s.link.bar4 = true ∧ s.bar4Locked = true ∧ (after (.bar4Access false 0 2 []) s).out = [.bar4Data [0xFF, 0xFF]]) :=
  ⟨inv_svc, by decide +kernel⟩

theorem wit_StandbyWrites :
    (asleep svc).dev.state = .standby ∧ (asleep svc).dev.req = none ∧ (asleep svc).memOk = true ∧
      (after (.registerWrite 0x5000 [(1, 15)]) (asleep svc)).link.waiting = [.write 0x5000 [(1, 15)]] ∧
      (after (.ringEnable (.cq 3) 9) (asleep svc)).link.waiting = [.write (rRingCqCtrl 3) [(9, 15)]] ∧
      (after .ldgDeviceUjLoRead (asleep svc)).link.waiting = [.ujRead] ∧
      (after .keepDrop (asleep svc)).link.waiting = [.write rAccKeep [(0x10000, 15)]] ∧
      (after (.abort 3) (asleep svc)).link.waiting = [.write (rColTCtrl 3) [(1, 15)]] ∧
      (after (.deviceControlWrite 1 512 false) (asleep svc)).link.waiting = [.deviceControl 1 512 false] ∧
      (after (.bar0AtomicOp 0 8) (asleep svc)).link.waiting = [.atomic 0 8] ∧ (after (.bar0AtomicOp 0 8) (asleep svc)).out = [] ∧
      (after (.bar4Access false 0 2 []) (asleep svc)).link.waiting = [.bar4 false 0 2 []] := by decide +kernel

/-- A register write that enables ring 1 and a kick of it, both from STANDBY, are served in that order at the wake (R36). -/
theorem test_kick_behind_enable :
    let s := asleep (withRegs [(rRingSqCtrl 1, 6 * 2 + 8 * 64 + 3 * 2 ^ 15)] rg)
    let t := after .wakeComplete (after (.kick 4) (after (.ringEnable (.sq 1) (1 + 6 * 2 + 8 * 64 + 3 * 2 ^ 15 : Word)) s))
    s.ringEn (.sq 1) = false ∧ t.dev.state = .service ∧ t.ringEn (.sq 1) = true ∧ (t.sq 1).reading = true := by decide +kernel

theorem wit_RegisterWrites :
    svc.Inv ∧ svc.dev.state ≠ .off ∧ svc.dev.state ≠ .standby ∧ svc.rst.fabricRelease = false ∧ rSchPolicy % 4 = 0 ∧
      regRow? rSchPolicy = some ⟨0x5000, 1, 0x3, 0, 0, 0, 0x2⟩ ∧
      (after (.registerWrite rSchPolicy [(0xFFFFFFFF, 15)]) svc).reg rSchPolicy = 3 ∧
      (after (.registerWrite rSchPolicy [(1, 7)]) svc).reg rSysAccess = 0x50000001 ∧ regRow? 0xFFFC = none ∧ isMsixOffset 0xFFFC = false ∧
      (after (.registerWrite 0xFFFC [(1, 15)]) svc).reg rSysAccess = 0xFFFC0002 :=
  ⟨inv_svc, by decide +kernel⟩

theorem wit_Locked :
    let s := withRegs [(rSysLock, 1)] svc
    s.invOk = true ∧ s.locked = true ∧ (after .sysLock svc).locked = true ∧
      (after (.registerWrite rClkArith [(2, 15)]) s).reg rSysAccess = 0x18440004 ∧ (after (.registerWrite rClkArith [(2, 15)]) s).reg rClkArith = 0 := by
  decide +kernel

theorem wit_AtomicOps :
    svc.dev.state ≠ .off ∧ svc.dev.state ≠ .standby ∧ svc.dev.power ≠ .readyIdle ∧ (after (.bar0AtomicOp 0 0) svc).out = [.unsupportedRequest] ∧
      (let s := { svc with dev := { svc.dev with power := .readyIdle } }
       s.dev.state ≠ .off ∧ s.dev.power = .readyIdle ∧ (after (.bar0AtomicOp 0 0) s).dev.power = .exiting) := by decide +kernel

/-- Narrower ranges that are agreed, and one that the advertised range does not hold. -/
theorem wit_VersionAgreement :
    svc.Inv ∧ svc.dev.state ≠ .off ∧ svc.dev.state ≠ .standby ∧ svc.locked = false ∧ (∀ n, n < 64 → svc.ringEn (.sq n) = false) ∧
      (∀ k ∈ [0, 16], ¬(wbits 0x11101310#32 (k + 8) 8 < wbits 0x11101310#32 k 8 ∨ wbits 0x11101310#32 k 8 < wbits (svc.reg rHlkVerCap0) k 8 ∨
        wbits (svc.reg rHlkVerCap0) (k + 8) 8 < wbits 0x11101310#32 (k + 8) 8)) ∧
      (after (.hlkVerAgreeWrite false 0x11101310) svc).ronvelHi = 0x13 ∧
      (after (.hlkVerAgreeWrite false 0x11101410) svc).regB rHlkStatus 13 = true ∧
      rg.invOk = true ∧ (after (.hlkVerAgreeWrite false 0x11101310) rg).ronvelHi = 0x10 :=
  ⟨inv_svc, by decide +kernel⟩

theorem wit_EmbeddedMode :
    svc.Inv ∧ svc.locked = false ∧ (∀ r ∈ allSqs ++ allProds, svc.ringEn r = false) ∧ wbit 1 0 ≠ svc.emb ∧
      (after (.mgtEmbWrite 1) svc).emb = true ∧ wbit 1 0 ≠ rg.emb ∧ ringValid .err = true ∧ rg.ringEn .err = true ∧
      (after (.mgtEmbWrite 1) rg).regB rMgtEmb 1 = true ∧ (after (.mgtEmbWrite 1) rg).emb = false :=
  ⟨inv_svc, by decide +kernel⟩

theorem wit_Wakes :
    ((asleep rg).Inv ∧ (asleep rg).dev.state = .standby ∧ (asleep rg).dev.req = none ∧
      (after .hostAccessWake (asleep rg)).regB rPwrWakeCause 0 = true ∧ (after (.mgtWake 0) (asleep rg)).regB rPwrWakeCause 1 = true) ∧
    let s := { rg with dev := { rg.dev with req := some .standby } }
    s.invOk = true ∧ s.dev.state = .service ∧ s.dev.req = some .standby ∧ (after (.mgtWake 0) s).regB rSysState 10 = true :=
  ⟨⟨State.inv_of_ok _ (by decide +kernel), by decide +kernel⟩, by decide +kernel⟩

/-- The ROM waits for the host's image, or verifies one of 896 bytes that stands at the start of DRAM. -/
def romWaits (st : Nat) : State :=
  withRegs [(rHlkBoot, st * 2 ^ 29)] { inState .bringUp (keyed svc) with dev := { svc.dev with state := .bringUp, hostBoot := true, hostLen := 896 } }
def romVerifies : State := { romWaits 1 with dram := imageMem 0 }

theorem inv_romWaits (st : Nat) (h : st = 0 ∨ st = 1 ∨ st = 2 ∨ st = 3) : (romWaits st).Inv := by
  rcases h with rfl | rfl | rfl | rfl <;> exact State.inv_of_ok _ (by decide +kernel)

theorem inv_romVerifies : romVerifies.Inv :=
  ⟨{ (inv_romWaits 1 (by decide)).mem with dram := imageMem_wf 0 }, { (inv_romWaits 1 (by decide)).numbers with },
    { (inv_romWaits 1 (by decide)).apart with }⟩

theorem wit_HostBoot :
    (romWaits 0).Inv ∧ (romWaits 0).dev.state = .bringUp ∧ (romWaits 0).dev.hostBoot = true ∧ (romWaits 0).rst.fabricRelease = false ∧
      (romWaits 0).regF rHlkBoot 29 2 = 0 ∧ (after (.hostBootGo 896) (romWaits 0)).regF rHlkBoot 29 2 = 1 ∧
      (romWaits 3).regF rHlkBoot 29 2 = 3 ∧ (after (.hostBootGo 896) (romWaits 3)).regF rHlkBoot 29 2 = 1 ∧
      (romWaits 2).regF rHlkBoot 29 2 = 2 ∧ (after (.hostBootGo 896) (romWaits 2)).regF rHlkBoot 29 2 = 2 ∧
      (romWaits 1).imgOk ((romWaits 1).dramRead 0 (romWaits 1).dev.hostLen) 896 = false ∧
      (after .hostBootVerifyDone (romWaits 1)).regF rHlkBoot 29 2 = 3 :=
  ⟨inv_romWaits 0 (by decide), by decide +kernel⟩

theorem wit_HostBoot_accepted :
    romVerifies.Inv ∧ romVerifies.dev.state = .bringUp ∧ romVerifies.dev.hostBoot = true ∧ romVerifies.rst.fabricRelease = false ∧
      romVerifies.regF rHlkBoot 29 2 = 1 ∧ romVerifies.imgOk (romVerifies.dramRead 0 romVerifies.dev.hostLen) romVerifies.dev.hostLen = true := by
  refine ⟨inv_romVerifies, by decide +kernel, by decide +kernel, by decide +kernel, by decide +kernel, ?_⟩
  rw [show romVerifies.dramRead 0 romVerifies.dev.hostLen = image from imageMem_read 0]
  exact test_image_verifies

/-- The port read of SYS_ID, of an offset out of reach in STANDBY, and its write of SCH_POLICY. -/
theorem wit_ManagementPort :
    (svc.dev.state ≠ .off ∧ svc.dev.power ≠ .readyIdle ∧ svc.mgtReach 0 = true ∧ (0 : Nat) ≠ rLdgDeviceUjLo ∧
      (after (.mgtRdReg 0 4) svc).out = [.mgtData [8, 0, 0x54, 0x4C]] ∧ svc.mgtReach rSchPolicy = true ∧
      (after (.mgtWrReg rSchPolicy [3, 0, 0, 0]) svc).reg rSchPolicy = 3) ∧
    ((asleep svc).dev.state ≠ .off ∧ (asleep svc).dev.power ≠ .readyIdle ∧ (asleep svc).mgtReach rSchPolicy = false ∧
      (after (.mgtRdReg rSchPolicy 4) (asleep svc)).mgt.last = lastNotAvailable ∧ (asleep svc).dev.state = .standby ∧
      (asleep svc).mgtReach 0x20BC = false ∧ (asleep svc).mgtReach rPwrIdle = true) ∧
    (let s := { svc with mgt := { svc.mgt with mode8d := true } }
     s.mgt.mode8d = true ∧ (after (.mgtBadFrame false) s).mgt.last = lastOpcodeCheck) ∧
    (svc.dev.state ≠ .closedStacks ∧ svc.memOk = true ∧ svc.rst.reqBusy = false ∧ (after (.mgtKick 64 0) svc).mgt.last = lastRange ∧
      (after (.mgtReset 3 0) svc).mgt.last = lastRange ∧ (after (.mgtReset 2 0) svc).rst.reqBusy = true) ∧
    let s := { svc with rst := { svc.rst with reqBusy := true } }
    s.memOk = true ∧ s.rst.reqBusy = true ∧ (after (.mgtReset 1 0) s).mgt.last = lastBusy := by decide +kernel

/-- A status read of another length than 4 sets LAST; and the frames of R46 and R47, with the address most significant byte first. -/
theorem test_mgt_frames :
    svc.dev.power ≠ .readyIdle ∧ (after (.mgtRdStatus 8) svc).mgt.last = lastAlign ∧
      mgtCommand false [0x03, 0, 0, 0x50, 0, 3, 0, 0, 0] 0 = .mgtWrReg 0x5000 [3, 0, 0, 0] ∧
      mgtCommand true [0x09, 0xF6, 0, 0, 0, 5] 0 = .mgtKick 5 0 ∧ mgtCommand true [0x09, 0xF7, 0, 0, 0, 5] 0 = .mgtBadFrame false := by
  decide +kernel

/-- The window: at work on a fetch or a write, and filled with 32 bytes. -/
def window (op : Option (Bool × Nat × Nat × Bytes)) : State := { svc with mgt := { svc.mgt with dwinBusy := true, dwinOp := op } }
def filled : State := { svc with mgt := { svc.mgt with dwinReady := true, window := List.replicate 32 0xA5, windowLen := 32 } }

theorem wit_Window :
    svc.dev.state.serves = true ∧ svc.fabricUp = true ∧ svc.dev.power ≠ .readyIdle ∧ svc.dram.wf = true ∧ svc.mgt.dwinBusy = false ∧
      16 * 1 + 16 * (15 + 1) ≤ svc.dramBytes ∧ (after (.mgtDwinFetch 1 [15, 0]) svc).mgt.dwinOp = some (true, 16, 256, []) ∧
      (window (some (true, 16, 16, []))).mgt.dwinOp = some (true, 16, 16, []) ∧
      (after .dwinFetchDone (window (some (true, 16, 16, [])))).mgt.windowLen = 16 ∧
      (window none).mgt.dwinBusy = true ∧ (after (.mgtDwinWrite 1 (List.replicate 16 3)) (window none)).mgt.last = lastBusy := by
  decide +kernel

theorem wit_Window_write :
    filled.mgt.dwinReady = true ∧ filled.mgt.dwinBusy = false ∧ 16 + 16 ≤ filled.mgt.windowLen ∧
      (after (.mgtDwinRead 16 16) filled).out = [.mgtData (List.replicate 16 0xA5)] ∧
      (after (.mgtDwinWrite 1 (List.replicate 16 3)) svc).mgt.dwinOp = some (false, 16, 16, List.replicate 16 3) ∧
      (after .dwinWriteDone (window (some (false, 16, 16, List.replicate 16 3)))).dram.get 31 = 3 := by
  decide +kernel

/-- An ECHO of four bytes in the inbound mailbox, and a message in the outbound one. -/
theorem wit_Mailbox :
    let m : Bytes := [1, 0, 4, 0, 9, 0, 0, 0, 0xD, 0xE, 0xA, 0xD]
    svc.running = true ∧ svc.mgt.inbox = none ∧ (after (.mgtMboxWrite m) svc).mgt.inbox = some m ∧
      (let s := { svc with mgt := { svc.mgt with inbox := some m } }
       s.running = true ∧ s.mgt.inbox = some m ∧ s.mgt.outbox = none ∧ s.mgt.held = [] ∧ (after .mboxTake s).mgt.outbox = some m) ∧
      let s := { svc with mgt := { svc.mgt with outbox := some m } }
      s.running = true ∧ s.mgt.outbox = some m ∧ s.mgt.held = [] ∧ s.err.stuck = [] ∧ s.emb = false ∧
        (after (.mgtMboxRead 256) s).mgt.outbox = none := by decide +kernel

/-- CLOSED_STACKS with the recovery loader expecting block `n` of an image for slot A. -/
def closed : State := { inState .closedStacks svc with dev := { svc.dev with state := .closedStacks, power := .standby } }
def loading (next : Option Nat) (busy : Bool) : State := { closed with sec := { closed.sec with rcvNext := next, rcvBusy := busy } }
def committing (next : Option Nat) : State :=
  { closed with flash := imageMem 0x100000, sec := { closed.sec with otp := otpKey, rcvNext := next, rcvLen := some 896 } }

theorem wit_Recovery :
    let d := List.replicate 256 (7 : Byte)
    ((loading (some 1) false).dev.state = .closedStacks ∧ (loading (some 1) false).dev.power ≠ .readyIdle ∧
      (loading (some 1) false).flash.wf = true ∧ d.length = 256 ∧ (loading (some 1) false).sec.rcvBusy = false ∧
      (loading (some 1) false).sec.rcvNext = some 1 ∧ (after (.mgtRcvData 1 d) (loading (some 1) false)).sec.rcvNext = some 2) ∧
    ((loading (some 1) false).sec.rcvNext ≠ some 2 ∧ (after (.mgtRcvData 2 d) (loading (some 1) false)).sec.rcvSeqErr = true) ∧
    ((loading (some 1) true).sec.rcvBusy = true ∧ (after (.mgtRcvData 1 d) (loading (some 1) true)).sec.rcvOverrun = true) ∧
    (after .rcvProgramDone (loading (some 1) true)).sec.rcvBusy = false ∧ (after (.mgtRcvCommit 896 0) closed).sec.rcvLen = some 896 := by
  decide +kernel

theorem wit_Recovery_commit :
    (committing (some 4)).dev.state = .closedStacks ∧ (committing (some 4)).flash.wf = true ∧ (committing (some 4)).sec.rcvLen = some 896 ∧
      ((committing (some 4)).sec.rcvNext.isSome = true ∧
        (committing (some 4)).imgOk ((committing (some 4)).flashRead ((committing (some 4)).slotBase false) 896) 896 = true) ∧
      (committing none).sec.rcvLen = some 896 ∧ (committing none).sec.rcvNext = none := by
  refine ⟨by decide +kernel, imageMem_wf 0x100000, by decide +kernel, ⟨by decide +kernel, ?_⟩, by decide +kernel, by decide +kernel⟩
  rw [show (committing (some 4)).flashRead ((committing (some 4)).slotBase false) 896 = image from imageMem_read 0x100000]
  exact test_image_verifies

/-! ### Errors, self-test, ends of jobs, ledger -/

def runJob6 : Job := job (desc opRun [(28, 2, 1), (30, 2, 64)]) .running

/-- SERVICE with a RUN at work, and with its context in a slot. -/
def busy : State := withJob runJob6 (withFolio (folio [stage 4 0xFF]) rg)
def busyCtx : State := withCtx (ctx0 []) busy

theorem inv_busyCtx : busyCtx.Inv := State.inv_of_ok _ (by decide +kernel)

theorem wit_ErrorContained :
    busyCtx.dev.state ≠ .off ∧ busyCtx.Inv ∧ busyCtx.errRingBlocked = false ∧ busyCtx.emb = false ∧
      severityOf ekScratchRange true = sevContained ∧ busyCtx.job? 2 = some runJob6 ∧ runJob6.alive = true ∧
      ((after (.errorRecordIssue (some ⟨ekScratchRange, unitCarrel 0 0, some 2, some 0, 4⟩)) busyCtx).job? 2).map (·.phase) = some .teardown ∧
      ((after (.errorRecordIssue (some ⟨ekScratchRange, unitCarrel 0 0, some 2, some 0, 4⟩)) busyCtx).sch.ctxs.all (·.stopped)) = true :=
  ⟨by decide +kernel, inv_busyCtx, by decide +kernel⟩

theorem wit_ErrorOthers :
    (severityOf ekDramCe false = sevCorrected ∧ (after (.errorRecordIssue (some ⟨ekDramCe, unitChip 1, none, none, 0⟩)) rg).err.number = 1) ∧
    (severityOf ekDmaProtocol false = sevUnitFatal ∧ ekDmaProtocol ≠ ekForcedReset ∧ uaLevel (unitBay 23 0) = 1 ∧
      (after (.errorRecordIssue (some ⟨ekDmaProtocol, unitBay 23 0, none, none, 0⟩)) rg).bayStopped 23 = true) ∧
    (severityOf ekDramUe false = sevDeviceFatal ∧ rg.dev.state = .service ∧
      (after (.errorRecordIssue (some ⟨ekDramUe, unitChip 1, none, none, 0⟩)) rg).dev.state = .recovery) ∧
    let s := { rg with err := { rg.err with pending := [⟨ekForcedReset, unitBay 0 0, none, none, 0⟩] } }
    s.invOk = true ∧ s.err.pending = [⟨ekForcedReset, unitBay 0 0, none, none, 0⟩] ∧ uaLevel (unitBay 0 0) ≠ 0 ∧
      severityOf ekForcedReset false ≠ sevCorrected ∧ (after (.errorRecordIssue none) s).err.number = 1 := by
  decide +kernel

/-- A corrected error of scratch stays in its word (R266). -/
theorem test_scratchCe :
    severityOf ekScratchCe false = sevCorrected ∧
      ((after (.errorRecordIssue (some ⟨ekScratchCe, unitCarrel 0 0, none, none, 0⟩)) rg).carrel 0).bad.length = 1 := by decide +kernel

/-- The spec's unit address of R24 with every field different. -/
theorem test_unitAddr : unitAddr 0 1 2 3 3 = 0x1853 := by decide

/-- Three earlier events of bay 23 within 2^20 AO cycles; T is 4. -/
def aged : State :=
  { rg with aoTime := 1000000, err := { rg.err with pairs := [⟨unitBay 23 0, ekShelfCe, [900000, 800000, 700000], false, 900000, 0⟩] } }

theorem wit_Lasting :
    aged.dev.state ≠ .off ∧ aged.dev.state ≠ .standby ∧ aged.invOk = true ∧ aged.rst.fabricRelease = false ∧
      uaLevel (unitBay 23 0) = 1 ∧ uaFlatBay (unitBay 23 0) = 23 ∧
      ([900000, 800000, 700000] : List Nat)[aged.lastingT - 2]? = some 700000 ∧ aged.aoTime - 700000 < aged.lastingW ∧
      (after (.errorRecordIssue (some ⟨ekShelfCe, unitBay 23 0, none, none, 0⟩)) aged).regB rErrLastingU 23 = true ∧
      (after (.lastingClear 6 0x800000) aged).err.pairs.map (·.times) = [[]] ∧
      (after (.fenceWrite 5 0x80000000) aged).reg (rErrFenceC 5) = 0x80000000 ∧ (after (.fenceWrite 6 0x800000) aged).regB rErrFenceB 23 = true := by
  decide +kernel

def torn : State := withJob { runJob6 with phase := .teardown, errNumber := 5, seqRecs := 1 } (withFolio (folio [stage 4 0xFF]) rg)
def cancelD (tag : Nat) : Bytes := desc opCancel [(12, 4, tag)]
def cancelling (tag : Nat) : State := fetched 0 (cancelD tag) none busy

theorem cq_torn : torn.cqOpen (torn.cqFor 0 runJob6.desc) := by constructor <;> decide +kernel
theorem ready_cancel : (cancelling 0x55).ready 0 (cancelD 0x55) none ∧ (cancelling 0x54).ready 0 (cancelD 0x54) none ∧
    (cancelling 0x54).cqOpen ((cancelling 0x54).cqFor 0 (cancelD 0x54)) := by
  refine ⟨?_, ?_, ?_⟩ <;> constructor <;> decide +kernel

/-- A CANCEL of ring 0 for completion ring 4, whose target's record goes to completion ring 3. -/
def cancelD4 : Bytes := desc opCancel [(4, 1, 4), (12, 4, 0x55)]
def cancelling4 : State :=
  fetched 0 cancelD4 none (withRegs [(rRingCqBaseLo 4, 0x10050000), (rRingCqBaseHi 4, 0x40), (rRingCqCtrl 4, 0x1B1)] busyCtx)

theorem ready_cancel4 :
    cancelling4.ready 0 cancelD4 none ∧ cancelling4.cqOpen (cancelling4.cqFor 0 cancelD4) ∧
      cancelling4.cqOpen (cancelling4.cqFor 0 runJob6.desc) ∧ cancelling4.enginesFree := by
  refine ⟨?_, ?_, ?_, by unfold State.enginesFree; decide +kernel⟩ <;> constructor <;> decide +kernel

theorem wit_CancelOne :
    cancelling4.dev.state ≠ .off ∧ cancelling4.invOk = true ∧ cancelling4.sch.bistQueue = [] ∧ cancelling4.rings.cancels = [] ∧
      cancelling4.emb = false ∧ cancelling4.cancelTargets cancelD4 = [runJob6] ∧ runJob6.alive = true ∧
      cancelling4.cqFor 0 cancelD4 ≠ cancelling4.cqFor 0 runJob6.desc ∧ (after (.cancel 0) cancelling4).jobs = [] ∧
      (after (.cancel 0) cancelling4).sch.ctxs = [] := by decide +kernel

theorem wit_TeardownAndCancel :
    (torn.dev.state ≠ .off ∧ torn.invOk = true ∧ torn.sch.bistQueue = [] ∧
      torn.job? 2 = some { runJob6 with phase := .teardown, errNumber := 5, seqRecs := 1 } ∧ (after (.jobTeardown 2) torn).job? 2 = none) ∧
    ((cancelling 0x54).invOk = true ∧ dOp (cancelD 0x54) = opCancel ∧ (cancelling 0x54).rings.cancels = [] ∧
      (cancelling 0x54).cancelTargets (cancelD 0x54) = [] ∧ ((after (.cancel 0) (cancelling 0x54)).job? 2).isSome = true) ∧
    (cancelling 0x55).invOk = true ∧ (cancelling 0x55).emb = false ∧ (after (.cancel 0) (cancelling 0x55)).job? 2 = none := by decide +kernel

def bistD (b : Nat) : Bytes := desc opBayBist [(5, 1, b)]
def bistHead (b : Nat) : State := fetched 0 (bistD b) (some 2) (withJob (job (bistD b) .queued) (inState .test rg))
def bistRun (ph : JobPhase) : State :=
  let s := withJob (job (bistD 23) ph) (inState .test rg)
  { s with sch := { s.sch with bist := some (23, 2) } }
/-- A context of another job lingers in the bay under test. -/
def bistStuck : State :=
  let s := withCtx (ctx0 []) (inState .test rg)
  { s with jobs := [{ runJob6 with slot := 1 }, { job (bistD 0) .bistDrain with number := 8 }], jobCount := 9
           sch := { s.sch with bist := some (0, 2) } }

theorem ready_bist : (bistHead 23).ready 0 (bistD 23) (some 2) ∧ (bistHead 23).slotJob 0 (bistD 23) (job (bistD 23) .queued) := by
  constructor <;> constructor <;> decide +kernel

theorem wit_BayBist :
    (bistHead 23).dev.state ≠ .off ∧ (bistHead 23).invOk = true ∧ dOp (bistD 23) = opBayBist ∧ (bistHead 23).sch.bist = none ∧
      (bistHead 23).sch.bistQueue = [] ∧ (bistHead 23).dev.state = .test ∧ dBay (bistD 23) = 23 ∧ (bistHead 23).bayStopped 23 = false ∧
      (after (.bayBist 0) (bistHead 23)).sch.bist = some (23, 2) ∧ 23 < dBay (bistD 24) ∧ (after (.bayBist 0) (bistHead 24)).job? 2 = none ∧
      (inState .service (bistHead 23)).invOk = true ∧ (after (.bayBist 0) (inState .service (bistHead 23))).job? 2 = none := by decide +kernel

theorem wit_BayBist_runs :
    ((bistRun .bistDrain).invOk = true ∧ (bistRun .bistDrain).bistIn .bistDrain = some (23, job (bistD 23) .bistDrain) ∧
      (bistRun .bistDrain).bayEmpty 23 = true ∧ ((after .bistDrainDone (bistRun .bistDrain)).job? 2).map (·.phase) = some .bistTest) ∧
    (bistStuck.invOk = true ∧ bistStuck.bistIn .bistDrain = some (0, { job (bistD 0) .bistDrain with number := 8 }) ∧
      bistStuck.bayEmpty 0 = false ∧ bistStuck.sch.bistQueue = [] ∧ (after .bistDrainTimeout bistStuck).job? 2 = none) ∧
    (bistRun .bistTest).invOk = true ∧ (bistRun .bistTest).bistIn .bistTest = some (23, job (bistD 23) .bistTest) ∧
      (after (.bistTestsDone 0x4000001) (bistRun .bistTest)).sch.stoppedBays = [23] ∧
      (after (.bistTestsDone 0) (bistRun .bistTest)).sch.stoppedBays = [] := by decide +kernel

/-- An interval of SERVICE in which client 3 has 1,000 array cycles. -/
def counted : State :=
  let s := withRegs [(rLdgCtrl, 0x1B)] rg
  { s with ldg := { s.ldg with intervalState := .service, accounts := [{ Account.zero 3 with array := 1000 }], slow := [⟨256, 0, 1⟩] } }

theorem wit_LedgerIntervals :
    (rg.dev.state ≠ .off ∧ rg.dev.state ≠ .standby ∧ rg.Inv ∧ rg.emb = false ∧ wbit (1 : Word) 0 = true ∧ rg.regB rLdgCtrl 0 = false ∧
      rg.ringEn .ldg = true ∧ (after (.ledgerEnable 1) rg).regB rLdgCtrl 0 = true ∧ (after (.ledgerEnable 1) rg).ldg.length = 2 ^ 13 ∧
      (after (.ledgerEnable (1 + 8 * 2)) rg).ldg.length = 2 ^ 8 ∧ (after (.ledgerEnable (1 + 14 * 2)) rg).ldg.length = 2 ^ 13) ∧
    (svc.Inv ∧ svc.ringEn .ldg = false ∧ svc.regB rLdgCtrl 0 = false ∧ (after (.ledgerEnable 1) svc).regB rLdgCtrl 5 = true) ∧
    counted.invOk = true ∧ counted.regB rLdgCtrl 0 = true ∧ wbit (0 : Word) 0 = false ∧ (after (.ledgerDisable 0) counted).ldg.accounts = [] ∧
      counted.ldg.accounts = [{ Account.zero 3 with array := 1000 }] ∧ ({ Account.zero 3 with array := 1000 } : Account).isZero = false ∧
      (after .ledgerIntervalClose counted).carry 3 = 96000 ∧ (after .ldgSlowPop counted).ldg.slow = [] ∧
      (after .ldgDeviceUjLoRead counted).out = [.bar0Data 0] :=
  ⟨⟨by decide +kernel, by decide +kernel, inv_rg, by decide +kernel⟩, ⟨inv_svc, by decide +kernel⟩, by decide +kernel⟩

/-! ### Security, sleep, clocks -/

/-- TEST with a hash staged; the programming of a field under way. -/
def staged : State := withRegs [(rSecOtpData 0, 0x01020304)] (inState .test svc)
def burning (f : Nat) : State := { staged with sec := { staged.sec with otpBusy := some (f, [4, 3, 2, 1] ++ zeros 28) } }

theorem wit_Otp :
    staged.dev.state ≠ .off ∧ staged.dev.state ≠ .standby ∧ staged.rst.fabricRelease = false ∧ staged.invOk = true ∧
      staged.dev.state = .test ∧ staged.sec.otpBusy = none ∧ (∀ i, i < 32 → staged.otpByte (64 + i) = 0) ∧
      (after .otpProgCustHash1 staged).sec.otpBusy = some (1, [4, 3, 2, 1] ++ zeros 28) ∧
      svc.dev.state ≠ .test ∧ (after .otpProgRevoke0 svc).regB rSecOtpProg 6 = true ∧
      (burning 1).invOk = true ∧ (burning 1).sec.otpBusy = some (1, [4, 3, 2, 1] ++ zeros 28) ∧ ([4, 3, 2, 1] ++ zeros 28).length = 32 ∧
      (after .otpProgDone (burning 1)).sec.otp.read 64 4 = [4, 3, 2, 1] ∧ (after .otpProgDone (burning 4)).otpByte 104 = 8 := by decide +kernel

def floor3 (busy : Option Nat) : State := { svc with sec := { svc.sec with otp := [(96, 7)], rbBusy := busy } }

theorem wit_Rollback :
    (floor3 none).dev.state ≠ .off ∧ (floor3 none).dev.state ≠ .standby ∧ (floor3 none).rst.fabricRelease = false ∧
      (floor3 none).invOk = true ∧ ((floor3 none).dev.penuo.map (·.svn)).getD 0 = 5 ∧ wbits (5 : Word) 0 7 = 5 ∧
      (floor3 none).dev.state = .service ∧ (floor3 none).rollback = 3 ∧ (floor3 none).sec.rbBusy = none ∧
      (after (.secRbAdvance 5) (floor3 none)).sec.rbBusy = some 5 ∧ (after (.secRbAdvance 6) (floor3 none)).regB rSecRbAdvance 7 = true ∧
      (after (.secRbAdvance 3) (floor3 none)).regB rSecRbAdvance 7 = true ∧ (floor3 (some 5)).invOk = true ∧
      (floor3 (some 5)).sec.rbBusy = some 5 ∧ (floor3 (some 5)).otpBytes 96 8 = toLe 8 (2 ^ 3 - 1) ∧
      (after .rollbackBurnDone (floor3 (some 5))).rollback = 5 := by decide +kernel

def updating : State := { svc with sec := { svc.sec with fwu := some (4, 0x1000) } }

theorem wit_Update :
    svc.emb = false ∧ wbit (0x10000004 : Word) 28 = true ∧ svc.sec.fwu = none ∧
      (after (.firmwareUpdate 0x10000004) svc).sec.fwu = some (4, 0) ∧ updating.invOk = true ∧ updating.sec.fwu = some (4, 0x1000) ∧
      (after (.firmwareUpdate 0x10000004) updating).sec.fwuStatus = 6 ∧ ([1, 2, 3, 4] : Bytes).length = 4 ∧
      (after (.firmwareUpdateDone [1, 2, 3, 4] false) updating).sec.fwuStatus = 3 := by decide +kernel

/-- An update with the signed image; c above its SVN; a flash error. -/
def updatingOk : State := keyed { svc with sec := { svc.sec with fwu := some (896, 0x1000) } }

theorem wit_Update_signed :
    updatingOk.invOk = true ∧ updatingOk.sec.fwu = some (896, 0x1000) ∧ updatingOk.imgSigned image 896 = true ∧ imgSvn image = 5 ∧
      updatingOk.rollback = 0 ∧ updatingOk.updateSlot = false ∧ 0x100000 ≤ updatingOk.slotBase false := by decide +kernel

def attestD (action slot len : Nat) : Bytes := desc opAttest ([(5, 1, action), (6, 1, slot), (16, 4, 0xABCD)] ++ if action = 1 then [] else [(56, 4, len)])
def attestHeadS (action slot len : Nat) : State :=
  fetched 0 (attestD action slot len) (some 2) (withJob (job (attestD action slot len) .queued) rg)
def signing (action slot len : Nat) : State :=
  let s := withJob (job (attestD action slot len) .attest) rg
  { s with sec := { s.sec with attest := [⟨2, attestD action slot len⟩] } }

theorem ready_attest : (attestHeadS 0 0 707).ready 0 (attestD 0 0 707) (some 2) ∧ (attestHeadS 0 0 708).ready 0 (attestD 0 0 708) (some 2) ∧
    (attestHeadS 1 7 0).ready 0 (attestD 1 7 0) (some 2) ∧ (signing 0 0 708).cqOpen 3 ∧ (signing 1 7 0).cqOpen 3 ∧
    (signing 1 7 0).slotJob 0 (attestD 1 7 0) (job (attestD 1 7 0) .attest) := by
  refine ⟨?_, ?_, ?_, ?_, ?_, ?_⟩ <;> constructor <;> decide +kernel

theorem wit_Attestation :
    (attestHeadS 0 0 707).invOk = true ∧ dOp (attestD 0 0 707) = opAttest ∧ u8 (attestD 0 0 707) 5 = 0 ∧ dChain (attestD 0 0 707) = false ∧
      dReportLen (attestD 0 0 707) < 708 ∧ (after (.report 0) (attestHeadS 0 0 707)).job? 2 = none ∧ (attestHeadS 0 0 708).invOk = true ∧
      708 ≤ dReportLen (attestD 0 0 708) ∧ (after (.report 0) (attestHeadS 0 0 708)).sec.attest = [⟨2, attestD 0 0 708⟩] ∧
      (attestHeadS 1 7 0).invOk = true ∧ u8 (attestD 1 7 0) 5 = 1 ∧ (after (.extend 0) (attestHeadS 1 7 0)).sec.attest = [⟨2, attestD 1 7 0⟩] := by
  decide +kernel

theorem wit_Attestation_done :
    (signing 1 7 0).invOk = true ∧ (signing 1 7 0).sec.attest = [⟨2, attestD 1 7 0⟩] ∧ (signing 1 7 0).fabricUp = true ∧
      dMsSlot (attestD 1 7 0) = 7 ∧ (after .attestDone (signing 1 7 0)).sec.extendCount = 1 ∧ (after .attestDone (signing 1 7 0)).job? 2 = none ∧
      (signing 0 0 708).invOk = true ∧ (signing 0 0 708).sec.attest = [⟨2, attestD 0 0 708⟩] ∧ dMsSlot (attestD 0 0 708) = 0 := by decide +kernel

/-- A challenge of 48 zero bytes outstanding, or its answer under verification. -/
def challenged : State := { svc with sec := { svc.sec with challengeBytes := some (zeros 48), fails := 7 } }
def answered (block : Bytes) (otp : Mem) : State :=
  { svc with sec := { svc.sec with otp := otp, fails := 7, response := some (zeros 48, [7, 0, 0, 0, 0, 0, 0, 0], block) } }

theorem wit_Debug :
    svc.sec.fails < 8 ∧ 8 ≤ ({ svc with sec := { svc.sec with fails := 8 } } : State).sec.fails ∧ svc.sec.challengeBytes = none ∧
      (after (.response (zeros 8) (zeros 776)) svc).sec.fails = 1 ∧ challenged.invOk = true ∧ challenged.sec.challengeBytes = some (zeros 48) ∧
      (zeros 8).length = 8 ∧ (zeros 776).length = 776 ∧ (after (.response (zeros 8) (zeros 776)) challenged).sec.challengeBytes = none ∧
      (answered (zeros 776) []).invOk = true ∧ (answered (zeros 776) []).verify (zeros 776) (zeros 48 ++ [7, 0, 0, 0, 0, 0, 0, 0]) = false ∧
      (after .debugVerifyDone (answered (zeros 776) [])).sec.fails = 8 := by decide +kernel

theorem wit_Debug_unlocks :
    (answered debugBlock otpKey).sec.response = some (zeros 48, [7, 0, 0, 0, 0, 0, 0, 0], debugBlock) ∧
      (answered debugBlock otpKey).invOk = true ∧ (answered debugBlock otpKey).verify debugBlock (zeros 48 ++ [7, 0, 0, 0, 0, 0, 0, 0]) = true ∧
      (answered debugBlock (otpKey.put 104 8)).verify debugBlock (zeros 48 ++ [7, 0, 0, 0, 0, 0, 0, 0]) = true ∧
      bitN ((answered debugBlock (otpKey.put 104 8)).otpByte 104) 3 = true ∧ bitN ((answered debugBlock otpKey).otpByte 104) 3 = false := by
  decide +kernel

def idling (n : Nat) : State := { svc with dev := { svc.dev with idleFor := n, power := .active } }
def idleOn (n : Nat) : State := withRegs [(rPwrIdle, 0x43)] (idling n)

theorem wit_Idle :
    (idleOn 33).invOk = true ∧ (idleOn 33).idle = true ∧ (idleOn 33).idleHold ≤ (idleOn 33).dev.idleFor ∧
      (after (.readyIdleEntry false) (idleOn 33)).dev.power = .readyIdle ∧ (after (.readyIdleEntry true) (idleOn 33)).dev.power = .active ∧
      (let s := { svc with dev := { svc.dev with power := .exiting, domains := 0x3F000000 } }
       s.invOk = true ∧ s.dev.power = .exiting ∧ (∀ x ∈ s.col.transports, x.leadLatch = none) ∧
         (after .readyIdleExitDone s).dev.power = .active) := by decide +kernel

def waking : State := { asleep rg with dev := { (asleep rg).dev with waking := true, power := .exiting } }

theorem wit_Wake :
    waking.invOk = true ∧ waking.dev.waking = true ∧ waking.dev.state = .standby ∧ waking.link.waiting = [] ∧
      (∀ x ∈ waking.col.transports, x.leadLatch = none) ∧ waking.ringEn (.sq 0) = true ∧ ((after .wakeComplete waking).sq 0).reading = true ∧
      (after .wakeComplete waking).dev.state = .service ∧ (after .collationReady waking).dev.colReady = true := by decide +kernel

theorem wit_Clocks :
    svc.dev.state.serves = true ∧ svc.locked = false ∧ (after (.clkArithStep 3) svc).dev.step = 0 ∧ (after (.clkArithStep 2) svc).dev.step = 2 ∧
      (let s := withRegs [(rSysLock, 1)] svc
       s.invOk = true ∧ s.locked = true ∧ (after (.clkArithStep 2) s).dev.step = 0) ∧
      (after (.wakeTimerWrite 0x1FFFFFF) svc).regF rPwrWakeTimer 0 24 = 0xFFFFFF ∧
      (let s := withRegs [(rPwrWakeTimer, 1), (rPwrWakeEn, 0x100)] (asleep svc)
       s.invOk = true ∧ s.regF rPwrWakeTimer 0 24 ≠ 0 ∧ s.dev.state = .standby ∧ s.dev.req = none ∧ s.regB rPwrWakeEn 8 = true ∧
         (after .wakeTimerExpiry s).dev.waking = true) ∧
      svc.dev.aoFallback = false ∧ (after .aoClockFallback svc).err.pending.length = 1 ∧
      (let s := { svc with dev := { svc.dev with aoFallback := true } }
       s.invOk = true ∧ after .aoClockFallback s = s) := by decide +kernel

/-- The hottest sensor at the warning, at 115 °C, below 110 °C, and at the re-arming point; WARN_C is 90. -/
theorem wit_Temperature :
    svc.dev.state ≠ .off ∧ svc.emb = false ∧ svc.sensorOn 8 = true ∧ svc.dev.thermArmed = true ∧ svc.regF rPwrThermCtrl 0 8 = 90 ∧
      (after (.tempUpdate [(8, 90)]) svc).regB rPwrThermStatus 12 = true ∧ (after (.tempUpdate [(8, -1)]) svc).regF rPwrThermStatus 0 8 = 255 ∧
      (after (.tempUpdate [(8, 115)]) svc).dev.thermN = true ∧
      (after (.tempUpdate [(8, 110)]) (after (.tempUpdate [(8, 115)]) svc)).dev.thermN = true ∧
      (after (.tempUpdate [(8, 109)]) (after (.tempUpdate [(8, 115)]) svc)).dev.thermN = false ∧
      (after (.tempUpdate [(8, 85)]) (after (.tempUpdate [(8, 90)]) svc)).dev.thermArmed = true ∧
      (after (.tempUpdate [(8, 86)]) (after (.tempUpdate [(8, 90)]) svc)).dev.thermArmed = false := by decide +kernel

/-! ### Command lists -/

/-- The four conditions of `State.issuable` as a Boolean. -/
def issueOk (s : State) (c k : Nat) (x : Ctx) (d : Bytes) : Bool :=
  decide (s.dev.state ≠ .off) && decide (s.ctxAt c k = some x) && decide (x.queue.head? = some d) && decide (s.issueTurn c = some k)

theorem issuable_of_ok {s : State} {c k : Nat} {x : Ctx} {d : Bytes} (h : issueOk s c k x d = true) : s.issuable c k x d := by
  simp only [issueOk, Bool.and_eq_true, decide_eq_true_eq] at h
  exact ⟨h.1.1.1, h.1.1.2, h.1.2, h.2⟩

/-- A command with LIVE 64, all of 16 KiB. -/
def cmd (op : Nat) (l : List (Nat × Nat × Nat)) : Bytes := fields 32 ([(0, 1, op), (1, 1, 2), (2, 2, 64)] ++ l)

/-- The context of `ctx0` with 2 MiB of DRAM from 3 MiB at far base 1 and an expansion grant at the start of its bay's stream area. -/
def ctx8 (q : List Bytes) : Ctx := { ctx0 q with bases := [(1, 0x300000, 0x200000)], expand := some (0x160000, 4096), vregs := List.replicate 32 (List.replicate 32 0) }

/-- It in its slot, with bytes of scratch and DRAM. -/
def at8 (q : List Bytes) (scr dram : Mem) : State :=
  let s := withCtx (ctx8 q) { withJob { runJob6 with signals := List.replicate 64 5 } busy with dram := dram }
  s.onCarrel 0 fun r => { r with scratch := scr }

/-- The context after a command, where it still sits in its slot. -/
def ctxAfter (c : Instr) (s : State) : Option Ctx := (after c s).ctxAt 0 0

def farA (b o : Nat) : Nat := b * 2 ^ 36 + o

/-- Four bytes at the end of the far base to the end of local space. -/
def loadC : Bytes := cmd coLoad [(4, 5, farA 1 0x1FFFFC), (10, 2, 1), (12, 2, 4), (20, 4, 16380)]
def storeC : Bytes := cmd coStore [(4, 5, farA 1 0), (10, 2, 1), (12, 2, 4), (20, 4, 16380)]
/-- Handle 3: two rows of four bytes, ring of 1 KiB at the end of local space. -/
def streamC : Bytes := cmd coStream [(4, 1, 3), (6, 2, 4), (8, 5, farA 1 0x1FFFF8), (13, 1, 10), (14, 2, 4), (16, 4, 4), (20, 2, 2), (22, 2, 1), (28, 2, 60)]

theorem wit_LoadStoreStream :
    (at8 [loadC] [] [(0x4FFFFC, 1), (0x4FFFFF, 4)]).invOk = true ∧ (at8 [loadC] [] []).noInject ∧
      issueOk (at8 [loadC] [] [(0x4FFFFC, 1), (0x4FFFFF, 4)]) 0 0 (ctx8 [loadC]) loadC = true ∧
      (at8 [loadC] [] []).farRowsFault (ctx8 [loadC]) loadC = none ∧ (at8 [loadC] [] []).scrRowsFault (ctx8 [loadC]) loadC = none ∧
      ((at8 [loadC] [] []).far (ctx8 [loadC]) (farBase (u40 loadC 4))).kind = .dram ∧
      (after (.load 0 0 9) (at8 [loadC] [] [(0x4FFFFC, 1), (0x4FFFFF, 4)])).locRead (ctx8 []) 16380 4 = [1, 0, 0, 4] ∧
      issueOk (at8 [storeC] [(16380, 7), (16383, 8)] []) 0 0 (ctx8 [storeC]) storeC = true ∧
      (at8 [storeC] [] []).farRowsFault (ctx8 [storeC]) storeC = none ∧
      (after (.store 0 0 9) (at8 [storeC] [(16380, 7), (16383, 8)] [])).dram = [(0x300000, 7), (0x300003, 8)] ∧
      issueOk (at8 [streamC] [] []) 0 0 (ctx8 [streamC]) streamC = true ∧
      (streamRows streamC).all (fun o => (at8 [streamC] [] []).farFault (ctx8 [streamC]) 1 o 4 = none) = true ∧
      (at8 [streamC] [] []).locFault (ctx8 [streamC]) (256 * u16 streamC 28 : Nat) 1024 = none ∧
      ((ctxAfter (.stream 0 0 9) (at8 [streamC] [] [])).bind fun y => handleOf y 3).map (fun h => (h.total, h.consumed, h.ringed + h.ahead.length)) =
        some (8, 0, 8) ∧
      ((at8 [loadC] [] []).far (ctx8 [loadC]) 15).kind = .shelf := by
  unfold State.noInject; decide +kernel

/-- A 3 × 3 window with every pad around one pixel of two channels. -/
def expandC : Bytes := cmd coExpand [(4, 5, farA 1 0), (9, 1, 10), (10, 1, 0x33), (11, 1, 0x11), (12, 2, 0x249), (14, 2, 1), (16, 2, 1), (18, 2, 2),
  (20, 4, 64), (26, 2, 1), (28, 4, 64)]
def expand8 : State := (at8 [expandC] [] [(0x300000, 1), (0x300001, 2)]).onShelf 0 fun _ => [(0x160000, 7), (0x160001, 8)]

/-- The window's codes: the pad pixel eight times, the plane's pixel in the middle, zero to 32 bytes. -/
theorem wit_Expand :
    expand8.invOk = true ∧ issueOk expand8 0 0 (ctx8 [expandC]) expandC = true ∧ exRows expandC = 1 ∧ (exOutW expandC).toNat = 1 ∧
      (exY0 expandC + 1 : Int) ≤ exOutH expandC ∧ exPadLen expandC ≤ exDst expandC ∧ exDst expandC + exRp expandC ≤ 4096 ∧
      (exCovered 0 1 1 1 3 1).all (fun a => (exCovered 0 1 1 1 3 1).all fun v =>
        expand8.farFault (ctx8 [expandC]) 1 (a * 64 + v * 2 : Nat) 2 = none) = true ∧
      ((after (.expand 0 0 9) expand8).shelfOf 0).read 0x160040 32 =
        [7, 8, 7, 8, 7, 8, 7, 8, 1, 2, 7, 8, 7, 8, 7, 8, 7, 8] ++ zeros 14 := by decide +kernel

/-- Five columns to the last position of a row, as segment 63. -/
def packC : Bytes := cmd coPack [(4, 5, farA 1 0x1F0000), (10, 2, 5), (12, 4, 64), (16, 5, farA 1 0), (21, 1, 63), (22, 2, 4095), (24, 2, 0x201), (26, 1, 3)]

theorem wit_Pack :
    (at8 [packC] [] [(0x4F0001, 9)]).invOk = true ∧ issueOk (at8 [packC] [] [(0x4F0001, 9)]) 0 0 (ctx8 [packC]) packC = true ∧
      u16 packC 22 + ceilDiv (u16 packC 10) 8 ≤ 4096 ∧
      (List.range 32).all (fun r => (at8 [packC] [] []).farFault (ctx8 [packC]) 1 (0x1F0000 + 64 * r : Nat) 5 = none) = true ∧
      (at8 [packC] [] []).farFault (ctx8 [packC]) 1 (rowPosOff + 256 * 4095 : Nat) 256 = none ∧
      (let t := after (.pack 0 0 9) (at8 [packC] [] [(0x4F0001, 9)])
       t.dram.get (0x300000 + 1088 + 4095) = 63 ∧ t.dram.read (0x300000 + 64 + 16 * 63) 4 = [0xFF, 0x0F, 1, 0] ∧
         t.dram.read (0x300000 + 5184 + 256 * 4095) 6 = [0, 9, 0, 0, 0, 0xFF]) := by decide +kernel

/-! #### Lists, engines, signals -/

/-- A context that has nothing queued; its list lies at 0x20_1000. -/
def linelessS : State := at8 [] [] [(0x201000, 0x0D), (0x201001, 2), (0x201004, 1)]

theorem wit_LineFetch :
    linelessS.invOk = true ∧ linelessS.ctxAt 0 0 = some (ctx8 []) ∧ (ctx8 []).nextFetch < (ctx8 []).listLen ∧
      (ctxAfter (.cmdLineFetch 0 0) linelessS).map (fun y => (y.nextFetch, y.queue.length, y.queue.head?.map cmdOp)) = some (4, 4, some coFence) := by
  decide +kernel

def vecNop : Bytes := cmd coVec [(4, 1, 1), (6, 2, 1)]
/-- An LC context in slot 0 with a VEC at its head; a BE one of another list in slot 1 runs an ATTN. -/
def preemptS (vec : Bool) : State :=
  let d := if vec then vecNop else cmd coTmac [(16, 2, 1), (18, 2, 1), (20, 4, 1)]
  let x := { ctx8 [d] with lc := true }
  let z := { ctx8 [] with id := 1, place := some (0, 1), outstanding := [⟨0, cmd coAttn [], 6, 0⟩] }
  let s := withCtx x busy
  (s.onCarrel 0 fun r => { r with slots := r.slots.set 1 ([2, 3], some 1) }).onSch fun h => { h with ctxs := [x, z], nextCtx := 2 }

theorem wit_Preempt :
    (preemptS true).invOk = true ∧ ((preemptS true).ctxAt 0 0).map (fun x => (x.stopped, x.idle, x.busy 4)) = some (false, false, false) ∧
      ((preemptS true).ctxAt 0 0).map (·.lc) = some true ∧ opClass (cmdOp vecNop) &&& 4 ≠ 0 ∧
      ((preemptS true).residents 0).map (fun p => (p.1, p.2.lc, p.2.busy 4, p.2.busy 2)) = [(0, true, false, false), (1, false, true, true)] ∧
      ((after (.enginePreempt 0 0 true) (preemptS true)).ctx? 1).map (·.taken) = some 3 ∧
      ((after (.enginePreempt 0 0 false) (preemptS false)).ctx? 1).map (·.taken) = some 3 := by decide +kernel

def fenceC : Bytes := cmd coFence [(4, 1, 15)]
def signalC (mode : Nat) : Bytes := cmd coSignal [(4, 1, 63), (6, 1, mode), (8, 4, 2 ^ 32 - 5)]
def waitC (v : Nat) : Bytes := cmd coWaitsig [(4, 1, 63), (6, 1, 1), (8, 4, v)]
def nopC : Bytes := cmd coNop []

theorem wit_Signals :
    issueOk (at8 [fenceC] [] []) 0 0 (ctx8 [fenceC]) fenceC = true ∧ issueOk (at8 [nopC] [] []) 0 0 (ctx8 [nopC]) nopC = true ∧
      issueOk (at8 [waitC 5] [] []) 0 0 (ctx8 [waitC 5]) (waitC 5) = true ∧ (at8 [waitC 6] [] []).sigHolds (ctx8 [waitC 6]) (waitC 6) = false ∧
      (ctxAfter (.fence 0 0 9) (at8 [fenceC] [] [])).map (·.nextIssue) = some 1 ∧
      (ctxAfter (.waitsig 0 0 9) (at8 [waitC 6] [] [])).map (·.nextIssue) = some 0 ∧
      issueOk (at8 [signalC 0] [] []) 0 0 (ctx8 [signalC 0]) (signalC 0) = true ∧ u8 (signalC 0) 4 < 64 ∧
      ((after (.signal 0 0 9) (at8 [signalC 0] [] [])).jobNum? 7).map (·.signals.getD 63 9) = some 0 ∧
      ((after (.signal 0 0 9) (at8 [signalC 1] [] [])).jobNum? 7).map (·.signals.getD 63 9) = some (2 ^ 32 - 5) := by decide +kernel

/-! #### Array and vector commands -/

/-- One row of two A8S codes (3, −2) at 0 against one row of the codes (10, 20) at 32, exact array. -/
def tmacC (drain : Bool) : Bytes :=
  cmd coTmac [(8, 4, 32), (16, 2, 1), (18, 2, 1), (20, 4, 2), (24, 1, 0xBB), (25, 1, if drain then 0x18 else 0x08), (26, 1, 15), (27, 1, if drain then 24 else 0)]
def tmacScr : Mem := [(0, 3), (1, 0xFE), (32, 10), (33, 20)]

theorem wit_Tmac :
    (at8 [tmacC false] tmacScr []).invOk = true ∧ issueOk (at8 [tmacC false] tmacScr []) 0 0 (ctx8 [tmacC false]) (tmacC false) = true ∧
      issueOk (at8 [tmacC true] tmacScr []) 0 0 (ctx8 [tmacC true]) (tmacC true) = true ∧
      opReady (ctx8 [tmacC false]) (u32 (tmacC false) 4) (tmM (tmacC false) * tmPitchA (tmacC false)) = true ∧
      (at8 [tmacC false] tmacScr []).locFaults (ctx8 [tmacC false]) [(0, 32), (32, 32), (0, 0), (1024 * 15, 1024), (0, 0)] = none ∧
      (ctxAfter (.tmac 0 0 9) (at8 [tmacC false] tmacScr [])).bind (·.drain) = some ⟨1, 1, [⟨-10, false, 2⟩]⟩ ∧
      (ctxAfter (.tmac 0 0 9) (at8 [tmacC true] tmacScr [])).map (fun y => (y.drain, (vreg y 24).headD 1)) = some (none, -10) := by decide +kernel

/-- A drained element of 300 shifted by K = −1 into A8U with zero point 100: 150 + 100, and one of 400: saturated. -/
def reqC : Bytes := cmd coReq [(4, 4, 256), (8, 4, 64), (16, 1, 0x4A), (18, 2, 9), (24, 2, 100)]
def reqS (v : Int) : State :=
  let x := { ctx8 [reqC] with drain := some ⟨1, 1, [⟨v, false, res3 v⟩]⟩ }
  (withCtx x busy).onCarrel 0 fun r => { r with scratch := [(64, 0xFF)] }

theorem wit_Req :
    (reqS 300).invOk = true ∧ ((reqS 300).ctxAt 0 0).any (fun x => issueOk (reqS 300) 0 0 x reqC) = true ∧
      (reqS 300).locFaults (ctx8 []) [(256, 32), (64, 1), (0, 0), (0, 0)] = none ∧ residueFault 1 [⟨300, false, res3 300⟩] = none ∧
      rqRange reqC = false ∧ (after (.req 0 0 9) (reqS 300)).locRead (ctx8 []) 256 1 = [250] ∧
      ((after (.req 0 0 9) (reqS 300)).jobNum? 7).map (·.counts) = some [⟨9, 0, 0, 1⟩] ∧
      ((after (.req 0 0 9) (reqS 300)).ctxAt 0 0).map (fun y => y.tiles.length) = some 1 ∧
      (after (.req 0 0 9) (reqS 400)).locRead (ctx8 []) 256 1 = [255] ∧
      ((after (.req 0 0 9) (reqS 400)).jobNum? 7).map (·.counts) = some [⟨9, 1, 0, 1⟩] := by decide +kernel

/-- One vector instruction: a load of U8 into register 31, a store of it, an INT32 addition of it to itself. -/
def vecC (op vdTy : Nat) (l : List (Nat × Nat × Nat)) : Bytes := cmd coVec ([(4, 1, 1), (6, 2, 1), (8, 1, op), (9, 1, vdTy)] ++ l)
def vecLoad : Bytes := vecC 1 (31 + 3 * 32) [(10, 3, 16352)]
def vecStore : Bytes := vecC 2 (31 + 2 * 32) [(10, 3, 16256)]
def vecAdd : Bytes := vecC 0x20 (0 + 2 * 32) [(10, 1, 31), (11, 1, 31)]
def vecS (d : Bytes) : State :=
  withCtx { ctx8 [d] with vregs := (List.replicate 31 (List.replicate 32 0)) ++ [List.replicate 32 0x80000001] } busy

theorem wit_Vec :
    (at8 [vecLoad] [(16352, 200)] []).invOk = true ∧ issueOk (at8 [vecLoad] [(16352, 200)] []) 0 0 (ctx8 [vecLoad]) vecLoad = true ∧
      (vecRanges vecLoad).all (fun p => (at8 [] [] []).locFault (ctx8 []) p.1 p.2 = none) = true ∧ (vecInstrs vecLoad).length = 1 ∧
      (ctxAfter (.vec 0 0 9) (at8 [vecLoad] [(16352, 200)] [])).map (fun y => (vreg y 31).take 2) = some [200, 0] ∧
      ((vecS vecStore).ctxAt 0 0).any (fun x => issueOk (vecS vecStore) 0 0 x vecStore) = true ∧
      (vecRanges vecStore).all (fun p => (at8 [] [] []).locFault (ctx8 []) p.1 p.2 = none) = true ∧
      (after (.vec 0 0 9) (vecS vecStore)).locRead (ctx8 []) 16380 4 = [1, 0, 0, 0x80] ∧
      ((vecS vecAdd).ctxAt 0 0).any (fun x => issueOk (vecS vecAdd) 0 0 x vecAdd) = true ∧
      veLane 0x20 2 0 0x80000001 0x80000001 0 = some 2 ∧
      (ctxAfter (.vec 0 0 9) (vecS vecAdd)).map (fun y => (vreg y 0).drop 31) = some [2] := by decide +kernel

/-- Two pixels of three A8S channels: (5, −1, 5) and (−3, −2, 127). -/
def argmaxC : Bytes := cmd coArgmax [(8, 4, 16382), (12, 2, 2), (14, 2, 3), (16, 1, 11)]
def argmaxS : State := at8 [argmaxC] [(0, 5), (1, 0xFF), (2, 5), (3, 0xFD), (4, 0xFE), (5, 127)] []

theorem wit_Argmax :
    argmaxS.invOk = true ∧ issueOk argmaxS 0 0 (ctx8 [argmaxC]) argmaxC = true ∧
      argmaxS.locFaults (ctx8 [argmaxC]) [(0, 6), (16382, 2), (0, 0)] = none ∧
      (after (.argmax 0 0 9) argmaxS).locRead (ctx8 []) 16382 2 = [0, 2] := by decide +kernel

/-! #### Attention -/

def geo : KvDecl := ⟨1, 1, 16, 11, 4, 0, 0, 0⟩

/-- A sequence with a page of 16 positions at DRAM 4 MiB, two of them filled. -/
def seqKv : SeqSlot :=
  { seq0 runJob6 with geom := some geo, cursor := 2, table := [{ SeqSlot.emptyPte with page := 0x400, fill := 2 }], planes := some ⟨9, 0x1000000, 64, 16, 600, 600, 0⟩ }

/-- One query row of 16 A8S codes at 0, O at 256, the parameter block at 384, staging from 12,288. -/
def attnC (mode : Nat) : Bytes := cmd coAttn [(8, 4, 256), (19, 1, 1), (20, 2, 16), (22, 1, 0xBB), (28, 1, mode), (29, 1, 13)]
def attnScr : Mem := [(386, 0x80), (387, 0x3F), (398, 48), (400, 12)]
def attnS (q : List SeqSlot) : State :=
  let s := at8 [attnC 0] attnScr []
  { s with kv := { s.kv with seqs := q } }

theorem wit_Attn :
    (attnS [seqKv]).invOk = true ∧ issueOk (attnS [seqKv]) 0 0 (ctx8 [attnC 0]) (attnC 0) = true ∧ (attnS [seqKv]).seq? (atSeq (attnC 0)) = some seqKv ∧
      atDim (attnC 0) = 16 ∧ atKfmt (attnC 0) = geo.fmt ∧ atPoff (attnC 0) = 384 ∧ (attnS [seqKv]).locFault (ctx8 [attnC 0]) 384 64 = none ∧
      (let s1 := (attnS [seqKv]).locWrite (ctx8 [attnC 0]) 395 [1, 0]
       let p := s1.locRead (ctx8 [attnC 0]) 384 64
       paramOk (attnC 0) p geo 0 1 64 = true ∧ s1.locFaults (ctx8 [attnC 0]) (atRanges (attnC 0) p) = none ∧
         atBeyond (attnC 0) (s1.walkPages (ctx8 [attnC 0]) (attnC 0) p seqKv geo) = false) ∧
      (ctxAfter (.attn 0 0 9) (attnS [seqKv])).bind (·.walk) = some ⟨0, 0, [⟨0, 0x400, 2⟩], 0, 0, [], false, false⟩ ∧
      (let x := { ctx8 [attnC 0] with gone := [0] }
       issueOk (withCtx x busy) 0 0 x (attnC 0) = true ∧ atSeq (attnC 0) ∈ x.gone ∧
         (ctxAfter (.attn 0 0 9) (withCtx x busy)).bind (·.walk) = some ⟨0, 0, [], 0, 0, [], false, false⟩) := by decide +kernel

/-- The ATTN at work, its engines its own or taken with 7 descriptors queued. -/
def walking (taken queued : Nat) : State :=
  let x := { ctx8 [] with
      outstanding := [⟨0, attnC 0, 6, 0⟩], taken := taken, nextIssue := 1
      walk := some ⟨0, 0, List.replicate 8 ⟨0, 0x400, 2⟩, queued, queued, [], false, false⟩ }
  { (withCtx x busy).onCarrel 0 (fun r => { r with scratch := attnScr ++ [(320 + 2, 0x80), (320 + 3, 0xFF)] }) with kv := (attnS [seqKv]).kv }

theorem wit_KvEmit :
    ((walking 0 0).ctxAt 0 0).map (fun x => (x.attnCmd.isSome, x.walk.map (·.pages.length), x.stopped)) = some (true, some 8, false) ∧
      (ctxAfter (.kvDescriptorEmit 0 0) (walking 0 0)).bind (fun y => y.walk.map fun w => (w.emitted, w.queued)) = some (1, 0) ∧
      (ctxAfter (.kvDescriptorEmit 0 0) (walking 1 7)).bind (fun y => y.walk.map fun w => (w.emitted, w.queued)) = some (8, 8) := by
  decide +kernel

/-- Two keys that score 0: each weighs 255 of 256, so l is 510/256 (R357). -/
theorem test_attn_l : (after (.kvDescriptorEmit 0 0) (walking 0 0)).locWord (ctx8 []) 324 = 0x3FFF0000 := by decide +kernel

/-- Part 1 of 2, its walk done. -/
def parting : State :=
  let x := { ctx8 [] with
      plan := ⟨2, 0, 0, [0], 0, 0, (1, 2), [], ⟨0, 0⟩, []⟩, outstanding := [⟨0, attnC 1, 6, 0⟩], nextIssue := 1, walk := some ⟨0, 0, [], 0, 0, [], false, false⟩ }
  withCtx x busy

theorem wit_Combine :
    parting.invOk = true ∧ (parting.ctxAt 0 0).map (fun x => (x.partCount, x.walk.map Walk.done, x.attnCmd.map fun o => atMode o.cmd)) = some (2, some true, some 1) ∧
      parting.sch.combiners.length = 0 ∧ (after (.combinePart 0 0) parting).sch.combiners.map (fun b => (b.parts, b.rows.map (·.1))) = [(2, [1])] ∧
      (ctxAfter (.combinePart 0 0) parting).bind (fun y => y.walk.map (·.handed)) = some true := by decide +kernel

/-! #### Completion -/

/-- A context with some outstanding commands; the last of the list when `last`. -/
def doing (out : List OutCmd) (last : Bool) (f : Folio) : State :=
  let x := { ctx8 [] with outstanding := out, nextIssue := if last then 4 else 3, nextFetch := 4, runStart := some 100 }
  { withCtx x (withJob (job (desc opRun [(28, 2, 2), (30, 2, 64)]) .running) (withFolio f rg)) with arithNow := 200, kv := (attnS [seqKv]).kv }

def reqOut : OutCmd := ⟨2, cmd coReq [], 2, 2⟩
def loadOut (i : Nat) : OutCmd := ⟨i, loadC, 1, i⟩

theorem wit_Complete :
    (doing [⟨1, tmacC false, 2, 1⟩, reqOut, loadOut 0] false (folio [stage 4 0xFF])).invOk = true ∧
      (doing [⟨1, tmacC false, 2, 1⟩, reqOut, loadOut 0] false (folio [stage 4 0xFF])).mayComplete 0 (ctx8 []) reqOut = true ∧
      (ctxAfter (.commandComplete 0 0 2 50) (doing [⟨1, tmacC false, 2, 1⟩, reqOut, loadOut 0] false (folio [stage 4 0xFF]))).map (·.outstanding) = some [loadOut 0] ∧
      (doing [loadOut 3] true (folio [stage 4 0xFF])).invOk = true ∧
      (let t := after (.commandComplete 0 0 3 1100) (doing [loadOut 3] true (folio [stage 4 0xFF]))
       t.ctx? 0 = none ∧ t.arithNow = 1100 ∧ (t.jobNum? 7).map (fun j => (j.runs, j.sumM, j.sumS)) = some (1, 1000, 1000)) ∧
      (ctxAfter (.commandComplete 0 0 3 1100) (doing [loadOut 3] true (folio [decodeStage]))).map (fun y => (y.idle, y.queue)) = some (true, []) := by
  decide +kernel

/-- An ATTN of MODE 0 whose one page has been consumed: its output is divided and written, and its walk is over (R358). -/
theorem wit_CompleteAttn :
    let s := after (.kvDescriptorEmit 0 0) (after (.attn 0 0 9) (attnS [seqKv]))
    ((s.ctxAt 0 0).bind (·.attnCmd)).map (fun o => (o.idx, atMode o.cmd, atScore o.cmd)) = some (0, 0, false) ∧
      (s.ctxAt 0 0).any (fun x => x.attnCmd.any fun o => s.mayComplete 0 x o) = true ∧
      s.sch.ctxs.all (fun x => decide (x.taken = 0) && x.walk.all fun w => decide (w.queued = 0)) = true ∧
      (ctxAfter (.commandComplete 0 0 0 50) s).map (fun y => (y.walk.isSome, y.outstanding.length)) = some (false, 0) := by decide +kernel

/-! #### Placing and spilling -/

/-- Only carrel 0 is not fenced; a page-side of the running job has its planes. -/
def placing (lc : Bool) (ctxs : List Ctx) : State :=
  let j := { runJob6 with lc := lc }
  let s := withRegs ((rErrFenceC 0, 2 ^ 32 - 2) :: (List.range 5).map fun i => (rErrFenceC (i + 1), 2 ^ 32 - 1)) (withJob j (withFolio (folio [stage 4 0xFF]) rg))
  let s := { s with kv := { s.kv with seqs := [{ seqKv with geom := none }] } }
  { s.onCarrel 0 (fun r => { r with slots := (List.range 4).map fun k => match ctxs[k]? with | some x => ([2 * k, 2 * k + 1], some x.id) | none => ([], none) }) with
    sch := { (s.onCarrel 0 (fun r => { r with slots := (List.range 4).map fun k => match ctxs[k]? with | some x => ([2 * k, 2 * k + 1], some x.id) | none => ([], none) })).sch with ctxs := ctxs, nextCtx := ctxs.length } }

def planP : CtxPlan := ⟨2, 0, 0, [0], 0, 0, (0, 1), [], ⟨0, 0⟩, []⟩
/-- Four contexts of another job; the second has the smallest LIVE. -/
def others : List Ctx :=
  (List.range 4).map fun k => { ctx0 [if k = 1 then fields 32 [(0, 1, coLoad), (1, 1, 2), (2, 2, 10)] else loadC] with id := k, jobNumber := 3, place := some (0, k) }

theorem runs_placing : (placing false []).runs runJob6 (folio [stage 4 0xFF]) := by constructor <;> decide +kernel
theorem runs_placing_lc : (placing true others).runs { runJob6 with lc := true } (folio [stage 4 0xFF]) := by constructor <;> decide +kernel

/-- The carrels that the plan may take, in policy order. -/
def placesOf (s : State) (lc : Bool) : List Nat :=
  let j := { runJob6 with lc := lc }
  let p := s.spreadOf (folio [stage 4 0xFF]) (stage 4 0xFF) planP
  (s.placeOn j (folio [stage 4 0xFF]) (stage 4 0xFF) p lc).filter fun c =>
    s.bayGrants (c / 8) (stage 4 0xFF) && !s.keptFor 7 p (stage 4 0xFF) lc c

/-- What CONTEXT_PLACE finds before it looks for a slot: nothing placed, nothing refused, the page-side's run, its buffers. -/
def placeable (s : State) (lc : Bool) : Bool :=
  let j := { runJob6 with lc := lc }
  let f := folio [stage 4 0xFF]
  let p := s.spreadOf f (stage 4 0xFF) planP
  s.invOk && s.listRight j f (stage 4 0xFF) planP && (s.sch.ctxs.find? fun x => x.same 7 p (stage 4 0xFF)).isNone &&
    (s.refuseRange j f (stage 4 0xFF) p).isNone && decide (s.runSeqs j f (stage 4 0xFF) p = some [(0, none)]) &&
    (match s.takeAll f 0 (s.pagesOf [0]) with | .ok _ => true | .error _ => false) && !s.noCatalog (stage 4 0xFF) 0 [(0, none)]

theorem wit_Place :
    placeable (placing false []) false = true ∧ (placing false []).findRoom (placesOf (placing false []) false) false 2 = .free 0 0 ∧
      (after (.contextPlace planP) (placing false [])).slotOf 0 0 = ([0, 1], some 0) := by decide +kernel

/-- A BE context waits for a slot; an LC one displaces the context with the smallest LIVE. -/
theorem wit_PlaceWaits :
    placeable (placing false others) false = true ∧ (placing false others).findRoom (placesOf (placing false others) false) false 2 = .wait ∧
      (after (.contextPlace planP) (placing false others)).sch.waiting.length = 1 := by decide +kernel

theorem wit_Displace :
    placeable (placing true others) true = true ∧ (placing true others).findRoom (placesOf (placing true others) true) true 2 = .displace 0 1 1 ∧
      (placing true others).noInject ∧ (placing true others).enginesFree ∧
      (let t := after (.contextPlace planP) (placing true others)
       (t.ctxAt 0 1).map (·.id) = some 4 ∧ (t.ctx? 1).map (fun z => (z.place, z.image.map (·.2))) = some (none, some 2560) ∧
         (t.carrel 0).switching = some ⟨1, some 1, some 4, 32 + 26 + 16⟩) := by
  unfold State.noInject State.enginesFree; decide +kernel

/-- The same with an older image of a BE context in the bay's spill area, which the reserved room does not allow beside it (R472). -/
def crowded : State := placing true (others ++ [{ ctx0 [] with id := 4, jobNumber := 3, place := none, image := some (0, 122880) }])

theorem wit_PlaceWaitsSpill :
    placeable crowded true = true ∧ crowded.findRoom (placesOf crowded true) true 2 = .waitSpill 0 6656 ∧
      (after (.contextPlace planP) crowded).sch.spillNeed = [(0, 6656, 7)] := by decide +kernel

/-- A stage with a WORK buffer, and a plane pool without room for it: the buffer waits. -/
theorem wit_PlaceWaitsPool :
    let f := { folio [stage 4 0xFF] with bindings := [(0, 1, 3, 0, 100)] }
    let s := withFolio f (withRegs [(rAccPoolSize, 0)] (placing false []))
    s.invOk = true ∧ s.jobFolio runJob6 = some f ∧
      (match s.takeAll f 0 (s.pagesOf [0]) with | .ok _ => false | .error e => decide (e.1 = .buffer 7 0 0 1)) = true ∧
      (after (.contextPlace planP) s).acc.poolQueue = [.buffer 7 0 0 1] := by decide +kernel

/-- The context was spilled, with 512 bytes of live region behind its bank, and its carrel has a slot. -/
def away0 : State :=
  (placing false []).onSch fun h => { h with ctxs := [{ ctx0 [loadC] with place := none, image := some (0, 512) }], nextCtx := 1 }

theorem wit_Resume :
    away0.invOk = true ∧ (away0.sch.ctxs.find? fun x => x.same 7 planP (stage 4 0xFF)).map (·.id) = some 0 ∧
      away0.sch.ctxs.all (fun x => away0.resumeTurn x) = true ∧ away0.enginesFree ∧ (away0.carrel 0).switching = none ∧
      away0.findRoom ((away0.placeOn runJob6 (folio [stage 4 0xFF]) (stage 4 0xFF) planP false).filter fun c => c / 8 = 0) false 2 = .free 0 0 ∧
      (let t := after (.contextPlace planP) away0
       (t.ctxAt 0 0).map (fun y => (y.id, y.image)) = some (0, none) ∧ (t.carrel 0).switching = some ⟨0, none, some 0, 32 + switchTerm 512⟩) := by
  unfold State.enginesFree; decide +kernel

/-- A switch under way on carrel 0; the combiner holds output for the entering context. -/
def switching (held : Option (Nat × Bytes)) : State :=
  (withCtx { ctx8 [] with heldOut := held } busy).onCarrel 0 fun r => { r with switching := some ⟨0, none, some 0, 48⟩ }

theorem wit_SwitchDone :
    ((switching none).carrel 0).switching = some ⟨0, none, some 0, 48⟩ ∧ ((switching none).ctx? 0).map (·.heldOut) = some none ∧
      ((after (.contextSwitchDone 0) (switching (some (16380, [1, 2, 3, 4])))).locRead (ctx8 []) 16380 4) = [1, 2, 3, 4] := by decide +kernel

/-- Bay 0 holds one image of one byte more than leaves the reserved room free; the pool has room, or none. -/
def spilled (size : Nat) : State :=
  let s := withRegs [(rAccPoolSize, size)] (pools busy)
  { s with sch := { s.sch with ctxs := [{ ctx0 [] with place := none, image := some (0, 122881) }], nextCtx := 1 } }

theorem wit_Spill :
    (spilled 16).invOk = true ∧ (spilled 16).fabricUp = true ∧ (spilled 16).moveDue 0 = true ∧ (spilled 16).moveDue 23 = false ∧
      ((spilled 16).oldestSpill 0).map (fun x => (x.id, x.image)) = some (0, some (0, 122881)) ∧
      ((spilled 16).poolTake 126977 (.spill 0) 1).isSome = true ∧
      ((spilled 0).poolTake 126977 (.spill 0) 1).isNone = true ∧ (spilled 0).spillWaits = true := by decide +kernel

/-! ### KV memory -/

def withKv (q : List SeqSlot) (s : State) : State := { s with kv := { s.kv with seqs := q } }

/-- One drained row 1 to 16. -/
def rowDrain : Drain := ⟨1, 16, (List.range 16).map fun (i : Nat) => (⟨(i : Int) + 1, false, (i + 1) % 3⟩ : AccCell)⟩
/-- KVAPP of keys, of values, in layer 0 of sequence 0, advancing the cursor. -/
def kvappC (values : Nat) : Bytes := cmd coKvapp [(7, 1, values + 2), (8, 4, 64), (16, 1, 0x4B)]
def kvS (q : SeqSlot) (values : Nat) : State :=
  withKv [q] (withCtx { ctx8 [kvappC values] with drain := some rowDrain } busy)
/-- The page full, the cursor behind it. -/
def seqFull (spare : Option Nat) : SeqSlot := { seqKv with cursor := 16, table := [{ SeqSlot.emptyPte with page := 0x400, fill := 16 }], spare := spare }

theorem wit_Kvapp :
    (kvS seqKv 0).invOk = true ∧ ((kvS seqKv 0).ctxAt 0 0).any (fun x => issueOk (kvS seqKv 0) 0 0 x (kvappC 0)) = true ∧
      rqOfmt (kvappC 0) = 11 ∧ kaLayer (kvappC 0) < 1 ∧ (kvS seqKv 0).locFaults (ctx8 []) (rqRanges (kvappC 0) 16) = none ∧
      residueFault 16 rowDrain.cells = none ∧ (seqKv.covering 2).map (·.basePos) = some 0 ∧ seqKv.tableAt + 16 * seqKv.table.length ≤ 0x400000 ∧
      (seqFull none).nextSpare = none ∧ (seqFull none).covering 16 = none ∧
      (let t := after (.kvapp 0 0 9) (kvS seqKv 0)
       t.dram.read 0x400020 16 = (List.range 16).map (fun i => BitVec.ofNat 8 (i + 1)) ∧
         (t.seq? 0).map (fun q => (q.cursor, q.table.map (·.fill))) = some (3, [3])) ∧
      (let t := after (.kvapp 0 0 9) (kvS (seqFull none) 0)
       (t.ctxAt 0 0).map (fun y => (y.kvWait, y.drain.isSome)) = some (true, true) ∧ (t.seq? 0).map (·.cursor) = some 16) := by decide +kernel

/-- The sequence has been let go: nothing is written. -/
theorem wit_Kvapp_gone :
    let x := { ctx8 [kvappC 0] with drain := some rowDrain, gone := [0] }
    let s := withKv [seqKv] (withCtx x busy)
    issueOk s 0 0 x (kvappC 0) = true ∧ kaSeq (kvappC 0) ∈ x.gone ∧ (after (.kvapp 0 0 9) s).dram = s.dram ∧
      ((after (.kvapp 0 0 9) s).ctxAt 0 0).map (·.drain.isSome) = some false := by decide +kernel

/-- A value element lies a page's positions apart (R330): element 1 of position 2. -/
theorem test_kvapp_value : (after (.kvapp 0 0 9) (kvS seqKv 1)).dram.get (0x400000 + 256 + 16 + 2) = 2 := by decide +kernel

/-- The free list of 16 positions holds a page of 4 KiB. -/
def withFree (l : List Nat) (s : State) : State :=
  { s with kv := { s.kv with free := l :: List.replicate 7 [], pageBytes := l.map fun p => (p, 4096) } }

theorem wit_Spare :
    (withFree [0x500] (kvS (seqFull none) 0)).invOk = true ∧
      (withFree [0x500] (kvS (seqFull none) 0)).freePages 4 (geo.pageBytes 4) = [0x500] ∧
      ((after (.spareTake 0) (withFree [0x500] (kvS (seqFull none) 0))).seq? 0).map (·.spare) = some (some 0x500) ∧
      (withFree [] (kvS (seqFull none) 0)).freePages 4 (geo.pageBytes 4) = [] := by decide +kernel

/-- A KVAPP that waits, and now has its spare. -/
def resuming (spare : Option Nat) (q : List SeqSlot) : State :=
  withKv (seqFull spare :: q) (withCtx { ctx8 [] with drain := some rowDrain, kvWait := true, outstanding := [⟨3, kvappC 0, 2, 3⟩], nextIssue := 4 } busy)

theorem wit_KvappResume :
    (resuming (some 0x500) []).invOk = true ∧ ((seqFull (some 0x500)).pte? 16).isNone = true ∧ (seqFull (some 0x500)).tableEnd = 16 ∧
      (let t := after (.kvappResume 0 0) (resuming (some 0x500) [])
       (t.seq? 0).map (fun r => (r.spare, r.cursor, r.table.map fun e => (e.page, e.basePos, e.fill))) = some (none, 17, [(0x400, 0, 16), (0x500, 16, 1)]) ∧
         t.dram.read 0x500000 2 = [1, 2]) := by decide +kernel

/-! #### Tables, the concordance, cards -/

def concFolio : Folio := folio [{ decodeStage with conc := true, card := true }]
def tabled (q : SeqSlot) : State := withKv [q] (withJob runJob6 (withFolio concFolio rg))

theorem wit_Edits :
    (tabled { seqKv with stepOpen := 1 }).invOk = true ∧
      ((after (.editApply 0 (some (.remove 0))) (tabled { seqKv with stepOpen := 1 })).seq? 0).map (fun r => (r.edits.length, r.table.length, r.gen)) = some (1, 1, 0) ∧
      ((after (.editApply 0 (some (.remove 0))) (tabled { seqKv with applying := true })).seq? 0).map (fun r => (r.edits, r.after)) =
        some ([], [[.remove 0]]) ∧
      ((after (.editApply 0 (some (.setPinned 0 true))) (tabled seqKv)).seq? 0).map (fun r => (r.gen, r.table.map (·.pinned))) = some (1, [true]) ∧
      ((after (.editApply 0 none) (tabled { seqKv with applying := true, edits := [.setPinned 0 true, .setShared 0 true], gen := 2 ^ 32 - 1 })).seq? 0).map
        (fun r => (r.gen, r.applying, r.table.map fun e => (e.pinned, e.shared))) = some (0, false, [(true, true)]) := by decide +kernel

/-- The entry of R332 in DRAM: PAGE at byte 0, LOG2_SIZE at 4, FLAGS at 5 (VALID 0, PINNED 2), FILL at 6; and an edit that would
put two entries on the same positions changes nothing (the model's choice, assumption 34). -/
theorem test_edit_table :
    (after (.editApply 0 (some (.setPinned 0 true))) (tabled seqKv)).dram.read 0x280000 8 = [0, 4, 0, 0, 4, 5, 2, 0] ∧
      tableOk (editTable seqKv.table (.insert ⟨0x500, 4, 1, 0, 8⟩)) = false ∧
      ((after (.editApply 0 (some (.insert ⟨0x500, 4, 1, 0, 8⟩))) (tabled seqKv)).seq? 0).map (·.table) = some seqKv.table := by
  decide +kernel

def prompt16 : List Nat := List.replicate 16 65
def node0 : Node := ⟨3, 0, 4, BitVec.ofNat 64 (hashUpTo 0 prompt16 16 0), none, prompt16, 0x600, 1⟩
def matching (on : Bool) : State :=
  let s := tabled { seqKv with table := [], cursor := 0 }
  withRegs [(rKvcConcCtrl, b2n on)] { s with kv := { s.kv with nodes := [node0, { node0 with id := 4, parent := some 3, page := 0x601, hash := 1 }] } }

theorem wit_Prefix :
    (matching true).invOk = true ∧ (matching true).concOn concFolio = true ∧
      ((after (.prefixMatch 0 (prompt16 ++ [66])) (matching true)).seq? 0).map (fun r => (r.cursor, r.shared, r.gen)) = some (16, 1, 1) ∧
      ((after (.prefixMatch 0 (prompt16 ++ [66])) (matching true)).seq? 0).map (fun r => r.table.map fun e => (e.page, e.shared, e.fill)) =
        some [(0x600, true, 16)] ∧
      ((after (.prefixMatch 0 prompt16) (matching false)).seq? 0).map (fun r => (r.cursor, r.prompt.length, r.table.length)) = some (0, 16, 0) ∧
      (after .flush (matching true)).kv.nodes.length = 0 := by decide +kernel

/-- A low-water mark of 2, an arena of 1 MiB at 64 MiB; none. -/
def restocking (mib : Nat) : State :=
  withFree [0x500] (withRegs [(rKvcFree 0, 2 * 65536), (rKvcArenaBaseLo, 0x4000000), (rKvcArenaSize, mib)] (tabled seqKv))

theorem wit_Restock :
    (restocking 1).invOk = true ∧ (after (.freeListRestock 0) (restocking 1)).kv.free.headD [] = [0x500, 0x4000] ∧
      (after (.freeListRestock 0) (restocking 0)).kv.free.headD [] = [0x500] ∧ ((restocking 0).carve 0).isNone = true := by decide +kernel

/-- Key element 0 is 2 in 9 of the 16 positions: the mean 18/16 rounds to 1. -/
def carding : State :=
  { tabled (seqFull none) with dram := (List.range 9).map fun i => (0x400000 + 16 * i, 2) }

theorem wit_Card :
    carding.invOk = true ∧ (((carding.seq? 0).bind carding.seqFolio).bind Folio.decode).map (·.card) = some true ∧
      ((after (.cardSummaryBuild 0 0) carding).seq? 0).map (fun r => r.table.map fun e => e.card.map (·.take 2)) = some [some [1, 0]] ∧
      (seqKv.table.map fun e => (e.fill, e.size)) = [(2, 16)] := by decide +kernel

/-! #### Swapping -/

/-- Sequence 1 of the same job, in slot 1, with an unshared and a shared page, one step behind it. -/
def victim1 : SeqSlot :=
  { seqKv with
    slot := 1, idx := 1, fresh := true, gen := 7, cursor := 32
    table := [{ SeqSlot.emptyPte with page := 0x700, fill := 16, shared := true }, { SeqSlot.emptyPte with page := 0x701, fill := 16, basePos := 16 }] }
def swapping (mib : Nat) (q : List SeqSlot) : State := withRegs [(rKvcSwapSize, mib)] (resuming none q)

theorem cqOpen_swapping : (swapping 0 []).cqOpen ((swapping 0 []).cqFor 0 runJob6.desc) := by constructor <;> decide +kernel

theorem wit_SwapOut :
    (swapping 1 [victim1]).invOk = true ∧ ((swapping 1 [victim1]).waitingSeq).map (·.slot) = some 0 ∧
      (swapping 1 [victim1]).spareAhead (seqFull none) = false ∧ (swapping 1 [victim1]).swapFail = none ∧
      ((swapping 1 [victim1]).swapVictim).map (·.slot) = some 1 ∧ (victim1.table.map (·.basePos)).Nodup ∧
      ((swapping 1 [victim1]).placeSwap 1 geo victim1.swappable []).isSome = true ∧
      (let t := after .swapOut (swapping 1 [victim1])
       (t.seq? 1).map (fun q => (q.gen, q.swappedAt.isSome, q.table.map (·.swapped))) = some (8, true, [false, true]) ∧ t.kv.swapRuns = [(0, 1, 1)]) ∧
      (swapping 0 []).swapFail = some 3 ∧ (swapping 1 []).swapFail = some 2 ∧ (after .swapOut (swapping 0 [])).job? 2 = none := by decide +kernel

def swapped1 : SeqSlot :=
  { victim1 with swappedAt := some 5, fresh := false, table := victim1.table.map fun e => if e.shared then e else { e with swapped := true, page := 0 } }

theorem wit_SwapIn :
    (withFree [0x500] (tabled swapped1)).invOk = true ∧ (withFree [0x500] (tabled swapped1)).canSwapIn swapped1 = true ∧
      (swapped1.table.map (·.basePos)).Nodup ∧ swapped1.swappedPtes.all (fun e => decide (4 ≤ e.log2 ∧ e.log2 < 12)) = true ∧
      ((after (.swapIn 1 [9, 8]) (withFree [0x500] (tabled swapped1))).seq? 1).map
        (fun r => (r.gen, r.swappedAt, r.table.map fun e => (e.page, e.swapped))) = some (8, none, [(0x700, false), (0x500, false)]) ∧
      (after (.swapIn 1 [9, 8]) (withFree [0x500] (tabled swapped1))).dram.read 0x500000 3 = [9, 8, 0] ∧
      (withFree [0x500] (tabled swapped1)).kv.free.flatten = [0x500] ∧
      (withFree [] (tabled swapped1)).canSwapIn swapped1 = false := by decide +kernel

/-! #### The catalog -/

/-- One BF16 row of logits at 0 for the sequence listed at 1,024: 1.0 for token 0, 2.0 for token 66. -/
def cathandC : Bytes := cmd coCathand [(8, 4, 1024), (12, 1, 1), (13, 1, 13)]
def catSeq (c : CatSeq) : SeqSlot := { seqKv with cat := some { c with grammarAddr := 0x208000 } }
def cat0 : CatSeq := { newCat 0x208000 1 0 with mask := some [65, 66, 256] }
def handing : State := withKv [catSeq cat0] (at8 [cathandC] [(0, 0x80), (1, 0x3F), (133, 0x40)] grammarMem)
def logits : List Word := List.replicate 65 0 ++ [0x3F800000, 0x40000000] ++ List.replicate 197 0
def choosing (c : CatSeq) (topk : Bool) : State :=
  let j := { runJob6 with param := fields 352 ([(0, 1, 255)] ++ if topk then [(1, 1, 1), (2, 1, 8)] else []) }
  withKv [catSeq c] { withJob j (withFolio (folio [decodeStage]) rg) with dram := grammarMem }

theorem wit_Cathand :
    handing.invOk = true ∧ issueOk handing 0 0 (ctx8 [cathandC]) cathandC = true ∧
      handing.locFaults (ctx8 [cathandC]) [(0, chPitch cathandC), (1024, 2)] = none ∧ handing.chSeqs (ctx8 [cathandC]) cathandC = [0] ∧
      (((after (.cathand 0 0 9) handing).seq? 0).bind (·.cat)).bind (·.row.map fun r => (r.headD 9, r.getD 66 9)) = some (0x3F800000, 0x40000000) := by
  decide +kernel

theorem wit_Choice :
    (choosing { cat0 with row := some logits } false).invOk = true ∧
      (choosing { cat0 with row := some logits } false).rowTurn { cat0 with row := some logits } false = true ∧
      (((after (.tokenChoice 0) (choosing { cat0 with row := some logits } false)).seq? 0).bind (·.cat)).map (fun c => (c.token, c.feed)) =
        some (some (66, 0x3F80), [66]) ∧
      (((after (.tokenChoice 0) (choosing { cat0 with row := some logits } true)).seq? 0).bind (·.cat)).map (fun c => c.token.isSome) = some true ∧
      (((after (.tokenChoice 0) (choosing { cat0 with row := some logits, paused := true, mask := some [65] } false)).seq? 0).bind (·.cat)).bind (·.token) =
        some (65, marginInf) := by decide +kernel

theorem openSeq_choosing : (choosing { cat0 with token := some (256, 0) } false).openSeq { runJob6 with param := fields 352 [(0, 1, 255)] } 0 := by
  refine ⟨by decide +kernel, by decide +kernel, by decide +kernel, by unfold State.enginesFree; decide +kernel, ?_⟩
  constructor <;> decide +kernel

theorem wit_Advance :
    (choosing { cat0 with token := some (65, 0x3F80) } false).invOk = true ∧ (gPair grammarMem 0x208000 0 []).isSome = true ∧
      emitBytes (fields 352 [(0, 1, 255)]) 64 0x3F80 (tokenBytes grammarMem 0x208000 65) [] matches .all _ ∧
      (gMask grammarMem 0x208000 0 []).length = 3 ∧
      (((after (.catalogAdvance 0) (choosing { cat0 with token := some (65, 0x3F80) } false)).seq? 0).bind (·.cat)).map
        (fun w => (w.emitted, w.feed)) = some ([(65, 0x3F80)], []) ∧
      (((after (.catalogAdvance 0) (choosing { cat0 with token := some (65, 0x3F80) } false)).seq? 0).bind (·.cat)).map
        (fun w => (w.mask, w.token)) = some (some [65, 66, 256], none) ∧
      ((after (.catalogAdvance 0) (choosing { cat0 with token := some (256, 0) } false)).job? 2) = none := by decide +kernel

/-! ### Folios -/

def loadD (h : Nat) : Bytes := desc opFolioLoad [(5, 1, h), (6, 1, 255), (24, 4, 1088)]
/-- A model area of 1 MiB at 2 MiB, or none; handle 0 in use; the head of ring 0 is a FOLIO_LOAD. -/
def loadHead (h mib : Nat) : State :=
  fetched 0 (loadD h) (some 2) (withJob (job (loadD h) .queued) (withFolio (folio []) (withRegs [(rMdlAreaBaseLo, 0x200000), (rMdlAreaSize, mib)] rg)))

theorem ready_load : (loadHead 31 1).ready 0 (loadD 31) (some 2) ∧ (loadHead 31 1).slotJob 0 (loadD 31) (job (loadD 31) .queued) ∧
    (loadHead 0 1).ready 0 (loadD 0) (some 2) ∧ (loadHead 32 1).ready 0 (loadD 32) (some 2) ∧ (loadHead 32 1).cqOpen 3 ∧
    (loadHead 31 0).ready 0 (loadD 31) (some 2) := by
  refine ⟨?_, ?_, ?_, ?_, ?_, ?_⟩ <;> constructor <;> decide +kernel

theorem wit_FolioLoad :
    (loadHead 31 1).invOk = true ∧ dFolio (loadD 31) = 31 ∧ (loadHead 31 1).mdlRegion 1088 = some 0x210000 ∧
      ((after (.folioLoad 0) (loadHead 31 1)).fol.folios.map fun f => (f.handle, f.addr, f.committed)) = [(0, 0x200000, true), (31, 0x210000, false)] ∧
      (after (.folioLoad 0) (loadHead 0 1)).job? 2 = none ∧ (after (.folioLoad 0) (loadHead 32 1)).job? 2 = none ∧
      (loadHead 31 0).mdlRegion 1088 = none ∧ (after (.folioLoad 0) (loadHead 31 0)).reg (rMdlFault 31) = 8 := by decide +kernel

/-- The image of `folioHead` on its way to handle 5. -/
def loadingF (ph : JobPhase) : State :=
  keyed { withJob (job (loadD 5) ph) rg with fol := { rg.fol with folios := [claimFolio 5 0x200000 1088 255 2 false] } }
def loadedFolio : Folio := parseFolio folioImage 5 0x200000 1088 255 2 false

theorem job_loading : (loadingF .loadFetch).slotJob 0 (loadD 5) (job (loadD 5) .loadFetch) ∧ (loadingF .loadFetch).cqOpen 3 ∧
    (loadingF .loadCommit).slotJob 0 (loadD 5) (job (loadD 5) .loadCommit) := by
  refine ⟨?_, ?_, ?_⟩ <;> constructor <;> decide +kernel

theorem wit_FolioFetch :
    (loadingF .loadFetch).invOk = true ∧ (loadingF .loadFetch).charged 2 = false ∧ (loadingF .loadFetch).verifyFolio folioImage loadedFolio = none ∧
      fixups folioImage = [] ∧ loadedFolio.stages.map (fun g => (g.kind, g.listLen, g.bound)) = [(4, 2, 100)] := by decide +kernel

/-- With one byte of the list changed the signature fails: cause 2 at section 2, R445's second step. -/
theorem wit_FolioFetch_fault :
    (loadingF .loadFetch).verifyFolio (folioImage.set 192 1) (parseFolio (folioImage.set 192 1) 5 0x200000 1088 255 2 false) =
      some ⟨2, 2, 256 + 392⟩ := by decide +kernel

theorem wit_FolioCommit :
    (loadingF .loadCommit).invOk = true ∧ ((after (.folioCommit 2) (loadingF .loadCommit)).fol.folios.map (·.committed)) = [true] ∧
      (after (.folioCommit 2) (loadingF .loadCommit)).job? 2 = none := by decide +kernel

/-! #### Unloading and shards -/

def unloadD : Bytes := desc opFolioUnload [(5, 1, 0)]
def unloadHead (on : Bool) : State :=
  fetched 0 unloadD (some 2) (withJob (job unloadD .queued) (withFolio { folio [] with unloading := on, loaderSlot := if on then some 2 else none } rg))
def releasing (named : Bool) : State :=
  let s := withJob (job unloadD .unloading) (withFolio { folio [] with unloading := true, loaderSlot := some 2 } rg)
  if named then { s with jobs := s.jobs ++ [{ runJob6 with slot := 1, number := 8, folioOk := true }], jobCount := 9 } else s

theorem ready_unload : (unloadHead true).ready 0 unloadD (some 2) ∧ (unloadHead false).ready 0 unloadD (some 2) ∧ (unloadHead false).cqOpen 3 ∧
    (unloadHead true).slotJob 0 unloadD (job unloadD .queued) ∧ (releasing false).slotJob 0 unloadD (job unloadD .unloading) := by
  refine ⟨?_, ?_, ?_, ?_, ?_⟩ <;> constructor <;> decide +kernel

theorem wit_Unload :
    (unloadHead true).invOk = true ∧ ((after (.folioUnload 0) (unloadHead true)).job? 2).map (·.phase) = some .unloading ∧
      (unloadHead false).invOk = true ∧ (after (.folioUnload 0) (unloadHead false)).job? 2 = none ∧
      (releasing true).invOk = true ∧ (releasing true).jobs.any (·.names { folio [] with unloading := true, loaderSlot := some 2 }) = true ∧
      (releasing false).jobs.any (·.names { folio [] with unloading := true, loaderSlot := some 2 }) = false ∧
      (after (.folioUnloadRelease 2) (releasing false)).fol.folios.length = 0 ∧
      (after (.folioUnloadRelease 2) (releasing true)).fol.folios.length = 1 := by decide +kernel

/-- A stage with `n` shards; one shard resident in bay 23, one on its way to wing 3. -/
def sharded (n : Nat) : State :=
  let s := withFolio (folio [{ stage 4 0xFF with shelfShards := n }]) rg
  { s with fol := { s.fol with shards := [⟨3, 23, 0, 0, 0, false, 0⟩], refills := [(3, 0, 1)] } }

theorem wit_Pin :
    (sharded 2).invOk = true ∧ (sharded 2).pinTooMuch (folio [{ stage 4 0xFF with shelfShards := 2 }]) = false ∧
      ((after (.folioPin 0) (sharded 2)).fol.shards.map (·.pinned)) = [true] ∧ (after (.folioPin 0) (sharded 2)).fol.refills.length = 7 ∧
      ((after (.folioPin 0) (sharded 2)).fol.refills.filter (·.1 = 3)).length ≤ (after (.folioPin 0) (sharded 2)).shelfPlaces 3 ∧
      (sharded 121).pinTooMuch (folio [{ stage 4 0xFF with shelfShards := 121 }]) = true ∧ (after (.folioPin 0) (sharded 121)).regB rMdlPinCtrl 6 = true ∧
      (after (.folioUnpin 0) (after (.folioPin 0) (sharded 2))).fol.shards.map (·.pinned) = [false] ∧
      (3, 0, 1) ∈ (sharded 2).fol.refills ∧ (sharded 2).roomiest 3 = some 18 ∧
      ((after (.refillDone 3 0 1) (sharded 2)).fol.shards.map fun g => (g.bay, g.number)) = [(23, 0), (18, 1)] := by decide +kernel

/-- Wing 3 full, and a shard on its way: the one least recently read makes place. -/
def fullWing : State :=
  let s := sharded 2
  { s with
    fol := { s.fol with
      shards := (List.range 6).flatMap fun b => (List.range (sharded 2).bayShards).map fun p => ⟨3, 18 + b, 0, 24 * b + p + 2, p, false, 9 - b⟩ } }
theorem wit_Evict :
    fullWing.invOk = true ∧ fullWing.roomiest 3 = none ∧ (fullWing.evictee 3).map (fun e => (e.bay, e.number)) = some (23, 122) ∧
      ((after (.refillDone 3 0 1) fullWing).fol.shards.getLast?.map fun g => (g.bay, g.number)) = some (23, 1) := by decide +kernel

theorem wit_Split :
    wbit (4 : Word) 3 = false ∧ wbits (4 : Word) 0 3 ≠ svc.regF rMdlShelfSplit 0 3 ∧ svc.jobs = [] ∧ svc.fol.folios = [] ∧
      (List.range 64).all (fun n => !svc.ringEn (.sq n)) = true ∧ (after (.shelfSplitWrite 4) svc).regF rMdlShelfSplit 0 3 = 4 ∧
      rg.ringEn (.sq 0) = true ∧ rg.jobs = [] ∧ rg.fol.folios = [] ∧ (after (.shelfSplitWrite 4) rg).regF rMdlShelfSplit 0 3 ≠ 4 := by decide +kernel

theorem wit_InjectArm :
    wbit (0x7BF : Word) 10 = true ∧ wbits (0x7BF : Word) 0 8 = 191 ∧ (after (.carInjectArm 0x7BF) svc).regB rCarInject 11 = true ∧
      (inState .test svc).dev.state = .test ∧ (after (.carInjectArm 0x7BF) (inState .test svc)).regF rCarInject 0 8 = 191 ∧
      (after (.carInjectArm 0x7BF) (inState .test svc)).regF rCarInject 8 2 = 3 := by decide +kernel

/-! ### Numbers and the whole machine -/

/-- A cell over the pairs (3, 10), (−2, 20) from 100 in groups of 32 with shift 4, one that saturates (R245), and one whose zero point is 2. -/
theorem wit_Cells :
    (cellPass [(3, 10), (-2, 20)] 1 (some (32, [4])) 100 0).value = 100 - 160 ∧
      (cellPass [(2 ^ 20, 2 ^ 20)] 1 none (2 ^ 31 - 1) 0).sat = true ∧
      (cellPass [(3, 10), (-2, 20)] 3 none 0 2) = ⟨30 - 40 - 2, false, 0⟩ := by decide +kernel

/-- 5/2 rounds to the even 2 (R228); a negative sum shifts left, and clamps; −1 collapses to the zero point. -/
theorem wit_Requant :
    requant 3 2 (-1) 100 0 255 false = ⟨102, false, false⟩ ∧ (requant (-100) 0 3 100 0 255 false).sat = true ∧
      (requant 1 0 (-4) 100 0 255 false).zc = true ∧ (requant 1 0 0 0 0 255 true).sat = true := by decide +kernel

/-- The premises of the statements over every step: a step with a command waiting, one with none, and an OTP bit that stands. -/
theorem wit_Steps :
    (match step { rg with pending := [.sysLock] } with | .next t => t.locked | _ => false) = true ∧ rg.memOk = true ∧ rg.numbersOk = true ∧ rg.apartOk = true ∧
      (match step busyCtx with | .next t => decide (t.aoTime = 1) | _ => false) = true ∧ ((keyed svc).sec.otp.get 0).getLsbD 2 = true ∧ (keyed svc).memOk = true := by decide +kernel

/-! ### Worked examples of the spec, with its numbers -/

/-- Chapter 1: carrel 2.5.7, its flat index, and the catalog unit of wing 3. -/
theorem test_unit_addresses :
    unitAddr 0 2 5 7 0 = 0x00AF ∧ unitAddr 0 2 5 7 2 = 0x10AF ∧ unitAddr 2 3 0 0 5 = 0x2AC0 ∧ unitCarrel 143 0 = 0x00AF := by decide

/-- Chapter 4: the budget of a page of 2,480 × 3,508 pixels at the reset values. -/
theorem test_record_budget : svc.recordBudget 4 2480 3508 = 167538688 := by decide +kernel

/-- Chapter 5: a 12-bit sample with D 180, W 3,620 and WHITE_TARGET 240. -/
theorem test_shading :
    pixelGain 240 180 3620 = 4572 ∧ shade 240 180 3620 2000 = 127 ∧ shade 240 180 3620 3700 = 246 ∧ shade 240 180 3620 150 = 0 := by decide

/-- Chapter 5: row 1,000 near the counter's wrap, and a pixel between 90 and 97. -/
theorem test_row_position :
    ({ frameMode := false, dir := false, leadHigh := true, dfeedHigh := true, ilkClosedHigh := true, maxRows := 4000, pitch := 554871, topQc := 100,
       tailQc := 0, revLim := 0, stallLim := 0, width0 := 1, width1 := 1, filter := 0, whiteTarget := 240, sources := [], strobes := [] } :
        TransportCfg).rowPos 0xFFFFF000 1000 = 0x1176 ∧ between 90 97 2 1 = 94 := by decide

/-- Chapter 6: the byte 0xB7 as W4, W2, W1, WT and WF4. -/
theorem test_weight_byte :
    (List.range 2).map (fun i => weightValue fmW4 [] (rawAt fmW4 [0xB7] i)) = [7, -5] ∧
      (List.range 4).map (fun i => weightValue fmW2 [] (rawAt fmW2 [0xB7] i)) = [-1, 1, -1, -2] ∧
      (List.range 8).map (fun i => weightValue fmW1 [] (rawAt fmW1 [0xB7] i)) = [1, 1, 1, -1, 1, 1, -1, 1] ∧
      (wtArray 0xB7).map (weightValue fmWT []) = [-1, 0, 1, -1, 1] ∧
      (List.range 2).map (fun i => weightValue fmWF4 [] (rawAt fmWF4 [0xB7] i)) = [12, -3] := by decide +kernel

/-- Chapter 6: the codebook 1.75, 0.8125, −0.0390625 in BF16. -/
theorem test_codebook : codebook [0x3FE0, 0x3F50, 0xBD20] = (-6, [112, 52, -2]) := by decide +kernel

/-- Chapter 6: the six cases of requantising to A8U with k = −6 and z = 128. -/
theorem test_requantise :
    [1000, 1056, 1120, 20, 9000, -8500].map (fun v => requant v 0 (-6) 128 0 255 false) =
      [⟨144, false, false⟩, ⟨144, false, false⟩, ⟨146, false, false⟩, ⟨128, false, true⟩, ⟨255, true, false⟩, ⟨0, true, false⟩] := by decide +kernel

/-- Chapter 6: a constant channel with a 3 of −11, SHIFT −5 and SHIFT_MIN −13. -/
theorem test_degenerate_channel :
    rangeChannel [(-37, false), (-37, false)] (-6) 8 (-5) 0 255 = ([⟨0, false, false⟩, ⟨0, false, false⟩], 148, -13, true) := by decide +kernel

/-- Chapter 7: entry 11 of the W2 pair table, the W1 row, and the products by an A8 column. -/
theorem test_lookups :
    (cellPass [(12, -1), (-8, -2)] 2 none 0 0).value = 4 ∧ (cellPass [(12, -1), (-8, 1), (3, 1), (5, -1)] 4 none 0 0).value = -22 ∧
      (cellPass [(37, -90)] 1 none 0 0).value = -3330 ∧ (cellPass [(37, 200)] 1 none 0 128).value = 2664 ∧
      cellPass [(4, 1), (28, 1)] 1 (some (32, [3])) 0 0 = ⟨256, false, 1⟩ := by decide +kernel

/-- Chapter 7: exp2(−0.5) and recip(3). -/
theorem test_special_functions : f32Exp2 0xBF000000 = 0x3F3504F3 ∧ f32Recip 0x40400000 = 0x3EAAAAAB := by decide +kernel

/-- Chapter 7: local address 0x2345 of a slot that holds units 5 and 9. -/
theorem test_scratch_address : physAddr [5, 9] 0x2345 = 0x12345 := by decide

/-- Chapter 9: the stripe's first EXPAND: output size, row bytes, and the rows it reads. -/
def expand9 : Bytes :=
  cmd coExpand [(9, 1, 9), (10, 1, 0x33), (11, 1, 0x22), (12, 2, 0x249), (14, 2, 1240), (16, 2, 1754), (18, 2, 8), (20, 4, 4992), (24, 2, 110), (26, 2, 1),
    (28, 4, 64)]
theorem test_expand_geometry :
    exOutH expand9 = 877 ∧ exOutW expand9 = 620 ∧ exRp expand9 = 64 ∧ exBp expand9 = 4 ∧ exPadLen expand9 = 64 ∧
      exCovered 110 1 (exSh expand9) (exPt expand9) (exKh expand9) (exH expand9) = [219, 220, 221] := by decide +kernel

/-- Chapter 9: the tie of channels 0, 1 and 2 of an A8U range-mode tensor goes to class 0. -/
def argmax9 : Bytes := cmd coArgmax [(12, 2, 1), (14, 2, 3), (16, 1, 10), (17, 1, 2)]
theorem test_argmax_tie : amClass argmax9 [40, 45, 0] ([10, 0, 0xFB, 0] ++ [15, 0, 0xFB, 0] ++ [0x88, 0xFF, 0xF9, 1]) = 0 := by decide +kernel

/-- Chapter 10: the key and the value of position 1,000 in a reference page. -/
theorem test_key_place :
    (⟨16, 16, 64, 11, 8, 0, 0, 0⟩ : KvDecl).lb 256 = 524288 ∧ (⟨16, 16, 64, 11, 8, 0, 0, 0⟩ : KvDecl).keyAt 256 3 5 232 0 = 1669632 ∧
      (⟨16, 16, 64, 11, 8, 0, 0, 0⟩ : KvDecl).valueAt 256 3 5 232 1 = 1917160 + 256 := by decide

/-- Chapter 10: a maximum in the last block: l 1.49609375 and O 19.9609375 after block A, l 1.3701171875 and O 44.833984375 after
block B; the same rows folded from two parts. -/
def rowA : PartRow × (Word × Word) := blockRow ⟨negInf, 0, [0]⟩ [0x3F800000, 0] [[10], [20]] 0 0
def rowB (r : PartRow) : PartRow × (Word × Word) := blockRow r [0x40400000] [[40]] 0 0
theorem test_late_maximum :
    rowA = (⟨0x3F800000, 0x3FBF8000, [0x419FB000]⟩, (0x3FBF8000, 0x3F800000)) ∧
      (rowB rowA.1).1 = ⟨0x40400000, 0x3FAF6000, [0x42335600]⟩ ∧
      combineRow rowA.1 (rowB ⟨negInf, 0, [0]⟩).1 = ⟨0x40400000, 0x3FAF6000, [0x42335600]⟩ := by decide +kernel

/-- Chapter 11: the hash of one chunk with PREFIX_SEED 0. -/
theorem test_chunk_hash :
    chunkHash 0 [0x7B, 0x22, 0x70, 0x61, 0x79, 0x65, 0x72, 0x22, 0x3A, 0x7B, 0x22, 0x6E, 0x61, 0x6D, 0x65, 0x22] = 0x9B8F07956FFD37A8 := by decide +kernel

/-- Chapter 11: SCORE of page A, mass 0.272986, after DECAY 0.75 and SCORE 0.5; of the new page B, mass 0.727013. -/
theorem test_scores :
    newScore 0x3F40 0x3F00 (pageMass (cmd coAttn [(19, 1, 1)]) 1 [[(0x3FBF8000, 0x3F800000)]] [⟨0x40400000, 0x3FAF6000, []⟩]) = 0x3EE3 ∧
      newScore 0x3F40 0 (pageMass (cmd coAttn [(19, 1, 1)]) 1 [[(0x3F7F0000, 0x40400000)]] [⟨0x40400000, 0x3FAF6000, []⟩]) = 0x3E3A := by decide +kernel

/-- Chapter 11: of P1 to P4 the tie of P1 and P3 falls on P1. -/
def evict11 : List Pte :=
  [(0, 0x4000), (1, 0x3E3A), (2, 0x3EE3), (3, 0x3E3A), (4, 0x3F00), (5, 0), (6, 0)].map fun (p : Nat × Nat) =>
    { SeqSlot.emptyPte with log2 := 8, basePos := 256 * p.1, score := BitVec.ofNat 16 p.2 }
theorem test_eviction : evictList 2 1536 evict11 8 [] = [256] := by decide +kernel

/-- Chapter 12: the draw of one top-k choice takes `9` at 1.9, with the margin 0x3DCD, and sequence 1 starts from its own generator. -/
theorem test_topk :
    let x := fun t : Nat => (if t = 0x34 then 0x40000000 else if t = 0x39 then 0x3FF33333 else if t = 0x31 then 0x3FE66666 else 0 : Word)
    let m : List Nat := [0x31, 0x34, 0x39, 0x40]
    chooseToken (fields 352 [(1, 1, 1), (2, 1, 3)]) x m (ranked x m) 0x8000000000000000 = (0x39, 0x8100000000000000) ∧
      choiceMargin x (ranked x m) = 0x3DCD ∧ seedOf 0x8000000000000000 1 = 0x1E3779B97F4A7C15 := by decide +kernel

/-- Chapter 12: the field of bytes 8 to 16 has the minimum 0.5, which its last byte's entry carries negated, below CONF_MARGIN 0.75. -/
theorem test_field_minimum :
    let e : List (Byte × BitVec 16) := List.replicate 9 (0x7B, marginInf) ++
      [(0x5A, 0x4060), (0xC3, 0x3FA0), (0xBC, 0x40C0), (0x72, 0x4000), (0x69, 0x3F40), (0x63, 0x4080), (0x68, 0x4020), (0x22, 0x3F00)]
    confEntry e [(8, 16)] 16 = 0xBF00 ∧ lowConfidence (fields 352 [(6, 2, 0x3F40)]) e [(8, 16)] = true ∧
      lowConfidence (fields 352 [(6, 2, 0x3F40)]) (e.take 15) [(8, 14)] = false ∧ (unitsOf [0x5A, 0xC3]).2 = true := by decide +kernel

/-- Chapter 14: what the victim with LIVE 16 costs: s_out 48. -/
theorem test_switch_cost : switchTerm (256 * 16) = 48 := by decide

/-- Chapter 15: the energy of client 9's account. -/
theorem test_energy :
    svc.energyPj { Account.zero 9 with
      array := 500000000, vector := 100000000, catalog := 750123, dram := 2250000000, pcie := 5000000, refill := 12500000 } = 119971501476 := by
  decide +kernel

/-! ### The command set -/

theorem test_wf_rings :
    [Instr.kick 4096, .doorbellReadDone 130 0 0, .doorbellReadDone 0 65536 0, .doorbellReadDone 0 0 65536, .descriptorFetch 64 [], .descriptorFetch 0 [[]],
      .descriptorFetch 0 (List.replicate 9 (zeros 64)), .nop 64, .run 64 [], .run 0 (zeros 353), .cancel 64, .folioLoad 64, .folioFetchDone 256 [], .folioCommit 256, .folioUnload 64,
      .folioUnloadRelease 256, .bayBist 64, .bistTestsDone (2 ^ 27), .commit 64 [], .calibrateDark 64, .calibrateWhite 64, .stop 64, .configApply 4,
      .calibrationStart 256, .calLineTrigger 256, .calibrationDone 256, .report 64, .extend 64, .ringEnable (.sq 64) 1, .ringEnable (.cq 64) 1,
      .ringEnable .err 0, .sqRingDisable 64 0, .sqRingDisable 0 1, .cqRingDisable 64 0, .cqRingDisable 0 1].all (fun i => !i.wf) = true ∧
    [Instr.kick 4095, .doorbellReadDone 129 65535 65535, .descriptorFetch 63 (List.replicate 8 (zeros 64)), .nop 63, .run 63 (zeros 352), .cancel 63,
      .folioFetchDone 255 [], .bistTestsDone (2 ^ 27 - 1), .configApply 3, .ringEnable (.cq 63) 1, .ringEnable .ldg 1, .cqRingDisable 63 0].all (·.wf) = true := by
  decide +kernel

theorem test_wf_chip :
    [Instr.rstReqBay 32, .rstReqWing 32, .clockFailure 6, .lockUp (some 4), .unitIdleAck (.bay 24), .handshakeTimeout (.wing 4), .forcedResetApplied (.bay 24),
      .unitReleaseDone (.wing 4) ⟨0, 0, 0, 0⟩, .unitReleaseDone .spine ⟨4, 0, 0, 0⟩, .unitReleaseDone .spine ⟨0, 4, 0, 0⟩, .bar4Access false 1 (2 ^ 28) [],
      .bar4Access true (2 ^ 28) 0 [1], .bar0AtomicOp 1 0, .registerWrite 2 [], .registerWrite 65532 [(0, 0), (0, 0)], .hostBootGo (2 ^ 28), .abort 4, .colTDrop 4 0,
      .carInjectArm 0, .folioPin 32, .folioUnpin 32, .ledgerEnable 0, .ledgerDisable 1, .fenceWrite 7 0, .lastingClear 7 0, .firmwareUpdate 0,
      .mgtRdReg (2 ^ 32) 4, .mgtWrReg (2 ^ 32) [], .mgtWrReg 0 (zeros 257), .mgtDwinFetch (2 ^ 32) [], .mgtDwinRead (2 ^ 32) 0, .mgtDwinWrite (2 ^ 32) [],
      .mgtMboxWrite (zeros 257), .mgtKick (2 ^ 32) 4, .mgtReset (2 ^ 32) 0, .mgtRcvData (2 ^ 32) [], .mgtRcvCommit (2 ^ 32) 0, .tempUpdate [(9, 0)],
      .jobTeardown 256, .response [] (zeros 776), .response (zeros 8) [], .deviceControlWrite 8 128 true, .linkUp 2 1, .linkUp 6 1, .linkUp 5 3].all
        (fun i => !i.wf) = true ∧
    [Instr.rstReqBay 23, .clockFailure 5, .lockUp none, .unitReleaseDone (.bay 23) ⟨3, 3, 5, 8⟩, .bar4Access true (2 ^ 28 - 1) 0 [1], .registerWrite 65532 [(0, 15)],
      .hostBootGo (2 ^ 28 - 1), .fenceWrite 6 0, .linkUp 3 1, .tempUpdate [(8, 125)], .response (zeros 8) (zeros 776)].all (·.wf) = true := by decide +kernel

theorem test_wf_work :
    [Instr.recordDispatch 256 [], .recordDecoded 11, .decodeBudgetExpiry 11 0, .decodeBudgetExpiry 0 65536, .seqSlotGrant true 256 [], .seqSlotGrant false 0 [32], .batchPack 256 0 [] 0,
      .batchPack 0 0 [] 63, .lcAdmission 256 0, .contextPlace ⟨256, 0, 0, [], 0, 0, (0, 1), [], ⟨0, 0⟩, []⟩, .contextPlace ⟨0, 16, 0, [], 0, 0, (0, 1), [], ⟨0, 0⟩, []⟩,
      .contextPlace ⟨0, 0, 0, [4096], 0, 0, (0, 1), [], ⟨0, 0⟩, []⟩, .contextSwitchDone 192, .spillMove 24, .cmdLineFetch 192 0, .enginePreempt 0 4 true, .load 192 0 0, .store 0 4 0,
      .stream 192 0 0, .expand 0 4 0, .tmac 192 0 0, .vec 0 4 0, .req 192 0 0, .attn 0 4 0, .kvapp 192 0 0, .argmax 0 4 0, .pack 192 0 0, .cathand 0 4 0, .fence 192 0 0,
      .signal 0 4 0, .waitsig 192 0 0, .cmdNop 0 4 0, .commandComplete 192 0 0 0, .kvDescriptorEmit 0 4, .combinePart 192 0, .spareTake 4096, .kvappResume 0 4,
      .editApply 4096 none, .editApply 0 (some (.insert ⟨0x500, 12, 1, 0, 8⟩)), .editApply 0 (some (.setLog2 0 3)), .prefixMatch 4096 [], .freeListRestock 8, .swapIn 4096 [], .cardSummaryBuild 4096 0, .refillDone 4 0 0, .refillDone 0 32 0,
      .refillDone 0 0 65536, .tokenChoice 4096, .catalogAdvance 4096, .lineFrame 8 [], .frameStart 4 0, .frameEnd 0 4, .csiLine 4 0 0 [] 0 true,
      .encEdge 4 true true, .lineTriggerDeferred 8, .strobeOn 16, .strobeOff 16, .stallLimit 4, .leadAssert 4, .leadDeassert 4, .dfeedAssert 4, .ilkOpen 4,
      .ilkClose 4].all (fun i => !i.wf) = true ∧
    [Instr.recordDecoded 10, .decodeBudgetExpiry 10 65535, .contextPlace ⟨255, 15, 3, [4095], 0, 0, (0, 1), [], ⟨0, 0⟩, []⟩, .load 191 3 0, .swapIn 4095 [], .seqSlotGrant false 0 [64], .editApply 0 (some (.replace 0 ⟨0x500, 11, 7, 2048, 8⟩)), .refillDone 3 31 65535,
      .lineFrame 7 [], .frameStart 3 3, .strobeOn 15, .leadAssert 3].all (·.wf) = true := by decide +kernel

/-- The table gives no row any bits: no word spells a command, and the queue stays as it is. -/
theorem test_no_words : decodeTableWord 16 0 = none ∧ decodeTableWord 0 0 = none ∧ (State.reset.withFetchWord 32 1).pending = [] := by decide

/-- A command put in front of the queue is the next to run. -/
theorem test_pushCmd : (match step (svc.pushCmd .sysLock) with | .next t => t.locked && t.pending.isEmpty | _ => false) = true := by decide +kernel

end Sys2Proof.Tests
end

section
/-! PROOF. Register writes and the gates that every command passes. -/

namespace Sys2Proof.Machine

variable (s : State)

/-! ### The gates of a command: OFF, STANDBY and READY_IDLE -/

theorem State.whenOn_of_on (f : State → State) (hon : s.dev.state ≠ .off) : s.whenOn f = f s := if_neg hon

/-- A command that acts outside OFF alone has the effect of its act on a part that is on. -/
theorem State.next_of_on {f : State → State} {t : State} (hon : s.dev.state ≠ .off) (h : f s = t) :
    (.next (s.whenOn f) : Result) = .next t := by
  rw [s.whenOn_of_on _ hon, h]

theorem State.whenHost_of_awake (off : Nat) (v : Word) (f : State → State) (hon : s.dev.state ≠ .off)
    (hawake : s.dev.state ≠ .standby) : s.whenHost off v f = f s.exitIdle := by
  rw [State.whenHost, s.whenOn_of_on _ hon, if_neg hawake]

/-- A host write to an awake part acts once any idling has ended. -/
theorem State.next_of_awake {off : Nat} {v : Word} {f : State → State} {t : State} (hon : s.dev.state ≠ .off)
    (hawake : s.dev.state ≠ .standby) (h : f s.exitIdle = t) : (.next (s.whenHost off v f) : Result) = .next t := by
  rw [s.whenHost_of_awake _ _ _ hon hawake, h]

theorem State.exitIdle_of_active (h : s.dev.power ≠ .readyIdle) : s.exitIdle = s := if_neg h

/-- The end of READY_IDLE moves the power state and nothing else. -/
theorem State.exitIdle_eq : s.exitIdle = s.onDev fun d => { d with power := s.exitIdle.dev.power, idleFor := s.exitIdle.dev.idleFor } := by
  unfold State.exitIdle
  split <;> rfl

@[simp] theorem State.exitIdle_regs : s.exitIdle.regs = s.regs := by rw [s.exitIdle_eq]; rfl
@[simp] theorem State.exitIdle_rst : s.exitIdle.rst = s.rst := by rw [s.exitIdle_eq]; rfl
@[simp] theorem State.exitIdle_jobs : s.exitIdle.jobs = s.jobs := by rw [s.exitIdle_eq]; rfl
@[simp] theorem State.exitIdle_sec : s.exitIdle.sec = s.sec := by rw [s.exitIdle_eq]; rfl
@[simp] theorem State.exitIdle_dram : s.exitIdle.dram = s.dram := by rw [s.exitIdle_eq]; rfl
@[simp] theorem State.exitIdle_dev_state : s.exitIdle.dev.state = s.dev.state := by rw [s.exitIdle_eq]; rfl
@[simp] theorem State.exitIdle_dev_penuo : s.exitIdle.dev.penuo = s.dev.penuo := by rw [s.exitIdle_eq]; rfl

/-! ### What a register reads depends on the register file alone -/

/-- The same register file reads the same in every register. -/
theorem State.reg_of_regs {s t : State} (h : t.regs = s.regs) (off : Nat) : t.reg off = s.reg off := by
  rw [State.reg, State.reg, h]

@[simp] theorem State.exitIdle_reg (off : Nat) : s.exitIdle.reg off = s.reg off := State.reg_of_regs s.exitIdle_regs off
@[simp] theorem State.exitIdle_locked : s.exitIdle.locked = s.locked := by simp only [State.locked, State.regB, State.exitIdle_reg]

/-- A bit of a register after a field of it is replaced. -/
theorem State.regB_setRegF (off lo n v k : Nat) (h : cellsFrom regReset 0 s.regs = true) (hk : k < 32) :
    (s.setRegF off lo n v).regB off k = if lo ≤ k ∧ k < lo + n then v.testBit (k - lo) else s.regB off k := by
  rw [State.setRegF, State.regB, State.reg_setReg_same _ _ _ h, wbit_wput _ _ _ _ _ hk, State.regB]

/-- Nothing but the Fabric release hides a register (R513). -/
theorem State.fabricHidden_of_up (h : s.rst.fabricRelease = false) (off : Nat) : s.fabricHidden off = false := by
  rw [State.fabricHidden, h, Bool.false_and]

/-! ### SYS_ACCESS (R591, R592, R597) -/

/-- A dropped write is recorded by its bit. -/
theorem State.regB_access (bit off : Nat) (h : cellsFrom regReset 0 s.regs = true) (hb : bit < 16) :
    (s.access bit off).regB rSysAccess bit = true := by
  have hfield : ¬(16 ≤ bit ∧ bit < 16 + 16) := by omega
  rw [State.access, State.regB_setRegF _ _ _ _ _ _ (s.flag_regsWf _ _ h) (by omega), if_neg hfield,
    s.regB_flag_same _ _ h (by omega)]

/-- A dropped write is recorded with its offset. -/
theorem State.regF_access_offset (bit off : Nat) (h : cellsFrom regReset 0 s.regs = true) (ho : off < 65536) :
    (s.access bit off).regF rSysAccess 16 16 = off := by
  rw [State.access, State.regF_setRegF_same _ _ _ _ _ (s.flag_regsWf _ _ h) (by omega), Nat.mod_eq_of_lt (by omega)]

theorem State.reg_access_other (bit off c : Nat) (h : cellsFrom regReset 0 s.regs = true) (hc : c ≠ rSysAccess) :
    (s.access bit off).reg c = s.reg c := by
  rw [State.access, State.reg_setRegF_other _ _ _ _ _ _ hc (s.flag_regsWf _ _ h), s.reg_flag_other _ _ _ hc h]

theorem State.access_regsWf (bit off : Nat) (h : cellsFrom regReset 0 s.regs = true) :
    cellsFrom regReset 0 (s.access bit off).regs = true :=
  (s.flag rSysAccess bit).setRegF_regsWf _ _ _ _ (s.flag_regsWf _ _ h)

/-! ### Writes by access code (R7, R597) -/

/-- Where no locked field stands in its way, a write leaves what the access codes say. -/
theorem State.writeWord_of_open {off : Nat} {r : RegRow} (v : Word) (hr : regRow? off = some r)
    (h : s.locked = false ∨ r.rwl = 0) :
    s.writeWord off v = s.setReg off (writtenWord r s.locked (s.reg off) v) := by
  have hopen : ¬((s.locked && decide (r.rwl ≠ 0)) = true) := by rcases h with h | h <;> simp [h]
  simp only [State.writeWord, hr, if_neg hopen]

/-- A write of a locked RWL field is recorded in SYS_ACCESS. -/
theorem State.writeWord_of_locked {off : Nat} {r : RegRow} (v : Word) (hr : regRow? off = some r) (hl : s.locked = true)
    (hw : r.rwl ≠ 0) :
    s.writeWord off v = (s.setReg off (writtenWord r true (s.reg off) v)).access 2 off := by
  simp [State.writeWord, hr, hl, hw]

/-- Under LOCK a register of RWL fields alone keeps its word. -/
theorem writtenWord_of_rwl {r : RegRow} (old v : Word) (hrw : r.rw = 0) (hc : r.w1c = 0) (hs : r.w1s = 0) :
    writtenWord r true old v = old := by
  have hall : old.toNat &&& 0xFFFFFFFF = old.toNat := by
    rw [show (0xFFFFFFFF : Nat) = 2 ^ 32 - 1 from rfl, Nat.and_two_pow_sub_one_eq_mod, Nat.mod_eq_of_lt old.isLt]
  simp [writtenWord, hrw, hc, hs, hall]

theorem State.writeWord_regsWf (off : Nat) (v : Word) (h : cellsFrom regReset 0 s.regs = true) :
    cellsFrom regReset 0 (s.writeWord off v).regs = true := by
  unfold State.writeWord
  split
  · exact h
  · dsimp only
    split
    · exact State.access_regsWf _ _ _ (s.setReg_regsWf _ _ h)
    · exact s.setReg_regsWf _ _ h

/-- A write leaves every other register but SYS_ACCESS. -/
theorem State.reg_writeWord_other (off c : Nat) (v : Word) (h : cellsFrom regReset 0 s.regs = true) (hc : c ≠ off)
    (ha : c ≠ rSysAccess) : (s.writeWord off v).reg c = s.reg c := by
  unfold State.writeWord
  split
  · rfl
  · dsimp only
    split
    · rw [State.reg_access_other _ _ _ _ (s.setReg_regsWf _ _ h) ha, s.reg_setReg_other _ _ _ hc h]
    · exact s.reg_setReg_other _ _ _ hc h

/-! ### Registers that the access codes alone govern -/

/-- Registers whose write has no effect of its own, with only RW and W1C bits. -/
def plainRegs : List Nat := [rPwrIdle, rPwrWakeEn, rPwrThermCtrl, rMgtIntEn, rPwrWakeCause, rClkFail, rRingSlots, rErrCtrl, rSchPolicy]

/-- Registers whose write has no effect of its own, with RWL bits alone. -/
def lockedRegs : List Nat := [rRstCtrl, rRstWdog]

/-- No write of these registers goes to a ring, is ignored or has an effect of its own. -/
theorem State.plain_apart {off : Nat} (v : Word) (ho : off ∈ plainRegs ++ lockedRegs) :
    (regRow? off).isNone = false ∧ s.writeIgnored off = false ∧ ctrlRing off = none ∧ s.writeAo off v = none ∧
      s.writeIntake off v = none ∧ s.writeRest off v = none := by
  fin_cases ho <;> exact ⟨rfl, rfl, rfl, rfl, rfl, rfl⟩

theorem State.writeReg_of_plain {off : Nat} (v : Word) (ho : off ∈ plainRegs ++ lockedRegs) (hv : s.fabricHidden off = false) :
    s.writeReg off v = s.writeWord off v := by
  obtain ⟨hmap, hthaw, hctrl, hao, hin, hrest⟩ := s.plain_apart v ho
  simp [State.writeReg, hmap, hv, hthaw, hctrl, hao, hin, hrest]

/-! ### REGISTER_WRITE of one word and SYS_LOCK -/

theorem exec_registerWrite_word {off : Nat} (v : Word) (be : BitVec 4) (hon : s.dev.state ≠ .off) (hawake : s.dev.state ≠ .standby)
    (ho : off % 4 = 0) : exec (.registerWrite off [(v, be)]) s = .next (s.exitIdle.hostWord off v be) := by
  have hword : off / 4 * 4 = off := by omega
  exact s.next_of_on hon (by rw [State.registerWrite, if_neg hawake, hword, State.hostWords, State.hostWords])

theorem State.hostWord_of_partial {be : BitVec 4} (off : Nat) (v : Word) (h : be ≠ 15#4) : s.hostWord off v be = s.access 0 off :=
  if_pos h

/-- A whole word outside the MSI-X table goes to the register map. -/
theorem State.hostWord_of_whole {off : Nat} (v : Word) (h : isMsixOffset off = false) : s.hostWord off v 15#4 = s.writeReg off v := by
  simp [State.hostWord, h]

theorem State.writeReg_of_unmapped {off : Nat} (v : Word) (h : regRow? off = none) : s.writeReg off v = s.access 1 off := by
  simp [State.writeReg, h]

/-- What a write leaves that SYS_ACCESS alone records (R591, R592, R597). -/
theorem State.access_records (bit off : Nat) (h : cellsFrom regReset 0 s.regs = true) (hb : bit < 16) (ho : off < 65536) :
    (s.access bit off).regB rSysAccess bit = true ∧ (s.access bit off).regF rSysAccess 16 16 = off ∧
      ∀ o, o ≠ rSysAccess → (s.access bit off).reg o = s.reg o :=
  ⟨s.regB_access bit off h hb, s.regF_access_offset bit off h ho, fun o hne => s.reg_access_other bit off o h hne⟩

theorem plainRegs_codes : ∀ off ∈ plainRegs, isMsixOffset off = false ∧ ∀ r ∈ regRow? off, r.rwl = 0 := by decide

theorem lockedRegs_codes : ∀ off ∈ lockedRegs, ∃ r, regRow? off = some r ∧ r.rwl ≠ 0 ∧ r.rw = 0 ∧ r.w1c = 0 ∧ r.w1s = 0 := by
  intro off ho
  fin_cases ho <;> exact ⟨_, rfl, by decide, rfl, rfl, rfl⟩

theorem exec_registerWrite_plain {off : Nat} {r : RegRow} (v : Word) (hw : cellsFrom regReset 0 s.regs = true) (hon : s.dev.state ≠ .off)
    (hawake : s.dev.state ≠ .standby) (ho : off % 4 = 0) (hup : s.rst.fabricRelease = false) (hr : regRow? off = some r)
    (hp : off ∈ plainRegs) :
    ∃ t, exec (.registerWrite off [(v, 15#4)]) s = .next t ∧ t.reg off = writtenWord r s.locked (s.reg off) v ∧
      (∀ o, o ≠ off → t.reg o = s.reg o) ∧ t.jobs = s.jobs ∧ t.dram = s.dram := by
  obtain ⟨hmsix, hrwl⟩ := plainRegs_codes off hp
  have hvis : s.exitIdle.fabricHidden off = false := State.fabricHidden_of_up _ (by simpa using hup) off
  have hwf : cellsFrom regReset 0 s.exitIdle.regs = true := by simpa using hw
  have hstep : exec (.registerWrite off [(v, 15#4)]) s =
      .next (s.exitIdle.setReg off (writtenWord r s.locked (s.reg off) v)) := by
    rw [exec_registerWrite_word s v _ hon hawake ho, State.hostWord_of_whole _ v hmsix,
      State.writeReg_of_plain _ v (List.mem_append_left _ hp) hvis, State.writeWord_of_open _ v hr (.inr (hrwl r hr)),
      State.exitIdle_locked, State.exitIdle_reg]
  refine ⟨_, hstep, State.reg_setReg_same _ _ _ hwf, fun o hne => ?_, s.exitIdle_jobs, s.exitIdle_dram⟩
  rw [State.reg_setReg_other _ _ _ _ hne hwf, State.exitIdle_reg]

/-- A write that ends in a record of SYS_ACCESS leaves every other register. -/
theorem State.access_records_of_exitIdle (bit off : Nat) (hw : cellsFrom regReset 0 s.regs = true) (hb : bit < 16) (ho : off < 65536) :
    (s.exitIdle.access bit off).regB rSysAccess bit = true ∧ (s.exitIdle.access bit off).regF rSysAccess 16 16 = off ∧
      ∀ o, o ≠ rSysAccess → (s.exitIdle.access bit off).reg o = s.reg o := by
  simpa using s.exitIdle.access_records bit off (by simpa using hw) hb ho

/-- SYS_LOCK sets LOCK and touches no other register (R597). -/
theorem exec_sysLock_locks (hw : cellsFrom regReset 0 s.regs = true) (hon : s.dev.state ≠ .off) :
    ∃ t, exec .sysLock s = .next t ∧ t.locked = true ∧ ∀ o, o ≠ rSysLock → t.reg o = s.reg o := by
  have hwf : cellsFrom regReset 0 s.exitIdle.regs = true := by simpa using hw
  refine ⟨_, s.next_of_on hon rfl, State.regB_flag_same _ _ _ hwf (by omega), fun o hne => ?_⟩
  rw [State.reg_flag_other _ _ _ _ hne hwf, State.exitIdle_reg]

/-- Under LOCK a write of a register of RWL fields alone ends as a record in SYS_ACCESS, over a register file that reads as before. -/
theorem State.writeReg_of_locked {off : Nat} (v : Word) (hw : cellsFrom regReset 0 s.regs = true) (hl : s.locked = true)
    (hup : s.rst.fabricRelease = false) (ho : off ∈ [rRstCtrl, rRstWdog, rHlkVerAgree0, rHlkVerAgree1, rClkArith]) :
    ∃ u : State, s.writeReg off v = u.access 2 off ∧ cellsFrom regReset 0 u.regs = true ∧ ∀ o, u.reg o = s.reg o := by
  by_cases hp : off ∈ lockedRegs
  · obtain ⟨r, hr, hrwl, hrw, hc, hs⟩ := lockedRegs_codes off hp
    refine ⟨s.setReg off (s.reg off), ?_, s.setReg_regsWf _ _ hw, fun o => ?_⟩
    · rw [s.writeReg_of_plain v (List.mem_append_right _ hp) (s.fabricHidden_of_up hup off), s.writeWord_of_locked v hr hl hrwl,
        writtenWord_of_rwl _ _ hrw hc hs]
    · by_cases h : o = off
      · rw [h, s.reg_setReg_same _ _ hw]
      · exact s.reg_setReg_other _ _ _ h hw
  · refine ⟨s, ?_, hw, fun _ => rfl⟩
    have hv := s.fabricHidden_of_up hup off
    have own : ∀ (t : State), (regRow? off).isNone = false → s.writeIgnored off = false → ctrlRing off = none →
        s.writeAo off v = some t → s.writeReg off v = t := fun t hmap hthaw hctrl hao => by
      simp [State.writeReg, hmap, hv, hthaw, hctrl, hao]
    have hver : ∀ hi, s.verAgree hi v = s.access 2 (if hi then rHlkVerAgree1 else rHlkVerAgree0) := fun hi => if_pos hl
    have hclk : s.clkArithStep v = s.access 2 rClkArith := if_pos hl
    fin_cases ho
    · exact absurd (by decide) hp
    · exact absurd (by decide) hp
    · exact (own _ rfl rfl rfl rfl).trans (hver false)
    · exact (own _ rfl rfl rfl rfl).trans (hver true)
    · exact (own _ rfl rfl rfl rfl).trans hclk

/-- Settles O27: each write is an ordinary write by access code, or ends as a record in SYS_ACCESS. -/
theorem registerWrites : Obligations.RegisterWrites := by
  refine ⟨fun s off v be hinv hon hawake ho hup => ⟨?_, ?_, ?_⟩, fun s v off hinv hon hoff hawake hup => ⟨?_, ?_⟩⟩
  · rintro rfl r hr hp
    exact exec_registerWrite_plain s v hinv.mem.regs hon hawake ho hup hr hp
  · intro hbe hlt
    exact ⟨_, (exec_registerWrite_word s v be hon hawake ho).trans (by rw [State.hostWord_of_partial _ _ _ hbe]),
      s.access_records_of_exitIdle 0 off hinv.mem.regs (by omega) hlt⟩
  · rintro rfl hlt hun hmsix
    exact ⟨_, (exec_registerWrite_word s v _ hon hawake ho).trans
      (by rw [State.hostWord_of_whole _ _ hmsix, State.writeReg_of_unmapped _ _ hun]),
      s.access_records_of_exitIdle 1 off hinv.mem.regs (by omega) hlt⟩
  · exact exec_sysLock_locks s hinv.mem.regs hon
  · intro hl
    have hcodes : off % 4 = 0 ∧ off < 65536 ∧ off ≠ rSysAccess ∧ isMsixOffset off = false := by revert off; decide
    obtain ⟨ho, hlt, hne, hmsix⟩ := hcodes
    obtain ⟨u, hu, huwf, hureg⟩ := s.exitIdle.writeReg_of_locked v (by simpa using hinv.mem.regs) (by simpa using hl)
      (by simpa using hup) hoff
    obtain ⟨hbit, hoffset, hother⟩ := u.access_records 2 off huwf (by omega) hlt
    refine ⟨_, (exec_registerWrite_word s v _ hon hawake ho).trans (by rw [State.hostWord_of_whole _ _ hmsix, hu]), ?_, hbit, hoffset, ?_⟩
    · rw [hother off hne, hureg, State.exitIdle_reg]
    · intro o hne
      rw [hother o hne, hureg, State.exitIdle_reg]

end Sys2Proof.Machine
end

section
/-! PROOF. The management port. -/

namespace Sys2Proof.Machine

variable (s : State)

/-! ### Commands of the port (R47, R49) -/

/-- The first check that fails names LAST. -/
theorem State.mgtCmd_of_fail {checks : List (Bool × Nat)} {refused act : State → State} {c : Nat}
    (hp : s.dev.power ≠ .readyIdle) (h : checks.find? (·.1) = some (true, c)) :
    s.mgtCmd checks refused act = refused (s.last c) := by
  simp only [State.mgtCmd, s.exitIdle_of_active hp, h]

theorem State.mgtCmd_of_pass {checks : List (Bool × Nat)} {refused act : State → State} (hp : s.dev.power ≠ .readyIdle)
    (h : checks.find? (·.1) = none) : s.mgtCmd checks refused act = act (s.last lastOk) := by
  simp only [State.mgtCmd, s.exitIdle_of_active hp, h]

theorem State.mgtPlain_zero (act : State → State) (hp : s.dev.power ≠ .readyIdle) : s.mgtPlain 0 act = act (s.last lastOk) :=
  s.mgtCmd_of_pass hp rfl

theorem State.mgtPlain_pos {n : Nat} (act : State → State) (hp : s.dev.power ≠ .readyIdle) (hn : n ≠ 0) :
    s.mgtPlain n act = s.last lastAlign :=
  s.mgtCmd_of_fail hp (by simp [hn])

@[simp] theorem State.last_mgt_last (c : Nat) : (s.last c).mgt.last = c := rfl

/-! ### Status and bad frames (R48, R49) -/

theorem State.mgtRdStatus_four (hp : s.dev.power ≠ .readyIdle) : s.mgtRdStatus 4 = s.emit (.mgtData (toLe 4 s.mgtStatus)) := by
  rw [State.mgtRdStatus, if_pos rfl, s.exitIdle_of_active hp]

theorem State.mgtRdStatus_other {n : Nat} (hp : s.dev.power ≠ .readyIdle) (hn : n ≠ 4) : s.mgtRdStatus n = s.last lastAlign := by
  rw [State.mgtRdStatus, if_neg hn, s.exitIdle_of_active hp]

theorem State.mgtBadFrame_unknown (hp : s.dev.power ≠ .readyIdle) : s.mgtBadFrame true = s.last lastUnknown := by
  rw [State.mgtBadFrame, if_pos rfl, s.exitIdle_of_active hp]

theorem State.mgtBadFrame_complement (hp : s.dev.power ≠ .readyIdle) (h8 : s.mgt.mode8d = true) :
    s.mgtBadFrame false = s.last lastOpcodeCheck := by
  rw [State.mgtBadFrame, if_neg Bool.false_ne_true, if_pos h8, s.exitIdle_of_active hp]

/-! ### Registers (R50, R599, R600) -/

theorem mgtWords_one {off : Nat} (ho : off % 4 = 0) : mgtWords off 4 = [off] := by
  have hword : off / 4 * 4 = off := by omega
  simp [mgtWords, hword]

/-- A word in the map that the port reaches passes every check. -/
theorem State.regChecks_pass {off : Nat} (ho : off % 4 = 0) (hlt : off < 65536) (hr : s.mgtReach off = true) :
    (s.regChecks off 4).find? (·.1) = none := by
  have hend : off + 4 ≤ 0x10000 := by omega
  simp [State.regChecks, mgtWords_one ho, hr, ho, hend]

/-- Reach is the first check. -/
theorem State.regChecks_fail {off : Nat} (ho : off % 4 = 0) (hr : s.mgtReach off = false) :
    (s.regChecks off 4).find? (·.1) = some (true, lastNotAvailable) := by
  simp [State.regChecks, mgtWords_one ho, hr]

/-- One word that the port reaches reads as the register does. -/
theorem State.readWords_reached {off : Nat} (hr : s.mgtReach off = true) (hne : off ≠ rLdgDeviceUjLo) :
    s.readWords [off] = (toLe 4 (s.readReg off).toNat, s) := by
  simp [State.readWords, hr, State.readWord, hne]

/-- One that it does not reach reads 0. -/
theorem State.readWords_unreached {off : Nat} (hr : s.mgtReach off = false) : s.readWords [off] = ([0, 0, 0, 0], s) := by
  simp [State.readWords, hr, toLe]

/-- A read of one word; LAST has no part in what the port reaches. -/
theorem State.mgtRdReg_reached {off : Nat} (hp : s.dev.power ≠ .readyIdle) (ho : off % 4 = 0) (hlt : off < 65536)
    (hr : s.mgtReach off = true) (hne : off ≠ rLdgDeviceUjLo) :
    s.mgtRdReg off 4 = (s.last lastOk).emit (.mgtData (toLe 4 ((s.last lastOk).readReg off).toNat)) := by
  have hr' : (s.last lastOk).mgtReach off = true := hr
  simp only [State.mgtRdReg, s.mgtCmd_of_pass hp (s.regChecks_pass ho hlt hr), mgtWords_one ho, State.readWords_reached _ hr' hne]

theorem State.mgtRdReg_unreached {off : Nat} (hp : s.dev.power ≠ .readyIdle) (ho : off % 4 = 0) (hr : s.mgtReach off = false) :
    s.mgtRdReg off 4 = (s.last lastNotAvailable).emit (.mgtData [0, 0, 0, 0]) := by
  have hr' : (s.last lastNotAvailable).mgtReach off = false := hr
  simp only [State.mgtRdReg, s.mgtCmd_of_fail hp (s.regChecks_fail ho hr), State.last_mgt_last, if_pos, mgtWords_one ho,
    State.readWords_unreached _ hr']

theorem u32_of_four {data : Bytes} (h : data.length = 4) : u32 data 0 = leNat data := by
  simp [u32, sliceB, h, zeros, List.take_of_length_le]

theorem State.mgtWrReg_reached {off : Nat} {data : Bytes} (hp : s.dev.power ≠ .readyIdle) (ho : off % 4 = 0) (hlt : off < 65536)
    (hl : data.length = 4) (hr : s.mgtReach off = true) :
    s.mgtWrReg off data = (s.last lastOk).writeReg off (BitVec.ofNat 32 (leNat data)) := by
  rw [State.mgtWrReg, hl, s.mgtCmd_of_pass hp (s.regChecks_pass ho hlt hr), mgtWords_one ho, List.foldl_cons, List.foldl_nil,
    Nat.sub_self, u32_of_four hl]

theorem State.mgtWrReg_unreached {off : Nat} {data : Bytes} (hp : s.dev.power ≠ .readyIdle) (ho : off % 4 = 0)
    (hl : data.length = 4) (hr : s.mgtReach off = false) : s.mgtWrReg off data = s.last lastNotAvailable := by
  rw [State.mgtWrReg, hl, s.mgtCmd_of_fail hp (s.regChecks_fail ho hr), id]

/-- Asleep, or closed, the port reaches the always-on blocks alone (R599, R600). -/
theorem State.mgtReach_alwaysOn {off : Nat} (h : s.dev.state = .standby ∨ s.dev.state = .closedStacks) (hr : s.mgtReach off = true) :
    off < 0x2000 ∨ (0x2080 ≤ off ∧ off < 0x20C0) := by
  have hst : (decide (s.dev.state = .standby) || decide (s.dev.state = .closedStacks)) = true := by simpa using h
  simp only [State.mgtReach, hst, Bool.true_and, Bool.not_not, Bool.and_eq_true, Bool.or_eq_true, decide_eq_true_eq] at hr
  exact hr.2.1

/-! ### Kicks and resets (R47, R509, R530) -/

theorem State.mgtKick_ring {n : Nat} (hc : s.dev.state ≠ .closedStacks) (hp : s.dev.power ≠ .readyIdle) (hn : n < 64) :
    s.mgtKick n 0 = (s.last lastOk).kickRings [n] .mgt :=
  s.mgtCmd_of_pass hp (by simp [hc]; omega)

theorem State.mgtKick_range {n : Nat} (hc : s.dev.state ≠ .closedStacks) (hp : s.dev.power ≠ .readyIdle) (hn : 63 < n) :
    s.mgtKick n 0 = s.last lastRange :=
  s.mgtCmd_of_fail hp (by simp [hc, hn])

theorem State.mgtReset_request {a : Nat} (hc : s.dev.state ≠ .closedStacks) (hp : s.dev.power ≠ .readyIdle)
    (hb : s.rst.reqBusy = false) (ha : a = 1 ∨ a = 2) :
    s.mgtReset a 0 = (s.last lastOk).requestReset (if a = 1 then .warm else .fabric) := by
  rw [State.mgtReset, s.mgtCmd_of_pass hp]
  rcases ha with rfl | rfl <;> simp [hc, hb]

theorem State.mgtReset_range {a : Nat} (hc : s.dev.state ≠ .closedStacks) (hp : s.dev.power ≠ .readyIdle)
    (hb : s.rst.reqBusy = false) (h1 : a ≠ 1) (h2 : a ≠ 2) : s.mgtReset a 0 = s.last lastRange := by
  rw [State.mgtReset, s.mgtCmd_of_fail hp (c := lastRange) (by simp [hc, hb, h1, h2])]
  rfl

/-- While a software reset is under way any other is refused, before its address is looked at. -/
theorem State.mgtReset_busy (a : Nat) (hc : s.dev.state ≠ .closedStacks) (hp : s.dev.power ≠ .readyIdle)
    (hb : s.rst.reqBusy = true) : s.mgtReset a 0 = (s.last lastBusy).refuseReset := by
  rw [State.mgtReset, s.mgtCmd_of_fail hp (c := lastBusy) (by simp [hc, hb])]
  rfl

/-! ### Frames (R46, R5) -/

/-- The address goes most significant byte first. -/
theorem beNat_address (a b c d : Byte) (data : Bytes) :
    beNat (sliceB (a :: b :: c :: d :: data) 0 4) = ((a.toNat * 256 + b.toNat) * 256 + c.toNat) * 256 + d.toNat := by
  simp [beNat, sliceB, zeros, leNat]
  omega

/-- In 8D-8D-8D mode the byte behind the opcode must be its complement. -/
theorem mgtCommand_complement (op x : Byte) (rest : Bytes) (h : x.toNat ≠ op.toNat ^^^ 0xFF) :
    mgtCommand true (op :: x :: rest) 0 = .mgtBadFrame false := by
  simp [mgtCommand, u8, h]

/-- Settles O31: every command of the port passes or fails its checks in R49's order. -/
theorem managementPort : Obligations.ManagementPort := by
  refine ⟨fun s hon hp => ⟨?_, ?_, ?_, ?_, ?_, ?_, ?_, ?_⟩, fun s off data hon hp ho hlt hl => ⟨?_, ?_, ?_, ?_⟩,
    fun s hon hc hp hmem => ⟨?_, ?_, ?_, ?_⟩, fun a b c d data => ?_⟩
  · exact s.next_of_on hon (s.mgtRdStatus_four hp)
  · exact fun n hn => s.next_of_on hon (s.mgtRdStatus_other hp hn)
  · exact fun n hn => s.next_of_on hon (s.mgtPlain_pos _ hp hn)
  · exact s.next_of_on hon (s.mgtPlain_zero _ hp)
  · exact s.next_of_on hon (s.mgtPlain_zero _ hp)
  · exact s.next_of_on hon (s.mgtPlain_zero _ hp)
  · exact s.next_of_on hon (s.mgtBadFrame_unknown hp)
  · exact fun h8 => s.next_of_on hon (s.mgtBadFrame_complement hp h8)
  · exact fun hr hne => s.next_of_on hon (s.mgtRdReg_reached hp ho hlt hr hne)
  · exact fun hr => ⟨s.next_of_on hon (s.mgtRdReg_unreached hp ho hr), s.next_of_on hon (s.mgtWrReg_unreached hp ho hl hr)⟩
  · exact fun hr => s.next_of_on hon (s.mgtWrReg_reached hp ho hlt hl hr)
  · exact fun h hr => s.mgtReach_alwaysOn h hr
  · exact fun n hn => s.next_of_on hon (s.mgtKick_ring hc hp hn)
  · exact fun n hn => s.next_of_on hon (s.mgtKick_range hc hp hn)
  · exact fun hb => ⟨s.next_of_on hon (s.mgtReset_request hc hp hb (.inl rfl)),
      s.next_of_on hon (s.mgtReset_request hc hp hb (.inr rfl)),
      fun a h1 h2 => s.next_of_on hon (s.mgtReset_range hc hp hb h1 h2)⟩
  · exact fun hb a => ⟨_, s.next_of_on hon (s.mgtReset_busy a hc hp hb), rfl,
      State.regB_flag_same _ _ _ hmem.regs (by omega), rfl⟩
  · refine ⟨?_, fun n => ?_, ?_, ?_, ?_, fun op x h => mgtCommand_complement op x (a :: b :: c :: d :: data) h⟩ <;>
      simp [mgtCommand, u8, beNat_address]

end Sys2Proof.Machine
end

section
/-! PROOF. OTP programming, the rollback counter and Penuo updates. -/

namespace Sys2Proof.Machine

variable (s : State)

/-! ### Memories: what a read holds, and what a write elsewhere leaves -/

@[simp] theorem Mem.getElem_read (m : Mem) (a n i : Nat) (hi : i < (m.read a n).length) : (m.read a n)[i] = m.get (a + i) := by
  induction n generalizing a i with
  | zero => simp [Mem.read] at hi
  | succ n ih =>
    cases i with
    | zero => rfl
    | succ i =>
      simp only [Mem.read, List.getElem_cons_succ, ih]
      congr 1
      omega

/-- A write leaves every run of bytes apart from its own as it was. -/
theorem Mem.read_write_other (m : Mem) (a : Nat) (bs : Bytes) (c n : Nat) (h : m.wf = true) (hd : c + n ≤ a ∨ a + bs.length ≤ c) :
    (m.write a bs).read c n = m.read c n := by
  refine List.ext_getElem (by simp) fun i h1 h2 => ?_
  rw [Mem.read_length] at h1
  rw [Mem.getElem_read, Mem.getElem_read, Mem.get_write_other bs m a (c + i) h (by omega)]

/-- Or-ing is byte by byte. -/
theorem zipWith_or_toLe (n a b : Nat) : List.zipWith (· ||| ·) (toLe n a) (toLe n b) = toLe n (a ||| b) := by
  induction n generalizing a b with
  | zero => rfl
  | succ n ih =>
    have hdiv : (a ||| b) / 256 = a / 256 ||| b / 256 := Nat.or_div_two_pow (n := 8)
    rw [toLe, toLe, toLe, List.zipWith_cons_cons, ih, hdiv, BitVec.ofNat_or]

@[simp] theorem toLe_length (n v : Nat) : (toLe n v).length = n := by
  induction n generalizing v with
  | zero => rfl
  | succ n ih => simp [toLe, ih]

/-- A run of ones takes in a shorter one. -/
theorem ones_or_ones {c n : Nat} (h : c ≤ n) : (2 ^ c - 1) ||| (2 ^ n - 1) = 2 ^ n - 1 := by
  refine Nat.eq_of_testBit_eq fun i => ?_
  simp only [Nat.testBit_or, Nat.testBit_two_pow_sub_one]
  by_cases hi : i < n
  · simp [hi]
  · simp [hi, show ¬i < c by omega]

/-! ### OTP (R572, R573) -/

/-- A burn ors its bytes into OTP and leaves every other byte. -/
theorem State.burn_get (off a : Nat) (bs : Bytes) (h : s.sec.otp.wf = true) :
    (s.burn off bs).sec.otp.get a =
      if off ≤ a ∧ a < off + bs.length then s.sec.otp.get a ||| bs.getD (a - off) 0 else s.sec.otp.get a := by
  have hlen : (List.zipWith (· ||| ·) (s.sec.otp.read off bs.length) bs).length = bs.length := by simp
  simp only [State.burn, State.onSec_sec]
  split
  · rename_i hin
    obtain ⟨i, rfl⟩ := Nat.exists_eq_add_of_le hin.1
    have hi : i < bs.length := by omega
    rw [Mem.get_write_in _ _ _ i h (by omega)]
    simp [hi]
  · rw [Mem.get_write_other _ _ _ _ h (by omega)]

/-- What a burn leaves in its own bytes. -/
theorem State.burn_otpBytes (off : Nat) (bs : Bytes) (h : s.sec.otp.wf = true) :
    (s.burn off bs).otpBytes off bs.length = List.zipWith (· ||| ·) (s.otpBytes off bs.length) bs := by
  have hlen : (List.zipWith (· ||| ·) (s.sec.otp.read off bs.length) bs).length = bs.length := by simp
  have hread := Mem.read_write (List.zipWith (· ||| ·) (s.sec.otp.read off bs.length) bs) s.sec.otp off h
  rwa [hlen] at hread

@[simp] theorem State.burn_regs (off : Nat) (bs : Bytes) : (s.burn off bs).regs = s.regs := rfl
@[simp] theorem State.burn_flash (off : Nat) (bs : Bytes) : (s.burn off bs).flash = s.flash := rfl

/-- A hash field is absent exactly when each of its bytes reads 0. -/
theorem State.hashAbsent_iff (k : Nat) : s.hashAbsent k = true ↔ ∀ i, i < 32 → s.otpByte (32 + 32 * k + i) = 0 := by
  have hbyte : ∀ b : Byte, b = 0 ↔ b.toNat = 0 := fun b => by rw [BitVec.toNat_eq]; rfl
  simp only [State.hashAbsent, State.otpBytes, State.otpByte, List.all_eq_true, decide_eq_true_eq, ← hbyte]
  constructor
  · intro h i hi
    rw [← Mem.getElem_read s.sec.otp _ 32 i (by simpa using hi)]
    exact h _ (List.getElem_mem _)
  · intro h b hb
    obtain ⟨i, hi, rfl⟩ := List.mem_iff_getElem.mp hb
    rw [Mem.getElem_read]
    exact h i (by simpa using hi)

/-- The staged bytes lie in registers alone. -/
@[simp] theorem State.exitIdle_otpStaged : s.exitIdle.otpStaged = s.otpStaged := by simp only [State.otpStaged, State.exitIdle_reg]

@[simp] theorem State.exitIdle_hashAbsent (k : Nat) : s.exitIdle.hashAbsent k = s.hashAbsent k := by
  simp only [State.hashAbsent, State.otpBytes, State.exitIdle_sec]

/-- A GO in TEST, with none under way and its hash field absent, begins; any other is refused. -/
theorem State.otpProg_eq {f : Nat} (hv : s.fabricHidden rSecOtpProg = false) (hf : f < 5) :
    s.otpProg f =
      if s.dev.state = .test ∧ s.sec.otpBusy = none ∧ (f < 2 → s.hashAbsent f = true) then
        s.onSec fun c => { c with otpBusy := some (f, s.otpStaged) }
      else s.flag rSecOtpProg 6 := by
  have hnum : ¬4 < f := by omega
  rw [State.otpProg, hv, if_neg Bool.false_ne_true]
  by_cases ht : s.dev.state = .test
  · cases hb : s.sec.otpBusy with
    | some p => simp [ht]
    | none => by_cases h2 : f < 2 <;> cases habs : s.hashAbsent f <;> simp [ht, hnum, h2]
  · simp [ht]

/-- The field that each command of SEC_OTP_PROG names. -/
def otpCommands : List (Nat × Instr) :=
  [(0, .otpProgCustHash0), (1, .otpProgCustHash1), (2, .otpProgRevoke0), (3, .otpProgRevoke1), (4, .otpProgDebugDisable)]

/-- Each command of SEC_OTP_PROG, on an awake part. -/
theorem exec_otpCommand {f : Nat} {c : Instr} (hon : s.dev.state ≠ .off) (hawake : s.dev.state ≠ .standby)
    (hup : s.rst.fabricRelease = false) (hc : (f, c) ∈ otpCommands) :
    exec c s = .next
      (if s.dev.state = .test ∧ s.sec.otpBusy = none ∧ (f < 2 → s.hashAbsent f = true) then
        s.exitIdle.onSec fun c => { c with otpBusy := some (f, s.otpStaged) }
      else s.exitIdle.flag rSecOtpProg 6) := by
  have hv : s.exitIdle.fabricHidden rSecOtpProg = false := State.fabricHidden_of_up _ (by simpa using hup) _
  have hact : f < 5 → s.exitIdle.otpProg f = _ := s.exitIdle.otpProg_eq hv
  simp only [State.exitIdle_dev_state, State.exitIdle_sec, State.exitIdle_hashAbsent, State.exitIdle_otpStaged] at hact
  simp only [otpCommands, List.mem_cons, Prod.mk.injEq, List.not_mem_nil, or_false] at hc
  obtain ⟨rfl, rfl⟩ | ⟨rfl, rfl⟩ | ⟨rfl, rfl⟩ | ⟨rfl, rfl⟩ | ⟨rfl, rfl⟩ := hc <;>
    exact s.next_of_awake hon hawake (hact (by omega))

/-- The field that a programming under way names, as OTP reads at its end. -/
theorem State.burn_otpField {f : Nat} {d : Bytes} (a : Nat) (h : s.sec.otp.wf = true) (hf : f < 5) (hd : d.length = 32) :
    (s.burn (otpField f d).1 (otpField f d).2).sec.otp.get a =
      if f < 2 ∧ 32 + 32 * f ≤ a ∧ a < 64 + 32 * f then s.sec.otp.get a ||| d.getD (a - (32 + 32 * f)) 0
      else if 2 ≤ f ∧ a = 104 then s.sec.otp.get a ||| BitVec.ofNat 8 ([1, 2, 8].getD (f - 2) 0)
      else s.sec.otp.get a := by
  rw [s.burn_get _ _ _ h]
  have hbyte : 104 ≤ a ∧ a < 104 + 1 ↔ a = 104 := by omega
  interval_cases f
  · simp [otpField, hd]
  · simp [otpField, hd]
  all_goals
    simp only [otpField, List.length_singleton, hbyte]
    by_cases ha : a = 104 <;> simp [ha]

/-! ### Measurements (R581, R582) -/

@[simp] theorem State.extendOtp_otp : s.extendOtp.sec.otp = s.sec.otp := rfl
@[simp] theorem State.extendOtp_regB (off i : Nat) : s.extendOtp.regB off i = s.regB off i := rfl
@[simp] theorem State.extendOtp_flash : s.extendOtp.flash = s.flash := rfl

/-- MS_1 takes in the digest of OTP as it stands. -/
theorem State.extendOtp_ms (h : s.sec.ms.length = 8) :
    s.extendOtp.sec.ms[1]? = some (sha256 (s.sec.ms.getD 1 [] ++ sha256 (s.extendOtp.sec.otp.read 0 146))) := by
  have hlt : 1 < s.sec.ms.length := by omega
  simp [State.extendOtp, State.extendMs, State.otpBytes, hlt]

theorem State.otpProgDone_of_busy {f : Nat} {d : Bytes} (hb : s.sec.otpBusy = some (f, d)) :
    s.otpProgDone =
      (((s.burn (otpField f d).1 (otpField f d).2).onSec fun c => { c with otpBusy := none }).flag rSecOtpProg 5).extendOtp := by
  simp only [State.otpProgDone, hb]

/-! ### The rollback counter (R579) -/

/-- The counter lies in OTP. -/
theorem State.rollback_of_sec {s t : State} (h : t.sec = s.sec) : t.rollback = s.rollback := by
  simp only [State.rollback, State.otpBytes, h]

theorem State.serviceOrTest_iff : s.serviceOrTest = true ↔ s.dev.state = .service ∨ s.dev.state = .test := by
  simp [State.serviceOrTest]

/-- A write of SEC_RB_ADVANCE begins a burn, or is refused. -/
theorem State.rbAdvance_eq (v : Word) (hv : s.fabricHidden rSecRbAdvance = false) :
    s.rbAdvance v =
      if (s.dev.state = .service ∨ s.dev.state = .test) ∧ s.rollback < wbits v 0 7 ∧
          wbits v 0 7 ≤ (s.dev.penuo.map (·.svn)).getD 0 ∧ s.sec.rbBusy = none then
        (s.writeWord rSecRbAdvance v).onSec fun c => { c with rbBusy := some (wbits v 0 7) }
      else (s.writeWord rSecRbAdvance v).flag rSecRbAdvance 7 := by
  have hroll : (s.writeWord rSecRbAdvance v).rollback = s.rollback := State.rollback_of_sec (s.writeWord_sec _ _)
  rw [State.rbAdvance, hv, if_neg Bool.false_ne_true]
  simp only [hroll, State.writeWord_dev, State.writeWord_sec, Bool.and_eq_true, decide_eq_true_eq, Option.isNone_iff_eq_none,
    and_assoc, State.serviceOrTest_iff]

theorem exec_secRbAdvance (v : Word) (hon : s.dev.state ≠ .off) (hawake : s.dev.state ≠ .standby)
    (hup : s.rst.fabricRelease = false) :
    exec (.secRbAdvance v) s = .next
      (if (s.dev.state = .service ∨ s.dev.state = .test) ∧ s.rollback < wbits v 0 7 ∧
          wbits v 0 7 ≤ (s.dev.penuo.map (·.svn)).getD 0 ∧ s.sec.rbBusy = none then
        (s.exitIdle.writeWord rSecRbAdvance v).onSec fun c => { c with rbBusy := some (wbits v 0 7) }
      else (s.exitIdle.writeWord rSecRbAdvance v).flag rSecRbAdvance 7) := by
  have hact := s.exitIdle.rbAdvance_eq v (State.fabricHidden_of_up _ (by simpa using hup) _)
  rw [State.rollback_of_sec s.exitIdle_sec, State.exitIdle_dev_state, State.exitIdle_dev_penuo, State.exitIdle_sec] at hact
  exact s.next_of_awake hon hawake hact

theorem State.rollbackBurnDone_of_busy {n : Nat} (hb : s.sec.rbBusy = some n) :
    s.rollbackBurnDone = ((s.burn 96 (toLe 8 (2 ^ n - 1))).onSec fun c => { c with rbBusy := none }).extendOtp := by
  simp only [State.rollbackBurnDone, hb]

/-- A burn of `n` ones over `c ≤ n` ones leaves `n` ones. -/
theorem State.burn_rollback {c n : Nat} (h : s.sec.otp.wf = true) (hc : c ≤ n) (hold : s.otpBytes 96 8 = toLe 8 (2 ^ c - 1)) :
    (s.burn 96 (toLe 8 (2 ^ n - 1))).otpBytes 96 8 = toLe 8 (2 ^ n - 1) := by
  have hburn := s.burn_otpBytes 96 (toLe 8 (2 ^ n - 1)) h
  rwa [toLe_length, hold, zipWith_or_toLe, ones_or_ones hc] at hburn

/-! ### Penuo updates (R578) -/

/-- A GO starts an update from the source that stands in SEC_FWU_SRC, or reads 6. -/
theorem State.firmwareUpdate_eq (v : Word) (hw : cellsFrom regReset 0 s.regs = true) (hv : s.fabricHidden rSecFwuCtrl = false)
    (hgo : wbit v 28 = true) :
    s.firmwareUpdate v =
      if s.sec.fwu = none ∧ (s.dev.state = .service ∨ s.dev.state = .test) then
        (s.writeWord rSecFwuCtrl v).onSec fun c =>
          { c with fwu := some (wbits v 0 28, s.regPair rSecFwuSrcLo rSecFwuSrcHi), fwuStatus := 1 }
      else s.onSec fun c => { c with fwuStatus := 6 } := by
  have hsrc : (s.writeWord rSecFwuCtrl v).regPair rSecFwuSrcLo rSecFwuSrcHi = s.regPair rSecFwuSrcLo rSecFwuSrcHi := by
    rw [State.regPair, s.reg_writeWord_other _ _ v hw (by decide) (by decide), s.reg_writeWord_other _ _ v hw (by decide) (by decide),
      State.regPair]
  simp only [State.firmwareUpdate, hv, hgo, hsrc, ← s.serviceOrTest_iff]
  cases s.sec.fwu <;> cases s.serviceOrTest <;> rfl

theorem exec_firmwareUpdate (v : Word) (hw : cellsFrom regReset 0 s.regs = true) (hon : s.dev.state ≠ .off)
    (hawake : s.dev.state ≠ .standby) (hup : s.rst.fabricRelease = false) (hgo : wbit v 28 = true) :
    exec (.firmwareUpdate v) s = .next
      (if s.sec.fwu = none ∧ (s.dev.state = .service ∨ s.dev.state = .test) then
        (s.exitIdle.writeWord rSecFwuCtrl v).onSec fun c =>
          { c with fwu := some (wbits v 0 28, s.regPair rSecFwuSrcLo rSecFwuSrcHi), fwuStatus := 1 }
      else s.exitIdle.onSec fun c => { c with fwuStatus := 6 }) := by
  have hact := s.exitIdle.firmwareUpdate_eq v (by simpa using hw) (State.fabricHidden_of_up _ (by simpa using hup) _) hgo
  rw [State.exitIdle_dev_state, State.exitIdle_sec, State.regPair, State.exitIdle_reg, State.exitIdle_reg, ← State.regPair] at hact
  exact s.next_of_awake hon hawake hact

theorem foldl_emit {α : Type} (g : α → Out) (l : List α) : l.foldl (fun s p => s.emit (g p)) s = { s with out := s.out ++ l.map g } := by
  induction l generalizing s with
  | nil => simp
  | cons p l ih => rw [List.foldl_cons, ih]; simp [State.emit]

/-- What an update leaves as it was: what the part runs and holds, outside the boot flash. -/
structure State.KeepsRun (s t : State) : Prop where
  sec : t.sec = s.sec
  dev : t.dev = s.dev
  jobs : t.jobs = s.jobs
  dram : t.dram = s.dram

/-- What an update judges and where it writes, the same in two states. -/
structure State.SameUpdate (s t : State) : Prop extends State.KeepsRun s t where
  flash : t.flash = s.flash
  signed : ∀ img n, t.imgSigned img n = s.imgSigned img n
  rollback : t.rollback = s.rollback
  slot : t.slotBase t.updateSlot = s.slotBase s.updateSlot

theorem State.slotRecord_of_flash {s t : State} (h : t.flash = s.flash) (b : Bool) : t.slotRecord b = s.slotRecord b := by
  simp only [State.slotRecord, State.slotRecords, State.flashRead, h]

theorem State.targetSlot_of_flash {s t : State} (h : t.flash = s.flash) : t.targetSlot = s.targetSlot := by
  simp only [State.targetSlot, State.bootOrder, State.slotRecord_of_flash h]

/-- The slot that an update writes follows from the boot source and the flash. -/
theorem State.KeepsRun.updateBase {s t : State} (h : s.KeepsRun t) (hf : t.flash = s.flash) :
    t.slotBase t.updateSlot = s.slotBase s.updateSlot := by
  have hslot : t.updateSlot = s.updateSlot := by simp only [State.updateSlot, State.targetSlot_of_flash hf, h.dev]
  rw [hslot, State.slotBase, State.slotBase, h.sec]

/-- Fetching an image sends reads and is charged to the device; nothing else changes. -/
theorem State.fetchHost_charged (a n k : Nat) (given : Bytes) : s.SameUpdate ((s.fetchHost a n given).2.unattributedHost k) := by
  have hsame : ∀ o l, s.SameUpdate { s with out := o, ldg := l } := fun o l =>
    have hkeep : s.KeepsRun { s with out := o, ldg := l } := ⟨rfl, rfl, rfl, rfl⟩
    ⟨hkeep, rfl, fun _ _ => rfl, rfl, hkeep.updateBase rfl⟩
  unfold State.fetchHost State.hostRead
  split
  · exact hsame s.out _
  · rw [foldl_emit]
    exact hsame _ _

/-- Outside embedded mode the bytes are the host's. -/
theorem State.fetchHost_given {a n : Nat} {given : Bytes} (he : s.emb = false) (hl : given.length = n) :
    (s.fetchHost a n given).1 = given := by
  simp [State.fetchHost, State.hostBytes, he, sliceB, zeros, ← hl]

/-! ### Where the directory's records lie (R63, R576) -/

theorem hashBlock_length_le (ks : List Nat) (st : List Nat × List Nat) (block : Bytes) (h : st.1.length ≤ 4 ∧ st.2.length ≤ 4) :
    (hashBlock ks st block).1.length ≤ 4 ∧ (hashBlock ks st block).2.length ≤ 4 := by
  simp only [hashBlock, List.length_zipWith]
  omega

theorem hashStart_length_le : hashStart.1.length ≤ 4 ∧ hashStart.2.length ≤ 4 := by
  simp only [hashStart, primes, List.length_take, List.length_drop, List.length_map]
  omega

theorem foldl_hashBlock_length_le (ks : List Nat) (block : Nat → Bytes) (l : List Nat) (st : List Nat × List Nat)
    (h : st.1.length ≤ 4 ∧ st.2.length ≤ 4) :
    (l.foldl (fun st i => hashBlock ks st (block i)) st).1.length ≤ 4 ∧
      (l.foldl (fun st i => hashBlock ks st (block i)) st).2.length ≤ 4 := by
  induction l generalizing st with
  | nil => exact h
  | cons i l ih => exact ih _ (hashBlock_length_le _ _ _ h)

/-- A digest takes no more than its 32 bytes. -/
theorem sha256_length_le (m : Bytes) : (sha256 m).length ≤ 32 := by
  unfold sha256
  extract_lets msg st
  have hst : st.1.length ≤ 4 ∧ st.2.length ≤ 4 := foldl_hashBlock_length_le _ _ _ _ hashStart_length_le
  have hlen : ((st.1 ++ st.2).flatMap (toBe 4)).length = (st.1.length + st.2.length) * 4 := by simp [toBe, Nat.add_mul]
  omega

theorem commitRecord_length_le (b : Bool) (seq length svn : Nat) (m : Bytes) : (commitRecord b seq length svn (sha256 m)).length ≤ 64 := by
  have := sha256_length_le m
  simp [commitRecord, zeros]
  omega

/-- Two writes into the directory leave every byte from 0x0010_0000 on. -/
theorem Mem.read_directory_writes (m : Mem) (b : Bool) (r : Bytes) (c n : Nat) (h : m.wf = true) (hr : r.length ≤ 64)
    (hc : 0x100000 ≤ c) : ((m.write (dirCopy1 + 64 * b2n b) r).write (dirCopy0 + 64 * b2n b) r).read c n = m.read c n := by
  have hb : b2n b ≤ 1 := by cases b <;> decide
  rw [Mem.read_write_other _ _ _ _ _ (Mem.write_wf _ _ _ h) (.inr (by simp only [dirCopy0]; omega)),
    Mem.read_write_other _ _ _ _ _ h (.inr (by simp only [dirCopy1]; omega))]

theorem State.flashWrite_flash (a : Nat) (bs : Bytes) : (s.flashWrite a bs).flash = s.flash.write a bs := rfl

theorem State.flashWrite_slotBase (a : Nat) (bs : Bytes) (b : Bool) : (s.flashWrite a bs).slotBase b = s.slotBase b := rfl

theorem State.dropRecord_flash (b : Bool) :
    (s.dropRecord b).flash =
      (s.flash.write (dirCopy1 + 64 * b2n b) (List.replicate 64 0xFF)).write (dirCopy0 + 64 * b2n b) (List.replicate 64 0xFF) := by
  rw [State.dropRecord, State.flashWrite_flash, State.flashWrite_flash]

theorem State.putRecord_flash (b : Bool) (r : Bytes) :
    (s.putRecord b r).flash = (s.flash.write (dirCopy1 + 64 * b2n b) r).write (dirCopy0 + 64 * b2n b) r := by
  rw [State.putRecord, State.flashWrite_flash, State.flashWrite_flash]

theorem State.dropRecord_slotBase (b c : Bool) : (s.dropRecord c).slotBase b = s.slotBase b := by
  rw [State.dropRecord, State.flashWrite_slotBase, State.flashWrite_slotBase]

/-- An image in a slot is read back once the slot's record is written. -/
theorem State.read_putRecord_image (base : Nat) (b c : Bool) (img r : Bytes) (hw : s.flash.wf = true) (hr : r.length ≤ 64)
    (hbase : 0x100000 ≤ base) : (((s.dropRecord c).flashWrite base img).putRecord b r).flash.read base img.length = img := by
  have hdrop : (s.dropRecord c).flash.wf = true := by
    rw [State.dropRecord_flash]
    exact Mem.write_wf _ _ _ (Mem.write_wf _ _ _ hw)
  rw [State.putRecord_flash, State.flashWrite_flash, Mem.read_directory_writes _ b r base _ (Mem.write_wf _ _ _ hdrop) hr hbase,
    Mem.read_write _ _ _ hdrop]

theorem State.KeepsRun.flashWrite {s u : State} (h : s.KeepsRun u) (a : Nat) (bs : Bytes) : s.KeepsRun (u.flashWrite a bs) :=
  ⟨h.sec, h.dev, h.jobs, h.dram⟩

theorem State.KeepsRun.drawBytes {s u : State} (h : s.KeepsRun u) (n : Nat) : s.KeepsRun (u.drawBytes n).2 :=
  ⟨h.sec, h.dev, h.jobs, h.dram⟩

theorem State.KeepsRun.dropRecord {s u : State} (h : s.KeepsRun u) (b : Bool) : s.KeepsRun (u.dropRecord b) :=
  (h.flashWrite _ _).flashWrite _ _

theorem State.KeepsRun.putRecord {s u : State} (h : s.KeepsRun u) (b : Bool) (r : Bytes) : s.KeepsRun (u.putRecord b r) :=
  (h.flashWrite _ _).flashWrite _ _

/-- From `s` to `t` an update has ended with a STATUS: OTP, Penuo, the jobs and DRAM stay. -/
structure State.EndsUpdate (s t : State) (status : Nat) : Prop where
  sec : t.sec = { s.sec with fwu := none, fwuStatus := status }
  dev : t.dev = s.dev
  jobs : t.jobs = s.jobs
  dram : t.dram = s.dram

theorem State.KeepsRun.endsUpdate {s u : State} (h : s.KeepsRun u) (status : Nat) :
    s.EndsUpdate (u.onSec fun c => { c with fwu := none, fwuStatus := status }) status :=
  ⟨by rw [State.onSec_sec, h.sec], h.dev, h.jobs, h.dram⟩

/-- The STATUS that an update ends with, by the first step of R578 that fails. -/
def State.updateStatus (s : State) (img : Bytes) (flashError : Bool) : Nat :=
  if s.imgSigned img img.length = false then 3 else if imgSvn img < s.rollback then 4 else if flashError then 5 else 2

/-- Each way for an update to end: only a flash error leaves the target slot's bytes open. -/
theorem State.firmwareUpdateDone_ends {src : Nat} {img : Bytes} (flashError : Bool) (hb : s.sec.fwu = some (img.length, src))
    (he : s.emb = false) (hw : s.flash.wf = true) :
    s.EndsUpdate (s.firmwareUpdateDone img flashError) (s.updateStatus img flashError) ∧
      (s.updateStatus img flashError = 3 ∨ s.updateStatus img flashError = 4 → (s.firmwareUpdateDone img flashError).flash = s.flash) ∧
      (s.updateStatus img flashError = 2 → 0x100000 ≤ s.slotBase s.updateSlot →
        (s.firmwareUpdateDone img flashError).flash.read (s.slotBase s.updateSlot) img.length = img) := by
  have hsame := s.fetchHost_charged src img.length img.length img
  simp only [State.firmwareUpdateDone, hb, s.fetchHost_given he rfl]
  generalize (s.fetchHost src img.length img).2.unattributedHost img.length = u at hsame ⊢
  have hkeep := hsame.toKeepsRun
  rw [hsame.signed, hsame.rollback]
  by_cases hsig : s.imgSigned img img.length = false
  · have hstatus : s.updateStatus img flashError = 3 := by rw [State.updateStatus, if_pos hsig]
    rw [hstatus, if_pos (by rw [hsig]; rfl)]
    exact ⟨hkeep.endsUpdate 3, fun _ => hsame.flash, fun h => absurd h (by decide)⟩
  rw [if_neg (by simpa using hsig)]
  by_cases hsvn : imgSvn img < s.rollback
  · have hstatus : s.updateStatus img flashError = 4 := by rw [State.updateStatus, if_neg hsig, if_pos hsvn]
    rw [hstatus, if_pos hsvn]
    exact ⟨hkeep.endsUpdate 4, fun _ => hsame.flash, fun h => absurd h (by decide)⟩
  rw [if_neg hsvn]
  cases flashError with
  | true =>
    have hstatus : s.updateStatus img true = 5 := by rw [State.updateStatus, if_neg hsig, if_neg hsvn, if_pos rfl]
    rw [hstatus, if_pos rfl]
    exact ⟨(((hkeep.dropRecord _).drawBytes _).flashWrite _ _).endsUpdate 5, fun h => absurd h (by decide), fun h => absurd h (by decide)⟩
  | false =>
    have hstatus : s.updateStatus img false = 2 := by rw [State.updateStatus, if_neg hsig, if_neg hsvn, if_neg Bool.false_ne_true]
    rw [hstatus, if_neg Bool.false_ne_true]
    refine ⟨(((hkeep.dropRecord _).flashWrite _ _).putRecord _ _).endsUpdate 2, fun h => absurd h (by decide), fun _ hbase => ?_⟩
    rw [← hsame.slot] at hbase ⊢
    rw [State.onSec_flash, State.dropRecord_slotBase]
    exact u.read_putRecord_image _ _ _ img _ (by rw [hsame.flash, hw]) (commitRecord_length_le _ _ _ _ img) hbase

/-- Settles O39: each request is accepted or refused by one equation, and each end programs what the request named. -/
theorem otpRollbackAndUpdate : Obligations.OtpRollbackAndUpdate := by
  refine ⟨fun s hon hawake hup hinv => ⟨fun f c hc => ?_, fun f d hb hf hd => ?_⟩,
    fun s n svn hon hawake hup hinv hsvn _ => ⟨fun v hn => ?_, fun c hb _ hc hold => ?_⟩,
    fun s hon hawake hup hinv he => ⟨fun v hgo => ?_, fun len src img flashError hb hl => ?_⟩⟩
  · have hexec := exec_otpCommand s hon hawake hup hc
    rw [← s.hashAbsent_iff]
    constructor
    · intro ht hb hfree
      exact ⟨_, hexec.trans (by rw [if_pos ⟨ht, hb, hfree⟩]), by simp, by simp⟩
    · intro hno
      exact ⟨_, hexec.trans (by rw [if_neg fun ⟨ht, hb, hfree⟩ => hno.elim (· ht) (Or.elim · (· hb) (· hfree))]), by simp,
        State.regB_flag_same _ _ _ (by simpa using hinv.mem.regs) (by omega)⟩
  · refine ⟨_, s.next_of_on hon (s.otpProgDone_of_busy hb), rfl, ?_, fun a => ?_, State.extendOtp_ms _ hinv.numbers.measurements⟩
    · rw [State.extendOtp_regB]
      exact State.regB_flag_same _ _ _ (by simpa using hinv.mem.regs) (by omega)
    · rw [State.extendOtp_otp]
      exact s.burn_otpField a hinv.mem.otp hf hd
  · subst hn hsvn
    have hexec := exec_secRbAdvance s v hon hawake hup
    constructor
    · intro hst hlt hle hb
      exact ⟨_, hexec.trans (by rw [if_pos ⟨hst, hlt, hle, hb⟩]), by simp⟩
    · intro hno
      exact ⟨_, hexec.trans (by rw [if_neg hno]), by simp,
        State.regB_flag_same _ _ _ (State.writeWord_regsWf _ _ _ (by simpa using hinv.mem.regs)) (by omega)⟩
  · refine ⟨_, s.next_of_on hon (s.rollbackBurnDone_of_busy hb), rfl, ?_, by simp⟩
    rw [State.otpBytes, State.extendOtp_otp]
    exact s.burn_rollback hinv.mem.otp hc hold
  · have hexec := exec_firmwareUpdate s v hinv.mem.regs hon hawake hup hgo
    split
    · rename_i hok
      exact ⟨_, hexec.trans (by rw [if_pos hok]), by simp⟩
    · rename_i hno
      exact ⟨_, hexec.trans (by rw [if_neg hno]), by simp⟩
  · subst hl
    obtain ⟨hend, hkept, hread⟩ := s.firmwareUpdateDone_ends flashError hb he hinv.mem.flash
    have hstatus : (s.firmwareUpdateDone img flashError).sec.fwuStatus = s.updateStatus img flashError := by rw [hend.sec]
    refine ⟨_, s.next_of_on hon rfl, by rw [hend.sec], by rw [hend.sec], by rw [hend.dev], hend.jobs, hend.dram, hstatus, ?_, ?_⟩
    · rw [hstatus]
      exact hkept
    · rw [hstatus]
      exact hread

end Sys2Proof.Machine
end

section
/-! PROOF. What every operation keeps (assumption 3, R11): the canonical form of each memory, and the fixed numbers of the part. Each
unit has its own relation for the part of the two that lies in it; an operation on the machine is then a chain of lemmas, one for each
operation it is made of. -/

namespace Sys2Proof.Machine

set_option Elab.async false

/-! ### The part of the forms that lies in each unit -/

/-- Shelves, scratch and the wing cores' memories in canonical form. -/
structure Sch.MemWf (h : Sch) : Prop where
  shelves : ∀ m ∈ h.shelves, m.wf = true
  scratch : ∀ r ∈ h.carrels, r.scratch.wf = true
  coreL1 : ∀ m ∈ h.coreL1, m.1.wf = true ∧ m.2.wf = true
  wingL2 : ∀ m ∈ h.wingL2, m.wf = true

/-- The fixed numbers of the compute fabric (R11, R459). -/
structure Sch.Numbers (h : Sch) : Prop where
  carrels : h.carrels.length = 192
  slots : ∀ r ∈ h.carrels, r.slots.length = 4
  shelves : h.shelves.length = 24
  cores : h.coreL1.length = 16
  wings : h.wingL2.length = 4

/-- 64 submission and 64 completion rings (R66). -/
def Rings.Numbers (r : Rings) : Prop := r.sqs.length = 64 ∧ r.cqs.length = 64

/-- Four transports, eight line-sensor ports and sixteen lamp outputs (R154). -/
def Col.Numbers (c : Col) : Prop := c.transports.length = 4 ∧ c.lsps.length = 8 ∧ c.lamps.length = 16

/-- Whatever of the two the fabric `g` has, `h` has. -/
def Sch.Keeps (g h : Sch) : Prop := (g.MemWf → h.MemWf) ∧ (g.Numbers → h.Numbers)

/-- The same of the whole machine: the relation that every operation keeps from the state before it to the state after it. -/
def State.Keeps (s t : State) : Prop := (s.MemWf → t.MemWf) ∧ (s.Numbers → t.Numbers)

theorem Sch.Keeps.refl {g : Sch} : g.Keeps g := ⟨id, id⟩

theorem State.Keeps.refl {s : State} : s.Keeps s := ⟨id, id⟩

theorem State.Keeps.trans {s t u : State} (h : s.Keeps t) (h' : t.Keeps u) : s.Keeps u :=
  ⟨fun w => h'.1 (h.1 w), fun w => h'.2 (h.2 w)⟩

/-- What neither form speaks of can change at will. -/
theorem Sch.Keeps.plain {g h : Sch} (hc : h.carrels = g.carrels := by rfl) (hs : h.shelves = g.shelves := by rfl)
    (hl : h.coreL1 = g.coreL1 := by rfl) (hw : h.wingL2 = g.wingL2 := by rfl) : g.Keeps h :=
  ⟨fun w => ⟨hs ▸ w.shelves, hc ▸ w.scratch, hl ▸ w.coreL1, hw ▸ w.wingL2⟩,
    fun n => ⟨hc ▸ n.carrels, hc ▸ n.slots, hs ▸ n.shelves, hl ▸ n.cores, hw ▸ n.wings⟩⟩

theorem Sch.Keeps.ite {g a b : Sch} {c : Prop} {_ : Decidable c} (ha : g.Keeps a) (hb : g.Keeps b) : g.Keeps (if c then a else b) := by
  split <;> assumption

/-! ### Lists of cells, and lists whose every entry has a form -/

theorem cellsFrom_filter {α : Type} [DecidableEq α] (dflt : Nat → α) (p : Nat × α → Bool) {lo : Nat} {l : List (Nat × α)}
    (h : cellsFrom dflt lo l = true) : cellsFrom dflt lo (l.filter p) = true := by
  induction l generalizing lo with
  | nil => rfl
  | cons e l ih =>
    simp only [cellsFrom, Bool.and_eq_true, decide_eq_true_eq] at h
    obtain ⟨⟨hlo, hv⟩, hl⟩ := h
    rw [List.filter_cons]
    split
    · simp only [cellsFrom, Bool.and_eq_true, decide_eq_true_eq]
      exact ⟨⟨hlo, hv⟩, ih hl⟩
    · exact cellsFrom_mono dflt (by omega) _ (ih hl)

/-- A change of values leaves the offsets in order, and `canonRegs` drops what it brings to a reset value. -/
theorem canonRegs_map_wf (f : Nat × Word → Nat × Word) (hf : ∀ e, (f e).1 = e.1) {lo : Nat} {l : RegFile}
    (h : cellsFrom regReset lo l = true) : cellsFrom regReset lo (canonRegs (l.map f)) = true := by
  induction l generalizing lo with
  | nil => rfl
  | cons e l ih =>
    simp only [cellsFrom, Bool.and_eq_true, decide_eq_true_eq] at h
    obtain ⟨⟨hlo, -⟩, hl⟩ := h
    simp only [canonRegs, List.map_cons, List.filter_cons] at ih ⊢
    split <;> rename_i hne
    · simp only [cellsFrom, Bool.and_eq_true, decide_eq_true_eq, hf]
      exact ⟨⟨hlo, by simpa [hf] using hne⟩, ih hl⟩
    · exact cellsFrom_mono regReset (by omega) _ (ih hl)

/-- The list `l'` has `n` entries if `l` has, and each has the form `P` if each of `l` has. -/
def ListKeeps {α : Type} (n : Nat) (P : α → Prop) (l l' : List α) : Prop :=
  (l.length = n → l'.length = n) ∧ ((∀ x ∈ l, P x) → ∀ x ∈ l', P x)

section
variable {α : Type} {n : Nat} {P : α → Prop} {l : List α}

theorem ListKeeps.refl : ListKeeps n P l l := ⟨id, id⟩

theorem ListKeeps.replicate {x : α} (hx : P x) : ListKeeps n P l (List.replicate n x) :=
  ⟨fun _ => List.length_replicate, fun _ _ hy => List.eq_of_mem_replicate hy ▸ hx⟩

theorem ListKeeps.set {k : Nat} {x : α} (hx : P x) : ListKeeps n P l (l.set k x) :=
  ⟨fun hn => by simpa using hn, fun h y hy => (List.mem_or_eq_of_mem_set hy).elim (h y) fun e => e ▸ hx⟩

theorem ListKeeps.mapIdx {f : Nat → α → α} (hf : ∀ i x, P x → P (f i x)) : ListKeeps n P l (l.mapIdx f) := by
  refine ⟨fun hn => by simpa using hn, fun h y hy => ?_⟩
  obtain ⟨i, hi, rfl⟩ := List.mem_mapIdx.1 hy
  exact hf i _ (h _ (List.getElem_mem hi))

theorem ListKeeps.modify {k : Nat} {f : α → α} (hf : ∀ x, P x → P (f x)) : ListKeeps n P l (l.modify k f) := by
  refine ⟨fun hn => by simpa using hn, fun h y hy => ?_⟩
  obtain ⟨i, hi, rfl⟩ := List.mem_iff_getElem.1 hy
  rw [List.getElem_modify]
  split
  · exact hf _ (h _ (List.getElem_mem _))
  · exact h _ (List.getElem_mem _)

end

/-- A fabric whose lists of memories each keep their form. -/
theorem Sch.Keeps.lists {g h : Sch} (scratch : ListKeeps 192 (fun r => r.scratch.wf = true) g.carrels h.carrels := by exact .refl)
    (slots : ListKeeps 192 (fun r => r.slots.length = 4) g.carrels h.carrels := by exact .refl)
    (shelves : ListKeeps 24 (fun m => m.wf = true) g.shelves h.shelves := by exact .refl)
    (coreL1 : ListKeeps 16 (fun m => m.1.wf = true ∧ m.2.wf = true) g.coreL1 h.coreL1 := by exact .refl)
    (wingL2 : ListKeeps 4 (fun m => m.wf = true) g.wingL2 h.wingL2 := by exact .refl) : g.Keeps h :=
  ⟨fun w => ⟨shelves.2 w.shelves, scratch.2 w.scratch, coreL1.2 w.coreL1, wingL2.2 w.wingL2⟩,
    fun n => ⟨slots.1 n.carrels, slots.2 n.slots, shelves.1 n.shelves, coreL1.1 n.cores, wingL2.1 n.wings⟩⟩

theorem Sch.Keeps.reset {g : Sch} : g.Keeps Sch.reset :=
  .lists (.replicate rfl) (.replicate rfl) (.replicate rfl) (.replicate ⟨rfl, rfl⟩) (.replicate rfl)

namespace State

variable {s₀ s : State}

/-! ### Changes of one part of the state -/

/-- A state whose units each keep their part. -/
theorem Keeps.units {t : State} (h : s₀.Keeps s)
    (regs : cellsFrom regReset 0 s.regs = true → cellsFrom regReset 0 t.regs = true := by exact id)
    (dram : s.dram.wf = true → t.dram.wf = true := by exact id) (flash : s.flash.wf = true → t.flash.wf = true := by exact id)
    (otp : s.sec.otp.wf = true → t.sec.otp.wf = true := by exact id)
    (msix : s.link.msixTable.wf = true → t.link.msixTable.wf = true := by exact id) (sch : s.sch.Keeps t.sch := by exact .refl)
    (ms : s.sec.ms.length = 8 → t.sec.ms.length = 8 := by exact id) (rings : s.rings.Numbers → t.rings.Numbers := by exact id)
    (lanes : s.acc.lanes.length = 11 → t.acc.lanes.length = 11 := by exact id)
    (col : s.col.Numbers → t.col.Numbers := by exact id)
    (free : s.kv.free.length = 8 → t.kv.free.length = 8 := by exact id) : s₀.Keeps t :=
  h.trans ⟨fun w =>
      have m := sch.1 ⟨w.shelves, w.scratch, w.coreL1, w.wingL2⟩
      ⟨dram w.dram, flash w.flash, otp w.otp, msix w.msix, m.shelves, m.scratch, m.coreL1, m.wingL2, regs w.regs⟩,
    fun n =>
      have m := sch.2 ⟨n.carrels, n.slots, n.shelves, n.cores, n.wings⟩
      have r := rings ⟨n.sqs, n.cqs⟩
      have c := col ⟨n.transports, n.ports, n.lamps⟩
      ⟨r.1, r.2, lanes n.lanes, c.1, c.2.1, c.2.2, m.carrels, m.slots, m.shelves, m.cores, m.wings, ms n.measurements,
        free n.freeLists⟩⟩

/-- A change of what neither form speaks of. -/
theorem Keeps.plain {p : List Instr} {fr ao ar jc : Nat} {o : List Out} {d : Dev} {r : Rst} {m : Mgt} {j : List Job} {f : Fol} {l : Ldg}
    {e : Errs} (h : s₀.Keeps s) :
    s₀.Keeps { s with pending := p, fresh := fr, out := o, aoTime := ao, arithNow := ar, dev := d, rst := r, mgt := m, jobs := j,
                      jobCount := jc, fol := f, ldg := l, err := e } :=
  h.units

theorem Keeps.withRegs {l : RegFile} (h : s₀.Keeps s) (hl : cellsFrom regReset 0 s.regs = true → cellsFrom regReset 0 l = true) :
    s₀.Keeps { s with regs := l } :=
  h.units (regs := hl)

theorem Keeps.withDram {m : Mem} (h : s₀.Keeps s) (hm : s.dram.wf = true → m.wf = true) : s₀.Keeps { s with dram := m } :=
  h.units (dram := hm)

theorem Keeps.withFlash {m : Mem} (h : s₀.Keeps s) (hm : s.flash.wf = true → m.wf = true) : s₀.Keeps { s with flash := m } :=
  h.units (flash := hm)

theorem Keeps.onDev {f : Dev → Dev} (h : s₀.Keeps s) : s₀.Keeps (s.onDev f) := h.plain
theorem Keeps.onRst {f : Rst → Rst} (h : s₀.Keeps s) : s₀.Keeps (s.onRst f) := h.plain
theorem Keeps.onMgt {f : Mgt → Mgt} (h : s₀.Keeps s) : s₀.Keeps (s.onMgt f) := h.plain
theorem Keeps.onFol {f : Fol → Fol} (h : s₀.Keeps s) : s₀.Keeps (s.onFol f) := h.plain
theorem Keeps.onLdg {f : Ldg → Ldg} (h : s₀.Keeps s) : s₀.Keeps (s.onLdg f) := h.plain
theorem Keeps.onErr {f : Errs → Errs} (h : s₀.Keeps s) : s₀.Keeps (s.onErr f) := h.plain

theorem Keeps.onLink {f : Link → Link} (h : s₀.Keeps s)
    (hf : ∀ l : Link, l.msixTable.wf = true → (f l).msixTable.wf = true := by exact fun _ w => w) : s₀.Keeps (s.onLink f) :=
  h.units (msix := hf _)

theorem Keeps.onRings {f : Rings → Rings} (h : s₀.Keeps s)
    (hf : ∀ r : Rings, (f r).sqs.length = r.sqs.length ∧ (f r).cqs.length = r.cqs.length := by simp) : s₀.Keeps (s.onRings f) :=
  h.units (rings := fun n => ⟨(hf _).1.trans n.1, (hf _).2.trans n.2⟩)

theorem Keeps.onAcc {f : Acc → Acc} (h : s₀.Keeps s) (hf : ∀ a : Acc, (f a).lanes.length = a.lanes.length := by simp) :
    s₀.Keeps (s.onAcc f) :=
  h.units (lanes := (hf _).trans)

theorem Keeps.onCol {f : Col → Col} (h : s₀.Keeps s)
    (hf : ∀ c : Col, (f c).transports.length = c.transports.length ∧ (f c).lsps.length = c.lsps.length ∧
      (f c).lamps.length = c.lamps.length := by simp) : s₀.Keeps (s.onCol f) :=
  h.units (col := fun n => ⟨(hf _).1.trans n.1, (hf _).2.1.trans n.2.1, (hf _).2.2.trans n.2.2⟩)

theorem Keeps.onKv {f : Kv → Kv} (h : s₀.Keeps s) (hf : ∀ k : Kv, (f k).free.length = k.free.length := by simp) :
    s₀.Keeps (s.onKv f) :=
  h.units (free := (hf _).trans)

theorem Keeps.onSec {f : Sec → Sec} (h : s₀.Keeps s) (ho : ∀ c : Sec, c.otp.wf = true → (f c).otp.wf = true := by exact fun _ w => w)
    (hm : ∀ c : Sec, (f c).ms.length = c.ms.length := by simp) : s₀.Keeps (s.onSec f) :=
  h.units (otp := ho _) (ms := (hm _).trans)

theorem Keeps.onSch {f : Sch → Sch} (h : s₀.Keeps s) (hf : ∀ g : Sch, g.Keeps (f g) := by exact fun _ => .plain) :
    s₀.Keeps (s.onSch f) :=
  h.units (sch := hf _)

/-! ### Choices and repetitions -/

theorem Keeps.ite {t : State} {c : Prop} {_ : Decidable c} (h : s₀.Keeps s) (h' : s₀.Keeps t) : s₀.Keeps (if c then s else t) := by
  split <;> assumption

theorem Keeps.iteFst {β : Type} {p q : State × β} {c : Prop} {_ : Decidable c} (h : s₀.Keeps p.1) (h' : s₀.Keeps q.1) :
    s₀.Keeps (if c then p else q).1 := by
  split <;> assumption

theorem Keeps.iteSnd {β : Type} {p q : β × State} {c : Prop} {_ : Decidable c} (h : s₀.Keeps p.2) (h' : s₀.Keeps q.2) :
    s₀.Keeps (if c then p else q).2 := by
  split <;> assumption

theorem Keeps.foldl {α : Type} {f : State → α → State} {l : List α} (h : s₀.Keeps s)
    (hf : ∀ t a, s₀.Keeps t → s₀.Keeps (f t a)) : s₀.Keeps (l.foldl f s) := by
  induction l generalizing s with
  | nil => exact h
  | cons a l ih => exact ih (hf _ _ h)

/-- A fold that carries the state beside something else. -/
theorem Keeps.foldlSnd {α β : Type} {f : β × State → α → β × State} {l : List α} {p : β × State} (h : s₀.Keeps p.2)
    (hf : ∀ t a, s₀.Keeps t.2 → s₀.Keeps (f t a).2) : s₀.Keeps (l.foldl f p).2 := by
  induction l generalizing p with
  | nil => exact h
  | cons a l ih => exact ih (hf _ _ h)

theorem Keeps.foldlFst {α β : Type} {f : State × β → α → State × β} {l : List α} {p : State × β} (h : s₀.Keeps p.1)
    (hf : ∀ t a, s₀.Keeps t.1 → s₀.Keeps (f t a).1) : s₀.Keeps (l.foldl f p).1 := by
  induction l generalizing p with
  | nil => exact h
  | cons a l ih => exact ih (hf _ _ h)

theorem Keeps.pairFst {β : Type} {b : β} (h : s₀.Keeps s) : s₀.Keeps (s, b).1 := h

theorem Keeps.pairSnd {β : Type} {b : β} (h : s₀.Keeps s) : s₀.Keeps (b, s).2 := h

/-- The state that a pair was found to hold. -/
theorem Keeps.ofFst {β : Type} {p : State × β} {b : β} (h : s₀.Keeps p.1) (e : p = (s, b)) : s₀.Keeps s := by
  subst e; exact h

theorem Keeps.ofSnd {β : Type} {p : β × State} {b : β} (h : s₀.Keeps p.2) (e : p = (b, s)) : s₀.Keeps s := by
  subst e; exact h

end State

/-! ### Answers that may be none -/

/-- The state answered, if any, keeps the forms. -/
def KeepsSome (s₀ : State) (o : Option State) : Prop := ∀ t, o = some t → s₀.Keeps t

theorem KeepsSome.none {s₀ : State} : KeepsSome s₀ none := fun _ e => nomatch e

theorem KeepsSome.some {s₀ s : State} (h : s₀.Keeps s) : KeepsSome s₀ (some s) := fun _ e => Option.some.inj e ▸ h

theorem KeepsSome.ite {s₀ : State} {o o' : Option State} {c : Prop} {_ : Decidable c} (h : KeepsSome s₀ o) (h' : KeepsSome s₀ o') :
    KeepsSome s₀ (if c then o else o') := by
  split <;> assumption

theorem KeepsSome.orElse {s₀ : State} {o o' : Option State} (h : KeepsSome s₀ o) (h' : KeepsSome s₀ o') :
    KeepsSome s₀ (o.orElse fun _ => o') := by
  cases o with
  | none => exact h'
  | some t => exact h

/-! ### Effects -/

/-- Every state that an effect ends in keeps the forms. -/
def Eff.Keeps (s₀ : State) : Eff → Prop
  | .ok s => s₀.Keeps s
  | .err s _ _ _ => s₀.Keeps s
  | .wait => True

section
variable {s₀ s : State}

theorem Eff.Keeps.ok (h : s₀.Keeps s) : Eff.Keeps s₀ (.ok s) := h

theorem Eff.Keeps.err {kind unit detail : Nat} (h : s₀.Keeps s) : Eff.Keeps s₀ (.err s kind unit detail) := h

theorem Eff.Keeps.wait : Eff.Keeps s₀ .wait := trivial

theorem State.Keeps.ofOk {e : Eff} (h : Eff.Keeps s₀ e) (he : e = .ok s) : s₀.Keeps s := by
  subst he; exact h

theorem State.Keeps.ofErr {e : Eff} {kind unit detail : Nat} (h : Eff.Keeps s₀ e) (he : e = .err s kind unit detail) : s₀.Keeps s := by
  subst he; exact h

theorem Eff.Keeps.ite {e e' : Eff} {c : Prop} {_ : Decidable c} (h : Eff.Keeps s₀ e) (h' : Eff.Keeps s₀ e') :
    Eff.Keeps s₀ (if c then e else e') := by
  split <;> assumption

end

namespace State

variable {s₀ s : State}

/-! ### Writes of memories and registers -/

theorem Keeps.setReg {off : Nat} {v : Word} (h : s₀.Keeps s) : s₀.Keeps (s.setReg off v) := h.withRegs (s.setReg_regsWf off v)

theorem Keeps.dramWrite {a : Nat} {bs : Bytes} (h : s₀.Keeps s) : s₀.Keeps (s.dramWrite a bs) := h.withDram (Mem.write_wf bs s.dram a)

theorem Keeps.flashWrite {a : Nat} {bs : Bytes} (h : s₀.Keeps s) : s₀.Keeps (s.flashWrite a bs) :=
  h.withFlash (Mem.write_wf bs s.flash a)

end State

end Sys2Proof.Machine
end

section
/-! PROOF. What each operation keeps of the state of the chip: registers, records, boot, ledger, resets and power. -/

namespace Sys2Proof.Machine

set_option Elab.async false

variable {s₀ s : State}

/-! ### Registers and outputs -/

theorem State.Keeps.setRegF {off lo n v : Nat} (h : s₀.Keeps s) : s₀.Keeps (s.setRegF off lo n v) := .setReg h

theorem State.Keeps.flag {off i : Nat} (h : s₀.Keeps s) : s₀.Keeps (s.flag off i) := .setRegF h

theorem State.Keeps.bumpSat {off lo n k : Nat} (h : s₀.Keeps s) : s₀.Keeps (s.bumpSat off lo n k) := .setRegF h

theorem State.Keeps.access {bit off : Nat} (h : s₀.Keeps s) : s₀.Keeps (s.access bit off) := .setRegF (.flag h)

theorem State.Keeps.writeWord {off : Nat} {v : Word} (h : s₀.Keeps s) : s₀.Keeps (s.writeWord off v) := by
  unfold State.writeWord
  split
  · exact h
  · exact .ite (.access (.setReg h)) (.setReg h)

theorem State.Keeps.emit {o : Out} (h : s₀.Keeps s) : s₀.Keeps (s.emit o) := .plain h

theorem State.Keeps.msix {vector : Nat} (h : s₀.Keeps s) : s₀.Keeps (s.msix vector) :=
  .ite h (.ite (.onLink (f := fun l => { l with msixPending := l.msixPending ||| 2 ^ vector }) h) (.emit h))

theorem State.Keeps.mgtInt {k : Nat} (h : s₀.Keeps s) : s₀.Keeps (s.mgtInt k) := .flag h

theorem State.Keeps.hostWrite {a : Nat} {bs : Bytes} {bulk : Bool} (h : s₀.Keeps s) : s₀.Keeps (s.hostWrite a bs bulk) :=
  .ite (.dramWrite h) (.foldl h fun _ _ => .emit)

theorem State.Keeps.hostRead {a n : Nat} (h : s₀.Keeps s) : s₀.Keeps (s.hostRead a n) := .ite h (.foldl h fun _ _ => .emit)

theorem State.Keeps.fetchHost {a n : Nat} {given : Bytes} (h : s₀.Keeps s) : s₀.Keeps (s.fetchHost a n given).2 := .hostRead h

theorem State.Keeps.whenOn {f : State → State} (h : s₀.Keeps s) (hf : ∀ t, s₀.Keeps t → s₀.Keeps (f t)) : s₀.Keeps (s.whenOn f) :=
  .ite h (hf _ h)

theorem State.Keeps.whenPowered {f : State → State} (h : s₀.Keeps s) (hf : ∀ t, s₀.Keeps t → s₀.Keeps (f t)) :
    s₀.Keeps (s.whenPowered f) :=
  .ite h (hf _ h)

theorem State.Keeps.sysEvent {bit : Nat} (h : s₀.Keeps s) : s₀.Keeps (s.sysEvent bit) := .mgtInt (.flag h)

theorem State.Keeps.goto {st : DeviceState} (h : s₀.Keeps s) : s₀.Keeps (s.goto st) := .onDev h

theorem State.Keeps.drawBytes {n : Nat} (h : s₀.Keeps s) : s₀.Keeps (s.drawBytes n).2 := .plain h

theorem State.Keeps.extendMs {i : Nat} {d : Bytes} (h : s₀.Keeps s) : s₀.Keeps (s.extendMs i d) := .onSec h

theorem State.Keeps.extendOtp (h : s₀.Keeps s) : s₀.Keeps s.extendOtp := .extendMs h

/-! ### Plane and sequence pages -/

theorem State.Keeps.onSeq {n : Nat} {f : SeqSlot → SeqSlot} (h : s₀.Keeps s) : s₀.Keeps (s.onSeq n f) := .onKv h

theorem State.Keeps.freePage {p log2 : Nat} (h : s₀.Keeps s) : s₀.Keeps (s.freePage p log2) := .onKv h

theorem State.Keeps.dropHold {p log2 : Nat} (h : s₀.Keeps s) : s₀.Keeps (s.dropHold p log2) := .ite (.freePage h) h

theorem State.Keeps.freeSwap {slot unit : Nat} (h : s₀.Keeps s) : s₀.Keeps (s.freeSwap slot unit) := .onKv h

theorem State.Keeps.onTable {slot : Nat} {f : List Pte → List Pte} (h : s₀.Keeps s) : s₀.Keeps (s.onTable slot f) := by
  unfold State.onTable
  dsimp only
  split
  · exact .dramWrite (.onSeq h)
  · exact .onSeq h

theorem State.Keeps.onPte {slot base : Nat} {f : Pte → Pte} (h : s₀.Keeps s) : s₀.Keeps (s.onPte slot base f) := .onTable h

theorem State.Keeps.dropEntry {slot : Nat} {p : Pte} (h : s₀.Keeps s) : s₀.Keeps (s.dropEntry slot p) :=
  .ite (.freeSwap h) (.ite (.dropHold h) h)

theorem State.Keeps.removePte {slot base : Nat} (h : s₀.Keeps s) : s₀.Keeps (s.removePte slot base) := by
  unfold State.removePte
  split
  · exact h
  · exact .dropEntry (.onSeq h)

theorem State.Keeps.releasePages {slot : Nat} (h : s₀.Keeps s) : s₀.Keeps (s.releasePages slot) := by
  unfold State.releasePages
  split
  · exact h
  · extract_lets s1
    have h1 : s₀.Keeps s1 := .foldl h fun _ _ => .removePte
    split
    · exact .freePage (.onSeq h1)
    · exact h1

theorem State.Keeps.releaseSeq {slot : Nat} (h : s₀.Keeps s) : s₀.Keeps (s.releaseSeq slot) := by
  unfold State.releaseSeq
  exact .onSch (.onKv (.releasePages h))

theorem State.Keeps.releasePage {number idx : Nat} (h : s₀.Keeps s) : s₀.Keeps (s.releasePage number idx) :=
  .foldl h fun _ _ => .releaseSeq

/-! ### Records, interrupts and errors -/

theorem State.Keeps.charge {a : Account} (h : s₀.Keeps s) : s₀.Keeps (s.charge a) := .ite (.ite h (.onLdg h)) h

theorem State.Keeps.chargeWait {client cycles preempted : Nat} (h : s₀.Keeps s) : s₀.Keeps (s.chargeWait client cycles preempted) :=
  .ite (.onLdg h) h

theorem State.Keeps.chargeArray {c n : Nat} (h : s₀.Keeps s) : s₀.Keeps (s.chargeArray c n) := .charge h

theorem State.Keeps.chargeVector {c n : Nat} (h : s₀.Keeps s) : s₀.Keeps (s.chargeVector c n) := .charge h

theorem State.Keeps.chargeDram {c n : Nat} (h : s₀.Keeps s) : s₀.Keeps (s.chargeDram c n) := .charge h

theorem State.Keeps.chargePcie {c n : Nat} (h : s₀.Keeps s) : s₀.Keeps (s.chargePcie c n) := .ite (.chargeDram h) (.charge h)

theorem State.Keeps.unattributed {k n : Nat} (h : s₀.Keeps s) : s₀.Keeps (s.unattributed k n) := .onLdg h

theorem State.Keeps.unattributedHost {n : Nat} (h : s₀.Keeps s) : s₀.Keeps (s.unattributedHost n) := .unattributed h

theorem State.Keeps.post {m : MboxMsg} (h : s₀.Keeps s) : s₀.Keeps (s.post m) := .onMgt h

theorem State.Keeps.onSq {n : Nat} {f : SqRing → SqRing} (h : s₀.Keeps s) : s₀.Keeps (s.onSq n f) := .onRings h

theorem State.Keeps.onCq {n : Nat} {f : CqRing → CqRing} (h : s₀.Keeps s) : s₀.Keeps (s.onCq n f) := .onRings h

theorem State.Keeps.onProd {r : RingId} {f : ProdRing → ProdRing} (h : s₀.Keeps s) : s₀.Keeps (s.onProd r f) := by
  unfold State.onProd
  split
  · exact h
  · exact .onCq h
  · exact .onRings h
  · exact .onRings h

theorem State.Keeps.readDoorbell {r : RingId} (h : s₀.Keeps s) : s₀.Keeps (s.readDoorbell r) := by
  unfold State.readDoorbell
  split
  · exact .ite (.onSq h) (.emit (.onSq h))
  · exact .ite (.onProd h) (.emit (.onProd h))

theorem State.Keeps.readAllSqs (h : s₀.Keeps s) : s₀.Keeps s.readAllSqs := .foldl h fun _ _ => .readDoorbell

theorem State.Keeps.readFullProds (h : s₀.Keeps s) : s₀.Keeps s.readFullProds := .foldl h fun _ _ => .readDoorbell

theorem State.Keeps.readAllRings (h : s₀.Keeps s) : s₀.Keeps s.readAllRings := .foldl h fun _ _ => .readDoorbell

theorem State.Keeps.enterService (h : s₀.Keeps s) : s₀.Keeps s.enterService := .readAllRings (.onRings (.goto h))

theorem State.Keeps.onJob {slot : Nat} {f : Job → Job} (h : s₀.Keeps s) : s₀.Keeps (s.onJob slot f) := .plain h

theorem State.Keeps.onJobNum {number : Nat} {f : Job → Job} (h : s₀.Keeps s) : s₀.Keeps (s.onJobNum number f) := .plain h

theorem State.Keeps.holdKept {number : Nat} (h : s₀.Keeps s) : s₀.Keeps (s.holdKept number) := .onAcc h

theorem State.Keeps.freeSlot {slot : Nat} (h : s₀.Keeps s) : s₀.Keeps (s.freeSlot slot) := by
  unfold State.freeSlot
  split
  · exact .plain (.holdKept (.ite (.bumpSat h) h))
  · exact h

theorem State.Keeps.cqInterrupt {n : Nat} {jobEnd : Bool} (h : s₀.Keeps s) : s₀.Keeps (s.cqInterrupt n jobEnd) :=
  .ite (.ite (.post (.mgtInt h)) (.msix h)) h

theorem State.Keeps.writeCq {n : Nat} {r : CqRec} (h : s₀.Keeps s) : s₀.Keeps (s.writeCq n r) := by
  unfold State.writeCq
  extract_lets ring own a s1 s2 jobEnd s3 noPages s4 s4' s5
  have h3 : s₀.Keeps s3 := .chargePcie (.cqInterrupt (.onProd (.hostWrite h)))
  have h4 : s₀.Keeps s4 := .ite h3 (.charge h3)
  have h4' : s₀.Keeps s4' := by
    dsimp only [s4']
    split
    · exact .releasePage h4
    · exact h4
  have h5 : s₀.Keeps s5 := by
    dsimp only [s5]
    split
    · exact .freeSlot h4'
    · exact h4'
  exact .ite (.readFullProds (.readAllSqs h5)) h5

theorem State.Keeps.postCq {n : Nat} {r : CqRec} (h : s₀.Keeps s) : s₀.Keeps (s.postCq n r) := .ite (.onCq h) (.writeCq h)

theorem State.Keeps.flushCq {fuel n : Nat} (h : s₀.Keeps s) : s₀.Keeps (State.flushCq fuel s n) := by
  induction fuel generalizing s with
  | zero => exact h
  | succ fuel ih =>
    unfold State.flushCq
    split
    · exact .onProd h
    · exact .ite h (ih (.writeCq (.onCq h)))

theorem State.Keeps.endJob {slot status extraFlags amount detail : Nat} (h : s₀.Keeps s) :
    s₀.Keeps (s.endJob slot status extraFlags amount detail) := by
  unfold State.endJob
  split
  · exact h
  · exact .postCq (.onJob h)

theorem State.Keeps.seqRecord {slot idx sample status flags amount detail : Nat} (h : s₀.Keeps s) :
    s₀.Keeps (s.seqRecord slot idx sample status flags amount detail) := by
  unfold State.seqRecord
  split
  · exact h
  · exact .ite h (.postCq (.onJob h))

theorem State.Keeps.markLasting {u : Nat} (h : s₀.Keeps s) : s₀.Keeps (s.markLasting u) := by
  unfold State.markLasting
  split <;> exact .flag h

theorem State.Keeps.noteEvent {u kind : Nat} (h : s₀.Keeps s) : s₀.Keeps (s.noteEvent u kind).2 :=
  .ite (.markLasting (.ite (.flag (.onErr h)) (.onErr h))) (.ite (.flag (.onErr h)) (.onErr h))

theorem State.Keeps.onPair {u kind : Nat} {f : ErrPair → ErrPair} (h : s₀.Keeps s) : s₀.Keeps (s.onPair u kind f) := .onErr h

theorem State.Keeps.writeErr {r : ErrRec} (h : s₀.Keeps s) : s₀.Keeps (s.writeErr r) :=
  .ite (.msix (.unattributedHost (.setRegF (.onProd (.hostWrite h))))) (.unattributedHost (.setRegF (.onProd (.hostWrite h))))

theorem State.Keeps.holdErr {mk : Nat → ErrRec} (h : s₀.Keeps s) : s₀.Keeps (s.holdErr mk) :=
  .ite (.ite (.onMgt h) (.onErr h)) (.ite (.ite (.onMgt (.onErr h)) (.onErr (.onErr h))) (.ite (.flag (.onErr h)) (.onErr (.onErr h))))

theorem State.Keeps.issueRec {mk : Nat → ErrRec} (h : s₀.Keeps s) : s₀.Keeps (s.issueRec mk) := by
  unfold State.issueRec
  refine .ite ?_ (.ite (.holdErr (.onProd h)) (.writeErr (.onErr h)))
  split
  · exact .onMgt (.setRegF (.onErr h))
  · exact .holdErr h

theorem State.Keeps.unstick {fuel : Nat} (h : s₀.Keeps s) : s₀.Keeps (State.unstick fuel s) := by
  induction fuel generalizing s with
  | zero => exact h
  | succ fuel ih =>
    unfold State.unstick
    split
    · exact h
    · refine .ite (ih (.ite ?_ (.onErr (.onErr h)))) h
      split <;> exact .onMgt (.onErr h)

theorem State.Keeps.flushErr {fuel : Nat} (h : s₀.Keeps s) : s₀.Keeps (State.flushErr fuel s) := by
  induction fuel generalizing s with
  | zero => exact h
  | succ fuel ih =>
    unfold State.flushErr
    split
    · exact .onProd h
    · exact .ite h (.ite (.onProd h) (ih (.unstick (.writeErr (.onErr h)))))

theorem State.Keeps.errsToMailbox (h : s₀.Keeps s) : s₀.Keeps s.errsToMailbox := by
  unfold State.errsToMailbox
  refine .foldl (.onErr h) fun _ _ h => ?_
  split
  · exact .onMgt (.setRegF h)
  · exact .onMgt h

theorem State.Keeps.chargeJob {slot number : Nat} (h : s₀.Keeps s) : s₀.Keeps (s.chargeJob slot number) := by
  unfold State.chargeJob
  split
  · exact h
  · exact .ite (.onSch (.onJob h)) h

theorem State.Keeps.stopUnit {u : Nat} (h : s₀.Keeps s) : s₀.Keeps (s.stopUnit u) :=
  .onSch h fun _ => .ite .plain (.ite .plain .plain)

theorem State.Keeps.consequence {sev : Nat} {ev : ErrEvent} {n : Nat} (h : s₀.Keeps s) : s₀.Keeps (s.consequence sev ev n) := by
  unfold State.consequence
  refine .ite h (.ite ?_ (.ite (.foldl (.ite h (.stopUnit h)) fun _ _ => .chargeJob) ?_))
  · split
    · exact .chargeJob h
    · exact h
  · extract_lets _ s1
    have h1 : s₀.Keeps s1 := .foldl (.flag h) fun _ _ => .chargeJob
    exact .ite (.mgtInt (.onDev (.ite (.onDev (.ite (.sysEvent h1) h1)) (.goto (.ite (.sysEvent h1) h1))))) h1

theorem State.Keeps.reportError {ev : ErrEvent} (h : s₀.Keeps s) : s₀.Keeps (s.reportError ev) :=
  .ite (.onPair (.noteEvent h)) (.consequence (.onPair (.issueRec (.noteEvent h))))

theorem State.Keeps.raise {ev : ErrEvent} (h : s₀.Keeps s) : s₀.Keeps (s.raise ev) := by
  unfold State.raise
  dsimp only
  split
  · exact .ite (.onErr h) (.onSch (.onErr h))
  · exact .onErr h

/-! ### The boot flash and the bring-up -/

theorem State.Keeps.dropRecord {b : Bool} (h : s₀.Keeps s) : s₀.Keeps (s.dropRecord b) := .flashWrite (.flashWrite h)

theorem State.Keeps.putRecord {b : Bool} {r : Bytes} (h : s₀.Keeps s) : s₀.Keeps (s.putRecord b r) := .flashWrite (.flashWrite h)

theorem State.Keeps.loadPenuo {src : BootSrc} {img : Bytes} (h : s₀.Keeps s) : s₀.Keeps (s.loadPenuo src img) := .onDev (.extendMs h)

theorem State.Keeps.bootFrom {l : List (Bool × Bytes)} {failed : Bool} {t : State} (h : s₀.Keeps s) (e : s.bootFrom l failed = some t) :
    s₀.Keeps t := by
  induction l generalizing failed with
  | nil => cases e
  | cons p l ih =>
    simp only [State.bootFrom] at e
    split at e
    · cases e
      exact .loadPenuo h
    · exact ih e

theorem State.Keeps.bootStep4 (h : s₀.Keeps s) : s₀.Keeps s.bootStep4 := by
  unfold State.bootStep4
  refine .ite (.onDev (.setRegF (.onDev (.extendOtp h)))) ?_
  split
  · rename_i eq2
    exact .bootFrom (.onDev (.extendOtp h)) eq2
  · exact .ite (.onDev (.setRegF (.onDev (.extendOtp h)))) (.onDev (.extendOtp h))

theorem State.Keeps.hostBootGo {length : Nat} (h : s₀.Keeps s) : s₀.Keeps (s.hostBootGo length) :=
  .ite h (.ite (.onDev (.setRegF (.setRegF h))) (.setRegF h))

theorem State.Keeps.hostBootVerifyDone (h : s₀.Keeps s) : s₀.Keeps s.hostBootVerifyDone :=
  .ite (.ite (.loadPenuo (.setRegF h)) (.setRegF h)) h

theorem State.Keeps.rcvBlock {block : Nat} {data : Bytes} (h : s₀.Keeps s) : s₀.Keeps (s.rcvBlock block data) :=
  .ite (.onSec h) (.ite (.onDev (.flashWrite (.onSec (.dropRecord h)))) (.ite (.onSec (.flashWrite h)) (.onSec h)))

theorem State.Keeps.rcvProgramDone (h : s₀.Keeps s) : s₀.Keeps s.rcvProgramDone := .onSec h

theorem State.Keeps.rcvCommit {len : Nat} (h : s₀.Keeps s) : s₀.Keeps (s.rcvCommit len) := .onSec h

theorem State.Keeps.rcvCommitDone (h : s₀.Keeps s) : s₀.Keeps s.rcvCommitDone := by
  unfold State.rcvCommitDone
  split
  · exact h
  · exact .ite (.onSec (.putRecord h)) (.onSec h)

theorem State.Keeps.abandonUpdate (h : s₀.Keeps s) : s₀.Keeps s.abandonUpdate := .ite (.dropRecord (.onSec h)) (.onSec h)

theorem State.Keeps.endUpdate (h : s₀.Keeps s) : s₀.Keeps s.endUpdate := .ite (.onSec (.drawBytes (.abandonUpdate h))) (.abandonUpdate h)

/-! ### The ledger -/

theorem State.Keeps.setCarry {client v : Nat} (h : s₀.Keeps s) : s₀.Keeps (s.setCarry client v) := .onLdg h

theorem State.Keeps.writeLdg {h' : HeldAccount} (h : s₀.Keeps s) : s₀.Keeps (s.writeLdg h') := by
  unfold State.writeLdg
  extract_lets own a s1 s2 s3
  have h3 : s₀.Keeps s3 := .unattributedHost (.mgtInt (.onProd (.hostWrite h)))
  exact .ite (.post h3) (.ite (.msix h3) h3)

theorem State.Keeps.issueAccount {h' : HeldAccount} (h : s₀.Keeps s) : s₀.Keeps (s.issueAccount h') :=
  .ite (.onLdg (.onProd h)) (.writeLdg h)

theorem State.Keeps.closeAccount {a : Account} (h : s₀.Keeps s) : s₀.Keeps (s.closeAccount a) := .issueAccount (.ite (.setCarry h) h)

theorem State.Keeps.closeInterval (h : s₀.Keeps s) : s₀.Keeps s.closeInterval := by
  unfold State.closeInterval
  exact .onLdg (.foldl h fun _ _ => .closeAccount)

theorem State.Keeps.beginInterval {n : Nat} (h : s₀.Keeps s) : s₀.Keeps (s.beginInterval n) := .onLdg (.setRegF h)

theorem State.Keeps.openInterval (h : s₀.Keeps s) : s₀.Keeps s.openInterval := .beginInterval h

theorem State.Keeps.flushLdg {fuel : Nat} (h : s₀.Keeps s) : s₀.Keeps (State.flushLdg fuel s) := by
  induction fuel generalizing s with
  | zero => exact h
  | succ fuel ih =>
    unfold State.flushLdg
    split
    · exact .onProd h
    · exact .ite h (.ite (.onProd h) (ih (.writeLdg (.onLdg h))))

theorem State.Keeps.ledgerIntervalClose (h : s₀.Keeps s) : s₀.Keeps s.ledgerIntervalClose :=
  .ite (.openInterval (.closeInterval (.plain h))) h

theorem State.Keeps.ledgerEnable {v : Word} (h : s₀.Keeps s) : s₀.Keeps (s.ledgerEnable v) :=
  .ite h (.ite (.writeWord h) (.ite (.flag h) (.beginInterval (.writeWord h))))

theorem State.Keeps.ledgerDisable {v : Word} (h : s₀.Keeps s) : s₀.Keeps (s.ledgerDisable v) :=
  .ite h (.ite (.writeWord (.closeInterval h)) (.writeWord h))

theorem State.Keeps.slowPop (h : s₀.Keeps s) : s₀.Keeps s.slowPop := .onLdg h

theorem State.Keeps.deviceUjRead (h : s₀.Keeps s) : s₀.Keeps s.deviceUjRead := .emit (.onLdg h)

theorem State.Keeps.slowCheck {slot : Nat} (h : s₀.Keeps s) : s₀.Keeps (s.slowCheck slot) := by
  unfold State.slowCheck
  split
  · exact h
  · exact .ite (.ite (.flag (.onJob h)) (.ite (.msix (.onLdg (.onJob h))) (.onLdg (.onJob h)))) h

/-! ### Resets -/

theorem State.Keeps.onUnit {u : RstUnit} {f : UnitRst → UnitRst} (h : s₀.Keeps s) : s₀.Keeps (s.onUnit u f) := .onRst h

theorem Col.cleared_numbers (c : Col) (keep : Bool) (h : c.Numbers) : (c.cleared keep).Numbers :=
  ⟨(List.length_map _).trans h.1, rfl, rfl⟩

/-- What the registers keep at Fabric reach is in canonical form. -/
theorem canonRegs_fabricRegs_wf {l : RegFile} (h : cellsFrom regReset 0 l = true) :
    cellsFrom regReset 0 (canonRegs (fabricRegs l)) = true :=
  canonRegs_map_wf _ (fun e => by split <;> rfl) (cellsFrom_filter _ _ h)

theorem State.Keeps.fabricClear (h : s₀.Keeps s) : s₀.Keeps s.fabricClear := by
  unfold State.fabricClear
  extract_lets s1 acc fol err mgt sec s2 s3
  have h2 : s₀.Keeps s2 := .units (.abandonUpdate h) (regs := canonRegs_fabricRegs_wf) (sch := .reset)
    (rings := fun _ => ⟨rfl, rfl⟩) (lanes := fun _ => rfl) (col := s1.col.cleared_numbers true) (free := fun _ => rfl)
  exact .ite (.openInterval (.onLdg h2)) (.onLdg h2)

theorem msixReset_wf : msixReset.wf = true := by decide +kernel

theorem State.Keeps.warmClear (h : s₀.Keeps s) : s₀.Keeps s.warmClear :=
  .units (.abandonUpdate h) (regs := cellsFrom_filter _ _) (dram := fun _ => rfl) (msix := fun _ => msixReset_wf) (sch := .reset)
    (ms := fun _ => rfl) (rings := fun _ => ⟨rfl, rfl⟩) (lanes := fun _ => rfl) (col := Col.cleared_numbers _ false)
    (free := fun _ => rfl)

theorem State.Keeps.coldClear (h : s₀.Keeps s) : s₀.Keeps s.coldClear :=
  .units (.warmClear h) (regs := cellsFrom_filter _ _)

theorem State.Keeps.countStart {src : RstSource} {windowExpired : Bool} (h : s₀.Keeps s) : s₀.Keeps (s.countStart src windowExpired) :=
  .ite (.onRst h) h

theorem State.Keeps.unitResetEvents {reach : Reach} {fresh : Bool} (h : s₀.Keeps s) : s₀.Keeps (s.unitResetEvents reach fresh) := by
  unfold State.unitResetEvents
  dsimp only
  split
  · exact .ite (.ite (.raise h) h) (.foldl h fun _ _ => .raise)
  · exact .ite (.ite (.raise h) h) (.foldl h fun _ _ => .raise)
  · exact h

theorem State.Keeps.dropShards {p : Nat → Bool} (h : s₀.Keeps s) : s₀.Keeps (s.dropShards p) := .onFol h

theorem State.Keeps.appendLog (h : s₀.Keeps s) : s₀.Keeps s.appendLog := by
  unfold State.appendLog
  exact .onRst (.ite (.flag (.setRegF (.setReg h))) (.setRegF (.setReg h)))

theorem State.Keeps.bringUpStep1 (h : s₀.Keeps s) : s₀.Keeps s.bringUpStep1 := by
  unfold State.bringUpStep1
  exact .onRst (.appendLog (.onDev (.goto h)))

theorem State.Keeps.settle (h : s₀.Keeps s) : s₀.Keeps s.settle :=
  .ite (.ite (.onRst h) (.ite (.onRst h) (.bringUpStep1 (.onRst h)))) (.onRst (.ite (.onRst (.appendLog (.onRst h))) (.onRst h)))

theorem State.Keeps.assertSource {src : RstSource} {reach : Reach} {windowExpired : Bool} (h : s₀.Keeps s) :
    s₀.Keeps (s.assertSource src reach windowExpired) := by
  unfold State.assertSource
  extract_lets _ s1 s2 s3 s4 s5
  have h3 : s₀.Keeps s3 := .onRst (.ite (.countStart (.onRst h)) (.onRst h))
  have h4 : s₀.Keeps s4 := .ite (.sysEvent (.onDev h3)) h3
  refine .settle ?_
  dsimp only [s5]
  split
  · exact .dropShards (.unitResetEvents (.endUpdate h4))
  · exact .dropShards (.unitResetEvents (.endUpdate h4))
  · exact .ite h4 (.onRst (.fabricClear h4))
  · exact .onRst (.warmClear h4)
  · exact .onRst (.coldClear h4)

theorem State.Keeps.releaseSource {src : RstSource} (h : s₀.Keeps s) : s₀.Keeps (s.releaseSource src) := .ite (.settle (.onRst h)) h

theorem State.Keeps.unitIdleAck {u : RstUnit} (h : s₀.Keeps s) : s₀.Keeps (s.unitIdleAck u) :=
  .ite (.settle (.ite (.onDev (.onUnit h)) (.onUnit h))) h

theorem State.Keeps.handshakeTimeout {u : RstUnit} (h : s₀.Keeps s) : s₀.Keeps (s.handshakeTimeout u) := .ite (.onRst (.onUnit h)) h

theorem State.Keeps.forcedResetApplied {u : RstUnit} (h : s₀.Keeps s) : s₀.Keeps (s.forcedResetApplied u) :=
  .ite (.settle (.raise (.onUnit h))) h

theorem State.Keeps.bayRelease {b : Nat} (h : s₀.Keeps s) : s₀.Keeps (s.bayRelease b) :=
  .onDev (.onSch h fun _ => .lists (scratch := .mapIdx fun _ _ hr => by split <;> [rfl; exact hr])
    (slots := .mapIdx fun _ _ hr => by split <;> [rfl; exact hr]) (shelves := .set rfl))

theorem State.Keeps.wingRelease {w : Nat} (h : s₀.Keeps s) : s₀.Keeps (s.wingRelease w) :=
  .onDev (.onSch h fun _ => .lists (coreL1 := .mapIdx fun _ _ hm => by split <;> [exact ⟨rfl, rfl⟩; exact hm])
    (wingL2 := .set rfl))

theorem State.Keeps.bringUpUnit {u : RstUnit} {boot : BootReport} (h : s₀.Keeps s) : s₀.Keeps (s.bringUpUnit u boot).1 := by
  unfold State.bringUpUnit
  split
  · exact .pairFst (.onLink (.onDev h))
  · exact .iteFst (.pairFst (.ite (.bootStep4 (.onDev h)) (.onDev h))) h
  · exact .iteFst (.pairFst (.ite (.bootStep4 (.onLink (.onDev h))) (.onLink (.onDev h)))) h
  · exact .iteFst (.pairFst (.onDev h)) h
  · exact .iteFst (.pairFst (.onDev h)) h
  · exact .iteFst (.pairFst (.bayRelease h)) h
  · exact .iteFst (.pairFst (.wingRelease h)) h

theorem State.Keeps.unitReleaseDone {u : RstUnit} {boot : BootReport} (h : s₀.Keeps s) : s₀.Keeps (s.unitReleaseDone u boot) := by
  unfold State.unitReleaseDone
  refine .ite ?_ h
  extract_lets _ r
  have hr : s₀.Keeps r.1 := by
    refine .iteFst (.bringUpUnit h) ?_
    split
    · exact .pairFst (.bayRelease h)
    · exact .pairFst (.wingRelease h)
    · exact .pairFst (.onDev h)
    · exact .pairFst (.onDev h)
    · exact h
  exact .ite (.ite (.onDev (.onRst (.onUnit hr))) (.onUnit hr)) h

theorem State.Keeps.startOk (h : s₀.Keeps s) : s₀.Keeps s.startOk :=
  .ite (.ite (.mgtInt (.onDev (.goto (.flag (.onRst h))))) (.enterService (.flag (.onRst h)))) h

theorem State.Keeps.startWindowExpiry (h : s₀.Keeps s) : s₀.Keeps s.startWindowExpiry := .ite (.assertSource h) h

theorem State.Keeps.refuseReset (h : s₀.Keeps s) : s₀.Keeps s.refuseReset := .flag h

theorem State.Keeps.requestReset {reach : Reach} (h : s₀.Keeps s) : s₀.Keeps (s.requestReset reach) :=
  .ite (.refuseReset h) (.assertSource (.onRst h))

theorem State.Keeps.linkReset (h : s₀.Keeps s) : s₀.Keeps s.linkReset := .ite h (.assertSource (.onRst h))

theorem State.Keeps.powerOn (h : s₀.Keeps s) : s₀.Keeps s.powerOn :=
  .ite (.units (.coldClear h) (regs := fun _ => rfl)) h

theorem State.Keeps.powerOnRelease {coreLow : Bool} (h : s₀.Keeps s) : s₀.Keeps (s.powerOnRelease coreLow) :=
  .ite (.releaseSource (.ite (.onRst h) h)) h

theorem State.Keeps.vddAoLost (h : s₀.Keeps s) : s₀.Keeps s.vddAoLost :=
  .units (.coldClear h) (regs := fun _ => rfl)

theorem State.Keeps.clockFailure {pll : Nat} (h : s₀.Keeps s) : s₀.Keeps (s.clockFailure pll) :=
  .ite h (.assertSource (.ite (.flag (.setRegF h)) (.setRegF h)))

theorem State.Keeps.lockUp {wing : Option Nat} (h : s₀.Keeps s) : s₀.Keeps (s.lockUp wing) := by
  unfold State.lockUp
  split
  · exact .ite h (.assertSource h)
  · exact .assertSource h

theorem State.Keeps.watchdogRestart (h : s₀.Keeps s) : s₀.Keeps s.watchdogRestart := .ite (.onDev h) h

theorem State.Keeps.watchdogExpiry (h : s₀.Keeps s) : s₀.Keeps s.watchdogExpiry := .ite (.assertSource (.onDev h)) h

/-! ### States, power and the tick -/

theorem State.Keeps.baysOff (h : s₀.Keeps s) : s₀.Keeps s.baysOff :=
  .onFol (.onSch h fun _ => .lists (.replicate rfl) (.replicate rfl) (.replicate rfl))

theorem State.Keeps.wingsOff (h : s₀.Keeps s) : s₀.Keeps s.wingsOff :=
  .onSch h fun _ => .lists (coreL1 := .replicate ⟨rfl, rfl⟩) (wingL2 := .replicate rfl)

theorem State.Keeps.stateReq {st : DeviceState} (h : s₀.Keeps s) : s₀.Keeps (s.stateReq st) := .ite (.sysEvent h) (.onDev h)

theorem State.Keeps.stateTransitionDone (h : s₀.Keeps s) : s₀.Keeps s.stateTransitionDone := by
  unfold State.stateTransitionDone
  split
  · exact .enterService h
  · exact .onDev (.goto h)
  · exact .onDev (.goto h)
  · exact h

theorem State.Keeps.standbyEntryDone (h : s₀.Keeps s) : s₀.Keeps s.standbyEntryDone :=
  .ite (.onDev (.goto (.wingsOff (.baysOff (.ite (.closeInterval h) h))))) h

theorem State.Keeps.exitIdle (h : s₀.Keeps s) : s₀.Keeps s.exitIdle := .ite (.onDev h) h

theorem State.Keeps.wake {c : WakeCause} (h : s₀.Keeps s) : s₀.Keeps (s.wake c) :=
  .ite h (.ite (.flag (.sysEvent (.onDev h))) (.ite (.flag (.onDev h)) (.ite (.exitIdle (.flag h)) h)))

theorem State.Keeps.wakeUp (h : s₀.Keeps s) : s₀.Keeps s.wakeUp :=
  .ite (.ite (.openInterval (.enterService (.onDev h))) (.enterService (.onDev h))) h

theorem State.Keeps.endsIdle {f : State → State} (h : s₀.Keeps s) (hf : ∀ t, s₀.Keeps t → s₀.Keeps (f t)) : s₀.Keeps (s.endsIdle f) :=
  .ite (.exitIdle (hf _ h)) (hf _ h)

theorem State.Keeps.readyIdleEntry {aborted : Bool} (h : s₀.Keeps s) : s₀.Keeps (s.readyIdleEntry aborted) :=
  .ite (.ite (.flag (.onDev h)) (.onDev (.baysOff h))) h

theorem State.Keeps.readyIdleExitDone (h : s₀.Keeps s) : s₀.Keeps s.readyIdleExitDone := .ite (.onDev h) h

theorem State.Keeps.wakeTimerExpiry (h : s₀.Keeps s) : s₀.Keeps s.wakeTimerExpiry := .ite h (.wake (.setRegF h))

theorem State.Keeps.clkArithStep {v : Word} (h : s₀.Keeps s) : s₀.Keeps (s.clkArithStep v) :=
  .ite (.access h) (.ite (.onDev (.writeWord h)) h)

theorem State.Keeps.aoClockFallback (h : s₀.Keeps s) : s₀.Keeps s.aoClockFallback := .ite h (.raise (.onDev h))

theorem State.Keeps.tempUpdate {readings : List (Nat × Int)} (h : s₀.Keeps s) : s₀.Keeps (s.tempUpdate readings) := by
  unfold State.tempUpdate
  extract_lets on
  split
  · exact h
  · extract_lets s1 warn s2 s3
    have h1 : s₀.Keeps s1 := .setRegF (.setRegF h)
    have h2 : s₀.Keeps s2 := .mgtInt (.flag (.onDev h1))
    exact .onDev (.ite (.ite (.msix h2) h2) (.ite (.onDev h1) h1))

theorem State.Keeps.tick (h : s₀.Keeps s) : s₀.Keeps s.tick :=
  .ite h (.onDev (.onDev (.onSch (.onRst (.ite (.setRegF (.plain h)) (.plain h))))))

theorem State.Keeps.whenReg {f : State → State} (h : s₀.Keeps s) (hf : ∀ t, s₀.Keeps t → s₀.Keeps (f t)) : s₀.Keeps (s.whenReg f) :=
  .whenOn h fun _ h => hf _ (.exitIdle h)

theorem State.Keeps.hostWaits {a : HostAccess} (h : s₀.Keeps s) : s₀.Keeps (s.hostWaits a) := .onLink (.wake h)

theorem State.Keeps.whenHost {off : Nat} {v : Word} {f : State → State} (h : s₀.Keeps s) (hf : ∀ t, s₀.Keeps t → s₀.Keeps (f t)) :
    s₀.Keeps (s.whenHost off v f) :=
  .whenOn h fun _ h => .ite (.hostWaits h) (hf _ (.exitIdle h))

end Sys2Proof.Machine
end

section
/-! PROOF. What each operation keeps of rings, carrels, commands, pages and attention. -/

namespace Sys2Proof.Machine

set_option Elab.async false

variable {s₀ s : State}

/-! ### Rings and descriptors -/

theorem State.Keeps.kickRings {rs : List Nat} {c : WakeCause} (h : s₀.Keeps s) : s₀.Keeps (s.kickRings rs c) := by
  unfold State.kickRings
  dsimp only
  split
  · exact .foldl (.wake h) fun _ _ => .onSq
  · exact .foldl (.wake h) fun _ _ => .onSq
  · exact .ite (.readFullProds (.foldl (.wake h) fun _ _ => .readDoorbell)) (.wake h)
  · exact .ite (.readFullProds (.foldl (.wake h) fun _ _ => .readDoorbell)) (.wake h)
  · exact .ite (.readFullProds (.foldl (.wake h) fun _ _ => .readDoorbell)) (.wake h)
  · exact .wake h

theorem State.Keeps.kick {off : Nat} (h : s₀.Keeps s) : s₀.Keeps (s.kick off) := .ite (.onLink (.kickRings h)) (.kickRings h)

theorem State.Keeps.releaseCancels (h : s₀.Keeps s) : s₀.Keeps s.releaseCancels := .foldl (.onRings h) fun _ _ => .postCq

theorem State.Keeps.takeCount {r : RingId} {index gen : Nat} (h : s₀.Keeps s) : s₀.Keeps (s.takeCount r index gen) := by
  unfold State.takeCount
  refine .ite (.flag h) ?_
  split
  · exact .onSq h
  · exact .onProd h

theorem State.Keeps.flushRing {r : RingId} (h : s₀.Keeps s) : s₀.Keeps (s.flushRing r) := by
  unfold State.flushRing
  split
  · exact h
  · exact .flushCq h
  · exact .unstick (.flushErr h)
  · exact .flushLdg h

theorem State.Keeps.doorbellReadDone {rec index gen : Nat} (h : s₀.Keeps s) : s₀.Keeps (s.doorbellReadDone rec index gen) := by
  unfold State.doorbellReadDone
  split
  · exact h
  · refine .ite h ?_
    extract_lets s1 _ _ s2 _
    have h1 : s₀.Keeps s1 := by
      dsimp only [s1]
      split
      · exact .onSq h
      · exact .onProd h
    have h2 : s₀.Keeps s2 := .ite (.flushRing (.takeCount (.unattributedHost h1))) (.unattributedHost h1)
    exact .ite (.readDoorbell (.releaseCancels h2)) (.releaseCancels h2)

theorem State.Keeps.noteUnload {slot : Nat} {d : Bytes} {ok : Bool} (h : s₀.Keeps s) : s₀.Keeps (s.noteUnload slot d ok) :=
  .ite (.onFol h) h

theorem State.Keeps.fetchDescs {n : Nat} {l : List Bytes} (h : s₀.Keeps s) : s₀.Keeps (s.fetchDescs n l) := by
  induction l generalizing s with
  | nil => exact h
  | cons d l ih =>
    unfold State.fetchDescs
    refine .ite h (.ite ?_ (ih (.chargePcie (.onSq h))))
    split
    · exact .ite (ih (.noteUnload (.chargePcie (.onSq (.plain h))))) h
    · exact h

theorem State.Keeps.finishDesc {n : Nat} {d : Bytes} {slot : Option Nat} {status detail amount : Nat} (h : s₀.Keeps s) :
    s₀.Keeps (s.finishDesc n d slot status detail amount) := by
  unfold State.finishDesc
  refine .postCq ?_
  split
  · exact .onJob h
  · exact h

theorem State.Keeps.popHead {n : Nat} (h : s₀.Keeps s) : s₀.Keeps (s.popHead n) := .onSq h

theorem State.Keeps.drainRowless {fuel n : Nat} (h : s₀.Keeps s) : s₀.Keeps (State.drainRowless fuel s n) := by
  induction fuel generalizing s with
  | zero => exact h
  | succ fuel ih =>
    unfold State.drainRowless
    split
    · exact .ite (ih (.finishDesc (.popHead h))) h
    · exact h

theorem State.Keeps.beginDesc {n : Nat} {want : Bytes → Bool} {run : State → Bytes → Option Nat → State} (h : s₀.Keeps s)
    (hrun : ∀ t a b, s₀.Keeps t → s₀.Keeps (run t a b)) : s₀.Keeps (s.beginDesc n want run) := by
  unfold State.beginDesc
  dsimp only
  split
  · exact .drainRowless h
  · refine .ite (.drainRowless h) (.drainRowless ?_)
    split
    · exact .finishDesc (.popHead (.drainRowless h))
    · exact hrun _ _ _ (.popHead (.drainRowless h))

theorem State.Keeps.readDescs {n k : Nat} (h : s₀.Keeps s) : s₀.Keeps (s.readDescs n k) := .hostRead (.hostRead h)

theorem State.Keeps.descriptorFetch {n : Nat} {descs : List Bytes} (h : s₀.Keeps s) : s₀.Keeps (s.descriptorFetch n descs) :=
  .ite h (.ite (.onRings (.plain (.fetchDescs h)) fun _ => by split <;> exact ⟨rfl, rfl⟩) (.plain (.fetchDescs h)))

theorem State.Keeps.nop {n : Nat} (h : s₀.Keeps s) : s₀.Keeps (s.nop n) := .beginDesc h fun _ _ _ => .finishDesc

theorem State.Keeps.ringEnable {r : RingId} {v : Word} (h : s₀.Keeps s) : s₀.Keeps (s.ringEnable r v) := by
  unfold State.ringEnable
  refine .ite h (.ite (.ite (.setRegF h) h) (.ite (.flag h) ?_))
  dsimp only
  split
  · exact .onSq (.writeWord h)
  · exact .onCq (.writeWord h)
  · exact .flushRing (.onProd (.writeWord h))
  · exact .flushRing (.onProd (.writeWord h))

theorem State.Keeps.clearEn {r : RingId} {v : Word} (h : s₀.Keeps s) : s₀.Keeps (s.clearEn r v) := .setRegF (.ite (.setRegF h) h)

theorem State.Keeps.sqDisable {n : Nat} {v : Word} (h : s₀.Keeps s) : s₀.Keeps (s.sqDisable n v) :=
  .ite h (.ite (.onSq (.clearEn h)) (.writeWord h))

theorem State.Keeps.cqDisable {n : Nat} {v : Word} (h : s₀.Keeps s) : s₀.Keeps (s.cqDisable n v) :=
  .ite h (.ite (.ite (.flag h) (.clearEn h)) (.writeWord h))

/-! ### Scratch and far memory -/

theorem State.Keeps.onCarrel {c : Nat} {f : Carrel → Carrel} (h : s₀.Keeps s)
    (hs : ∀ r : Carrel, r.scratch.wf = true → (f r).scratch.wf = true := by exact fun _ w => w)
    (hn : ∀ r : Carrel, r.slots.length = 4 → (f r).slots.length = 4 := by exact fun _ n => n) : s₀.Keeps (s.onCarrel c f) :=
  .onSch h fun _ => .lists (.modify hs) (.modify hn)

theorem State.Keeps.onCtx {id : Nat} {f : Ctx → Ctx} (h : s₀.Keeps s) : s₀.Keeps (s.onCtx id f) := .onSch h

theorem locPut_wf (map : List Nat) (m : Mem) (a : Nat) (bs : Bytes) (h : m.wf = true) : (locPut map m a bs).wf = true := by
  induction bs generalizing m a with
  | nil => exact h
  | cons b bs ih => exact ih _ _ (m.put_wf _ b h)

theorem State.Keeps.locWrite {x : Ctx} {a : Nat} {bs : Bytes} (h : s₀.Keeps s) : s₀.Keeps (s.locWrite x a bs) := by
  unfold State.locWrite
  split
  · exact .onCarrel h fun r => locPut_wf _ r.scratch a bs
  · exact h

theorem State.Keeps.chargeCtx {x : Ctx} {n : Nat} {mk : State → Nat → Nat → State} (h : s₀.Keeps s)
    (hmk : ∀ t a b, s₀.Keeps t → s₀.Keeps (mk t a b)) : s₀.Keeps (s.chargeCtx x n mk) := by
  unfold State.chargeCtx
  split
  · exact hmk _ _ _ (.foldl h fun _ _ h => hmk _ _ _ h)
  · exact hmk _ _ _ h
  · exact hmk _ _ _ h

theorem State.Keeps.emptySlot {c k : Nat} (h : s₀.Keeps s) : s₀.Keeps (s.onCarrel c fun r => r.emptySlot k) :=
  .onCarrel h (hn := fun r hr => by simp [Carrel.emptySlot, hr])

theorem State.Keeps.onShelf {b : Nat} {f : Mem → Mem} (h : s₀.Keeps s) (hf : ∀ m : Mem, m.wf = true → (f m).wf = true := by
    exact fun m => Mem.write_wf _ m _) : s₀.Keeps (s.onShelf b f) :=
  .onSch h fun _ => .lists (shelves := .modify hf)

theorem State.Keeps.farRead {x : Ctx} {b o n : Nat} (h : s₀.Keeps s) : s₀.Keeps (s.farRead x b o n).2 := by
  unfold State.farRead
  dsimp only
  split
  · exact h
  · exact h
  · exact .drawBytes h
  · exact h

theorem State.Keeps.farWrite {x : Ctx} {b o : Nat} {bs : Bytes} (h : s₀.Keeps s) : s₀.Keeps (s.farWrite x b o bs) := by
  unfold State.farWrite
  dsimp only
  split
  · exact .dramWrite h
  · exact .onShelf h
  · exact .chargeCtx (.foldlFst h fun _ _ => .hostWrite) fun _ _ _ => .chargePcie
  · exact .foldlFst h fun _ _ => .dramWrite

theorem State.Keeps.readShard {x : Ctx} {f : Folio} {n : Nat} (h : s₀.Keeps s) : s₀.Keeps (s.readShard x f n).2 :=
  .iteSnd (.pairSnd (.onFol h)) (.iteSnd (.pairSnd (.charge (.bumpSat (.onFol (.bumpSat h))))) (.bumpSat h))

theorem State.Keeps.farTouch {x : Ctx} {b o n : Nat} (h : s₀.Keeps s) : s₀.Keeps (s.farTouch x b o n) := by
  unfold State.farTouch
  refine .ite h (.ite ?_ ?_)
  · split
    · exact h
    · exact .foldl h fun _ _ h => .ite (.chargeCtx (.readShard h) fun _ _ _ => .chargeDram) (.readShard h)
  · split
    · exact .chargeCtx h fun _ _ _ => .chargeDram
    · exact .chargeCtx h fun _ _ _ => .chargeDram
    · exact h

theorem Eff.Keeps.scratchErr {x : Ctx} {c : Nat} {d : Bytes} {addr : Nat} (h : s₀.Keeps s) : Eff.Keeps s₀ (scratchErr s x c d addr) :=
  .err (.bumpSat h)

theorem Eff.Keeps.commandErr {x : Ctx} {c : Nat} {d : Bytes} {addr : Nat} (h : s₀.Keeps s) : Eff.Keeps s₀ (commandErr s x c d addr) :=
  .err h

theorem Eff.Keeps.farErr {x : Ctx} {c : Nat} {d : Bytes} {addr : Nat} (h : s₀.Keeps s) : Eff.Keeps s₀ (farErr s x c d addr) := .err h

theorem State.Keeps.injectRead {c : Nat} {words : List Nat} (h : s₀.Keeps s) : s₀.Keeps (s.injectRead c words) := by
  unfold State.injectRead
  dsimp only
  split
  · exact h
  · exact .ite (.onCarrel (.setRegF h)) h

theorem State.Keeps.readWord64 {x : Ctx} {c w : Nat} (h : s₀.Keeps s) : s₀.Keeps (s.readWord64 x c w).1 := by
  unfold State.readWord64
  split
  · exact h
  · exact .iteFst (.bumpSat (.drawBytes h)) (.raise (.bumpSat (.drawBytes h)))

theorem State.Keeps.readWords64 {x : Ctx} {c : Nat} {ws : List Nat} (h : s₀.Keeps s) : s₀.Keeps (s.readWords64 x c ws).1 := by
  induction ws generalizing s with
  | nil => exact h
  | cons w ws ih =>
    unfold State.readWords64
    split <;> rename_i e
    · exact .ofFst (.readWord64 h) e
    · exact ih (.ofFst (.readWord64 h) e)

theorem State.Keeps.sense {x : Ctx} {c : Nat} {reads writes : List (Nat × Nat)} (h : s₀.Keeps s) :
    s₀.Keeps (s.sense x c reads writes).1 :=
  .readWords64 (.injectRead h)

theorem Eff.Keeps.touching {x : Ctx} {c : Nat} {reads writes : List (Nat × Nat)} {run : State → Eff} (h : s₀.Keeps s)
    (hrun : ∀ t, s₀.Keeps t → Eff.Keeps s₀ (run t)) : Eff.Keeps s₀ (Machine.touching s x c reads writes run) := by
  unfold Machine.touching
  split <;> rename_i e
  · exact .err (.ofFst (.sense h) e)
  · exact hrun _ (.ofFst (.sense h) e)

theorem State.Keeps.accessing {x : Ctx} {c : Nat} {reads writes : List (Nat × Nat)} {run : State → State} (h : s₀.Keeps s)
    (hrun : ∀ t, s₀.Keeps t → s₀.Keeps (run t)) : s₀.Keeps (s.accessing x c reads writes run) := by
  unfold State.accessing
  split
  · rename_i eq0
    exact .raise (.ofFst (.sense h) eq0)
  · rename_i eq0
    exact hrun _ (.ofFst (.sense h) eq0)

theorem State.Keeps.chargeWaits {l : List (Nat × Nat)} (h : s₀.Keeps s) : s₀.Keeps (s.chargeWaits l) :=
  .foldl h fun _ _ => .chargeWait

theorem State.Keeps.advance {was : State} {now : Nat} (h : s₀.Keeps s) : s₀.Keeps (s.advance was now) := .plain (.chargeWaits h)

theorem State.Keeps.issued {c k now : Nat} {x : Ctx} {d : Bytes} {stays : Bool} (h : s₀.Keeps s) :
    s₀.Keeps (s.issued c k now x d stays) :=
  .plain (.onCarrel (.onSch (.onCtx h)))

theorem State.Keeps.issue {c k now op : Nat} {stays : Bool} {run : State → Ctx → Bytes → Eff} (h : s₀.Keeps s)
    (hrun : ∀ t a b, s₀.Keeps t → Eff.Keeps s₀ (run t a b)) : s₀.Keeps (s.issue c k now op stays run) := by
  unfold State.issue
  split
  · exact h
  · split
    · exact h
    · refine .ite h ?_
      split
      · rename_i eq3
        exact .chargeWaits (.chargeWaits (.issued (.ofOk (hrun _ _ _ h) eq3)))
      · exact h
      · rename_i eq3
        exact .advance (.raise (.ofErr (hrun _ _ _ h) eq3))

theorem State.Keeps.streamSrc {x : Ctx} {d : Bytes} {k n : Nat} (h : s₀.Keeps s) : s₀.Keeps (s.streamSrc x d k n).2 :=
  .foldlSnd h fun _ _ => .farRead

theorem State.Keeps.streamBytes {x : Ctx} {d : Bytes} {a n : Nat} (h : s₀.Keeps s) : s₀.Keeps (s.streamBytes x d a n).2 :=
  .iteSnd (.streamSrc h) (.streamSrc h)

theorem State.Keeps.ringWrite {x : Ctx} {d : Bytes} {a : Nat} {bs : Bytes} (h : s₀.Keeps s) : s₀.Keeps (s.ringWrite x d a bs) :=
  .foldl h fun _ _ => .locWrite

theorem State.Keeps.pump {x : Ctx} {h' : StreamH} (h : s₀.Keeps s) : s₀.Keeps (s.pump x h').2 := .ringWrite (.streamBytes h)

theorem State.Keeps.takeStream {x : Ctx} {fuel n : Nat} {g : StreamH} {acc : Bytes} (h : s₀.Keeps s) :
    s₀.Keeps (State.takeStream x fuel s g n acc).2.2 := by
  induction fuel generalizing s g n acc with
  | zero => exact h
  | succ fuel ih =>
    unfold State.takeStream
    dsimp only
    split
    · exact h
    · exact ih (.pump h)

theorem State.Keeps.opRead {x : Ctx} {w n : Nat} (h : s₀.Keeps s) : s₀.Keeps (s.opRead x w n).2 := by
  unfold State.opRead
  refine .iteSnd ?_ h
  split
  · exact .onCtx (.takeStream (.pump h))
  · exact h

theorem State.Keeps.cmdLineFetch {c k : Nat} (h : s₀.Keeps s) : s₀.Keeps (s.cmdLineFetch c k) := by
  unfold State.cmdLineFetch
  split
  · exact h
  · exact .ite h (.onCtx (.ite (.farTouch h) (.ite h (.chargeCtx h fun _ _ _ => .chargeDram))))

theorem State.Keeps.savePass {x : Ctx} (h : s₀.Keeps s) : s₀.Keeps (s.savePass x) := by
  unfold State.savePass
  split
  · refine .ite h ?_
    dsimp only
    split
    · exact .onCtx (.locWrite h)
    · exact .onCtx h
  · exact h

theorem State.Keeps.loadPass {x : Ctx} {c : Nat} (h : s₀.Keeps s) : s₀.Keeps (s.loadPass x c) := by
  unfold State.loadPass
  split
  · split
    · exact h
    · exact .onCtx (.ite h (.onCarrel h))
  · exact h

theorem State.Keeps.enginePreempt {c k : Nat} {vec : Bool} (h : s₀.Keeps s) : s₀.Keeps (s.enginePreempt c k vec) := by
  unfold State.enginePreempt
  split
  · exact h
  · split
    · exact h
    · exact .ite h (.foldl h fun _ _ h => .chargeWait (.onCtx (.ite (.savePass h) h)))

theorem State.Keeps.returnTo {c id : Nat} (h : s₀.Keeps s) : s₀.Keeps (s.returnTo c id) := by
  unfold State.returnTo
  split
  · exact h
  · exact .ite h (.ite (.onCtx h) (.loadPass (.onCtx h)))

theorem State.Keeps.returnEngines {c : Nat} (h : s₀.Keeps s) : s₀.Keeps (s.returnEngines c) := .foldl h fun _ _ => .returnTo

/-! ### Commands and operands -/

theorem Eff.Keeps.load {c : Nat} {x : Ctx} {d : Bytes} (h : s₀.Keeps s) : Eff.Keeps s₀ (s.load c x d) := by
  unfold State.load
  dsimp only
  split
  · exact .farErr h
  · exact .scratchErr h
  · exact .touching h fun _ h => .ok (.onCtx (.foldl h fun _ _ h => .locWrite (.farRead (.farTouch h))))

theorem Eff.Keeps.store {c : Nat} {x : Ctx} {d : Bytes} (h : s₀.Keeps s) : Eff.Keeps s₀ (s.store c x d) := by
  unfold State.store
  dsimp only
  split
  · exact .farErr h
  · exact .scratchErr h
  · exact .touching h fun _ h => .ok (.foldl h fun _ _ h => .farWrite (.farTouch h))

theorem Eff.Keeps.stream {c : Nat} {x : Ctx} {d : Bytes} (h : s₀.Keeps s) : Eff.Keeps s₀ (s.stream c x d) := by
  unfold State.stream
  dsimp only
  split
  · exact .farErr h
  · split
    · exact .scratchErr h
    · exact .touching (.foldl h fun _ _ => .farTouch) fun _ h => .ok (.onCtx (.pump h))

theorem State.Keeps.exPixel {x : Ctx} {d : Bytes} {y v : Int} (h : s₀.Keeps s) : s₀.Keeps (s.exPixel x d y v).2 := .iteSnd (.farRead h) h

theorem State.Keeps.exRow {x : Ctx} {d : Bytes} {oy ox : Nat} (h : s₀.Keeps s) : s₀.Keeps (s.exRow x d oy ox).2 := by
  unfold State.exRow
  exact .foldlSnd h fun _ _ => .exPixel

theorem Eff.Keeps.expand {c : Nat} {x : Ctx} {d : Bytes} (h : s₀.Keeps s) : Eff.Keeps s₀ (s.expand c x d) := by
  unfold State.expand
  refine .ite (.farErr h) (.ite (.farErr h) ?_)
  dsimp only
  split
  · exact .farErr h
  · exact .ok (.foldl (.foldl h fun _ _ => .farTouch) fun _ _ h => .foldl h fun _ _ h => .onShelf (.exRow h))

theorem Eff.Keeps.pack {c : Nat} {x : Ctx} {d : Bytes} (h : s₀.Keeps s) : Eff.Keeps s₀ (s.pack c x d) := by
  unfold State.pack
  refine .ite (.commandErr h) ?_
  dsimp only
  split
  · exact .farErr h
  · split
    · exact .farErr h
    · exact .ok (.farWrite (.farWrite (.farWrite (.farWrite (.farWrite (.foldl (.foldlSnd h fun _ _ h => .farRead (.farTouch h))
        fun _ _ => .farTouch))))))

theorem Eff.Keeps.signal {x : Ctx} {d : Bytes} (h : s₀.Keeps s) : Eff.Keeps s₀ (s.signal x d) := .ok (.onJobNum h)

/-! ### The array and the vector unit -/

theorem State.Keeps.rowDiff {x : Ctx} {d : Bytes} {afmt : Nat} (h : s₀.Keeps s) : s₀.Keeps (s.rowDiff x d afmt).2 := by
  unfold State.rowDiff
  split
  · refine .iteSnd ?_ h
    split
    · exact h
    · exact .drawBytes h
  · exact .iteSnd h (.drawBytes h)

theorem State.Keeps.tmacBook {x : Ctx} {d : Bytes} {wfmt : Nat} (h : s₀.Keeps s) : s₀.Keeps (s.tmacBook x d wfmt).2 := by
  unfold State.tmacBook
  refine .iteSnd h ?_
  split
  · exact h
  · exact .drawBytes h

theorem State.Keeps.colZero {x : Ctx} {d : Bytes} {wfmt : Nat} (h : s₀.Keeps s) : s₀.Keeps (s.colZero x d wfmt).2 := by
  unfold State.colZero
  refine .iteSnd ?_ h
  split
  · exact h
  · exact .drawBytes h

theorem State.Keeps.countTensor {jobNumber tensor sat zc elems : Nat} (h : s₀.Keeps s) :
    s₀.Keeps (s.countTensor jobNumber tensor sat zc elems) :=
  .onJobNum h

theorem State.Keeps.injectResidue {c : Nat} {cells : List AccCell} (h : s₀.Keeps s) : s₀.Keeps (s.injectResidue c cells).2 := by
  unfold State.injectResidue
  refine .iteSnd ?_ h
  split <;> exact .drawBytes (.setRegF h)

theorem Eff.Keeps.residueErr {c detail : Nat} (h : s₀.Keeps s) : Eff.Keeps s₀ (residueErr s c detail) := .err (.bumpSat h)

theorem Eff.Keeps.drainRegs {x : Ctx} {c : Nat} {d : Bytes} {cells : List AccCell} (h : s₀.Keeps s) :
    Eff.Keeps s₀ (s.drainRegs x c d cells) := by
  unfold State.drainRegs
  dsimp only
  split
  · exact .residueErr (.injectResidue h)
  · exact .ok (.onCtx (.countTensor (.injectResidue h)))

theorem Eff.Keeps.tmac {c now : Nat} {x : Ctx} {d : Bytes} (h : s₀.Keeps s) : Eff.Keeps s₀ (s.tmac c now x d) := by
  unfold State.tmac
  extract_lets opA opW nA nW nG ranges
  split
  · exact .scratchErr h
  · refine .ite .wait (.touching h fun _ h => ?_)
    extract_lets ra rw rz rb rc s1 t ins passes s2 s3
    have hb : s₀.Keeps rb.2 := .tmacBook (.rowDiff (.opRead (.opRead h)))
    have h3 : s₀.Keeps s3 := .chargeCtx (.onCarrel (.onCtx (.iteSnd (.colZero hb) (.pairSnd hb)))) fun _ _ _ => .chargeArray
    exact .ite (.drainRegs (.chargeCtx h3 fun _ _ _ => .chargeArray)) (.ok (.onCtx h3))

theorem Eff.Keeps.req {c : Nat} {x : Ctx} {d : Bytes} (h : s₀.Keeps s) : Eff.Keeps s₀ (s.req c x d) := by
  unfold State.req
  split
  · exact .wait
  · extract_lets pitch out recs tile
    split
    · exact .scratchErr h
    · refine .touching h fun _ h => ?_
      extract_lets r s1 shift f s2 rq q s3 s4 s5 s6 s7
      have hr : s₀.Keeps r.2 := .injectResidue h
      split
      · exact .residueErr hr
      · have h3 : s₀.Keeps s3 := .foldl (.iteSnd (.drawBytes hr) hr) fun _ _ => .locWrite
        have h5 : s₀.Keeps s5 := .countTensor (.ite (.locWrite h3) h3)
        exact .ok (.onCtx (.chargeCtx (.ite (.onJobNum h5) h5) fun _ _ _ => .chargeArray))

theorem State.Keeps.setVreg {x : Ctx} {n : Nat} {v : List Word} (h : s₀.Keeps s) : s₀.Keeps (s.setVreg x n v) := .onCtx h

theorem State.Keeps.drawWords {n : Nat} (h : s₀.Keeps s) : s₀.Keeps (s.drawWords n).2 := .drawBytes h

theorem State.Keeps.vecInstr {id t : Nat} {i : Bytes} (h : s₀.Keeps s) : s₀.Keeps (s.vecInstr id t i) := by
  unfold State.vecInstr
  split
  · exact h
  · exact .ite h (.ite (.setVreg h) (.ite (.locWrite h) (.ite (.setVreg h) (.ite (.setVreg h) (.ite (.setVreg h) (.setVreg
      (.drawWords h)))))))

theorem Eff.Keeps.vec {c : Nat} {x : Ctx} {d : Bytes} (h : s₀.Keeps s) : Eff.Keeps s₀ (s.vec c x d) := by
  unfold State.vec
  split
  · exact .scratchErr h
  · exact .touching h fun _ h => .ok (.chargeCtx (.foldl h fun _ _ h => .foldl h fun _ _ => .vecInstr) fun _ _ _ => .chargeVector)

theorem Eff.Keeps.argmax {c : Nat} {x : Ctx} {d : Bytes} (h : s₀.Keeps s) : Eff.Keeps s₀ (s.argmax c x d) := by
  unfold State.argmax
  dsimp only
  split
  · exact .scratchErr h
  · exact .touching h fun _ h => .ok (.chargeCtx (.locWrite h) fun _ _ _ => .chargeVector)

/-! ### Pages, the concordance and KVAPP -/

theorem State.Keeps.kvTick (h : s₀.Keeps s) : s₀.Keeps s.kvTick := .onKv h

theorem State.Keeps.takePage {log2 bytes : Nat} {r : Nat × State} (h : s₀.Keeps s) (e : s.takePage log2 bytes = some r) :
    s₀.Keeps r.2 := by
  unfold State.takePage at e
  split at e
  · cases e
  · cases e
    dsimp only
    exact .onKv h

theorem State.Keeps.editOne {slot : Nat} {e : Edit} (h : s₀.Keeps s) : s₀.Keeps (s.editOne slot e) := by
  unfold State.editOne
  split
  · exact h
  · exact .ite h (.foldl (.onKv (.onTable h)) fun _ _ => .dropEntry)

theorem State.Keeps.applyEdits {slot : Nat} {es : List Edit} (h : s₀.Keeps s) : s₀.Keeps (s.applyEdits slot es) :=
  .ite h (.onSeq (.foldl h fun _ _ => .editOne))

theorem State.Keeps.requestEdits {slot : Nat} {es : List Edit} (h : s₀.Keeps s) : s₀.Keeps (s.requestEdits slot es) := by
  unfold State.requestEdits
  split
  · exact h
  · exact .ite (.onSeq h) (.ite (.onSeq h) (.applyEdits h))

theorem State.Keeps.editApply {slot : Nat} {e : Option Edit} (h : s₀.Keeps s) : s₀.Keeps (s.editApply slot e) := by
  unfold State.editApply
  split
  · exact .requestEdits h
  · exact .ite (.onSeq (.applyEdits h)) h
  · exact h

theorem State.Keeps.prefixMatch {slot : Nat} {prompt : List Nat} (h : s₀.Keeps s) : s₀.Keeps (s.prefixMatch slot prompt) := by
  unfold State.prefixMatch
  split
  · exact h
  · refine .ite h ?_
    dsimp only
    split
    · exact .ite (.onSeq h) (.ite (.onSeq h) (.onTable (.onSeq (.bumpSat (.onKv (.kvTick (.onSeq h)))))))
    · exact .onSeq h

theorem State.Keeps.removeNode {n : Node} (h : s₀.Keeps s) : s₀.Keeps (s.removeNode n) := .ite (.freePage (.onKv h)) (.onKv h)

theorem State.Keeps.reclaimLeaf {log2 : Nat} {t : State} (h : s₀.Keeps s) (e : s.reclaimLeaf log2 = some t) : s₀.Keeps t := by
  obtain ⟨n, -, rfl⟩ := Option.map_eq_some_iff.1 e
  exact .removeNode h

theorem State.Keeps.reclaimAll {fuel : Nat} (h : s₀.Keeps s) : s₀.Keeps (State.reclaimAll fuel s) := by
  induction fuel generalizing s with
  | zero => exact h
  | succ fuel ih =>
    unfold State.reclaimAll
    split
    · exact ih (.removeNode h)
    · exact h

theorem State.Keeps.concFlush (h : s₀.Keeps s) : s₀.Keeps s.concFlush := .ite h (.reclaimAll h)

theorem State.Keeps.nodeInsert {slot base : Nat} (h : s₀.Keeps s) : s₀.Keeps (s.nodeInsert slot base) := by
  unfold State.nodeInsert
  split
  · exact h
  · split
    · extract_lets size k parentNode parent s1 stop room
      refine .ite h (.ite h (.ite (.onSeq (.kvTick h)) ?_))
      rcases e : room with _ | t
      · exact .onSeq (.kvTick h)
      · refine .requestEdits (.onSeq (.bumpSat (.onKv ?_)))
        dsimp only [room] at e
        split at e
        · cases e
          exact .kvTick h
        · exact .reclaimLeaf (.kvTick h) e
    · exact h

theorem State.Keeps.carve {k : Nat} {t : State} (h : s₀.Keeps s) (e : s.carve k = some t) : s₀.Keeps t := by
  obtain ⟨-, e⟩ := Option.ite_none_left_eq_some.1 e
  cases e
  exact .freePage (.onKv h)

theorem State.Keeps.restockTo {k fuel : Nat} (h : s₀.Keeps s) : s₀.Keeps (State.restockTo k fuel s) := by
  induction fuel generalizing s with
  | zero => exact h
  | succ fuel ih =>
    unfold State.restockTo
    refine .ite h ?_
    split <;> rename_i e
    · exact ih (.carve h e)
    · split <;> rename_i e
      · exact ih (.reclaimLeaf h e)
      · exact h

theorem State.Keeps.restock {k : Nat} (h : s₀.Keeps s) : s₀.Keeps (s.restock k) := .ite h (.restockTo h)

theorem State.Keeps.spareTake {slot : Nat} (h : s₀.Keeps s) : s₀.Keeps (s.spareTake slot) := by
  unfold State.spareTake
  split
  · exact h
  · split
    · split
      · rename_i eq2
        exact .onSeq (.takePage h eq2)
      · exact h
    · exact h

theorem State.Keeps.evict {slot : Nat} (h : s₀.Keeps s) : s₀.Keeps (s.evict slot) := by
  unfold State.evict
  split
  · exact h
  · split
    · exact h
    · exact .ite h (.bumpSat (.foldl h fun _ _ => .requestEdits))

theorem State.Keeps.kvPut {slot : Nat} {g : KvDecl} {e : Pte} {d : Bytes} {p : Nat} {codes : List Nat} (h : s₀.Keeps s) :
    s₀.Keeps (s.kvPut slot g e d p codes) := by
  unfold State.kvPut
  extract_lets _ _ _ s1 _ _
  have h1 : s₀.Keeps s1 := .ite (.foldl h fun _ _ => .dramWrite) (.foldl h fun _ _ => .dramWrite)
  exact .ite (.nodeInsert (.onPte h1)) (.onPte h1)

theorem State.Keeps.appendSpare {slot page log2 base : Nat} (h : s₀.Keeps s) : s₀.Keeps (s.appendSpare slot page log2 base) :=
  .evict (.onTable (.onSeq h))

theorem State.Keeps.kvRows {slot : Nat} {g : KvDecl} {d : Bytes} {c0 i : Nat} {rows : List (List Nat)} (h : s₀.Keeps s) :
    s₀.Keeps (State.kvRows slot g d c0 i rows s).2 := by
  induction rows generalizing s i with
  | nil => exact h
  | cons row rows ih =>
    unfold State.kvRows
    split
    · exact h
    · dsimp only
      split
      · exact ih (.kvPut h)
      · split
        · exact h
        · split
          · exact ih (.kvPut (.appendSpare h))
          · exact .appendSpare h

theorem Eff.Keeps.kvapp {c : Nat} {x : Ctx} {d : Bytes} (h : s₀.Keeps s) : Eff.Keeps s₀ (s.kvapp c x d) := by
  unfold State.kvapp
  split
  · exact .wait
  · split
    · exact .ite (.ok (.onCtx h)) (.commandErr h)
    · split
      · exact .commandErr h
      · refine .ite (.commandErr h) ?_
        split
        · exact .scratchErr h
        · refine .ite (.ok (.onCtx h)) (.touching h fun _ h => ?_)
          extract_lets r s1 out w rows s2 s3 s4 s5
          have hr : s₀.Keeps r.2 := .iteSnd (.injectResidue h) (.pairSnd h)
          split
          · exact .residueErr hr
          · have h2 : s₀.Keeps s2 := .chargeCtx (.kvRows hr) fun _ _ _ => .chargeDram
            have h4 : s₀.Keeps s4 := .chargeCtx (.countTensor h2) fun _ _ _ => .chargeArray
            exact .ite (.ok (.onCtx h2)) (.ok (.onCtx (.ite (.onSeq h4) h4)))

theorem State.Keeps.kvappResume {c k : Nat} (h : s₀.Keeps s) : s₀.Keeps (s.kvappResume c k) := by
  unfold State.kvappResume
  split
  · exact h
  · refine .ite h ?_
    split
    · exact h
    · split
      · exact .ite (.onCtx h) h
      · refine .ite h ?_
        split
        · rename_i eq5
          exact .ofOk (.kvapp h) eq5
        · exact h
        · rename_i eq5
          exact .raise (.ofErr (.kvapp h) eq5)

theorem State.Keeps.swapPages {client slot : Nat} {g : KvDecl} {placed : List (Pte × Nat)} (h : s₀.Keeps s) :
    s₀.Keeps (s.swapPages client slot g placed) :=
  .foldl h fun _ _ h => .editOne (.bumpSat (.chargeDram (.chargePcie (.hostWrite h))))

theorem State.Keeps.swapOut {exhausted : State → Nat → Nat → State} (h : s₀.Keeps s)
    (hexhausted : ∀ t a b, s₀.Keeps t → s₀.Keeps (exhausted t a b)) : s₀.Keeps (s.swapOut exhausted) := by
  unfold State.swapOut
  split
  · exact h
  · refine .ite h ?_
    split
    · exact hexhausted _ _ _ h
    · split
      · exact h
      · split
        · exact h
        · refine .ite h ?_
          split
          · exact h
          · exact .onSeq (.swapPages (.onKv (.kvTick h)))

theorem State.Keeps.swapIn {slot : Nat} {data : Bytes} (h : s₀.Keeps s) : s₀.Keeps (s.swapIn slot data) := by
  unfold State.swapIn
  split
  · exact h
  · split
    · refine .ite h (.onSeq (.foldlSnd h fun _ _ h => ?_))
      extract_lets n
      split <;> rename_i e
      · exact h
      · exact .pairSnd (.editOne (.bumpSat (.chargeDram (.chargePcie (.dramWrite (.fetchHost (.takePage h e)))))))
    · exact h

theorem State.Keeps.cardBuild {slot base : Nat} (h : s₀.Keeps s) : s₀.Keeps (s.cardBuild slot base) := by
  unfold State.cardBuild
  split
  · exact h
  · split
    · exact .ite (.onSeq h) h
    · exact h

/-! ### Attention -/

theorem Eff.Keeps.attn {c : Nat} {x : Ctx} {d : Bytes} (h : s₀.Keeps s) : Eff.Keeps s₀ (s.attn c x d) := by
  unfold State.attn
  split
  · exact .ite (.ok (.onCtx h)) (.commandErr h)
  · refine .ite (.commandErr h) ?_
    split
    · exact .scratchErr h
    · refine .ite (.commandErr (.locWrite h)) ?_
      split
      · exact .scratchErr (.locWrite h)
      · refine .touching (.locWrite h) fun t h => .ite (.commandErr h) ?_
        extract_lets n s1 s2 s3 nc cy s4 s5 s6
        have h3 : s₀.Keeps s3 := .locWrite (.locWrite (.locWrite h))
        have h5 : s₀.Keeps s5 := .chargeCtx (.chargeCtx h3 fun _ _ _ => .chargeArray) fun _ _ _ => .chargeVector
        exact .ok (.onCtx (.ite (.chargeCtx h5 fun _ _ _ => .chargeDram) h3))

theorem State.Keeps.setPartRow {x : Ctx} {d : Bytes} {i : Nat} {r : PartRow} (h : s₀.Keeps s) : s₀.Keeps (s.setPartRow x d i r) :=
  .locWrite (.locWrite (.locWrite h))

theorem State.Keeps.attnBlock {x : Ctx} {d p : Bytes} {b : Block} (h : s₀.Keeps s) : s₀.Keeps (s.attnBlock x d p b).2 :=
  .foldlSnd h fun _ _ => .setPartRow

theorem State.Keeps.consumePage {id : Nat} {d : Bytes} {i : Nat} (h : s₀.Keeps s) : s₀.Keeps (s.consumePage id d i) := by
  unfold State.consumePage
  split
  · exact h
  · split
    · exact h
    · split
      · exact h
      · refine .onCtx (.foldlSnd h fun _ _ h => ?_)
        extract_lets blk o cy s1 s2
        have h2 : s₀.Keeps s2 := .chargeCtx (.chargeCtx (.attnBlock h) fun _ _ _ => .chargeArray) fun _ _ _ => .chargeVector
        exact .pairSnd (.chargeCtx h2 fun _ _ _ => .chargeDram)

theorem State.Keeps.attnResidue {x : Ctx} {c : Nat} {v : Int} {t : State} (h : s₀.Keeps s) (e : s.attnResidue x c v = some t) :
    s₀.Keeps t := by
  obtain ⟨det, -, rfl⟩ := Option.map_eq_some_iff.1 e
  exact .raise (.bumpSat (.injectResidue h))

theorem State.Keeps.takePageOf {x : Ctx} {d : Bytes} {i : Nat} (h : s₀.Keeps s) : s₀.Keeps (s.takePageOf x d i) := by
  unfold State.takePageOf
  split
  · exact h
  · refine .accessing h fun t h => ?_
    cases e : t.attnResidue x _ (t.firstScore x d i) with
    | none => exact .consumePage h
    | some u => exact .attnResidue h e

theorem State.Keeps.consumeQueued {id : Nat} {d : Bytes} (h : s₀.Keeps s) : s₀.Keeps (s.consumeQueued id d) := by
  unfold State.consumeQueued
  split
  · exact h
  · refine .onCtx (.foldl h fun _ _ h => ?_)
    split
    · exact .ite h (.takePageOf h)
    · exact h

theorem State.Keeps.attnGoesOn {id : Nat} (h : s₀.Keeps s) : s₀.Keeps (s.attnGoesOn id) := by
  unfold State.attnGoesOn
  split
  · exact .ite h (.consumeQueued h)
  · exact h

theorem State.Keeps.giveBack {c : Nat} (h : s₀.Keeps s) : s₀.Keeps (s.giveBack c) := .foldl (.returnEngines h) fun _ _ => .attnGoesOn

theorem State.Keeps.kvEmit {c k : Nat} (h : s₀.Keeps s) : s₀.Keeps (s.kvEmit c k) := by
  unfold State.kvEmit
  split
  · exact h
  · split
    · exact .ite h (.attnGoesOn (.onCtx h))
    · exact h

theorem State.Keeps.scorePages {x : Ctx} {d : Bytes} {w : Walk} {rows : List PartRow} (h : s₀.Keeps s) :
    s₀.Keeps (s.scorePages x d w rows) :=
  .ite (.foldl h fun _ _ => .onPte) h

theorem State.Keeps.readingRows {x : Ctx} {d : Bytes} {run : State → State} (h : s₀.Keeps s)
    (hrun : ∀ t, s₀.Keeps t → s₀.Keeps (run t)) : s₀.Keeps (s.readingRows x d run) := by
  unfold State.readingRows
  split
  · exact .accessing h fun _ h => hrun _ h
  · exact hrun _ h

theorem State.Keeps.attnComplete {x : Ctx} {d : Bytes} (h : s₀.Keeps s) : s₀.Keeps (s.attnComplete x d) := by
  unfold State.attnComplete
  refine .readingRows h fun _ h => ?_
  split
  · exact h
  · exact .onCtx (.chargeCtx (.ite (.locWrite (.scorePages h)) (.scorePages h)) fun _ _ _ => .chargeVector)

theorem State.Keeps.combineDone {x : Ctx} {idx : Nat} {rows : List PartRow} {d : Bytes} (h : s₀.Keeps s) :
    s₀.Keeps (s.combineDone x idx rows d) := by
  unfold State.combineDone
  split
  · exact h
  · refine .onCtx ?_
    split
    · exact .locWrite (.onSch h)
    · exact .onCtx (.onSch h)

theorem State.Keeps.combinePart {c k : Nat} (h : s₀.Keeps s) : s₀.Keeps (s.combinePart c k) := by
  unfold State.combinePart
  split
  · exact h
  · split
    · refine .ite h (.readingRows h fun _ h => ?_)
      extract_lets _ s1 s2
      have h2 : s₀.Keeps s2 := .onSch (.onCtx h) fun _ => .ite .plain .plain
      split
      · exact .ite (.combineDone h2) h2
      · exact h2
    · exact h

end Sys2Proof.Machine
end

section
/-! PROOF. What each operation keeps of jobs, runs, contexts, records and folios. -/

namespace Sys2Proof.Machine

set_option Elab.async false

variable {s₀ s : State}

/-! ### Jobs and their ends -/

theorem State.Keeps.poolTake {bytes refs : Nat} {owner : PoolOwner} {r : Nat × State} (h : s₀.Keeps s)
    (e : s.poolTake bytes owner refs = some r) : s₀.Keeps r.2 := by
  unfold State.poolTake at e
  dsimp only at e
  split at e
  · cases e
  · cases e
    dsimp only
    exact .onAcc h

theorem State.Keeps.poolWaits {owner : PoolOwner} (h : s₀.Keeps s) : s₀.Keeps (s.poolWaits owner) := .onAcc h

theorem State.Keeps.poolDone {p : PoolOwner → Bool} (h : s₀.Keeps s) : s₀.Keeps (s.poolDone p) := .onAcc h

theorem State.Keeps.sweepPools (h : s₀.Keeps s) : s₀.Keeps s.sweepPools := by
  unfold State.sweepPools
  exact .onAcc (.onCol h)

theorem State.Keeps.onRefs {addr : Nat} {f : Nat → Nat} (h : s₀.Keeps s) : s₀.Keeps (s.onRefs addr f) := by
  unfold State.onRefs
  exact .onCol (.onAcc h)

theorem State.Keeps.dropRefs {addrs : List Nat} (h : s₀.Keeps s) : s₀.Keeps (s.dropRefs addrs) :=
  .sweepPools (.foldl h fun _ _ => .onRefs)

theorem State.Keeps.dropPageBuffers {number idx : Nat} {planes : List Nat} (h : s₀.Keeps s) :
    s₀.Keeps (s.dropPageBuffers number idx planes) :=
  .sweepPools (.foldl (.onAcc h) fun _ _ => .onRefs)

theorem State.Keeps.endCtx {id : Nat} (h : s₀.Keeps s) : s₀.Keeps (s.endCtx id) := by
  unfold State.endCtx
  split
  · exact h
  · extract_lets s1 s2 s3 s4
    have h1 : s₀.Keeps s1 := by
      dsimp only [s1]
      split
      · exact .emptySlot h
      · exact h
    have h3 : s₀.Keeps s3 := .onAcc (.onSch h1)
    refine .dropRefs ?_
    dsimp only [s4]
    split
    · exact .giveBack h3
    · exact h3

theorem State.Keeps.retirePage {number idx : Nat} (h : s₀.Keeps s) : s₀.Keeps (s.retirePage number idx) := .onKv h

theorem State.Keeps.leaveBatch {number idx : Nat} (h : s₀.Keeps s) : s₀.Keeps (s.leaveBatch number idx) := .onAcc h

theorem State.Keeps.dropPlan {j : Job} (h : s₀.Keeps s) : s₀.Keeps (s.dropPlan j) := by
  unfold State.dropPlan
  split
  · exact h
  · exact .onJob (.foldl h fun _ _ => .onJobNum)

theorem State.Keeps.abandonStep {slot : Nat} (h : s₀.Keeps s) : s₀.Keeps (s.abandonStep slot) := .onSeq h

theorem State.Keeps.releaseJob {slot : Nat} (h : s₀.Keeps s) : s₀.Keeps (s.releaseJob slot) := by
  unfold State.releaseJob
  split
  · exact h
  · extract_lets mine others s1 s2 s3 s4 claimed s5 s6 s7 s8 s9 s10
    have h3 : s₀.Keeps s3 := .foldl (.foldl (.foldl h fun _ _ => .endCtx) fun _ _ => .abandonStep) fun _ _ => .releaseSeq
    have h6 : s₀.Keeps s6 := .sweepPools (.poolDone (.foldl (.onAcc (.onSch h3)) fun _ _ => .onRefs))
    exact .dropPlan (.onRings (.onSec (.onCol (.onFol h6))))

theorem State.Keeps.closeJob {slot status flags detail : Nat} (h : s₀.Keeps s) : s₀.Keeps (s.closeJob slot status flags detail) := by
  unfold State.closeJob
  split
  · exact h
  · exact .releaseCancels (.endJob (.releaseJob h))

theorem State.Keeps.jobEndCheck {slot : Nat} (h : s₀.Keeps s) : s₀.Keeps (s.jobEndCheck slot) := by
  unfold State.jobEndCheck
  split
  · exact h
  · exact .ite (.closeJob h) h

theorem State.Keeps.endSequence {slot idx sample status flags amount detail : Nat} (h : s₀.Keeps s) :
    s₀.Keeps (s.endSequence slot idx sample status flags amount detail) := by
  unfold State.endSequence
  split
  · exact h
  · exact .ite h (.jobEndCheck (.poolDone (.leaveBatch (.dropPageBuffers (.retirePage (.seqRecord h))))))

theorem State.Keeps.jobTeardown {slot : Nat} (h : s₀.Keeps s) : s₀.Keeps (s.jobTeardown slot) := by
  unfold State.jobTeardown
  split
  · exact h
  · exact .ite (.bumpSat (.closeJob h)) h

theorem State.Keeps.cancelOne {j : Job} (h : s₀.Keeps s) : s₀.Keeps (s.cancelOne j) := .ite (.closeJob h) (.onRings h)

theorem State.Keeps.cancelDesc {n : Nat} {d : Bytes} (h : s₀.Keeps s) : s₀.Keeps (s.cancelDesc n d) :=
  .releaseCancels (.onRings (.foldl h fun _ _ => .cancelOne))

theorem State.Keeps.cancel {n : Nat} (h : s₀.Keeps s) : s₀.Keeps (s.cancel n) := .beginDesc h fun _ _ _ => .cancelDesc

/-! ### Catalogs -/

theorem State.Keeps.onCat {slot : Nat} {f : CatSeq → CatSeq} (h : s₀.Keeps s) : s₀.Keeps (s.onCat slot f) := .onSeq h

theorem State.Keeps.deliver {j : Job} {idx lo hi : Nat} {emitted : List (Byte × BitVec 16)} {fields : List (Nat × Nat)} {redo : List Nat}
    (h : s₀.Keeps s) : s₀.Keeps (s.deliver j idx lo hi emitted fields redo) := by
  unfold State.deliver
  extract_lets _ _ _ s1 _ _ s2 _
  have h1 : s₀.Keeps s1 := .ite h (.chargePcie (.hostWrite h))
  have h2 : s₀.Keeps s2 := .foldl h1 fun _ _ h => .chargePcie (.hostWrite h)
  exact .ite h1 (.ite h2 (.chargePcie (.hostWrite h2)))

theorem State.Keeps.catEnd {slot status detail n : Nat} (h : s₀.Keeps s) : s₀.Keeps (s.catEnd slot status detail n) := by
  unfold State.catEnd
  split
  · exact h
  · split
    · exact .endSequence (.ite (.bumpSat (.deliver h)) (.ite (.bumpSat (.deliver h)) (.deliver h)))
    · exact h

theorem State.Keeps.catMask {slot : Nat} (h : s₀.Keeps s) : s₀.Keeps (s.catMask slot) := by
  unfold State.catMask
  split
  · exact h
  · split
    · exact .catEnd h
    · exact .ite (.onCat (.bumpSat h)) (.onCat h)
    · exact .onCat h

theorem State.Keeps.catAdvance {slot : Nat} (h : s₀.Keeps s) : s₀.Keeps (s.catAdvance slot) := by
  unfold State.catAdvance
  split
  · exact h
  · split
    · split
      · exact h
      · refine .ite h ?_
        split
        · exact h
        · refine .ite (.catEnd (.onCat (.ite (.bumpSat (.charge h)) (.charge h)))) ?_
          dsimp only
          split
          · exact .catEnd (.onCat (.ite (.bumpSat (.charge h)) (.charge h)))
          · exact .catEnd (.onCat (.ite (.bumpSat (.charge h)) (.charge h)))
          · exact .catMask (.onCat (.deliver (.ite (.bumpSat (.charge h)) (.charge h))))
    · exact h

theorem State.Keeps.tokenChoice {slot : Nat} (h : s₀.Keeps s) : s₀.Keeps (s.tokenChoice slot) := by
  unfold State.tokenChoice
  split
  · exact h
  · split
    · split
      · exact .ite h (.ite (.onCat h) (.onCat (.bumpSat h)))
      · exact h
    · exact h

theorem Eff.Keeps.cathand {c : Nat} {x : Ctx} {d : Bytes} (h : s₀.Keeps s) : Eff.Keeps s₀ (s.cathand c x d) := by
  unfold State.cathand
  split
  · exact .scratchErr h
  · exact .touching h fun _ h => .ok (.foldl h fun _ _ => .onCat)

/-! ### Runs and the grant of sequences -/

theorem State.Keeps.runBlock {d : Bytes} {f : Folio} {given : Bytes} (h : s₀.Keeps s) : s₀.Keeps (s.runBlock d f given).2 :=
  .iteSnd (.chargePcie (.fetchHost h)) h

theorem State.Keeps.runDesc {n : Nat} {given : Bytes} (h : s₀.Keeps s) : s₀.Keeps (s.runDesc n given) := by
  unfold State.runDesc
  refine .beginDesc h fun _ _ _ h => ?_
  split
  · exact h
  · split
    · exact .ite (.finishDesc (.drawBytes h)) (.finishDesc h)
    · split
      · exact h
      · refine .ite (.onJob h) ?_
        dsimp only
        split
        · exact .finishDesc (.runBlock h)
        · exact .onJob (.runBlock h)

theorem State.Keeps.refuseBound {slot detail : Nat} (h : s₀.Keeps s) : s₀.Keeps (s.refuseBound slot detail) := .closeJob (.bumpSat h)

theorem State.Keeps.lcAdmission {slot now : Nat} (h : s₀.Keeps s) : s₀.Keeps (s.lcAdmission slot now) := by
  unfold State.lcAdmission
  split
  · exact h
  · refine .ite h ?_
    split
    · exact h
    · refine .ite (.refuseBound (.drawBytes (.advance h))) ?_
      split
      · exact .refuseBound (.advance h)
      · exact .onJob (.foldl (.advance h) fun _ _ => .onJobNum)

theorem State.Keeps.takeHeldOk {j : Job} {f : Folio} {id kind : Nat} {r : Planes × State} (h : s₀.Keeps s)
    (e : s.takeHeld j f id kind = .ok r) : s₀.Keeps r.2 := by
  unfold State.takeHeld at e
  split at e
  · split at e <;> cases e
    dsimp only
    exact .onRefs (.onAcc h)
  · split at e
    · cases e
    · split at e <;> try cases e
      split at e <;> cases e
      dsimp only
      exact .onRefs (.onAcc h)

theorem State.Keeps.startCat {f : Folio} {j : Job} {i slot : Nat} (h : s₀.Keeps s) : s₀.Keeps (s.startCat f j i slot) := by
  unfold State.startCat
  refine .ite h ?_
  split
  · exact h
  · exact .catMask (.onSeq h)

theorem State.Keeps.formUpTo {j : Job} {i fuel : Nat} (h : s₀.Keeps s) : s₀.Keeps (State.formUpTo j i fuel s) := by
  induction fuel generalizing s with
  | zero => exact h
  | succ fuel ih =>
    unfold State.formUpTo
    exact .ite h (ih (.onAcc h))

theorem State.Keeps.formBatch {j : Job} {f : Folio} {i : Nat} (h : s₀.Keeps s) : s₀.Keeps (s.formBatch j f i) := .ite h (.formUpTo h)

theorem State.Keeps.grantPage {j : Job} {f : Folio} {i : Nat} {slots tables : List Nat} (h : s₀.Keeps s) :
    s₀.Keeps (s.grantPage j f i slots tables) := by
  unfold State.grantPage
  extract_lets s1 geom id first place s2 s3
  have h1 : s₀.Keeps s1 := .kvTick (.onJob h)
  have h2 : s₀.Keeps s2 := .formBatch h1
  have h3 : s₀.Keeps s3 := .ite (.chargeDram h2) h2
  have hplace : ∀ t pl, s₀.Keeps t → s₀.Keeps (place t pl) := fun t pl h => by
    dsimp only [place]
    split
    · exact .ite (.endSequence (.onKv h)) (.startCat (.onKv h))
    · exact .startCat (.onKv h)
  refine .ite (hplace s1 none h1) ?_
  split <;> rename_i e
  · exact .endSequence h3
  · exact hplace _ (some _) (.takeHeldOk h3 e)

theorem State.Keeps.grantSide {tables : List Nat} (h : s₀.Keeps s) : s₀.Keeps (s.grantSide tables) := by
  unfold State.grantSide
  split
  · exact h
  · split
    · exact h
    · split
      · exact .grantPage h
      · exact h

theorem State.Keeps.grantRow {slot : Nat} {tables : List Nat} (h : s₀.Keeps s) : s₀.Keeps (s.grantRow slot tables) := by
  unfold State.grantRow
  split
  · exact h
  · split
    · split
      · exact h
      · exact .ite h (.onAcc (.onKv (.kvTick h)))
    · exact h

theorem State.Keeps.seqSlotGrant {row : Bool} {slot : Nat} {tables : List Nat} (h : s₀.Keeps s) :
    s₀.Keeps (s.seqSlotGrant row slot tables) :=
  .ite h (.ite (.grantRow h) (.grantSide h))

theorem State.Keeps.closeStep {slot : Nat} (h : s₀.Keeps s) : s₀.Keeps (s.closeStep slot) := by
  unfold State.closeStep
  dsimp only
  split
  · exact .kvTick h
  · exact .ite (.onSeq (.kvTick h)) (.onSeq (.kvTick h))

theorem State.Keeps.stepRunEnds {slot : Nat} (h : s₀.Keeps s) : s₀.Keeps (s.stepRunEnds slot) := by
  unfold State.stepRunEnds
  split
  · exact h
  · exact .ite h (.ite (.closeStep h) (.onSeq h))

theorem State.Keeps.countRun {x : Ctx} {g : Stage} (h : s₀.Keeps s) : s₀.Keeps (s.countRun x g) := by
  unfold State.countRun
  refine .foldl h fun _ _ h => ?_
  split
  · exact h
  · exact .slowCheck (.onJob h)

theorem State.Keeps.idleCtx {id : Nat} (h : s₀.Keeps s) : s₀.Keeps (s.idleCtx id) := .dropRefs (.onCtx h)

theorem State.Keeps.noteDone {x : Ctx} {g : Stage} (h : s₀.Keeps s) : s₀.Keeps (s.noteDone x g) := by
  unfold State.noteDone
  exact .onKv h

theorem State.Keeps.rowEncoded {number batch stage : Nat} (h : s₀.Keeps s) : s₀.Keeps (s.rowEncoded number batch stage) := by
  unfold State.rowEncoded
  split
  · exact h
  · dsimp only
    split
    · exact .ite (.dropRefs (.onAcc h)) (.onAcc h)
    · exact .onAcc h

theorem State.Keeps.rowEnds {x : Ctx} {g : Stage} {slot : Nat} (h : s₀.Keeps s) : s₀.Keeps (s.rowEnds x g slot) := by
  unfold State.rowEnds
  split
  · exact h
  · exact .ite (.releaseSeq (.rowEncoded h)) h

theorem State.Keeps.pageChecks {number stage : Nat} (h : s₀.Keeps s) : s₀.Keeps (s.pageChecks number stage) := by
  unfold State.pageChecks
  split
  · exact h
  · split
    · exact h
    · exact .foldl h fun _ _ h => .ite (.endSequence h) (.ite (.endSequence h) h)

theorem State.Keeps.runEnds {x : Ctx} (h : s₀.Keeps s) : s₀.Keeps (s.runEnds x) := by
  unfold State.runEnds
  split
  · exact .endCtx h
  · extract_lets _ _ s1 s2 _ _
    have h1 : s₀.Keeps s1 := .ite (.idleCtx (.noteDone (.countRun h))) (.endCtx (.noteDone (.countRun h)))
    have h2 : s₀.Keeps s2 := .ite (.foldl h1 fun _ _ => .stepRunEnds) h1
    refine .foldl (.foldl (.ite (.foldl h2 fun _ _ => .rowEnds) h2) fun _ _ => .pageChecks) fun _ _ h => ?_
    split
    · exact .jobEndCheck h
    · exact h

theorem State.Keeps.dmaServed {c : Nat} {x : Ctx} (h : s₀.Keeps s) : s₀.Keeps (s.dmaServed c x) := .onSch h

theorem State.Keeps.commandComplete {c k idx now : Nat} (h : s₀.Keeps s) : s₀.Keeps (s.commandComplete c k idx now) := by
  unfold State.commandComplete
  split
  · exact h
  · split
    · exact h
    · extract_lets pair s1 s2 s3 s4 s5
      have h2 : s₀.Keeps s2 := .ite (.dmaServed (.advance h)) (.advance h)
      have h3 : s₀.Keeps s3 := .ite (.attnComplete h2) h2
      have h5 : s₀.Keeps s5 := .giveBack (.onCtx h3)
      refine .ite h (.ite h3 ?_)
      split
      · exact .ite (.runEnds h5) h5
      · exact h5

/-- Either answer of `takeBuffers` or `takeAll` holds a state that keeps the forms. -/
def KeepsExcept (s₀ : State) : Except (PoolOwner × State) State → Prop
  | .ok s => s₀.Keeps s
  | .error e => s₀.Keeps e.2

/-! ### Contexts and their switches -/

theorem State.Keeps.takeBuffersEither {f : Folio} {stage : Nat} {page : Nat × Nat} (h : s₀.Keeps s) :
    KeepsExcept s₀ (s.takeBuffers f stage page) := by
  unfold State.takeBuffers
  refine List.foldlRecOn (motive := KeepsExcept s₀) _ _ h fun acc hacc b _ => ?_
  split
  · exact hacc
  · dsimp only
    split
    · exact hacc
    · split <;> rename_i e
      · exact .poolDone (.poolTake hacc (Option.ite_none_right_eq_some.1 e).2)
      · exact hacc

theorem State.Keeps.deferRest {f : Folio} {g : Stage} {p : CtxPlan} {cl : Bool} {batch : List Nat} (h : s₀.Keeps s) :
    s₀.Keeps (s.deferRest f g p cl batch) :=
  .foldl h fun _ _ => .onSeq

theorem State.Keeps.openSteps {g : Stage} {parts : Nat} {key : Nat × Nat × Nat} {wing : Nat} {batch : List (Nat × Option (Nat × Nat))}
    (h : s₀.Keeps s) : s₀.Keeps (s.openSteps g parts key wing batch) :=
  .foldl (.kvTick h) fun _ _ => .onSeq

theorem State.Keeps.seat {id c k units : Nat} (h : s₀.Keeps s) : s₀.Keeps (s.seat id c k units) :=
  .onCtx (.onCarrel h (fun _ => cellsFrom_filter _ _) fun r hr => by simpa using hr)

theorem State.Keeps.noteSpillNeed {b n number : Nat} (h : s₀.Keeps s) : s₀.Keeps (s.noteSpillNeed b n number) := .onSch h

theorem State.Keeps.freeFill {x : Ctx} {lo hi : Nat} (h : s₀.Keeps s) : s₀.Keeps (s.freeFill x lo hi) := .locWrite (.drawBytes h)

theorem State.Keeps.switchOut {id : Nat} (h : s₀.Keeps s) : s₀.Keeps (s.switchOut id) := by
  unfold State.switchOut
  split
  · exact h
  · split
    · exact .accessing (.savePass h) fun _ h => .chargeWait (.giveBack (.onCtx (.emptySlot (.kvTick (.onShelf h)))))
    · exact h

theorem State.Keeps.bringImage {x : Ctx} {b : Nat} {t : State} (h : s₀.Keeps s) (e : s.bringImage x b = some t) : s₀.Keeps t := by
  unfold State.bringImage at e
  split at e
  · cases e
    exact h
  · split at e
    · cases e
      exact h
    · obtain ⟨a, -, rfl⟩ := Option.map_eq_some_iff.1 e
      dsimp only
      exact .onCtx (.onAcc (.onShelf h fun m => Mem.write_wf _ m a))

theorem State.Keeps.switchIn {id c k : Nat} (h : s₀.Keeps s) : s₀.Keeps (s.switchIn id c k) := by
  unfold State.switchIn
  split
  · exact h
  · dsimp only
    split
    · exact .onCtx (.seat h)
    · exact .giveBack (.freeFill (.locWrite (.onCtx (.seat h))))

theorem State.Keeps.beginSwitch {c k : Nat} {leaving entering : Option Nat} {sOut sIn : Nat} (h : s₀.Keeps s) :
    s₀.Keeps (s.beginSwitch c k leaving entering sOut sIn) :=
  .onCarrel (.ite (.bumpSat h) h)

theorem State.Keeps.spillMove {b : Nat} (h : s₀.Keeps s) : s₀.Keeps (s.spillMove b) := by
  unfold State.spillMove
  refine .ite h ?_
  split
  · exact h
  · split <;> rename_i e
    · obtain ⟨i, -, e⟩ := Option.bind_eq_some_iff.1 e
      exact .onCtx (.dramWrite (.poolTake h e))
    · exact h

theorem State.Keeps.putList {p : CtxPlan} {bay : Nat} (h : s₀.Keeps s) : s₀.Keeps (s.putList p bay) :=
  .ite h (.ite (.onShelf h) (.dramWrite h))

theorem State.Keeps.noteRun {f : Folio} {g : Stage} {p : CtxPlan} {number : Nat} (h : s₀.Keeps s) : s₀.Keeps (s.noteRun f g p number) :=
  .foldl (.foldl (.ite h (.bumpSat h)) fun _ _ => .onJob) fun _ _ => .onJob

theorem State.Keeps.drawBank (h : s₀.Keeps s) : s₀.Keeps s.drawBank.2 := .plain h

theorem State.Keeps.startRun {g : Stage} {p : CtxPlan} {wing : Nat} {batch : List (Nat × Option (Nat × Nat))} (h : s₀.Keeps s) :
    s₀.Keeps (s.startRun g p wing batch) :=
  .ite (.openSteps h) h

theorem State.Keeps.waitsFor {number : Nat} {p : CtxPlan} {g : Stage} {lc : Bool} (h : s₀.Keeps s) :
    s₀.Keeps (s.waitsFor number p g lc) :=
  .onSch h

theorem State.Keeps.waitsNoMore {number : Nat} {p : CtxPlan} {g : Stage} (h : s₀.Keeps s) : s₀.Keeps (s.waitsNoMore number p g) :=
  .onSch h

theorem State.Keeps.placeNew {j : Job} {f : Folio} {g : Stage} {p : CtxPlan} {lc over_ : Bool} {c k : Nat}
    {batch : List (Nat × Option (Nat × Nat))} (h : s₀.Keeps s) : s₀.Keeps (s.placeNew j f g p lc over_ c k batch).1 := by
  unfold State.placeNew
  extract_lets b s1 cl batch' s2 p' pages id expand x s3 s4 s5 s6 s7
  have h2 : s₀.Keeps s2 := .ite (.deferRest (.waitsNoMore h)) (.waitsNoMore h)
  have h3 : s₀.Keeps s3 := .onSch (.putList (.drawBank h2))
  have h4 : s₀.Keeps s4 := .ite h3 (.onJob h3)
  have h5 : s₀.Keeps s5 := .ite (.foldl h4 fun _ _ h => by split <;> [exact .onSeq h; exact h]) h4
  exact .pairFst (.startRun (.noteRun (.seat h5)))

theorem State.Keeps.takeAllEither {f : Folio} {stage : Nat} {pages : List (Nat × Nat)} (h : s₀.Keeps s) :
    KeepsExcept s₀ (s.takeAll f stage pages) := by
  unfold State.takeAll
  refine List.foldlRecOn (motive := KeepsExcept s₀) _ _ h fun acc hacc page _ => ?_
  cases acc with
  | error e => exact hacc
  | ok t => exact State.Keeps.takeBuffersEither hacc

theorem State.Keeps.takeAllOk {f : Folio} {stage : Nat} {pages : List (Nat × Nat)} {t : State} (h : s₀.Keeps s)
    (e : s.takeAll f stage pages = .ok t) : s₀.Keeps t := by
  have := h.takeAllEither (f := f) (stage := stage) (pages := pages)
  rw [e] at this
  exact this

theorem State.Keeps.takeAllError {f : Folio} {stage : Nat} {pages : List (Nat × Nat)} {r : PoolOwner × State} (h : s₀.Keeps s)
    (e : s.takeAll f stage pages = .error r) : s₀.Keeps r.2 := by
  have := h.takeAllEither (f := f) (stage := stage) (pages := pages)
  rw [e] at this
  exact this

theorem State.Keeps.placeFirst {j : Job} {f : Folio} {g : Stage} {p : CtxPlan} (h : s₀.Keeps s) : s₀.Keeps (s.placeFirst j f g p) := by
  unfold State.placeFirst
  dsimp only
  split
  · exact h
  · split
    · rename_i eq2
      exact .poolWaits (.takeAllError h eq2)
    · rename_i eq2
      split
      · exact .waitsFor (.onAcc h)
      · exact .noteSpillNeed (.waitsFor (.onAcc h))
      · exact .ite (.onAcc h) (.placeNew (.takeAllOk h eq2))
      · exact .ite (.onAcc h) (.ite (.switchOut (.takeAllOk h eq2)) (.beginSwitch (.placeNew (.switchOut (.takeAllOk h eq2)))))

theorem State.Keeps.moveBay {x : Ctx} {b : Nat} (h : s₀.Keeps s) : s₀.Keeps (s.moveBay x b) := by
  unfold State.moveBay
  split
  · exact h
  · split
    · exact h
    · exact .onCtx (.onShelf (.drawBytes h))

theorem State.Keeps.resumeOn {x : Ctx} {c k : Nat} {leaving : Option Nat} (h : s₀.Keeps s) : s₀.Keeps (s.resumeOn x c k leaving) := by
  unfold State.resumeOn
  extract_lets sIn sOut
  split <;> rename_i e
  · exact h
  · extract_lets s1 s2
    have h1 : s₀.Keeps s1 := .ite (.bringImage h e) (.moveBay (.bringImage h e))
    have h2 : s₀.Keeps s2 := by
      dsimp only [s2]
      split
      · exact .switchOut h1
      · exact h1
    exact .ite h2 (.onSch (.beginSwitch (.switchIn h2)))

theorem State.Keeps.resume {j : Job} {f : Folio} {g : Stage} {x : Ctx} (h : s₀.Keeps s) : s₀.Keeps (s.resume j f g x) := by
  unfold State.resume
  refine .ite h ?_
  dsimp only
  split
  · exact h
  · exact .noteSpillNeed h
  · exact .ite h (.resumeOn h)
  · exact .resumeOn h

theorem State.Keeps.leaveBay {f : Folio} {g : Stage} {x : Ctx} {c k : Nat} (h : s₀.Keeps s) : s₀.Keeps (s.leaveBay f g x c k) :=
  .ite h (.ite (.ite (.switchOut h) (.beginSwitch (.switchOut h))) (.noteSpillNeed h))

theorem State.Keeps.nextRun {j : Job} {f : Folio} {g : Stage} {p : CtxPlan} {x : Ctx} {c : Nat} (h : s₀.Keeps s) :
    s₀.Keeps (s.nextRun j f g p x c) := by
  unfold State.nextRun
  dsimp only
  split
  · exact h
  · refine .ite h ?_
    split
    · rename_i eq4
      exact .poolWaits (.takeAllError h eq4)
    · rename_i eq4
      exact .startRun (.noteRun (.onCtx (.putList (.deferRest (.takeAllOk h eq4)))))

theorem State.Keeps.refuseRange {j : Job} {f : Folio} {g : Stage} {p : CtxPlan} {t : State} (h : s₀.Keeps s)
    (e : s.refuseRange j f g p = some t) : s₀.Keeps t := by
  unfold State.refuseRange at e
  split at e
  · split at e
    · obtain ⟨-, e⟩ := Option.ite_none_right_eq_some.1 e
      cases e
      exact .endSequence h
    · cases e
  · cases e

theorem State.Keeps.contextPlace {p : CtxPlan} (h : s₀.Keeps s) : s₀.Keeps (s.contextPlace p) := by
  unfold State.contextPlace
  split
  · exact h
  · split
    · exact h
    · split
      · exact h
      · refine .ite h ?_
        dsimp only
        split
        · split
          · rename_i eq6
            exact .refuseRange h eq6
          · exact .placeFirst h
        · split
          · exact .resume h
          · exact .ite h (.ite (.leaveBay h) (.ite (.nextRun h) h))

theorem State.Keeps.contextSwitchDone {c : Nat} (h : s₀.Keeps s) : s₀.Keeps (s.contextSwitchDone c) := by
  unfold State.contextSwitchDone
  split
  · exact h
  · dsimp only
    split
    · exact .onCarrel h
    · split
      · exact .onCarrel h
      · exact .onCtx (.locWrite (.onCarrel h))

/-! ### Lanes and records -/

theorem State.Keeps.failRecord {slot idx sample status detail : Nat} (h : s₀.Keeps s) :
    s₀.Keeps (s.failRecord slot idx sample status detail) :=
  .endSequence (.ite (.bumpSat h) (.ite (.bumpSat h) h))

theorem State.Keeps.framingLost {j : Job} {detail : Nat} (h : s₀.Keeps s) : s₀.Keeps (s.framingLost j detail) :=
  .foldl (.onJob h) fun _ _ h => .ite h (.failRecord h)

theorem State.Keeps.setLane {k : Nat} {r : Option LaneRec} (h : s₀.Keeps s) : s₀.Keeps (s.setLane k r) := .onAcc h

theorem State.Keeps.nameSequence {number idx sample : Nat} (h : s₀.Keeps s) : s₀.Keeps (s.nameSequence number idx sample) := .onKv h

theorem State.Keeps.hadTurn {kind : Nat} {j : Job} (h : s₀.Keeps s) : s₀.Keeps (s.hadTurn kind j) := .onAcc h

theorem State.Keeps.toLane {j : Job} {f : Folio} (h : s₀.Keeps s) : s₀.Keeps (s.toLane j f) := by
  unfold State.toLane
  split
  · exact h
  · extract_lets kind owner waits s1 p
    split
    · exact h
    · refine .ite h ?_
      have h1 : s₀.Keeps s1 := .ite h (.hadTurn h)
      split <;> rename_i e
      · exact .poolWaits h1
      · exact .setLane (.chargePcie (.nameSequence (.onJob (.poolDone (.formBatch
          (.poolTake h1 (Option.ite_none_right_eq_some.1 e).2))))))

theorem State.Keeps.walkRecord {j : Job} {buf : Bytes} (h : s₀.Keeps s) : s₀.Keeps (s.walkRecord j buf) := by
  unfold State.walkRecord
  refine .ite h ?_
  dsimp only
  split
  · exact .framingLost (.hostRead h)
  · refine .ite (.onJob (.hostRead h)) ?_
    split
    · exact .failRecord (.chargePcie (.onJob (.hostRead h)))
    · exact .onJob (.hostRead (.hostRead h))

theorem State.Keeps.recordDispatch {slot : Nat} {buf : Bytes} (h : s₀.Keeps s) : s₀.Keeps (s.recordDispatch slot buf) := by
  unfold State.recordDispatch
  split
  · exact h
  · split
    · exact h
    · refine .ite h ?_
      dsimp only
      split
      · exact .ite (.toLane (.walkRecord h)) (.walkRecord h)
      · exact .walkRecord h

theorem State.Keeps.keepPage {j : Job} {r : LaneRec} (h : s₀.Keeps s) : s₀.Keeps (s.keepPage j r) := .ite (.onAcc h) h

theorem State.Keeps.laneFree {lane cycles client : Nat} (h : s₀.Keeps s) : s₀.Keeps (s.laneFree lane cycles client) :=
  .charge (.setLane h)

theorem State.Keeps.returnRecord {r : LaneRec} (h : s₀.Keeps s) : s₀.Keeps (s.returnRecord r) := .sweepPools (.onRefs h)

theorem State.Keeps.recordDecoded {lane : Nat} (h : s₀.Keeps s) : s₀.Keeps (s.recordDecoded lane) := by
  unfold State.recordDecoded
  split
  · exact h
  · split
    · exact .setLane h
    · refine .ite h ?_
      extract_lets d s1
      have h1 : s₀.Keeps s1 := .laneFree (.drawBytes h)
      split
      · exact .failRecord (.returnRecord h1)
      · refine .ite (.failRecord (.returnRecord h1)) ?_
        extract_lets s2 s3
        have h3 : s₀.Keeps s3 := .keepPage (.chargeDram (.dramWrite h1))
        split
        · exact h3
        · extract_lets s4 first s5
          have h5 : s₀.Keeps s5 := .onSeq (.onRefs h3)
          exact .ite (.endSequence h5) (.ite (.dropPageBuffers h5) h5)

theorem State.Keeps.budgetExpiry {lane rows : Nat} (h : s₀.Keeps s) : s₀.Keeps (s.budgetExpiry lane rows) := by
  unfold State.budgetExpiry
  split
  · exact h
  · exact .ite h (.failRecord (.returnRecord (.laneFree h)))

theorem State.Keeps.keepDrop (h : s₀.Keeps s) : s₀.Keeps s.keepDrop := .ite h (.sweepPools (.foldl (.onAcc h) fun _ _ => .onRefs))

theorem State.Keeps.cropPixel {p : Option Planes} {x y : Nat} (h : s₀.Keeps s) : s₀.Keeps (s.cropPixel p x y).2 := by
  unfold State.cropPixel
  split
  · exact .iteSnd h (.drawBytes h)
  · exact .drawBytes h

theorem State.Keeps.cropPosition {p : Option Planes} {x y : Nat} (h : s₀.Keeps s) : s₀.Keeps (s.cropPosition p x y).2 := by
  unfold State.cropPosition
  exact .foldlSnd h fun _ _ h => .pairSnd (.cropPixel h)

theorem State.Keeps.cropSegment {number : Nat} {g : Segment} (h : s₀.Keeps s) : s₀.Keeps (s.cropSegment number g).2 := by
  unfold State.cropSegment
  exact .foldlSnd h fun _ _ h => .pairSnd (.cropPosition h)

theorem State.Keeps.writeRow {number batch addr row : Nat} {blank : Bytes} {segs : List Segment} (h : s₀.Keeps s) :
    s₀.Keeps (s.writeRow number batch addr row blank segs) :=
  .dramWrite (.foldlSnd h fun _ _ => .cropSegment)

theorem State.Keeps.batchPack {slot number : Nat} {crops : List (Nat × List CropLine)} {rowBase : Nat} (h : s₀.Keeps s) :
    s₀.Keeps (s.batchPack slot number crops rowBase) := by
  unfold State.batchPack
  split
  · exact h
  · split
    · exact .ite h (.pageChecks (.dropRefs (.onAcc (.foldl (.drawBytes h) fun _ _ h => .chargeDram (.writeRow h)))))
    · exact h

/-! ### Folios and shards -/

theorem State.Keeps.refuseLoad {slot handle : Nat} {f : LoadFault} (h : s₀.Keeps s) : s₀.Keeps (s.refuseLoad slot handle f) :=
  .closeJob (.setReg h)

theorem State.Keeps.folioLoad {n : Nat} (h : s₀.Keeps s) : s₀.Keeps (s.folioLoad n) := by
  unfold State.folioLoad
  refine .beginDesc h fun _ _ _ h => ?_
  split
  · exact h
  · refine .ite (.finishDesc h) ?_
    dsimp only
    split
    · exact .refuseLoad (.setReg h)
    · exact .onJob (.onFol (.setReg h))

theorem State.Keeps.applyFixups {addr : Nat} {img : Bytes} (h : s₀.Keeps s) : s₀.Keeps (s.applyFixups addr img) :=
  .foldl h fun _ _ => .dramWrite

theorem State.Keeps.refillPinned {w : Nat} (h : s₀.Keeps s) : s₀.Keeps (s.refillPinned w) := .bumpSat (.onFol h)

theorem State.Keeps.refillAllPinned (h : s₀.Keeps s) : s₀.Keeps s.refillAllPinned := .foldl h fun _ _ => .refillPinned

theorem State.Keeps.setPinned {h' : Nat} {v : Bool} (h : s₀.Keeps s) : s₀.Keeps (s.setPinned h' v) :=
  .ite (.refillAllPinned (.onFol h)) (.onFol h)

theorem State.Keeps.folioFetchDone {slot : Nat} {given : Bytes} (h : s₀.Keeps s) : s₀.Keeps (s.folioFetchDone slot given) := by
  unfold State.folioFetchDone
  split
  · exact h
  · split
    · exact h
    · refine .ite h ?_
      dsimp only
      split
      · exact .refuseLoad (.dramWrite (.chargePcie (.fetchHost h)))
      · exact .onJob (.ite (.setPinned (.applyFixups (.onFol (.dramWrite (.chargePcie (.fetchHost h)))))) (.applyFixups (.onFol
          (.dramWrite (.chargePcie (.fetchHost h))))))

theorem State.Keeps.closeAmount {slot amount : Nat} (h : s₀.Keeps s) : s₀.Keeps (s.closeAmount slot amount) :=
  .releaseCancels (.endJob (.releaseJob h))

theorem State.Keeps.folioCommit {slot : Nat} (h : s₀.Keeps s) : s₀.Keeps (s.folioCommit slot) := by
  unfold State.folioCommit
  split
  · exact h
  · split
    · exact h
    · exact .ite h (.closeAmount (.foldl (.extendMs (.onFol h)) fun _ _ => .extendMs))

theorem State.Keeps.folioUnload {n : Nat} (h : s₀.Keeps s) : s₀.Keeps (s.folioUnload n) := by
  unfold State.folioUnload
  refine .beginDesc h fun _ _ _ h => ?_
  split
  · exact h
  · exact .ite (.onJob h) (.finishDesc h)

theorem State.Keeps.folioUnloadRelease {slot : Nat} (h : s₀.Keeps s) : s₀.Keeps (s.folioUnloadRelease slot) := by
  unfold State.folioUnloadRelease
  split
  · exact h
  · split
    · exact h
    · exact .ite h (.closeJob (.onFol (.foldl h fun _ _ => .removeNode)))

theorem State.Keeps.folioPin {h' : Nat} {v : Bool} (h : s₀.Keeps s) : s₀.Keeps (s.folioPin h' v) := by
  unfold State.folioPin
  split
  · exact .flag h
  · exact .ite (.flag h) (.setPinned h)

theorem State.Keeps.pinWrite {h' : Nat} {v : Bool} (h : s₀.Keeps s) : s₀.Keeps (s.pinWrite h' v) := .ite h (.folioPin h)

theorem State.Keeps.shelfSplit {v : Word} (h : s₀.Keeps s) : s₀.Keeps (s.shelfSplit v) :=
  .ite h (.ite (.ite (.setRegF h) h) (.ite (.flag (.ite (.setRegF h) h)) (.refillAllPinned (.onFol (.setRegF (.ite (.setRegF h) h))))))

theorem State.Keeps.enterShard {w b h' n : Nat} {pinned : Bool} (h : s₀.Keeps s) : s₀.Keeps (s.enterShard w b h' n pinned) := by
  unfold State.enterShard
  exact .onFol h

theorem State.Keeps.refillDone {w h' n : Nat} (h : s₀.Keeps s) : s₀.Keeps (s.refillDone w h' n) := by
  unfold State.refillDone
  refine .ite h ?_
  dsimp only
  split
  · exact .onFol h
  · split
    · exact .enterShard (.ite (.unattributed (.onFol h)) (.onFol h))
    · split
      · exact .enterShard (.onFol (.ite (.unattributed (.onFol h)) (.onFol h)))
      · exact .ite (.unattributed (.onFol h)) (.onFol h)

end Sys2Proof.Machine
end

section
/-! PROOF. What each operation keeps of capture, the link, errors, security and the registers. -/

namespace Sys2Proof.Machine

set_option Elab.async false

variable {s₀ s : State}

/-! ### Transports and lines -/

theorem State.Keeps.onTransport {t : Nat} {f : Transport → Transport} (h : s₀.Keeps s) : s₀.Keeps (s.onTransport t f) := .onCol h

theorem State.Keeps.onLsp {p : Nat} {f : Lsp → Lsp} (h : s₀.Keeps s) : s₀.Keeps (s.onLsp p f) := .onCol h

theorem State.Keeps.colEvent {t bit : Nat} {page : Option Nat} (h : s₀.Keeps s) : s₀.Keeps (s.colEvent t bit page) := by
  unfold State.colEvent
  extract_lets _ _ _ s1
  have h1 : s₀.Keeps s1 := by
    dsimp only [s1]
    split
    · exact .setRegF (.flag h)
    · exact .flag h
  exact .ite (.msix h1) h1

theorem State.Keeps.pageEvent {t bit : Nat} (h : s₀.Keeps s) : s₀.Keeps (s.pageEvent t bit) := .onTransport (.colEvent h)

theorem State.Keeps.sideEvent {t side bit : Nat} (h : s₀.Keeps s) : s₀.Keeps (s.sideEvent t side bit) := .onTransport (.colEvent h)

theorem State.Keeps.loseLine {g : Trigger} (h : s₀.Keeps s) : s₀.Keeps (s.loseLine g) := by
  unfold State.loseLine
  split
  · exact h
  · exact .ite h (.sideEvent (.onTransport h))

theorem State.Keeps.skipLines {g : Trigger} {n : Nat} (h : s₀.Keeps s) : s₀.Keeps (s.skipLines g n) := by
  unfold State.skipLines
  split
  · exact h
  · exact .ite h (.sideEvent (.onTransport h))

theorem State.Keeps.issueLsync {p : Nat} {gs : List Trigger} {minLine : Nat} (h : s₀.Keeps s) : s₀.Keeps (s.issueLsync p gs minLine) :=
  .emit (.onLsp (.foldl (.ite h (.onLsp (.bumpSat (.foldl h fun _ _ => .loseLine)))) fun _ _ => .sideEvent))

theorem State.Keeps.triggerPort {p : Nat} {gs : List Trigger} {minLine : Nat} (h : s₀.Keeps s) : s₀.Keeps (s.triggerPort p gs minLine) :=
  .ite (.onLsp h) (.issueLsync h)

theorem State.Keeps.fireRows {t fuel : Nat} {l : List (Nat × Nat)} (h : s₀.Keeps s) : s₀.Keeps (s.fireRows t fuel l) := by
  induction fuel generalizing s l with
  | zero => exact h
  | succ fuel ih =>
    match l with
    | [] => exact h
    | (k, i) :: rest =>
      unfold State.fireRows
      split
      · exact h
      · exact ih (.triggerPort (.foldl h fun _ _ => .onTransport))

theorem State.Keeps.strobeEvent {t : Nat} {b : Strobe} (h : s₀.Keeps s) : s₀.Keeps (s.strobeEvent t b) := by
  unfold State.strobeEvent
  refine .ite h ?_
  split
  · exact .ite h (.onCol h)
  · exact .colEvent h

theorem State.Keeps.fireStrobes {t : Nat} {c : TransportCfg} (h : s₀.Keeps s) : s₀.Keeps (s.fireStrobes t c) := by
  unfold State.fireStrobes
  refine .foldl h fun _ _ h => ?_
  split
  · exact h
  · exact .strobeEvent (.onTransport h)

theorem State.Keeps.keepStrobes {t side : Nat} (h : s₀.Keeps s) : s₀.Keeps (s.keepStrobes t side) := by
  unfold State.keepStrobes
  split
  · exact h
  · exact .ite h (.onTransport h)

theorem State.Keeps.fireLate {t : Nat} (h : s₀.Keeps s) : s₀.Keeps (s.fireLate t) :=
  .ite h (.foldl (.onTransport h) fun _ _ => .strobeEvent)

theorem State.Keeps.fireDue {t : Nat} (h : s₀.Keeps s) : s₀.Keeps (s.fireDue t) := by
  unfold State.fireDue
  split
  · exact h
  · exact .ite h (.fireRows (.fireStrobes h))

theorem State.Keeps.addHeld {p : Planes} {fate : HeldFate} (h : s₀.Keeps s) : s₀.Keeps (s.addHeld p fate) := .onAcc h

theorem State.Keeps.failSide {t : Nat} {o : OpenSide} {fate : HeldFate} (h : s₀.Keeps s) : s₀.Keeps (s.failSide t o fate) :=
  .addHeld (.onCol (.onTransport (.keepStrobes h)))

theorem State.Keeps.closeSide {t : Nat} {c : TransportCfg} {o : OpenSide} {n : Nat} (h : s₀.Keeps s) : s₀.Keeps (s.closeSide t c o n) :=
  .addHeld (.onCol (.onTransport (.keepStrobes (.unattributed (.dramWrite h)))))

theorem State.Keeps.orphan {want : Trigger → Bool} (h : s₀.Keeps s) : s₀.Keeps (s.orphan want) := .onCol h

theorem State.Keeps.closeEarly {t : Nat} {c : TransportCfg} {want : OpenSide → Bool} (h : s₀.Keeps s) :
    s₀.Keeps (s.closeEarly t c want) :=
  .foldl (.orphan (.foldl h fun _ _ => .sideEvent)) fun _ _ => .closeSide

theorem State.Keeps.closeCheck {t : Nat} (h : s₀.Keeps s) : s₀.Keeps (s.closeCheck t) := by
  unfold State.closeCheck
  dsimp only
  split
  · exact h
  · exact .ite h (.foldl h fun _ _ h => .ite h (.foldl (.ite (.sideEvent h) h) fun _ _ => .closeSide))

theorem State.Keeps.openSide {t : Nat} {c : TransportCfg} {page side : Nat} (h : s₀.Keeps s) : s₀.Keeps (s.openSide t c page side) := by
  unfold State.openSide
  dsimp only
  split
  · exact .addHeld (.colEvent h)
  · exact .onTransport (.onCol h)

theorem State.Keeps.openSides {t : Nat} {c : TransportCfg} {sides : List Nat} (h : s₀.Keeps s) : s₀.Keeps (s.openSides t c sides) :=
  .foldl (.onTransport h) fun _ _ => .openSide

theorem State.Keeps.leadEdge {t p : Nat} (h : s₀.Keeps s) : s₀.Keeps (s.leadEdge t p) := by
  unfold State.leadEdge
  split
  · exact h
  · exact .fireDue (.openSides (.onTransport (.closeEarly (.onCol (.foldl (.ite h (.orphan h)) fun _ _ => .closeJob)))))

theorem State.Keeps.takeLatches (h : s₀.Keeps s) : s₀.Keeps s.takeLatches := by
  unfold State.takeLatches
  refine .ite h (.foldl h fun _ _ h => ?_)
  dsimp only
  split
  · exact h
  · exact .closeCheck (.ite (.onTransport (.leadEdge (.onTransport h))) (.leadEdge (.onTransport h)))

theorem State.Keeps.movePos {t : Nat} {d : Int} (h : s₀.Keeps s) : s₀.Keeps (s.movePos t d) := .onTransport h

theorem State.Keeps.follow {t : Nat} {fwd : Bool} (h : s₀.Keeps s) : s₀.Keeps (s.follow t fwd) := by
  unfold State.follow
  dsimp only
  split
  · exact h
  · exact .ite h (.ite (.ite (.closeCheck (.fireDue (.onTransport h))) h) (.ite (.pageEvent h) h))

theorem State.Keeps.encEdge {t : Nat} {a b : Bool} (h : s₀.Keeps s) : s₀.Keeps (s.encEdge t a b) := by
  unfold State.encEdge
  extract_lets x step s1 s2 d fwd s3
  have h1 : s₀.Keeps s1 := .onTransport h
  have h2 : s₀.Keeps s2 := .wake h1
  have h3 : s₀.Keeps s3 := .movePos h2
  exact .ite h (.ite h1 (.ite (.ite (.pageEvent (.onTransport h2)) (.movePos (.drawBytes h2)))
    (.ite (.follow (.ite (.fireLate h3) h3)) h3)))

theorem State.Keeps.leadAssert {t : Nat} (h : s₀.Keeps s) : s₀.Keeps (s.leadAssert t) := by
  unfold State.leadAssert
  refine .ite h ?_
  dsimp only
  split
  · exact .onTransport h
  · exact .ite (.wake (.onTransport h)) (.ite (.closeCheck (.leadEdge (.wake (.onTransport h)))) (.onTransport (.wake (.onTransport h))))

theorem State.Keeps.leadDeassert {t : Nat} (h : s₀.Keeps s) : s₀.Keeps (s.leadDeassert t) :=
  .ite h (.ite (.ite (.closeCheck (.onTransport (.onTransport h))) (.onTransport (.onTransport h))) (.onTransport h))

theorem State.Keeps.dfeedAssert {t : Nat} (h : s₀.Keeps s) : s₀.Keeps (s.dfeedAssert t) := .ite (.pageEvent h) h

theorem State.Keeps.ilkOpen {t : Nat} (h : s₀.Keeps s) : s₀.Keeps (s.ilkOpen t) := .ite h (.onCol (.onTransport h))

theorem State.Keeps.ilkClose {t : Nat} (h : s₀.Keeps s) : s₀.Keeps (s.ilkClose t) := .ite h (.onTransport h)

theorem State.Keeps.stallLimit {t : Nat} (h : s₀.Keeps s) : s₀.Keeps (s.stallLimit t) := by
  unfold State.stallLimit
  split
  · exact h
  · exact .ite (.pageEvent h) h

theorem State.Keeps.strobeOn {m : Nat} (h : s₀.Keeps s) : s₀.Keeps (s.strobeOn m) := .onCol h

theorem State.Keeps.strobeOff {m : Nat} (h : s₀.Keeps s) : s₀.Keeps (s.strobeOff m) := .onCol h

theorem State.Keeps.lineTriggerDeferred {p : Nat} (h : s₀.Keeps s) : s₀.Keeps (s.lineTriggerDeferred p) := by
  unfold State.lineTriggerDeferred
  refine .ite h ?_
  split
  · exact .onLsp h
  · exact .issueLsync (.foldl (.onLsp h) fun _ _ h => .sideEvent (.onTransport h))

theorem State.Keeps.dropFrame {p : Nat} (h : s₀.Keeps s) : s₀.Keeps (s.dropFrame p) :=
  .foldl (.onLsp (.foldl h fun _ _ => .loseLine)) fun _ _ => .closeCheck

theorem State.Keeps.takeLine {g : Trigger} {bits : Nat} {vs : List Nat} (h : s₀.Keeps s) : s₀.Keeps (s.takeLine g bits vs) := by
  unfold State.takeLine
  dsimp only
  split
  · exact .onTransport h
  · exact h

theorem State.Keeps.takeCal {g : Trigger} {vs : List Nat} (h : s₀.Keeps s) : s₀.Keeps (s.takeCal g vs) := .onCol h

theorem State.Keeps.versionEnd {p : Nat} (h : s₀.Keeps s) : s₀.Keeps (s.versionEnd p) := by
  unfold State.versionEnd
  refine .foldl (.onLsp h) fun _ _ h => ?_
  extract_lets _ _ s1
  have h1 : s₀.Keeps s1 := .foldl (.orphan h) fun _ _ => .failSide
  exact .ite h1 (.closeCheck h1)

theorem State.Keeps.lineFrame {p : Nat} {f : Bytes} (h : s₀.Keeps s) : s₀.Keeps (s.lineFrame p f) := by
  unfold State.lineFrame
  refine .ite h ?_
  extract_lets s1 gs skipped s2 s3 s4
  have h1 : s₀.Keeps s1 := .onLsp h
  have h2 : s₀.Keeps s2 := .ite h1 (.bumpSat (.foldl h1 fun _ _ => .skipLines))
  have h3 : s₀.Keeps s3 := .foldl h2 fun _ _ h => by split <;> [exact h; exact .ite (.takeCal h) (.takeLine h)]
  refine .ite (.dropFrame (.bumpSat h1)) (.ite (.versionEnd h1) (.ite (.dropFrame (.bumpSat h1)) (.ite (.dropFrame h1)
    (.ite (.dropFrame (.bumpSat h1)) (.ite (.onLsp (.bumpSat h1)) ?_)))))
  exact .foldl (.onLsp h3) fun _ _ => .closeCheck

theorem State.Keeps.frameStart {port vc : Nat} (h : s₀.Keeps s) : s₀.Keeps (s.frameStart port vc) := by
  unfold State.frameStart
  refine .ite h (.foldl (.onCol h) fun _ _ h => ?_)
  dsimp only
  split
  · exact h
  · exact .ite h (.ite (.onCol h) (.openSides (.onTransport (.drawBytes (.closeEarly h)))))

theorem State.Keeps.closeFrame {t : Nat} {c : TransportCfg} {sides : List Nat} {clipped : Bool} (h : s₀.Keeps s) :
    s₀.Keeps (s.closeFrame t c sides clipped) :=
  .foldl (.ite (.foldl h fun _ _ h => .ite (.sideEvent h) h) h) fun _ _ => .closeSide

theorem State.Keeps.frameEnd {port vc : Nat} (h : s₀.Keeps s) : s₀.Keeps (s.frameEnd port vc) := by
  unfold State.frameEnd
  refine .ite h (.foldl (.onCol h) fun _ _ h => ?_)
  dsimp only
  split
  · exact h
  · exact .ite h (.closeFrame (.onCol h))

theorem State.Keeps.csiTake {t port vc dt : Nat} {b : Bytes} {ok : Bool} {e : Nat × Source} (h : s₀.Keeps s) :
    s₀.Keeps (s.csiTake t port vc dt b ok e) :=
  .ite (.ite h (.onCol h)) (.ite h (.ite (.takeLine (.onTransport h)) (.loseLine (.onTransport h))))

theorem State.Keeps.csiLine {port vc dt : Nat} {b : Bytes} {headerErrors : Nat} {crcOk : Bool} (h : s₀.Keeps s) :
    s₀.Keeps (s.csiLine port vc dt b headerErrors crcOk) := by
  unfold State.csiLine
  refine .ite h ?_
  split
  · exact h
  · refine .foldl h fun _ _ h => ?_
    extract_lets x srcs s1
    split
    · exact h
    · have h1 : s₀.Keeps s1 := .foldl h fun _ _ => .csiTake
      exact .ite h1 (.closeFrame h1)

theorem State.Keeps.abortPage {t : Nat} (h : s₀.Keeps s) : s₀.Keeps (s.abortPage t) :=
  .ite h (.foldl (.orphan h) fun _ _ => .failSide)

theorem State.Keeps.dropPages {t v : Nat} (h : s₀.Keeps s) : s₀.Keeps (s.dropPages t v) := .sweepPools (.onAcc h)

/-! ### Capture -/

theorem State.Keeps.queueCapture {slot : Nat} {cfgs : List (Nat × Option TransportCfg)} (h : s₀.Keeps s) :
    s₀.Keeps (s.queueCapture slot cfgs) :=
  .ite (.closeJob h) (.onJob (.onCol h))

theorem State.Keeps.commit {n : Nat} {given : Bytes} (h : s₀.Keeps s) : s₀.Keeps (s.commit n given) := by
  unfold State.commit
  refine .beginDesc h fun _ _ _ h => ?_
  split
  · exact h
  · dsimp only
    split
    · exact .closeJob (.chargePcie (.fetchHost h))
    · exact .queueCapture (.chargePcie (.fetchHost h))

theorem State.Keeps.captureStop {n : Nat} (h : s₀.Keeps s) : s₀.Keeps (s.captureStop n) := by
  unfold State.captureStop
  refine .beginDesc h fun _ _ _ h => ?_
  split
  · exact h
  · exact .queueCapture h

theorem State.Keeps.setCfg {t : Nat} {cfg : Option TransportCfg} (h : s₀.Keeps s) : s₀.Keeps (s.setCfg t cfg) := by
  unfold State.setCfg
  exact .onCol (.onTransport h)

theorem State.Keeps.configApply {t : Nat} (h : s₀.Keeps s) : s₀.Keeps (s.configApply t) := by
  unfold State.configApply
  refine .ite h ?_
  split
  · exact h
  · exact .ite (.closeJob (.onCol (.setCfg h))) (.onCol (.setCfg h))

theorem State.Keeps.calibrate {n : Nat} {white : Bool} (h : s₀.Keeps s) : s₀.Keeps (s.calibrate n white) := by
  unfold State.calibrate
  refine .beginDesc h fun _ _ _ h => ?_
  split
  · exact h
  · exact .onJob (.onCol h)

theorem State.Keeps.onCalib {slot : Nat} {f : Calib → Calib} (h : s₀.Keeps s) : s₀.Keeps (s.onCalib slot f) := .onCol h

theorem State.Keeps.calibrationStart {slot : Nat} (h : s₀.Keeps s) : s₀.Keeps (s.calibrationStart slot) := by
  unfold State.calibrationStart
  split
  · exact h
  · exact .ite h (.ite (.onCalib h) (.onCol (.onCalib h)))

theorem State.Keeps.calLineTrigger {slot : Nat} (h : s₀.Keeps s) : s₀.Keeps (s.calLineTrigger slot) := by
  unfold State.calLineTrigger
  split
  · exact h
  · exact .ite h (.foldl h fun _ _ h => .ite h (.ite (.foldl (.issueLsync h) fun _ _ => .strobeEvent) (.issueLsync h)))

theorem State.Keeps.setRefs {t i : Nat} {white : Bool} {vs : List Nat} (h : s₀.Keeps s) : s₀.Keeps (s.setRefs t i white vs) := by
  unfold State.setRefs
  split
  · exact h
  · exact .onCol h

theorem State.Keeps.calibrationDone {slot : Nat} (h : s₀.Keeps s) : s₀.Keeps (s.calibrationDone slot) := by
  unfold State.calibrationDone
  split
  · exact h
  · exact .ite h (.closeAmount (.orphan (.foldl h fun _ _ => .setRefs)))

/-! ### The link and the management port -/

theorem State.Keeps.flr (h : s₀.Keeps s) : s₀.Keeps s.flr := .linkReset (.onLink h fun _ _ => msixReset_wf)

theorem State.Keeps.hotReset (h : s₀.Keeps s) : s₀.Keeps s.hotReset := .linkReset (.onLink h fun _ _ => msixReset_wf)

theorem State.Keeps.linkLoss (h : s₀.Keeps s) : s₀.Keeps s.linkLoss := .linkReset (.onLink h fun _ _ => msixReset_wf)

theorem State.Keeps.perstAssert (h : s₀.Keeps s) : s₀.Keeps s.perstAssert := .linkReset (.onLink h fun _ _ => msixReset_wf)

theorem State.Keeps.perstRelease (h : s₀.Keeps s) : s₀.Keeps s.perstRelease := .onLink h

theorem State.Keeps.linkUp {speed width : Nat} (h : s₀.Keeps s) : s₀.Keeps (s.linkUp speed width) := .ite h (.onLink h)

theorem State.Keeps.setDeviceControl {mps mrrs : Nat} {ro : Bool} (h : s₀.Keeps s) : s₀.Keeps (s.setDeviceControl mps mrrs ro) :=
  .onLink h

theorem State.Keeps.deviceControl {mps mrrs : Nat} {ro : Bool} (h : s₀.Keeps s) : s₀.Keeps (s.deviceControl mps mrrs ro) :=
  .ite (.hostWaits h) (.setDeviceControl h)

theorem State.Keeps.atomicOp {bar off : Nat} (h : s₀.Keeps s) : s₀.Keeps (s.atomicOp bar off) := .ite (.hostWaits h) (.emit (.exitIdle h))

theorem State.Keeps.bar4 {write : Bool} {off len : Nat} {data : Bytes} (h : s₀.Keeps s) : s₀.Keeps (s.bar4 write off len data) :=
  .ite (.ite h (.emit h)) (.ite (.ite (.flag h) (.emit (.flag h))) (.ite (.dramWrite h) (.emit h)))

theorem State.Keeps.bar4Access {write : Bool} {off len : Nat} {data : Bytes} (h : s₀.Keeps s) :
    s₀.Keeps (s.bar4Access write off len data) :=
  .ite (.hostWaits h) (.bar4 (.exitIdle h))

theorem State.Keeps.verAgree {hi : Bool} {v : Word} (h : s₀.Keeps s) : s₀.Keeps (s.verAgree hi v) :=
  .ite (.access h) (.ite (.flag h) (.setReg h))

theorem State.Keeps.mgtEmbWrite {v : Word} (h : s₀.Keeps s) : s₀.Keeps (s.mgtEmbWrite v) :=
  .ite (.access (.ite (.setRegF h) h)) (.ite (.flag (.ite (.setRegF h) h)) (.ite (.errsToMailbox (.setRegF (.ite (.setRegF h) h)))
    (.setRegF (.ite (.setRegF h) h))))

theorem State.Keeps.last {c : Nat} (h : s₀.Keeps s) : s₀.Keeps (s.last c) := .onMgt h

theorem State.Keeps.mgtCmd {checks : List (Bool × Nat)} {refused act : State → State} (h : s₀.Keeps s)
    (hrefused : ∀ t, s₀.Keeps t → s₀.Keeps (refused t)) (hact : ∀ t, s₀.Keeps t → s₀.Keeps (act t)) :
    s₀.Keeps (s.mgtCmd checks refused act) := by
  unfold State.mgtCmd
  dsimp only
  split
  · exact hrefused _ (.last (.exitIdle h))
  · exact hact _ (.last (.exitIdle h))

theorem State.Keeps.dwinFetch {addr : Nat} {data : Bytes} (h : s₀.Keeps s) : s₀.Keeps (s.dwinFetch addr data) :=
  .mgtCmd h (fun _ h => h) fun _ => .onMgt

theorem State.Keeps.dwinFetchDone (h : s₀.Keeps s) : s₀.Keeps s.dwinFetchDone := by
  unfold State.dwinFetchDone
  split
  · exact .onMgt h
  · exact h

theorem State.Keeps.dwinRead {addr len : Nat} (h : s₀.Keeps s) : s₀.Keeps (s.dwinRead addr len) :=
  .mgtCmd h (fun _ => .emit) fun _ => .emit

theorem State.Keeps.dwinWrite {addr : Nat} {data : Bytes} (h : s₀.Keeps s) : s₀.Keeps (s.dwinWrite addr data) :=
  .mgtCmd h (fun _ h => h) fun _ => .onMgt

theorem State.Keeps.dwinWriteDone (h : s₀.Keeps s) : s₀.Keeps s.dwinWriteDone := by
  unfold State.dwinWriteDone
  split
  · exact .onMgt (.dramWrite h)
  · exact h

theorem State.Keeps.mboxWrite {data : Bytes} (h : s₀.Keeps s) : s₀.Keeps (s.mboxWrite data) :=
  .mgtCmd h (fun _ h => h) fun _ => .onMgt

theorem State.Keeps.mboxTake (h : s₀.Keeps s) : s₀.Keeps s.mboxTake := by
  unfold State.mboxTake
  split
  · exact h
  · exact .ite h (.ite (.post (.onMgt h)) (.ite (.post (.onMgt h)) (.post (.onMgt h))))

theorem State.Keeps.mboxRead {len : Nat} (h : s₀.Keeps s) : s₀.Keeps (s.mboxRead len) :=
  .mgtCmd h (fun _ h => .ite (.emit h) h) fun _ h => .unstick (.ite (.setRegF (.onMgt (.emit h))) (.onMgt (.emit h)))

theorem State.Keeps.mgtKick {addr len : Nat} (h : s₀.Keeps s) : s₀.Keeps (s.mgtKick addr len) :=
  .mgtCmd h (fun _ h => h) fun _ => .kickRings

theorem State.Keeps.mgtPlain {len : Nat} {act : State → State} (h : s₀.Keeps s) (hact : ∀ t, s₀.Keeps t → s₀.Keeps (act t)) :
    s₀.Keeps (s.mgtPlain len act) :=
  .mgtCmd h (fun _ h => h) fun _ h => hact _ h

theorem State.Keeps.mgtReset {addr len : Nat} (h : s₀.Keeps s) : s₀.Keeps (s.mgtReset addr len) := by
  unfold State.mgtReset
  exact .mgtCmd h (fun _ h => .ite (.refuseReset h) h) fun _ => .requestReset

theorem State.Keeps.mgtRcvData {addr : Nat} {data : Bytes} (h : s₀.Keeps s) : s₀.Keeps (s.mgtRcvData addr data) :=
  .mgtCmd h (fun _ h => h) fun _ => .rcvBlock

theorem State.Keeps.mgtRcvCommit {image len : Nat} (h : s₀.Keeps s) : s₀.Keeps (s.mgtRcvCommit image len) :=
  .mgtCmd h (fun _ h => h) fun _ => .rcvCommit

theorem State.Keeps.mgtRdStatus {len : Nat} (h : s₀.Keeps s) : s₀.Keeps (s.mgtRdStatus len) :=
  .ite (.emit (.exitIdle h)) (.last (.exitIdle h))

theorem State.Keeps.mgtBadFrame {complementOk : Bool} (h : s₀.Keeps s) : s₀.Keeps (s.mgtBadFrame complementOk) :=
  .ite (.last (.exitIdle h)) (.ite (.last (.exitIdle h)) h)

/-! ### Errors and self-tests -/

theorem State.Keeps.dropBadShard {ev : ErrEvent} (h : s₀.Keeps s) : s₀.Keeps (s.dropBadShard ev) := by
  unfold State.dropBadShard
  refine .ite ?_ h
  split
  · exact .onFol h
  · exact h

theorem State.Keeps.noteCarrel {e : ErrEvent} (h : s₀.Keeps s) : s₀.Keeps (s.noteCarrel e) :=
  .ite h (.ite (.onCarrel (.bumpSat h)) (.ite (.onCarrel (.bumpSat h)) (.ite (.bumpSat h) (.ite (.bumpSat h) h))))

theorem State.Keeps.errorRecordIssue {ev : Option ErrEvent} (h : s₀.Keeps s) : s₀.Keeps (s.errorRecordIssue ev) := by
  unfold State.errorRecordIssue
  split
  · exact .dropBadShard (.reportError (.noteCarrel h))
  · split
    · exact h
    · exact .dropBadShard (.reportError (.onErr h))

theorem State.Keeps.fenceWrite {k : Nat} {v : Word} (h : s₀.Keeps s) : s₀.Keeps (s.fenceWrite k v) :=
  .ite h (.ite (.onFol (.writeWord h)) (.writeWord h))

theorem State.Keeps.lastingClear {k : Nat} {v : Word} (h : s₀.Keeps s) : s₀.Keeps (s.lastingClear k v) := .ite h (.onErr (.writeWord h))

theorem State.Keeps.bistNext {fuel : Nat} (h : s₀.Keeps s) : s₀.Keeps (State.bistNext fuel s) := by
  induction fuel generalizing s with
  | zero => exact h
  | succ fuel ih =>
    unfold State.bistNext
    refine .ite h ?_
    split
    · exact h
    · dsimp only
      split
      · exact ih (.closeJob (.onSch h))
      · exact .onJob (.onSch (.onSch h))

theorem State.Keeps.bistStart (h : s₀.Keeps s) : s₀.Keeps s.bistStart := .bistNext h

theorem State.Keeps.bayBist {n : Nat} (h : s₀.Keeps s) : s₀.Keeps (s.bayBist n) := by
  unfold State.bayBist
  refine .beginDesc h fun _ _ _ h => ?_
  split
  · exact h
  · exact .bistStart (.onSch h)

theorem State.Keeps.bistDrainDone (h : s₀.Keeps s) : s₀.Keeps s.bistDrainDone := by
  unfold State.bistDrainDone
  split
  · exact h
  · exact .ite h (.onFol (.onJob h))

theorem State.Keeps.bistDrainTimeout (h : s₀.Keeps s) : s₀.Keeps s.bistDrainTimeout := by
  unfold State.bistDrainTimeout
  split
  · exact h
  · exact .ite h (.bistStart (.closeJob (.onSch h)))

theorem State.Keeps.bistTestsDone {fails : Nat} (h : s₀.Keeps s) : s₀.Keeps (s.bistTestsDone fails) := by
  unfold State.bistTestsDone
  split
  · exact h
  · exact .bistStart (.closeAmount (.refillPinned (.ite (.bayRelease (.onSch h)) (.reportError (.bayRelease (.onSch h))))))

/-! ### Security -/

theorem State.Keeps.burn {off : Nat} {bs : Bytes} (h : s₀.Keeps s) : s₀.Keeps (s.burn off bs) :=
  .onSec h (ho := fun c => Mem.write_wf _ c.otp off)

theorem State.Keeps.otpProg {f : Nat} (h : s₀.Keeps s) : s₀.Keeps (s.otpProg f) := .ite h (.ite (.flag h) (.onSec h))

theorem State.Keeps.otpProgDone (h : s₀.Keeps s) : s₀.Keeps s.otpProgDone := by
  unfold State.otpProgDone
  split
  · exact h
  · exact .extendOtp (.flag (.onSec (.burn h)))

theorem State.Keeps.rbAdvance {v : Word} (h : s₀.Keeps s) : s₀.Keeps (s.rbAdvance v) :=
  .ite h (.ite (.onSec (.writeWord h)) (.flag (.writeWord h)))

theorem State.Keeps.rollbackBurnDone (h : s₀.Keeps s) : s₀.Keeps s.rollbackBurnDone := by
  unfold State.rollbackBurnDone
  split
  · exact h
  · exact .extendOtp (.onSec (.burn h))

theorem State.Keeps.firmwareUpdate {v : Word} (h : s₀.Keeps s) : s₀.Keeps (s.firmwareUpdate v) :=
  .ite h (.ite (.writeWord h) (.ite (.onSec h) (.onSec (.writeWord h))))

theorem State.Keeps.firmwareUpdateDone {given : Bytes} {flashError : Bool} (h : s₀.Keeps s) :
    s₀.Keeps (s.firmwareUpdateDone given flashError) := by
  unfold State.firmwareUpdateDone
  split
  · exact h
  · extract_lets r img s1 fin b s2 d s3
    have h1 : s₀.Keeps s1 := .unattributedHost (.fetchHost h)
    have h2 : s₀.Keeps s2 := .dropRecord h1
    exact .ite (.onSec h1) (.ite (.onSec h1) (.ite (.onSec (.flashWrite (.drawBytes h2))) (.onSec (.putRecord (.flashWrite h2)))))

theorem State.Keeps.queueAttest {slot : Nat} {d : Bytes} (h : s₀.Keeps s) : s₀.Keeps (s.queueAttest slot d) := .onJob (.onSec h)

theorem State.Keeps.report {n : Nat} (h : s₀.Keeps s) : s₀.Keeps (s.report n) := by
  unfold State.report
  refine .beginDesc h fun _ _ _ h => ?_
  split
  · exact h
  · exact .ite (.closeJob h) (.ite (.closeJob h) (.queueAttest h))

theorem State.Keeps.extendJob {n : Nat} (h : s₀.Keeps s) : s₀.Keeps (s.extendJob n) := by
  unfold State.extendJob
  refine .beginDesc h fun _ _ _ h => ?_
  split
  · exact h
  · exact .queueAttest h

theorem State.Keeps.attestDone (h : s₀.Keeps s) : s₀.Keeps s.attestDone := by
  unfold State.attestDone
  split
  · exact h
  · exact .ite h (.ite (.closeAmount (.extendMs h)) (.closeAmount (.chargePcie (.hostWrite h))))

theorem State.Keeps.challenge (h : s₀.Keeps s) : s₀.Keeps s.challenge := .ite (.onSec (.emit h)) (.onSec (.emit h))

theorem State.Keeps.debugFail (h : s₀.Keeps s) : s₀.Keeps s.debugFail := .onSec h

theorem State.Keeps.debugResponse {scope block : Bytes} (h : s₀.Keeps s) : s₀.Keeps (s.debugResponse scope block) := by
  unfold State.debugResponse
  split
  · exact .debugFail h
  · exact .onSec h

theorem State.Keeps.debugVerifyDone (h : s₀.Keeps s) : s₀.Keeps s.debugVerifyDone := by
  unfold State.debugVerifyDone
  split
  · exact h
  · exact .ite (.debugFail (.onSec h)) (.ite (.onSec h) (.extendMs (.onSec (.onSec h))))

/-! ### Access to the registers -/

theorem State.Keeps.readWord {off : Nat} (h : s₀.Keeps s) : s₀.Keeps (s.readWord off).2 := .ite (.onLdg h) h

theorem State.Keeps.injectWrite {v : Word} (h : s₀.Keeps s) : s₀.Keeps (s.injectWrite v) :=
  .ite h (.ite (.flag (.ite (.setRegF h) h)) (.writeWord h))

theorem State.Keeps.ringCtrlWrite {r : RingId} {v : Word} (h : s₀.Keeps s) : s₀.Keeps (s.ringCtrlWrite r v) := by
  unfold State.ringCtrlWrite
  refine .ite (.ringEnable h) ?_
  split
  · exact .sqDisable h
  · exact .cqDisable h
  · exact .ite (.clearEn h) (.writeWord h)

theorem State.Keeps.rstReqWrite {v : Word} (h : s₀.Keeps s) : s₀.Keeps (s.rstReqWrite v) := by
  unfold State.rstReqWrite
  refine .ite h ?_
  split
  · exact .requestReset h
  · exact .requestReset h
  · exact .requestReset h
  · exact .requestReset h
  · exact .refuseReset h

theorem State.Keeps.writeAo {off : Nat} {v : Word} (h : s₀.Keeps s) : KeepsSome s₀ (s.writeAo off v) := by
  refine .ite (.some ?_) (.ite (.some (.rstReqWrite h)) (.ite (.some (.clkArithStep h)) (.ite (.some (.verAgree h))
    (.ite (.some (.verAgree h)) (.ite (.some (.hostBootGo h)) (.ite (.some (.mgtEmbWrite h)) .none))))))
  split
  · exact .stateReq h
  · exact .sysEvent h

theorem State.Keeps.writeIntake {off : Nat} {v : Word} (h : s₀.Keeps s) : KeepsSome s₀ (s.writeIntake off v) :=
  .ite (.some (.ite (.keepDrop h) h)) (.ite (.some (.ite (.abortPage h) h)) (.ite (.some (.dropPages h)) (.ite (.some (.injectWrite h))
    (.ite (.some (.shelfSplit h)) (.ite (.some (.pinWrite (.ite (.setRegF h) h))) .none)))))

theorem State.Keeps.writeRest {off : Nat} {v : Word} (h : s₀.Keeps s) : KeepsSome s₀ (s.writeRest off v) :=
  .ite (.some (.ite (.concFlush (.setRegF h)) (.setRegF h))) (.ite (.some (.fenceWrite h)) (.ite (.some (.lastingClear h))
    (.ite (.some (.ite (.ledgerEnable h) (.ledgerDisable h))) (.ite (.some (.ite (.slowPop h) h)) (.ite (.some (.rbAdvance h))
      (.ite (.some (.firmwareUpdate h)) (.ite (.some (.ite (.otpProg (.writeWord h)) (.writeWord h))) .none)))))))

theorem State.Keeps.writeReg {off : Nat} {v : Word} (h : s₀.Keeps s) : s₀.Keeps (s.writeReg off v) := by
  refine .ite (.access h) (.ite h ?_)
  split
  · exact .ringCtrlWrite h
  · split <;> rename_i e
    · exact KeepsSome.orElse h.writeAo (.orElse h.writeIntake h.writeRest) _ e
    · exact .writeWord h

theorem State.Keeps.sendUnmasked (h : s₀.Keeps s) : s₀.Keeps s.sendUnmasked := .foldl h fun _ _ h => .msix (.onLink h)

theorem State.Keeps.hostWord {off : Nat} {v : Word} {be : BitVec 4} (h : s₀.Keeps s) : s₀.Keeps (s.hostWord off v be) :=
  .ite (.access h) (.ite (.ite (.sendUnmasked (.onLink h fun l => Mem.write_wf _ l.msixTable _)) h) (.writeReg h))

theorem State.Keeps.hostWords {off : Nat} {words : List (Word × BitVec 4)} (h : s₀.Keeps s) : s₀.Keeps (s.hostWords off words) := by
  induction words generalizing s off with
  | nil => exact h
  | cons w words ih => exact ih (.hostWord h)

theorem State.Keeps.registerWrite {off : Nat} {words : List (Word × BitVec 4)} (h : s₀.Keeps s) : s₀.Keeps (s.registerWrite off words) :=
  .ite (.hostWaits h) (.hostWords (.exitIdle h))

theorem State.Keeps.ujRead (h : s₀.Keeps s) : s₀.Keeps s.ujRead := .ite (.hostWaits h) (.deviceUjRead (.exitIdle h))

theorem State.Keeps.readWords {l : List Nat} (h : s₀.Keeps s) : s₀.Keeps (s.readWords l).2 := by
  induction l generalizing s with
  | nil => exact h
  | cons o l ih => exact ih (.iteSnd (.readWord h) h)

theorem State.Keeps.mgtRdReg {addr len : Nat} (h : s₀.Keeps s) : s₀.Keeps (s.mgtRdReg addr len) := by
  unfold State.mgtRdReg
  exact .mgtCmd h (fun _ h => .ite (.emit (.readWords h)) (.emit h)) fun _ h => .emit (.readWords h)

theorem State.Keeps.mgtWrReg {addr : Nat} {data : Bytes} (h : s₀.Keeps s) : s₀.Keeps (s.mgtWrReg addr data) :=
  .mgtCmd h (fun _ h => h) fun _ h => .foldl h fun _ _ => .writeReg

theorem State.Keeps.releaseDone {u : RstUnit} {boot : BootReport} (h : s₀.Keeps s) : s₀.Keeps (s.releaseDone u boot) :=
  .ite (.refillAllPinned (.unitReleaseDone h)) (.unitReleaseDone h)

theorem State.Keeps.idleExitDone (h : s₀.Keeps s) : s₀.Keeps s.idleExitDone :=
  .ite (.refillAllPinned (.takeLatches (.readyIdleExitDone h))) h

theorem State.Keeps.serveAccess {a : HostAccess} (h : s₀.Keeps s) : s₀.Keeps (s.serveAccess a) := by
  unfold State.serveAccess
  split
  · exact .hostWords h
  · exact .bar4 h
  · exact .deviceUjRead h
  · exact .kick h
  · exact .emit h
  · exact .setDeviceControl h

theorem State.Keeps.wakeComplete (h : s₀.Keeps s) : s₀.Keeps s.wakeComplete :=
  .ite (.foldl (.onLink (.refillAllPinned (.takeLatches (.wakeUp (.onDev h))))) fun _ _ => .serveAccess) h

end Sys2Proof.Machine
end

section
/-! PROOF. What every command and every step keeps, and what holds at reset (assumption 3, R11, R66, R128, R154, R331, R459, R582). -/

namespace Sys2Proof.Machine

set_option Elab.async false

/-- The outcome is a next state, which keeps the forms. -/
def KeepsNext (s₀ : State) (r : Host.Outcome State Fault Refusal) : Prop := ∃ t, r = .next t ∧ s₀.Keeps t

theorem KeepsNext.next {s₀ t : State} (h : s₀.Keeps t) : KeepsNext s₀ (.next t) := ⟨t, rfl, h⟩

theorem exec_keeps {s₀ s : State} (h : s₀.Keeps s) : ∀ c : Instr, KeepsNext s₀ (exec c s)
  | .kick .. => .next (.whenOn h fun _ => .kick)
  | .doorbellReadDone .. => .next (.whenOn h fun _ => .doorbellReadDone)
  | .descriptorFetch .. => .next (.whenOn h fun _ => .descriptorFetch)
  | .nop .. => .next (.whenOn h fun _ => .nop)
  | .run .. => .next (.whenOn h fun _ => .runDesc)
  | .cancel .. => .next (.whenOn h fun _ h => .bistStart (.cancel h))
  | .folioLoad .. => .next (.whenOn h fun _ => .folioLoad)
  | .folioFetchDone .. => .next (.whenOn h fun _ => .folioFetchDone)
  | .folioCommit .. => .next (.whenOn h fun _ => .folioCommit)
  | .folioUnload .. => .next (.whenOn h fun _ => .folioUnload)
  | .folioUnloadRelease .. => .next (.whenOn h fun _ => .folioUnloadRelease)
  | .bayBist .. => .next (.whenOn h fun _ => .bayBist)
  | .bistDrainDone => .next (.whenOn h fun _ => .bistDrainDone)
  | .bistDrainTimeout => .next (.whenOn h fun _ => .bistDrainTimeout)
  | .bistTestsDone .. => .next (.whenOn h fun _ => .bistTestsDone)
  | .commit .. => .next (.whenOn h fun _ => .commit)
  | .calibrateDark .. => .next (.whenOn h fun _ => .calibrate)
  | .calibrateWhite .. => .next (.whenOn h fun _ => .calibrate)
  | .stop .. => .next (.whenOn h fun _ => .captureStop)
  | .configApply .. => .next (.whenOn h fun _ => .configApply)
  | .calibrationStart .. => .next (.whenOn h fun _ => .calibrationStart)
  | .calLineTrigger .. => .next (.whenOn h fun _ => .calLineTrigger)
  | .calibrationDone .. => .next (.whenOn h fun _ => .calibrationDone)
  | .report .. => .next (.whenOn h fun _ => .report)
  | .extend .. => .next (.whenOn h fun _ => .extendJob)
  | .attestDone => .next (.whenOn h fun _ => .attestDone)
  | .stateReqStandby => .next (.whenReg h fun _ => .stateReq)
  | .stateReqService => .next (.whenReg h fun _ => .stateReq)
  | .stateReqTest => .next (.whenReg h fun _ => .stateReq)
  | .stateReqRecovery => .next (.whenReg h fun _ => .stateReq)
  | .stateTransitionDone => .next (.whenOn h fun _ => .stateTransitionDone)
  | .standbyEntryDone => .next (.whenOn h fun _ => .standbyEntryDone)
  | .startOk => .next (.whenOn h fun _ => .startOk)
  | .startWindowExpiry => .next (.whenOn h fun _ => .startWindowExpiry)
  | .watchdogRestart => .next (.whenOn h fun _ => .watchdogRestart)
  | .watchdogExpiry => .next (.whenOn h fun _ => .watchdogExpiry)
  | .powerOn => .next (.powerOn h)
  | .powerOnRelease .. => .next (.powerOnRelease h)
  | .vddAoLost => .next (.vddAoLost h)
  | .brownOut => .next (.whenPowered h fun _ => .assertSource)
  | .brownOutRelease => .next (.whenPowered h fun _ => .releaseSource)
  | .resetNAssert => .next (.whenPowered h fun _ => .assertSource)
  | .resetNRelease => .next (.whenPowered h fun _ => .releaseSource)
  | .rstReqBay .. => .next (.whenReg h fun _ => .requestReset)
  | .rstReqWing .. => .next (.whenReg h fun _ => .requestReset)
  | .rstReqFabric => .next (.whenReg h fun _ => .requestReset)
  | .rstReqWarm => .next (.whenReg h fun _ => .requestReset)
  | .debugResetRequest .. => .next (.whenOn h fun _ h => .ite (.assertSource h) h)
  | .debugResetWithdraw => .next (.whenOn h fun _ => .releaseSource)
  | .clockFailure .. => .next (.whenOn h fun _ => .clockFailure)
  | .lockUp .. => .next (.whenOn h fun _ => .lockUp)
  | .unitIdleAck .. => .next (.whenOn h fun _ => .unitIdleAck)
  | .handshakeTimeout .. => .next (.whenOn h fun _ => .handshakeTimeout)
  | .forcedResetApplied .. => .next (.whenOn h fun _ => .forcedResetApplied)
  | .unitReleaseDone .. => .next (.whenOn h fun _ => .releaseDone)
  | .flr => .next (.whenOn h fun _ => .flr)
  | .hotReset => .next (.whenOn h fun _ => .hotReset)
  | .perstNAssert => .next (.whenOn h fun _ => .perstAssert)
  | .perstNRelease => .next (.whenOn h fun _ => .perstRelease)
  | .linkLoss => .next (.whenOn h fun _ => .linkLoss)
  | .hostAccessWake => .next (.whenOn h fun _ => .wake)
  | .bar4Access .. => .next (.whenOn h fun _ => .bar4Access)
  | .bar0AtomicOp .. => .next (.whenOn h fun _ => .atomicOp)
  | .registerWrite .. => .next (.whenOn h fun _ => .registerWrite)
  | .ldgDeviceUjLoRead => .next (.whenOn h fun _ => .ujRead)
  | .sysLock => .next (.whenReg h fun _ => .flag)
  | .hlkVerAgreeWrite .. => .next (.whenHost h fun _ => .verAgree)
  | .mgtEmbWrite .. => .next (.whenReg h fun _ => .mgtEmbWrite)
  | .hostBootGo .. => .next (.whenOn h fun _ => .hostBootGo)
  | .hostBootVerifyDone => .next (.whenOn h fun _ => .hostBootVerifyDone)
  | .ringEnable .. => .next (.whenHost h fun _ => .ringEnable)
  | .sqRingDisable .. => .next (.whenHost h fun _ => .sqDisable)
  | .cqRingDisable .. => .next (.whenHost h fun _ => .cqDisable)
  | .keepDrop => .next (.whenHost h fun _ => .keepDrop)
  | .abort .. => .next (.whenHost h fun _ h => .ite h (.abortPage h))
  | .colTDrop .. => .next (.whenHost h fun _ h => .ite h (.dropPages h))
  | .carInjectArm .. => .next (.whenHost h fun _ => .injectWrite)
  | .shelfSplitWrite .. => .next (.whenHost h fun _ h => .ite h (.shelfSplit h))
  | .folioPin .. => .next (.whenHost h fun _ => .pinWrite)
  | .folioUnpin .. => .next (.whenHost h fun _ => .pinWrite)
  | .flush => .next (.whenHost h fun _ => .concFlush)
  | .ledgerEnable .. => .next (.whenHost h fun _ => .ledgerEnable)
  | .ledgerDisable .. => .next (.whenHost h fun _ => .ledgerDisable)
  | .ldgSlowPop => .next (.whenHost h fun _ => .slowPop)
  | .clkArithStep .. => .next (.whenReg h fun _ => .clkArithStep)
  | .wakeTimerWrite .. => .next (.whenReg h fun _ => .writeWord)
  | .wakeTimerExpiry => .next (.whenOn h fun _ => .wakeTimerExpiry)
  | .fenceWrite .. => .next (.whenHost h fun _ => .fenceWrite)
  | .lastingClear .. => .next (.whenHost h fun _ => .lastingClear)
  | .otpProgCustHash0 => .next (.whenHost h fun _ => .otpProg)
  | .otpProgCustHash1 => .next (.whenHost h fun _ => .otpProg)
  | .otpProgRevoke0 => .next (.whenHost h fun _ => .otpProg)
  | .otpProgRevoke1 => .next (.whenHost h fun _ => .otpProg)
  | .otpProgDebugDisable => .next (.whenHost h fun _ => .otpProg)
  | .otpProgDone => .next (.whenOn h fun _ => .otpProgDone)
  | .secRbAdvance .. => .next (.whenHost h fun _ => .rbAdvance)
  | .rollbackBurnDone => .next (.whenOn h fun _ => .rollbackBurnDone)
  | .firmwareUpdate .. => .next (.whenHost h fun _ => .firmwareUpdate)
  | .firmwareUpdateDone .. => .next (.whenOn h fun _ => .firmwareUpdateDone)
  | .mgtRdStatus .. => .next (.whenOn h fun _ => .mgtRdStatus)
  | .mgtRdReg .. => .next (.whenOn h fun _ => .mgtRdReg)
  | .mgtWrReg .. => .next (.whenOn h fun _ => .mgtWrReg)
  | .mgtDwinFetch .. => .next (.whenOn h fun _ => .dwinFetch)
  | .dwinFetchDone => .next (.whenOn h fun _ => .dwinFetchDone)
  | .mgtDwinRead .. => .next (.whenOn h fun _ => .dwinRead)
  | .mgtDwinWrite .. => .next (.whenOn h fun _ => .dwinWrite)
  | .dwinWriteDone => .next (.whenOn h fun _ => .dwinWriteDone)
  | .mgtMboxWrite .. => .next (.whenOn h fun _ => .mboxWrite)
  | .mboxTake => .next (.whenOn h fun _ => .mboxTake)
  | .mgtMboxRead .. => .next (.whenOn h fun _ => .mboxRead)
  | .mgtKick .. => .next (.whenOn h fun _ => .mgtKick)
  | .mgtWake .. => .next (.whenOn h fun _ h => .mgtPlain h fun _ h => .wake h)
  | .mgtReset .. => .next (.whenOn h fun _ => .mgtReset)
  | .mgtClearStarts .. => .next (.whenOn h fun _ h => .mgtPlain h fun _ h => .onRst h)
  | .mgtMode8d .. => .next (.whenOn h fun _ h => .mgtPlain h fun _ h => .onMgt h)
  | .mgtMode1s .. => .next (.whenOn h fun _ h => .mgtPlain h fun _ h => .onMgt h)
  | .mgtRcvData .. => .next (.whenOn h fun _ => .mgtRcvData)
  | .rcvProgramDone => .next (.whenOn h fun _ => .rcvProgramDone)
  | .mgtRcvCommit .. => .next (.whenOn h fun _ => .mgtRcvCommit)
  | .rcvCommitDone => .next (.whenOn h fun _ => .rcvCommitDone)
  | .mgtBadFrame .. => .next (.whenOn h fun _ => .mgtBadFrame)
  | .recordDispatch .. => .next (.whenOn h fun _ => .recordDispatch)
  | .recordDecoded .. => .next (.whenOn h fun _ => .recordDecoded)
  | .decodeBudgetExpiry .. => .next (.whenOn h fun _ => .budgetExpiry)
  | .seqSlotGrant .. => .next (.whenOn h fun _ => .seqSlotGrant)
  | .batchPack .. => .next (.whenOn h fun _ => .batchPack)
  | .lcAdmission .. => .next (.whenOn h fun _ => .lcAdmission)
  | .contextPlace .. => .next (.whenOn h fun _ => .contextPlace)
  | .contextSwitchDone .. => .next (.whenOn h fun _ => .contextSwitchDone)
  | .spillMove .. => .next (.whenOn h fun _ => .spillMove)
  | .cmdLineFetch .. => .next (.whenOn h fun _ => .cmdLineFetch)
  | .enginePreempt .. => .next (.whenOn h fun _ => .enginePreempt)
  | .load .. => .next (.whenOn h fun _ h => .issue h fun _ _ _ h => .load h)
  | .store .. => .next (.whenOn h fun _ h => .issue h fun _ _ _ h => .store h)
  | .stream .. => .next (.whenOn h fun _ h => .issue h fun _ _ _ h => .stream h)
  | .expand .. => .next (.whenOn h fun _ h => .issue h fun _ _ _ h => .expand h)
  | .tmac .. => .next (.whenOn h fun _ h => .issue h fun _ _ _ h => .tmac h)
  | .vec .. => .next (.whenOn h fun _ h => .issue h fun _ _ _ h => .vec h)
  | .req .. => .next (.whenOn h fun _ h => .issue h fun _ _ _ h => .req h)
  | .attn .. => .next (.whenOn h fun _ h => .issue h fun _ _ _ h => .attn h)
  | .kvapp .. => .next (.whenOn h fun _ h => .issue h fun _ _ _ h => .kvapp h)
  | .argmax .. => .next (.whenOn h fun _ h => .issue h fun _ _ _ h => .argmax h)
  | .pack .. => .next (.whenOn h fun _ h => .issue h fun _ _ _ h => .pack h)
  | .cathand .. => .next (.whenOn h fun _ h => .issue h fun _ _ _ h => .cathand h)
  | .fence .. => .next (.whenOn h fun _ h => .issue h fun _ _ _ h => .ok h)
  | .signal .. => .next (.whenOn h fun _ h => .issue h fun _ _ _ h => .signal h)
  | .waitsig .. => .next (.whenOn h fun _ h => .issue h fun _ _ _ h => .ok h)
  | .cmdNop .. => .next (.whenOn h fun _ h => .issue h fun _ _ _ h => .ok h)
  | .commandComplete .. => .next (.whenOn h fun _ => .commandComplete)
  | .kvDescriptorEmit .. => .next (.whenOn h fun _ => .kvEmit)
  | .combinePart .. => .next (.whenOn h fun _ => .combinePart)
  | .spareTake .. => .next (.whenOn h fun _ => .spareTake)
  | .kvappResume .. => .next (.whenOn h fun _ => .kvappResume)
  | .editApply .. => .next (.whenOn h fun _ => .editApply)
  | .prefixMatch .. => .next (.whenOn h fun _ => .prefixMatch)
  | .freeListRestock .. => .next (.whenOn h fun _ => .restock)
  | .swapOut => .next (.whenOn h fun _ h => .swapOut h fun _ _ _ h => .closeJob h)
  | .swapIn .. => .next (.whenOn h fun _ => .swapIn)
  | .cardSummaryBuild .. => .next (.whenOn h fun _ => .cardBuild)
  | .refillDone .. => .next (.whenOn h fun _ => .refillDone)
  | .tokenChoice .. => .next (.whenOn h fun _ => .tokenChoice)
  | .catalogAdvance .. => .next (.whenOn h fun _ => .catAdvance)
  | .lineFrame .. => .next (.whenOn h fun _ => .lineFrame)
  | .frameStart .. => .next (.whenOn h fun _ => .frameStart)
  | .frameEnd .. => .next (.whenOn h fun _ => .frameEnd)
  | .csiLine .. => .next (.whenOn h fun _ => .csiLine)
  | .encEdge .. => .next (.whenOn h fun _ => .encEdge)
  | .lineTriggerDeferred .. => .next (.whenOn h fun _ => .lineTriggerDeferred)
  | .strobeOn .. => .next (.whenOn h fun _ => .strobeOn)
  | .strobeOff .. => .next (.whenOn h fun _ => .strobeOff)
  | .stallLimit .. => .next (.whenOn h fun _ => .stallLimit)
  | .leadAssert .. => .next (.whenOn h fun _ => .leadAssert)
  | .leadDeassert .. => .next (.whenOn h fun _ => .leadDeassert)
  | .dfeedAssert .. => .next (.whenOn h fun _ => .dfeedAssert)
  | .ilkOpen .. => .next (.whenOn h fun _ => .ilkOpen)
  | .ilkClose .. => .next (.whenOn h fun _ => .ilkClose)
  | .readyIdleEntry .. => .next (.whenOn h fun _ => .readyIdleEntry)
  | .readyIdleExitDone => .next (.whenOn h fun _ => .idleExitDone)
  | .wakeComplete => .next (.whenOn h fun _ => .wakeComplete)
  | .collationReady => .next (.whenOn h fun _ h => .ite (.takeLatches (.onDev h)) h)
  | .tempUpdate .. => .next (.whenOn h fun _ => .tempUpdate)
  | .aoClockFallback => .next (.whenOn h fun _ => .aoClockFallback)
  | .ledgerIntervalClose => .next (.whenOn h fun _ h => .endsIdle h fun _ => .ledgerIntervalClose)
  | .errorRecordIssue .. => .next (.whenOn h fun _ h => .endsIdle h fun _ => .errorRecordIssue)
  | .jobTeardown .. => .next (.whenOn h fun _ h => .bistStart (.jobTeardown h))
  | .challenge => .next (.whenOn h fun _ => .challenge)
  | .response .. => .next (.whenOn h fun _ => .debugResponse)
  | .debugVerifyDone => .next (.whenOn h fun _ => .debugVerifyDone)
  | .deviceControlWrite .. => .next (.whenOn h fun _ => .deviceControl)
  | .linkUp .. => .next (.whenOn h fun _ => .linkUp)

theorem step_keeps (s : State) : KeepsNext s (step s) := by
  unfold step
  split
  · exact .next (.tick .refl)
  · exact exec_keeps (.plain .refl) _

theorem keeps_of_step {s t : State} (h : step s = .next t) : s.Keeps t := by
  obtain ⟨u, hu, hk⟩ := step_keeps s
  cases hu.symm.trans h
  exact hk

/-- Settles O57: `keeps_of_step`, its part on memories and registers. -/
theorem stepsKeepMemoriesCanonical : Obligations.StepsKeepMemoriesCanonical := fun _ _ h => (keeps_of_step h).1

/-- Settles O58: `keeps_of_step`, its part on the fixed numbers. -/
theorem stepsKeepTheFixedNumbers : Obligations.StepsKeepTheFixedNumbers := fun _ _ h => (keeps_of_step h).2

/-- Settles O56: the check of the invariant, which runs, accepts the reset state. -/
theorem resetMeetsTheInvariant : Obligations.ResetMeetsTheInvariant := State.inv_of_ok _ (by decide +kernel)

end Sys2Proof.Machine
end

section
/-! PROOF. OFF (R26, R27). -/

namespace Sys2Proof.Machine

set_option Elab.async false

variable (s : State)

theorem State.whenPowered_of_off (f : State → State) (hoff : s.dev.state = .off) (ha : s.rst.asserted = []) : s.whenPowered f = s := by
  simp [State.whenPowered, hoff, ha]

theorem State.powerOnRelease_of_none (coreLow : Bool) (ha : s.rst.asserted = []) : s.powerOnRelease coreLow = s := by
  simp [State.powerOnRelease, ha]

/-- In OFF a command that is not a supply's comes to an unpowered part (`whenOn`), and one of a pin to no source. -/
theorem exec_of_off (hoff : s.dev.state = .off) (ha : s.rst.asserted = []) (c : Instr) (hp : c ≠ .powerOn) (hl : c ≠ .vddAoLost) :
    exec c s = .next s := by
  cases c with
  | powerOn => exact absurd rfl hp
  | vddAoLost => exact absurd rfl hl
  | powerOnRelease low => exact congrArg Host.Outcome.next (s.powerOnRelease_of_none low ha)
  | brownOut | brownOutRelease | resetNAssert | resetNRelease =>
    exact congrArg Host.Outcome.next (s.whenPowered_of_off _ hoff ha)
  | _ => exact congrArg Host.Outcome.next (if_pos hoff)

/-- Settles O3: by the gates of the commands; VDD_AO_LOST itself leads to OFF. -/
theorem offHearsOnlyPowerOn : Obligations.OffHearsOnlyPowerOn := by
  intro s c hoff ha hp
  by_cases hl : c = .vddAoLost
  · subst hl
    exact ⟨_, rfl, rfl, fun h => absurd rfl h⟩
  · exact ⟨s, exec_of_off s hoff ha c hp hl, hoff, fun _ => rfl⟩

end Sys2Proof.Machine
end

section
/-! PROOF. Requests for a device state (R27 to R33). -/

namespace Sys2Proof.Machine

set_option Elab.async false

variable (s : State)

/-! ### The table of R27 -/

theorem State.reqAllowed_iff (st : DeviceState) : s.reqAllowed st = true ↔ s.requestHolds st := by
  cases st <;> cases hs : s.dev.state <;> simp [State.reqAllowed, State.requestHolds, State.capturing, hs]

/-- READY_IDLE stands in no request's way. -/
theorem State.exitIdle_requestHolds (st : DeviceState) : s.exitIdle.requestHolds st ↔ s.requestHolds st := by
  rw [s.exitIdle_eq]; rfl

theorem exec_stateReq {st : DeviceState} {c : Instr} (hc : stateReqOf st = some c) (hon : s.dev.state ≠ .off) :
    exec c s = .next (s.exitIdle.stateReq st) := by
  have hexec : exec c s = .next (s.whenReg fun s => s.stateReq st) := by cases st <;> cases hc <;> rfl
  rw [hexec, State.whenReg, s.whenOn_of_on _ hon]

theorem State.stateReq_of_holds {st : DeviceState} (hreq : s.dev.req = none) (h : s.requestHolds st) :
    s.stateReq st = s.onDev fun d => { d with req := some st } := by
  simp [State.stateReq, hreq, s.reqAllowed_iff st |>.2 h]

theorem State.stateReq_of_refused {st : DeviceState} (h : s.dev.req.isSome = true ∨ ¬s.requestHolds st) : s.stateReq st = s.sysEvent 9 :=
  if_pos (by simpa [← s.reqAllowed_iff st] using h)

theorem State.regB_sysEvent (bit : Nat) (h : cellsFrom regReset 0 s.regs = true) (hb : bit < 32) :
    (s.sysEvent bit).regB rSysState bit = true := by
  rw [State.sysEvent, State.mgtInt, State.regB, State.reg_flag_other _ _ _ _ (by decide) (s.flag_regsWf _ _ h)]
  exact s.regB_flag_same _ _ h hb

/-- A refusal writes registers alone. -/
theorem State.sysEvent_eq (bit : Nat) : s.sysEvent bit = { s with regs := (s.sysEvent bit).regs } := rfl

@[simp] theorem State.exitIdle_dev_req : s.exitIdle.dev.req = s.dev.req := by rw [s.exitIdle_eq]; rfl

/-! ### Entry into SERVICE -/

/-- From `s` to `t` doorbells are read: only the rings' read states and the reads sent differ. -/
def State.ReadsDoorbells (s t : State) : Prop := ∃ rings out, t = { s with rings := rings, out := out }

theorem State.ReadsDoorbells.trans {s t u : State} (h : s.ReadsDoorbells t) (h' : t.ReadsDoorbells u) : s.ReadsDoorbells u := by
  obtain ⟨_, _, rfl⟩ := h
  obtain ⟨_, _, rfl⟩ := h'
  exact ⟨_, _, rfl⟩

theorem State.readDoorbell_reads (r : RingId) : s.ReadsDoorbells (s.readDoorbell r) := by
  unfold State.readDoorbell
  cases r <;> dsimp only <;> split <;> exact ⟨_, _, rfl⟩

theorem State.foldl_readDoorbell_reads (l : List RingId) : s.ReadsDoorbells (l.foldl State.readDoorbell s) := by
  induction l generalizing s with
  | nil => exact ⟨_, _, rfl⟩
  | cons r l ih => exact (s.readDoorbell_reads r).trans (ih _)

theorem State.enterService_reads : (s.goto .service).ReadsDoorbells s.enterService :=
  .trans (t := (s.goto .service).onRings _) ⟨_, _, rfl⟩ (State.foldl_readDoorbell_reads _ _)

/-! ### The close of a ledger interval -/

/-- From `s` to `t` something is reported: registers, what is sent, the link's pending interrupts, the mailbox, the rings, the ledger,
the error records and, in embedded mode, DRAM may differ. -/
def State.Reports (s t : State) : Prop :=
  ∃ regs out link mgt rings ldg err dram,
    t = { s with regs := regs, out := out, link := link, mgt := mgt, rings := rings, ldg := ldg, err := err, dram := dram }

theorem State.Reports.trans {s t u : State} (h : s.Reports t) (h' : t.Reports u) : s.Reports u := by
  obtain ⟨_, _, _, _, _, _, _, _, rfl⟩ := h
  obtain ⟨_, _, _, _, _, _, _, _, rfl⟩ := h'
  exact ⟨_, _, _, _, _, _, _, _, rfl⟩

/-- A change of what a report may touch. -/
theorem State.Reports.of_eq {t : State} {regs : RegFile} {out : List Out} {link : Link} {mgt : Mgt} {rings : Rings} {ldg : Ldg} {err : Errs}
    {dram : Mem} (h : t = { s with regs := regs, out := out, link := link, mgt := mgt, rings := rings, ldg := ldg, err := err,
                                   dram := dram } := by rfl) : s.Reports t :=
  ⟨_, _, _, _, _, _, _, _, h⟩

theorem State.Reports.ite {t u : State} {c : Prop} {_ : Decidable c} (h : s.Reports t) (h' : s.Reports u) :
    s.Reports (if c then t else u) := by
  split <;> assumption

theorem State.Reports.foldl {α : Type} {f : State → α → State} (hf : ∀ (t : State) a, t.Reports (f t a)) (l : List α) :
    s.Reports (l.foldl f s) := by
  induction l generalizing s with
  | nil => exact .of_eq s
  | cons a l ih => exact (hf s a).trans (ih _)

theorem State.onProd_reports (r : RingId) (f : ProdRing → ProdRing) : s.Reports (s.onProd r f) := by
  cases r <;> exact .of_eq s

theorem State.msix_reports (k : Nat) : s.Reports (s.msix k) := .ite s (.of_eq s) (.ite s (.of_eq s) (.of_eq s))

theorem State.hostWrite_reports (a : Nat) (bs : Bytes) (bulk : Bool) : s.Reports (s.hostWrite a bs bulk) :=
  .ite s (.of_eq s) (.foldl s (fun t _ => .of_eq t) _)

theorem State.writeLdg_reports (h : HeldAccount) : s.Reports (s.writeLdg h) := by
  unfold State.writeLdg
  extract_lets own a s1 s2 s3
  have h3 : s.Reports s3 := ((s.hostWrite_reports _ _ _).trans (s1.onProd_reports _ _)).trans (.of_eq s2)
  exact .ite s (h3.trans (.of_eq s3)) (.ite s (h3.trans (s3.msix_reports _)) h3)

theorem State.issueAccount_reports (h : HeldAccount) : s.Reports (s.issueAccount h) :=
  .ite s ((s.onProd_reports _ _).trans (.of_eq _)) (s.writeLdg_reports h)

theorem State.closeAccount_reports (a : Account) : s.Reports (s.closeAccount a) :=
  .trans (.ite s (.of_eq s) (.of_eq s)) (State.issueAccount_reports _ _)

theorem State.closeInterval_reports : s.Reports s.closeInterval :=
  .trans (.foldl s (fun t a => t.closeAccount_reports a) _) (.of_eq _)

/-- Settles O4: a request that holds begins its transition; each transition's end, by the equation of its entry. -/
theorem stateRequestsTakeEffect : Obligations.StateRequestsTakeEffect := by
  refine ⟨fun s st c hc hon hreq h => ?_, fun s hon => ⟨fun st hreq hst => ?_, fun hreq => ?_⟩⟩
  · rw [exec_stateReq s hc hon, State.stateReq_of_holds _ (by simpa using hreq) (by simpa [s.exitIdle_requestHolds st] using h)]
    rfl
  · refine ⟨_, s.next_of_on hon rfl, ?_⟩
    unfold State.stateTransitionDone
    rcases hst with rfl | rfl | rfl <;> rw [hreq]
    · obtain ⟨rings, out, h⟩ := s.enterService_reads
      rw [h]
      exact ⟨rfl, rfl, rfl, rfl, rfl, rfl, rfl, rfl, rfl⟩
    · exact ⟨rfl, rfl, rfl, rfl, rfl, rfl, rfl, rfl, rfl⟩
    · exact ⟨rfl, rfl, rfl, rfl, rfl, rfl, rfl, rfl, rfl⟩
  · refine ⟨_, s.next_of_on hon (if_pos hreq), ?_⟩
    obtain ⟨_, _, _, _, _, _, _, _, h⟩ : s.Reports (if s.regB rLdgCtrl 0 then s.closeInterval else s) :=
      .ite s s.closeInterval_reports (.of_eq s)
    rw [h]
    exact ⟨rfl, rfl, rfl, rfl, rfl, rfl, rfl, rfl, rfl⟩

/-- Settles O5: by the refusal's equation; the end of READY_IDLE moves the power state alone. -/
theorem stateRequestRefused : Obligations.StateRequestRefused := by
  intro s st c hc hon hw h
  refine ⟨_, exec_stateReq s hc hon, ?_⟩
  rw [State.stateReq_of_refused _ (by simpa [s.exitIdle_requestHolds st] using h)]
  refine ⟨State.regB_sysEvent _ 9 (by simpa using hw.regs) (by omega), ?_⟩
  rw [State.sysEvent_eq, s.exitIdle_eq]
  rfl

end Sys2Proof.Machine
end

section
/-! PROOF. What a reset source does at Warm and Cold reach, and where its release leads (R505 to R507, R515, R518). -/

namespace Sys2Proof.Machine

set_option Elab.async false

variable (s : State)

/-! ### The bring-up's first step (R515) -/

theorem State.appendLog_eq :
    s.appendLog = { s with regs := s.appendLog.regs, rst := { s.rst with logSeq := s.rst.logSeq + 1 } } := by
  unfold State.appendLog
  dsimp only
  split <;> rfl

/-- With every source released, `t` begins the bring-up from `s`, or closed-stacks mode with the failed-start count at its limit. -/
structure State.BeginsBringUp (s t : State) : Prop where
  state : t.dev.state = s.startTarget
  prev : t.dev.prev = if 4 ≤ s.rst.epWidest then .off else s.dev.state
  asserted : t.rst.asserted = []
  epOpen : t.rst.epOpen = false
  starts : t.rst.starts = s.rst.starts
  logSeq : t.rst.logSeq = s.rst.logSeq + 1
  released : t.dev.state = .bringUp → t.rst.windowRun = true ∧ ∀ u ∈ t.rst.units, u.phase = .releasing
  rest : t = { s with dev := t.dev, regs := t.regs, rst := t.rst }

theorem State.bringUpStep1_begins (ha : s.rst.asserted = []) : s.BeginsBringUp s.bringUpStep1 := by
  unfold State.bringUpStep1
  dsimp only
  rw [State.appendLog_eq]
  by_cases h : s.rst.starts < s.startLimit
  · have hnot : ¬s.startLimit ≤ s.rst.starts := by omega
    refine ⟨?_, ?_, ha, rfl, rfl, rfl, ?_, rfl⟩ <;> simp [State.goto, State.startTarget, h, hnot]
  · have hle : s.startLimit ≤ s.rst.starts := by omega
    refine ⟨?_, ?_, ha, rfl, rfl, rfl, ?_, rfl⟩ <;> simp [State.goto, State.startTarget, h, hle]

/-! ### The release of what can be released -/

/-- A source asserted, whose release is its own event, keeps every unit that it holds. -/
theorem State.settle_of_held {src : RstSource} {r : Reach} (ha : s.rst.asserted = [(src, r)]) (hopen : s.rst.epOpen = true)
    (hwidest : 3 ≤ s.rst.epWidest) (hauto : src.auto = false) (hr : 3 ≤ r.code) :
    s.settle = s.onRst fun x => { x with asserted := [(src, r)], reqBusy := x.reqBusy && decide (src = .software) } := by
  simp [State.settle, ha, hopen, hwidest, hauto, hr]

/-- With no source left the bring-up of a Warm or Cold episode begins. -/
theorem State.settle_of_released (ha : ∀ e ∈ s.rst.asserted, e.1.auto = true ∧ ∀ u ∈ s.rst.units, u.phase = .held)
    (hopen : s.rst.epOpen = true) (hwidest : 3 ≤ s.rst.epWidest) (hoff : s.dev.state = .off → 4 ≤ s.rst.epWidest) :
    s.BeginsBringUp s.settle := by
  have hleft : s.rst.asserted.filter
      (fun e => !(e.1.auto && s.rst.units.all fun u => !e.2.covers u.unit || decide (u.phase = .held))) = [] := by
    rw [List.filter_eq_nil_iff]
    intro e he
    obtain ⟨hauto, hheld⟩ := ha e he
    simp only [hauto, Bool.true_and, Bool.not_eq_true, Bool.not_eq_false', List.all_eq_true]
    intro u hu
    simp [hheld u hu]
  have hstart : ¬(s.dev.state = .off ∧ s.rst.epWidest < 4) := fun h => absurd (hoff h.1) (by omega)
  have hsettle : s.settle = (s.onRst fun x => { x with asserted := [], reqBusy := false }).bringUpStep1 := by
    unfold State.settle
    simp only [hleft]
    simp [hopen, hwidest, hstart]
  obtain ⟨hstate, hprev, hasserted, hep, hstarts, hlog, hrel, hrest⟩ :=
    State.bringUpStep1_begins (s.onRst fun x => { x with asserted := [], reqBusy := false }) rfl
  rw [hsettle]
  exact ⟨hstate, hprev, hasserted, hep, hstarts, hlog, hrel, hrest⟩

/-! ### A slot update that a reset ends (R524) -/

theorem State.updateSlot_of_flash {s t : State} (hd : t.dev = s.dev) (hf : t.flash = s.flash) : t.updateSlot = s.updateSlot := by
  simp only [State.updateSlot, hd, State.targetSlot_of_flash hf]

/-- A reset that ends a slot update writes flash alone, wherever the reset controller stands. -/
theorem State.abandonUpdate_eq :
    ∃ f, ∀ x, State.abandonUpdate { s with rst := x } = { s with rst := x, flash := f, sec := { s.sec with rcvNext := none } } := by
  by_cases h : s.sec.fwu.isSome = true
  · have hslot (x : Rst) : State.updateSlot { s with rst := x, sec := { s.sec with rcvNext := none } } = s.updateSlot :=
      State.updateSlot_of_flash rfl rfl
    simp only [State.abandonUpdate, State.onSec, State.dropRecord, State.flashWrite, h, if_true, hslot]
    exact ⟨_, fun x => rfl⟩
  · simp only [State.abandonUpdate, State.onSec, h, if_false, Bool.false_eq_true]
    exact ⟨_, fun x => rfl⟩

theorem State.abandonUpdate_flash_of_none (h : s.sec.fwu = none) : s.abandonUpdate.flash = s.flash := by
  simp [State.abandonUpdate, h]

/-! ### A source of Warm or Cold reach asserts (R505, R506) -/

/-- A source of Warm or Cold reach asserts; what it clears is still there. -/
def State.noted (src : RstSource) (reach : Reach) (windowExpired : Bool) : State :=
  let n := (s.onRst fun r => r.note src reach s.dev.state).countStart src windowExpired
  n.onRst fun r => { r with asserted := addNew r.asserted (src, reach), units := r.units.map (UnitRst.covered n.hsTimeout reach) }

theorem State.noted_eq (src : RstSource) (reach : Reach) (we : Bool) :
    s.noted src reach we = { s with rst := (s.noted src reach we).rst } := by
  unfold State.noted State.countStart
  split <;> rfl

/-- The start window and a Fabric release end with a Warm or Cold reset. -/
def State.endStart : State := s.onRst fun r => { r with windowRun := false, fabricRelease := false }

theorem State.assertSource_warm (src : RstSource) (we : Bool) :
    s.assertSource src .warm we = (s.noted src .warm we).warmClear.endStart.settle := by
  simp [State.assertSource, State.noted, State.endStart, Reach.code]

theorem State.assertSource_cold (src : RstSource) (we : Bool) :
    s.assertSource src .cold we = (s.noted src .cold we).coldClear.endStart.settle := by
  simp [State.assertSource, State.noted, State.endStart, Reach.code]

/-! ### A chip-wide source on a part with no other about -/

theorem Rst.note_widest (r : Rst) (src : RstSource) (reach : Reach) (prior : DeviceState) (hr : 3 ≤ reach.code) :
    (r.note src reach prior).epOpen = true ∧ 3 ≤ (r.note src reach prior).epWidest := by
  unfold Rst.note
  split
  · next h => exact ⟨h, hr.trans (le_max_right _ _)⟩
  · rw [if_pos (by omega)]
    exact ⟨rfl, hr.trans (le_max_left _ _)⟩

theorem Rst.note_starts (r : Rst) (src : RstSource) (reach : Reach) (prior : DeviceState) :
    (r.note src reach prior).asserted = r.asserted ∧ (r.note src reach prior).units = r.units ∧
      (r.note src reach prior).starts = r.starts ∧ (r.note src reach prior).windowRun = r.windowRun := by
  unfold Rst.note
  split
  · exact ⟨rfl, rfl, rfl, rfl⟩
  · split <;> exact ⟨rfl, rfl, rfl, rfl⟩

/-- A source of Warm or Cold reach takes a unit that is not in FORCED to HELD. -/
theorem UnitRst.covered_held (hs : Nat) (reach : Reach) (u : UnitRst) (hr : 3 ≤ reach.code) (hu : u.phase ≠ .forced) :
    (UnitRst.covered hs reach u).phase = .held := by
  have hcov : reach.covers u.unit = true := by cases reach <;> simp_all [Reach.covers, Reach.code]
  cases hp : u.phase <;> simp_all [UnitRst.covered]

/-- What `noted` leaves in the reset controller of a calm part. -/
structure State.Noted (s n : State) (src : RstSource) (reach : Reach) (counts : Bool) : Prop where
  asserted : n.rst.asserted = [(src, reach)]
  held : ∀ u ∈ n.rst.units, u.phase = .held
  epOpen : n.rst.epOpen = true
  epWidest : 3 ≤ n.rst.epWidest
  starts : n.rst.starts = if s.rst.windowRun && counts then min 7 (s.rst.starts + 1) else s.rst.starts

theorem State.noted_of_calm (src : RstSource) (reach : Reach) (we : Bool) (hr : 3 ≤ reach.code) (hc : s.calm) :
    s.Noted (s.noted src reach we) src reach (we || src = .brownOut || src = .clockFailure || src = .lockUp) := by
  obtain ⟨hnone, hcalm⟩ := hc
  obtain ⟨hopen, hwidest⟩ := s.rst.note_widest src reach s.dev.state hr
  obtain ⟨hasserted, hunits, hstarts, hrun⟩ := s.rst.note_starts src reach s.dev.state
  have hheld (hs : Nat) : ∀ u ∈ s.rst.units.map (UnitRst.covered hs reach), u.phase = .held := by
    intro u hu
    obtain ⟨v, hv, rfl⟩ := List.mem_map.1 hu
    exact UnitRst.covered_held hs reach v hr (hcalm v hv)
  generalize hcount : (we || src = .brownOut || src = .clockFailure || src = .lockUp) = counts
  cases h : s.rst.windowRun && counts <;>
    simp only [State.noted, State.countStart, State.onRst_rst, hrun, hcount, h, if_true, Bool.false_eq_true, if_false] <;>
    exact ⟨by simp [hasserted, hnone, addNew], by simpa [hunits] using hheld _, by simpa using hopen, by simpa using hwidest,
      by simp [hstarts, h]⟩

/-- What a Warm or Cold reset of `s`, whose reset controller stands as in `x`, leaves before sources are released. -/
structure State.Cleared (s : State) (x : Rst) (t : State) : Prop where
  rst : t.rst = { x with windowRun := false, fabricRelease := false }
  dev : t.dev.state = s.dev.state
  jobs : t.jobs = []
  dram : t.dram = []
  flash : t.flash = s.abandonUpdate.flash
  otp : t.sec.otp = s.sec.otp

theorem State.warmClear_cleared (x : Rst) :
    s.Cleared x (State.warmClear { s with rst := x }).endStart ∧
      (State.warmClear { s with rst := x }).endStart.mgt = { s.mgt with dwinBusy := false, dwinOp := none, held := [] } := by
  obtain ⟨f, hf⟩ := s.abandonUpdate_eq
  have hs : s.abandonUpdate = { s with flash := f, sec := { s.sec with rcvNext := none } } := hf s.rst
  unfold State.warmClear State.endStart
  dsimp only
  rw [hf x]
  exact ⟨⟨rfl, rfl, rfl, rfl, by rw [hs]; rfl, rfl⟩, rfl⟩

theorem State.coldClear_cleared (x : Rst) : s.Cleared x (State.coldClear { s with rst := x }).endStart := by
  obtain ⟨⟨hrst, hdev, hjobs, hdram, hflash, hotp⟩, -⟩ := s.warmClear_cleared x
  exact ⟨hrst, hdev, hjobs, hdram, hflash, hotp⟩

theorem State.startLimit_of_otp {s t : State} (h : t.sec.otp = s.sec.otp) : t.startLimit = s.startLimit := by
  unfold State.startLimit State.otpByte
  rw [h]

/-- The last source of a Warm or Cold episode is released: the bring-up begins. -/
theorem State.releaseSource_begins {src : RstSource} {r : Reach} (ha : s.rst.asserted = [(src, r)]) (hopen : s.rst.epOpen = true)
    (hwidest : 3 ≤ s.rst.epWidest) (hoff : s.dev.state = .off → 4 ≤ s.rst.epWidest) :
    s.BeginsBringUp (s.releaseSource src) := by
  have hrel : s.releaseSource src = (s.onRst fun x => { x with asserted := [] }).settle := by
    simp [State.releaseSource, ha, State.onRst]
  obtain ⟨hstate, hprev, hasserted, hep, hstarts, hlog, hrun, hrest⟩ :=
    State.settle_of_released (s.onRst fun x => { x with asserted := [] }) (by simp) hopen hwidest hoff
  rw [hrel]
  exact ⟨hstate, hprev, hasserted, hep, hstarts, hlog, hrun, hrest⟩

/-- A part that has restarted at Warm reach, with `n` failed starts counted. -/
structure State.Restarted (s t : State) (n : Nat) : Prop where
  state : t.dev.state = if n < s.startLimit then .bringUp else .closedStacks
  starts : t.rst.starts = n
  asserted : t.rst.asserted = []
  jobs : t.jobs = []
  dram : t.dram = []
  flash : t.flash = s.abandonUpdate.flash
  otp : t.sec.otp = s.sec.otp

/-- On a calm part a source that is released once its units are HELD restarts the part at once. -/
theorem State.assertSource_restarts (src : RstSource) (we : Bool) (hauto : src.auto = true) (hc : s.calm) (hon : s.dev.state ≠ .off) :
    s.Restarted (s.assertSource src .warm we)
      (if s.rst.windowRun && (we || src = .brownOut || src = .clockFailure || src = .lockUp) then min 7 (s.rst.starts + 1)
        else s.rst.starts) := by
  obtain ⟨hasserted, hheld, hopen, hwidest, hstarts⟩ := s.noted_of_calm src .warm we (by decide) hc
  rw [State.assertSource_warm, State.noted_eq]
  obtain ⟨⟨hrst, hdev, hjobs, hdram, hflash, hotp⟩, -⟩ := s.warmClear_cleared (s.noted src .warm we).rst
  generalize State.endStart _ = t at *
  obtain ⟨hstate, -, hreleased, -, hcount, -, -, hrest⟩ := t.settle_of_released (by simpa [hrst, hasserted] using ⟨hauto, hheld⟩)
    (by rw [hrst]; exact hopen) (by rw [hrst]; exact hwidest) (by rw [hdev]; exact fun h => absurd h hon)
  have hn : t.rst.starts = (s.noted src .warm we).rst.starts := by rw [hrst]
  refine ⟨?_, ?_, hreleased, ?_, ?_, ?_, ?_⟩
  · rw [hstate, ← hstarts, ← hn, ← State.startLimit_of_otp hotp]
    rfl
  · rw [hcount, ← hstarts, ← hn]
  · rw [hrest]; exact hjobs
  · rw [hrest]; exact hdram
  · rw [hrest]; exact hflash
  · rw [hrest]; exact hotp

/-! ### Fabric reach -/

theorem State.fabricClear_eq : ∃ regs acc col err mgt sec ldg flash, s.fabricClear =
    { s with
      regs := regs, rings := Rings.reset, jobs := [], acc := acc, col := col
      fol := { s.fol with folios := (s.fol.folios.filter Folio.committed).map Folio.settled, shards := [], refills := [] }
      sch := Sch.reset, kv := Kv.reset, err := err, mgt := mgt, sec := sec, ldg := ldg, flash := flash } := by
  obtain ⟨f, hf⟩ := s.abandonUpdate_eq
  have hs : s.abandonUpdate = { s with flash := f, sec := { s.sec with rcvNext := none } } := hf s.rst
  unfold State.fabricClear
  rw [hs]
  dsimp only
  split <;> exact ⟨_, _, _, _, _, _, _, _, rfl⟩

/-- A source of Fabric reach asserts; the fabric's work is still there. -/
def State.fabricNoted (src : RstSource) : State :=
  let n := s.onRst fun r => r.note src .fabric s.dev.state
  let n := n.onRst fun r =>
    { r with asserted := addNew r.asserted (src, .fabric), units := r.units.map (UnitRst.covered n.hsTimeout .fabric) }
  if n.dev.req = some .standby then (n.onDev fun d => { d with req := none }).sysEvent 9 else n

theorem Rst.note_fabricRelease (r : Rst) (src : RstSource) (reach : Reach) (prior : DeviceState) :
    (r.note src reach prior).fabricRelease = r.fabricRelease := by
  unfold Rst.note
  split
  · rfl
  · split <;> rfl

theorem State.fabricNoted_fabricRelease (src : RstSource) : (s.fabricNoted src).rst.fabricRelease = s.rst.fabricRelease := by
  unfold State.fabricNoted
  dsimp only
  split <;> exact Rst.note_fabricRelease _ _ _ _

theorem State.assertSource_fabric (src : RstSource) (we : Bool) (hrel : s.rst.fabricRelease = false) :
    s.assertSource src .fabric we = ((s.fabricNoted src).fabricClear.onRst fun r =>
      { r with fabricRelease := decide ((s.fabricNoted src).dev.state ≠ DeviceState.closedStacks) }).settle := by
  have h := (s.fabricNoted_fabricRelease src).trans hrel
  unfold State.fabricNoted at h ⊢
  simp only [State.assertSource, Reach.code]
  simp only [show ¬ (2 ≥ 3) by omega, if_false, le_refl, decide_true, Bool.and_true, decide_eq_true_eq]
  rw [if_neg (by rw [h]; exact Bool.false_ne_true)]

/-- While the units of a Fabric episode have not acknowledged, its source stays and no unit moves. -/
theorem State.settle_of_idleReq {src : RstSource} (ha : s.rst.asserted = [(src, .fabric)]) (hwidest : s.rst.epWidest = 2)
    (hne : s.rst.units ≠ []) (hu : ∀ u ∈ s.rst.units, u.phase = .idleReq) :
    s.settle = s.onRst fun r => { r with asserted := [(src, .fabric)], reqBusy := r.reqBusy && decide (src = .software) } := by
  have hbusy : (s.rst.units.all fun u => !Reach.fabric.covers u.unit || decide (u.phase = .held)) = false := by
    obtain ⟨u, hmem⟩ := List.exists_mem_of_ne_nil _ hne
    exact List.all_eq_false.2 ⟨u, hmem, by simp [hu u hmem, Reach.covers]⟩
  have hleft : [(src, Reach.fabric)].filter
      (fun e => !(e.1.auto && s.rst.units.all fun u => !e.2.covers u.unit || decide (u.phase = .held))) = [(src, .fabric)] := by
    simp only [List.filter_cons, hbusy, Bool.and_false, Bool.not_false, if_true, List.filter_nil]
  have hstay (c : UnitRst → Bool) (f : UnitRst → UnitRst) :
      s.rst.units.map (fun u => if decide (u.phase = .held) && c u then f u else u) = s.rst.units := by
    conv_rhs => rw [← List.map_id s.rst.units]
    exact List.map_congr_left fun u hmem => by simp [hu u hmem]
  unfold State.settle
  simp only [ha, hleft, State.onRst_rst]
  simp only [hwidest, Reach.code, ge_iff_le, Nat.reduceLeDiff, decide_false, Bool.and_false, Bool.false_eq_true, if_false, List.all_cons,
    ne_eq, not_true_eq_false, Bool.false_and, List.any_cons, List.any_nil, Bool.or_false, Bool.and_assoc]
  exact congrArg (fun us => s.onRst fun r =>
      { r with units := us, asserted := [(src, .fabric)], reqBusy := r.reqBusy && decide (src = .software) })
    (hstay (fun u => !Reach.fabric.covers u.unit && decide (s.dev.state ≠ .closedStacks)) fun u => { u with phase := .releasing })

theorem Rst.cutShort_of_run (r : Rst) (prior : DeviceState) (h : ∀ u ∈ r.units, u.phase = .run) : r.cutShort prior = 0 := by
  have hfil : r.units.filter (fun u => decide (u.phase ≠ .run) && decide (u.widest ≥ 3)) = [] :=
    List.filter_eq_nil_iff.2 fun u hu => by simp [h u hu]
  unfold Rst.cutShort
  rw [hfil]
  exact ite_self 0

/-- A source of Fabric reach puts a part at work into the idle handshake. -/
theorem State.fabricNoted_of_allRun (src : RstSource) (hall : s.allRun) :
    (s.fabricNoted src).rst.asserted = [(src, .fabric)] ∧ (s.fabricNoted src).rst.epWidest = 2 ∧
      (s.fabricNoted src).rst.units = s.rst.units.map (UnitRst.covered s.hsTimeout .fabric) ∧
      (s.fabricNoted src).dram = s.dram ∧ (s.fabricNoted src).fol = s.fol ∧ (s.fabricNoted src).dev.state = s.dev.state := by
  obtain ⟨hnone, hclosed, hrun⟩ := hall
  have hnote : s.rst.note src .fabric s.dev.state =
      { s.rst with epOpen := true, epSources := [src], epWidest := 2, epForced := false, epPrior := s.dev.state, epFailed := false } := by
    simp [Rst.note, hclosed, Reach.code, s.rst.cutShort_of_run _ hrun]
  unfold State.fabricNoted
  dsimp only
  split <;> refine ⟨?_, ?_, ?_, rfl, rfl, rfl⟩ <;> simp [hnote, hnone, addNew] <;> exact fun _ _ => rfl

/-- With every unit at work a source of Fabric reach puts every unit into the idle handshake and ends every job. -/
theorem State.assertSource_fabric_of_allRun (src : RstSource) (hall : s.allRun) (hrel : s.rst.fabricRelease = false)
    (hne : s.rst.units ≠ []) :
    (∀ u ∈ (s.assertSource src .fabric false).rst.units, u.phase = .idleReq) ∧ (s.assertSource src .fabric false).jobs = [] ∧
      (s.assertSource src .fabric false).dram = s.dram ∧
      (s.assertSource src .fabric false).fol.folios = (s.fol.folios.filter (·.committed)).map Folio.settled ∧
      (s.assertSource src .fabric false).dev.state = s.dev.state := by
  obtain ⟨hasserted, hwidest, hunits, hdram, hfol, hdev⟩ := s.fabricNoted_of_allRun src hall
  have hidle : ∀ u ∈ (s.fabricNoted src).rst.units, u.phase = .idleReq := by
    rw [hunits]
    intro u hu
    obtain ⟨v, hv, rfl⟩ := List.mem_map.1 hu
    simp [UnitRst.covered, Reach.covers, hall.2.2 v hv, Reach.code]
  obtain ⟨_, _, _, _, _, _, _, _, hclear⟩ := (s.fabricNoted src).fabricClear_eq
  obtain ⟨t, ht, hrst, hjobs, hdram', hfol', hdev'⟩ : ∃ t : State, s.assertSource src .fabric false = t.settle ∧
      (∃ b, t.rst = { (s.fabricNoted src).rst with fabricRelease := b }) ∧ t.jobs = [] ∧ t.dram = (s.fabricNoted src).dram ∧
      t.fol.folios = ((s.fabricNoted src).fol.folios.filter Folio.committed).map Folio.settled ∧ t.dev = (s.fabricNoted src).dev :=
    ⟨_, s.assertSource_fabric src false hrel, by rw [hclear]; exact ⟨⟨_, rfl⟩, rfl, rfl, rfl, rfl⟩⟩
  obtain ⟨b, hrst⟩ := hrst
  rw [ht, t.settle_of_idleReq (src := src) (by rw [hrst]; exact hasserted) (by rw [hrst]; exact hwidest)
    (by rw [hrst]; simpa [hunits] using hne) (by rw [hrst]; exact hidle)]
  exact ⟨by simp only [State.onRst_rst, hrst]; exact hidle, hjobs, hdram'.trans hdram, by rw [← hfol]; exact hfol',
    by rw [← hdev, ← hdev']; rfl⟩

/-! ### Start window and watchdog -/

theorem State.startOk_eq (hb : s.dev.state = .bringUp) (hrun : s.rst.windowRun = true) (hp : s.dev.penuo.isSome = true)
    (hunits : ∀ u ∈ s.rst.units, u.phase = .run) :
    s.startOk =
      let t := (s.onRst fun r => { r with starts := 0, windowRun := false }).flag rRstStart 0
      if t.regB rErrStatus 0 then ((t.goto .recovery).onDev fun d => { d with fatalEntry := true }).mgtInt 3 else t.enterService :=
  if_pos (by simpa [hb, hrun, hp] using hunits)

/-- Settles O6: START_OK by its equation; each expiry by what its source does on a calm part, or on one at work. -/
theorem startWindowAndWatchdog : Obligations.StartWindowAndWatchdog := by
  refine ⟨fun s hb hrun hp hunits hw => ?_, fun s hb hrun hc => ?_, fun s hserves hen => ?_⟩
  · have hon : s.dev.state ≠ .off := by simp [hb]
    refine ⟨_, s.next_of_on hon (s.startOk_eq hb hrun hp hunits), ?_⟩
    have hwf : cellsFrom regReset 0 (s.onRst fun r => { r with starts := 0, windowRun := false }).regs = true := hw.regs
    have hstart := State.regB_flag_same _ rRstStart 0 hwf (by omega)
    have herr : (State.flag (s.onRst fun r => { r with starts := 0, windowRun := false }) rRstStart 0).regB rErrStatus 0 =
        s.regB rErrStatus 0 :=
      congrArg (wbit · 0) (State.reg_flag_other _ _ _ _ (by decide) hwf)
    dsimp only
    rw [herr]
    cases he : s.regB rErrStatus 0
    · obtain ⟨rings, out, h⟩ := State.enterService_reads
        (State.flag (s.onRst fun r => { r with starts := 0, windowRun := false }) rRstStart 0)
      rw [if_neg Bool.false_ne_true, h]
      exact ⟨rfl, rfl, hstart, hb, fun _ => ⟨rfl, rfl⟩, fun h => absurd h Bool.false_ne_true⟩
    · refine ⟨rfl, rfl, ?_, hb, fun h => absurd h.symm Bool.false_ne_true, fun _ => ⟨rfl, rfl⟩⟩
      exact (congrArg (wbit · 0) (State.reg_flag_other _ _ _ _ (by decide) (State.flag_regsWf _ _ _ hwf))).trans hstart
  · have hon : s.dev.state ≠ .off := by simp [hb]
    refine ⟨_, s.next_of_on hon (if_pos hrun), ?_⟩
    obtain ⟨hstate, hstarts, hasserted, hjobs, hdram, hflash, hotp⟩ := s.assertSource_restarts .watchdog true rfl hc hon
    simp only [hrun, Bool.true_or, Bool.and_self, if_true] at hstate hstarts
    exact ⟨hstarts, hstate, hjobs, hdram, hasserted, hflash, fun h => hflash.trans (s.abandonUpdate_flash_of_none h), hotp⟩
  · have hon : s.dev.state ≠ .off := by rintro h; simp [h, DeviceState.serves] at hserves
    have hgo : (s.regB rRstWdog 0 && s.dev.state.serves) = true := by rw [hen, hserves]; rfl
    refine ⟨s.next_of_on hon (if_pos hgo), fun hall hrel hne hfab => ?_, fun hc hfab => ?_⟩
    · have hex : s.watchdogExpiry = (s.onDev fun d => { d with wdog := some s.wdogPeriod }).assertSource .watchdog .fabric false := by
        simp [State.watchdogExpiry, hgo, hfab]
      exact ⟨_, s.next_of_on hon hex, State.assertSource_fabric_of_allRun _ .watchdog hall hrel hne⟩
    · have hex : s.watchdogExpiry = (s.onDev fun d => { d with wdog := some s.wdogPeriod }).assertSource .watchdog .warm false := by
        simp [State.watchdogExpiry, hgo, hfab]
      obtain ⟨hstate, hstarts, -, hjobs, hdram, -, -⟩ :=
        State.assertSource_restarts (s.onDev fun d => { d with wdog := some s.wdogPeriod }) .watchdog false rfl hc hon
      simp only [Bool.false_or, reduceCtorEq, decide_false, Bool.and_false, if_false, Bool.false_eq_true] at hstate hstarts
      exact ⟨_, s.next_of_on hon hex, hstate, hstarts, hjobs, hdram⟩

/-! ### Power and pins -/

theorem State.whenPowered_of_on (f : State → State) (hon : s.dev.state ≠ .off) : s.whenPowered f = f s :=
  if_neg (by simp [hon])

/-- A source asserted that waits for its own release holds a calm part. -/
theorem State.Noted.settle_eq {n t : State} {src : RstSource} {reach : Reach} {counts : Bool} (h : s.Noted n src reach counts)
    (ht : t.rst = { n.rst with windowRun := false, fabricRelease := false }) (hauto : src.auto = false) (hr : 3 ≤ reach.code) :
    t.settle = t.onRst fun x => { x with asserted := [(src, reach)], reqBusy := x.reqBusy && decide (src = .software) } :=
  t.settle_of_held (by rw [ht]; exact h.asserted) (by rw [ht]; exact h.epOpen) (by rw [ht]; exact h.epWidest) hauto hr

/-- Settles O7: supplies and pins by what a source of their reach clears, and by what the last release begins. -/
theorem powerAndPinResets : Obligations.PowerAndPinResets := by
  refine ⟨fun s => ⟨fun hoff => ?_, fun ha hopen hwidest => ?_, fun ha hopen hwidest => ?_, ?_⟩, fun s hon hc => ⟨?_, ?_⟩,
    fun s c src r hon hopen hcmd ha => ?_⟩
  · obtain ⟨-, -, hjobs, hdram, hflash, hotp⟩ := s.coldClear_cleared s.rst
    refine ⟨_, congrArg Host.Outcome.next (if_pos hoff), rfl, rfl, rfl, ?_, hjobs, hdram, ?_, hotp⟩
    · exact fun u hu => by obtain ⟨v, -, rfl⟩ := List.mem_map.1 hu; rfl
    · exact fun h => hflash.trans (s.abandonUpdate_flash_of_none h)
  · obtain ⟨hstate, hprev, hasserted, -, -, hlog, hrel, -⟩ := s.releaseSource_begins ha hopen (by omega) (fun _ => by omega)
    have hex : s.powerOnRelease false = s.releaseSource .powerOn := by simp [State.powerOnRelease, ha]
    refine ⟨_, congrArg Host.Outcome.next hex, hstate, ?_, hasserted, hrel, hlog⟩
    rw [hprev, if_pos hwidest.ge]
  · have hex : s.powerOnRelease true =
        State.settle (s.onRst fun r => { r with asserted := [(.brownOut, .cold)], epSources := addNew r.epSources .brownOut }) := by
      simp [State.powerOnRelease, State.releaseSource, ha, addNew, State.onRst]
    have hheld := hex.trans (State.settle_of_held _ (src := .brownOut) (r := .cold) rfl hopen (by simp [hwidest]) rfl (by decide))
    exact ⟨_, congrArg Host.Outcome.next hheld, rfl, rfl, rfl⟩
  · obtain ⟨-, -, hjobs, hdram, hflash, hotp⟩ := s.coldClear_cleared s.rst
    exact ⟨_, rfl, rfl, rfl, rfl, hjobs, hdram, hflash, fun h => hflash.trans (s.abandonUpdate_flash_of_none h), hotp⟩
  · obtain ⟨hrst, -, hjobs, hdram, -, -⟩ := s.coldClear_cleared (s.noted .brownOut .cold false).rst
    have hn := s.noted_of_calm .brownOut .cold false (by decide) hc
    rw [← State.noted_eq] at hrst hjobs hdram
    refine ⟨_, congrArg Host.Outcome.next (s.whenPowered_of_on _ hon), ?_⟩
    rw [State.assertSource_cold, State.Noted.settle_eq s hn hrst rfl (by decide)]
    refine ⟨rfl, ?_, hjobs, hdram, ?_⟩
    · simp only [State.onRst_rst, hrst]; exact hn.held
    · simp only [State.onRst_rst, hrst]; simpa using hn.starts
  · obtain ⟨⟨hrst, -, hjobs, hdram, -, -⟩, hmgt⟩ := s.warmClear_cleared (s.noted .resetN .warm false).rst
    have hn := s.noted_of_calm .resetN .warm false (by decide) hc
    rw [← State.noted_eq] at hrst hjobs hdram hmgt
    refine ⟨_, congrArg Host.Outcome.next (s.whenPowered_of_on _ hon), ?_⟩
    rw [State.assertSource_warm, State.Noted.settle_eq s hn hrst rfl (by decide)]
    refine ⟨rfl, ?_, hjobs, hdram, ?_, congrArg (·.mode8d) hmgt, congrArg (·.inbox) hmgt, congrArg (·.outbox) hmgt⟩
    · simp only [State.onRst_rst, hrst]; exact hn.held
    · simp only [State.onRst_rst, hrst]; simpa using hn.starts
  · have hwidest : 3 ≤ s.rst.epWidest := by rcases hcmd with ⟨-, -, -, h⟩ | ⟨-, -, -, h⟩ <;> omega
    have hex : exec c s = .next (s.releaseSource src) := by
      rcases hcmd with ⟨rfl, rfl, -, -⟩ | ⟨rfl, rfl, -, -⟩ <;> exact congrArg Host.Outcome.next (s.whenPowered_of_on _ hon)
    obtain ⟨hstate, hprev, hasserted, hep, hstarts, hlog, hrel, -⟩ := s.releaseSource_begins ha hopen hwidest fun h => absurd h hon
    refine ⟨_, hex, hstate, hasserted, hep, hstarts, hlog, hprev.trans ?_, hrel⟩
    rcases hcmd with ⟨-, -, -, h⟩ | ⟨-, -, -, h⟩ <;> simp [h]

end Sys2Proof.Machine
end

section
/-! PROOF. Embedded mode (R60), wakes of the host and the port (R32, R537), and the host boot handshake (R43, R575). -/

namespace Sys2Proof.Machine

set_option Elab.async false

variable (s : State)

/-! ### MGT_EMB (R60) -/

theorem mem_allRings_iff (r : RingId) : r ∈ allSqs ++ allProds ↔ ringValid r = true := by
  cases r <;> simp [allSqs, allProds, ringValid]

theorem ringCtrl_ne_mgtEmb {r : RingId} (h : ringValid r = true) : ringCtrl r ≠ rMgtEmb := by
  cases r with
  | sq n => simp only [ringCtrl, rRingSqCtrl, rMgtEmb]; omega
  | cq n => simp only [ringCtrl, rRingCqCtrl, rMgtEmb]; omega
  | err | ldg => decide

theorem State.any_ringEn_iff : (allSqs ++ allProds).any s.ringEn = true ↔ ∃ r, ringValid r = true ∧ s.ringEn r = true := by
  simp only [List.any_eq_true, mem_allRings_iff]

/-- Records held for the error ring go to the mailbox; of the registers ERR_NUMBER alone moves, and it only with one of them. -/
theorem State.errsToMailbox_reg (o : Nat) (hw : cellsFrom regReset 0 s.regs = true) (ho : o = rErrNumber → s.err.held = []) :
    s.errsToMailbox.reg o = s.reg o := by
  unfold State.errsToMailbox
  by_cases h : o = rErrNumber
  · rw [ho h]; rfl
  · dsimp only
    refine (List.foldlRecOn (motive := fun t : State => cellsFrom regReset 0 t.regs = true ∧ t.reg o = s.reg o)
      s.err.held _ (b := s.onErr fun e => { e with held := [] }) ⟨hw, rfl⟩ ?_).2
    intro t ⟨ht, hreg⟩ r _
    split
    · exact ⟨t.setRegF_regsWf _ _ _ _ ht, (t.reg_setRegF_other _ _ _ _ _ h ht).trans hreg⟩
    · exact ⟨ht, hreg⟩

/-- The write with REFUSED cleared as its bit 1 asks. -/
def State.embAck (v : Word) : State := if wbit v 1 then s.setRegF rMgtEmb 1 1 0 else s

theorem State.embAck_eq (v : Word) : s.embAck v = { s with regs := (s.embAck v).regs } := by
  unfold State.embAck
  split <;> rfl

theorem State.embAck_regs (v : Word) (hw : cellsFrom regReset 0 s.regs = true) :
    cellsFrom regReset 0 (s.embAck v).regs = true ∧ (s.embAck v).emb = s.emb ∧ ∀ o, o ≠ rMgtEmb → (s.embAck v).reg o = s.reg o := by
  unfold State.embAck
  split
  · exact ⟨s.setRegF_regsWf _ _ _ _ hw, by simp [State.emb, s.regB_setRegF _ _ _ _ _ hw], fun o ho => s.reg_setRegF_other _ _ _ _ _ ho hw⟩
  · exact ⟨hw, rfl, fun _ _ => rfl⟩

theorem State.embAck_ringEn (v : Word) (hw : cellsFrom regReset 0 s.regs = true) :
    (allSqs ++ allProds).any (s.embAck v).ringEn = (allSqs ++ allProds).any s.ringEn := by
  obtain ⟨-, -, hreg⟩ := s.embAck_regs v hw
  rw [Bool.eq_iff_iff, State.any_ringEn_iff, State.any_ringEn_iff]
  refine exists_congr fun r => and_congr_right fun hr => ?_
  rw [State.ringEn, State.regB, hreg _ (ringCtrl_ne_mgtEmb hr)]
  rfl

theorem State.mgtEmbWrite_eq (v : Word) (hw : cellsFrom regReset 0 s.regs = true) (hl : s.locked = false) :
    s.mgtEmbWrite v =
      if wbit v 0 ≠ s.emb ∧ (allSqs ++ allProds).any s.ringEn = true then (s.embAck v).flag rMgtEmb 1
      else
        let t := (s.embAck v).setRegF rMgtEmb 0 1 (b2n (wbit v 0))
        if t.emb && !s.emb then t.errsToMailbox else t := by
  obtain ⟨-, hemb, hreg⟩ := s.embAck_regs v hw
  have hlock : (s.embAck v).locked = false := by rw [← hl]; exact congrArg (wbit · 0) (hreg _ (by decide))
  rw [← hemb, ← s.embAck_ringEn v hw]
  change (if (s.embAck v).locked = true then _ else _) = _
  rw [hlock, if_neg Bool.false_ne_true]
  simp [State.embAck]

/-- A change of EN while a ring is enabled is refused. -/
theorem State.mgtEmbWrite_refused {v : Word} (hw : cellsFrom regReset 0 s.regs = true) (hl : s.locked = false) (hv : wbit v 0 ≠ s.emb)
    (hr : ∃ r, ringValid r = true ∧ s.ringEn r = true) :
    (s.mgtEmbWrite v).emb = s.emb ∧ (s.mgtEmbWrite v).regB rMgtEmb 1 = true := by
  obtain ⟨hwf, hemb, -⟩ := s.embAck_regs v hw
  rw [s.mgtEmbWrite_eq v hw hl, if_pos ⟨hv, s.any_ringEn_iff.2 hr⟩]
  exact ⟨(State.regB_flag_other _ _ _ _ hwf (by omega) (by omega)).trans hemb, State.regB_flag_same _ _ _ hwf (by omega)⟩

/-- Any other write sets EN, and moves no other register but ERR_NUMBER. -/
theorem State.mgtEmbWrite_taken {v : Word} (hw : cellsFrom regReset 0 s.regs = true) (hl : s.locked = false)
    (h : ¬(wbit v 0 ≠ s.emb ∧ ∃ r, ringValid r = true ∧ s.ringEn r = true)) :
    (s.mgtEmbWrite v).emb = wbit v 0 ∧
      ∀ o, o ≠ rMgtEmb → (o = rErrNumber → s.err.held = []) → (s.mgtEmbWrite v).reg o = s.reg o := by
  obtain ⟨hwf, -, hreg⟩ := s.embAck_regs v hw
  rw [s.mgtEmbWrite_eq v hw hl, if_neg (by rwa [s.any_ringEn_iff])]
  generalize ht : (s.embAck v).setRegF rMgtEmb 0 1 (b2n (wbit v 0)) = t
  have htw : cellsFrom regReset 0 t.regs = true := ht ▸ State.setRegF_regsWf _ _ _ _ _ hwf
  have hset : t.emb = wbit v 0 := by
    rw [← ht, State.emb, State.regB_setRegF _ _ _ _ _ _ hwf (by omega)]
    cases wbit v 0 <;> rfl
  have hheld : t.err.held = s.err.held := by rw [← ht, s.embAck_eq v]; rfl
  have hother : ∀ o, o ≠ rMgtEmb → t.reg o = s.reg o := fun o ho =>
    ht ▸ (State.reg_setRegF_other _ _ _ _ _ _ ho hwf).trans (hreg o ho)
  dsimp only
  split
  · refine ⟨?_, fun o ho hnum => (t.errsToMailbox_reg o htw (hheld ▸ hnum)).trans (hother o ho)⟩
    exact (congrArg (wbit · 0) (t.errsToMailbox_reg rMgtEmb htw (fun h => absurd h (by decide)))).trans hset
  · exact ⟨hset, fun o ho _ => hother o ho⟩

/-! ### Wakes (R32, R537) -/

theorem State.wake_of_standby {c : WakeCause} (hen : s.wakeEnabled c = true) (hst : s.dev.state = .standby) (hreq : s.dev.req = none) :
    s.wake c = (s.onDev fun d => { d with power := .exiting, waking := true }).flag rPwrWakeCause c.bit := by
  simp [State.wake, hen, hst, hreq]

theorem State.wake_of_entry {c : WakeCause} (hen : s.wakeEnabled c = true) (hreq : s.dev.req = some .standby) :
    s.wake c = ((s.onDev fun d => { d with req := none }).sysEvent 10).flag rPwrWakeCause c.bit := by
  simp [State.wake, hen, hreq]

/-- What a host access or a MGT_WAKE does: each wakes the part, the port's command after its own effects. -/
theorem exec_wake {c : Instr} {bit : Nat} (hc : (c = .hostAccessWake ∧ bit = 0) ∨ (c = .mgtWake 0 ∧ bit = 1))
    (hon : s.dev.state ≠ .off) :
    ∃ (u : State) (k : WakeCause), exec c s = .next (u.wake k) ∧ u.wakeEnabled k = true ∧ k.bit = bit ∧ u.regs = s.regs ∧
      u.jobs = s.jobs ∧ u.dev.state = s.dev.state ∧ u.dev.req = s.dev.req := by
  rcases hc with ⟨rfl, rfl⟩ | ⟨rfl, rfl⟩
  · exact ⟨s, .host, s.next_of_on hon rfl, rfl, rfl, rfl, rfl, rfl, rfl⟩
  · exact ⟨s.exitIdle.last lastOk, .mgt, s.next_of_on hon rfl, rfl, rfl, s.exitIdle_regs, s.exitIdle_jobs, s.exitIdle_dev_state,
      by rw [State.last, State.onMgt_dev, s.exitIdle_eq]; rfl⟩

/-! ### Host boot (R43, R575) -/

theorem State.regF_of_regs {s t : State} (h : t.regs = s.regs) (off lo n : Nat) : t.regF off lo n = s.regF off lo n :=
  congrArg (wbits · lo n) (State.reg_of_regs h off)

theorem State.regF_hostBootGo (len : Nat) (hw : cellsFrom regReset 0 s.regs = true) :
    (s.setRegF rHlkBoot 0 28 len).regF rHlkBoot 29 2 = s.regF rHlkBoot 29 2 :=
  s.regF_setRegF_field _ _ _ _ _ _ hw (by omega) (by omega)

theorem State.hostBootGo_eq (len : Nat) (hst : s.dev.state = .bringUp) (hboot : s.dev.hostBoot = true) (hup : s.rst.fabricRelease = false) :
    s.hostBootGo len =
      let t := s.setRegF rHlkBoot 0 28 len
      if s.regF rHlkBoot 29 2 = 0 ∨ s.regF rHlkBoot 29 2 = 3 then
        (t.setRegF rHlkBoot 29 2 1).onDev fun d => { d with hostLen := len }
      else t := by
  simp [State.hostBootGo, s.fabricHidden_of_up hup, hst, hboot]

@[simp] theorem State.loadPenuo_regs (src : BootSrc) (img : Bytes) : (s.loadPenuo src img).regs = s.regs := rfl
@[simp] theorem State.loadPenuo_penuo (src : BootSrc) (img : Bytes) : (s.loadPenuo src img).dev.penuo = some src := rfl
@[simp] theorem State.loadPenuo_hostBoot (src : BootSrc) (img : Bytes) : (s.loadPenuo src img).dev.hostBoot = false := rfl
@[simp] theorem State.loadPenuo_dram (src : BootSrc) (img : Bytes) : (s.loadPenuo src img).dram = s.dram := rfl

/-- A state of the handshake, as HLK_BOOT reads it (R43). -/
theorem State.regF_hostBootState (v : Nat) (hw : cellsFrom regReset 0 s.regs = true) (hv : v < 4) :
    (s.setRegF rHlkBoot 29 2 v).regF rHlkBoot 29 2 = v := by
  rw [State.regF_setRegF_same _ _ _ _ _ hw (by omega)]
  exact Nat.mod_eq_of_lt hv

theorem State.hostBootVerifyDone_eq (hst : s.dev.state = .bringUp) (hboot : s.dev.hostBoot = true) (hv : s.regF rHlkBoot 29 2 = 1) :
    s.hostBootVerifyDone =
      let img := s.dramRead s.windowBase s.dev.hostLen
      if s.imgOk img s.dev.hostLen then
        (s.setRegF rHlkBoot 29 2 2).loadPenuo
          { slotB := false, host := true, fallback := s.link.bootSel = 2 && s.bootOrder ≠ [], svn := imgSvn img } img
      else s.setRegF rHlkBoot 29 2 3 :=
  if_pos (by simp [hst, hboot, hv])

/-- GO while the ROM waits, or has rejected an image, starts a verification. -/
theorem State.hostBootGo_starts (len : Nat) (hw : cellsFrom regReset 0 s.regs = true) (hst : s.dev.state = .bringUp)
    (hboot : s.dev.hostBoot = true) (hup : s.rst.fabricRelease = false) (hgo : s.regF rHlkBoot 29 2 = 0 ∨ s.regF rHlkBoot 29 2 = 3) :
    (s.hostBootGo len).regF rHlkBoot 29 2 = 1 ∧ (s.hostBootGo len).dev.hostLen = len := by
  rw [s.hostBootGo_eq len hst hboot hup]
  simp only [hgo, if_true]
  refine ⟨?_, rfl⟩
  rw [State.regF_of_regs (State.onDev_regs _ _), State.regF_hostBootState _ _ (State.setRegF_regsWf s _ _ _ _ hw) (by omega)]

/-- GO while VERIFYING or ACCEPTED leaves the handshake as it is. -/
theorem State.hostBootGo_ignored (len : Nat) (hw : cellsFrom regReset 0 s.regs = true) (hst : s.dev.state = .bringUp)
    (hboot : s.dev.hostBoot = true) (hup : s.rst.fabricRelease = false) (hno : s.regF rHlkBoot 29 2 = 1 ∨ s.regF rHlkBoot 29 2 = 2) :
    (s.hostBootGo len).regF rHlkBoot 29 2 = s.regF rHlkBoot 29 2 ∧ (s.hostBootGo len).dev = s.dev := by
  have hstay : ¬(s.regF rHlkBoot 29 2 = 0 ∨ s.regF rHlkBoot 29 2 = 3) := by omega
  rw [s.hostBootGo_eq len hst hboot hup]
  simp only [hstay, if_false]
  exact ⟨s.regF_hostBootGo len hw, rfl⟩

theorem State.hostBootVerifyDone_accepts (hw : cellsFrom regReset 0 s.regs = true) (hst : s.dev.state = .bringUp)
    (hboot : s.dev.hostBoot = true) (hv : s.regF rHlkBoot 29 2 = 1)
    (hok : s.imgOk (s.dramRead s.windowBase s.dev.hostLen) s.dev.hostLen = true) :
    s.hostBootVerifyDone.regF rHlkBoot 29 2 = 2 ∧ s.hostBootVerifyDone.dev.penuo.isSome = true ∧
      s.hostBootVerifyDone.dev.hostBoot = false ∧ s.hostBootVerifyDone.dram = s.dram := by
  rw [s.hostBootVerifyDone_eq hst hboot hv]
  simp only [hok, if_true]
  rw [State.regF_of_regs (State.loadPenuo_regs _ _ _), s.regF_hostBootState 2 hw (by omega), State.loadPenuo_penuo,
    State.loadPenuo_hostBoot, State.loadPenuo_dram]
  exact ⟨rfl, rfl, rfl, rfl⟩

theorem State.hostBootVerifyDone_rejects (hw : cellsFrom regReset 0 s.regs = true) (hst : s.dev.state = .bringUp)
    (hboot : s.dev.hostBoot = true) (hv : s.regF rHlkBoot 29 2 = 1)
    (hbad : s.imgOk (s.dramRead s.windowBase s.dev.hostLen) s.dev.hostLen = false) :
    s.hostBootVerifyDone.regF rHlkBoot 29 2 = 3 ∧ s.hostBootVerifyDone.dev = s.dev ∧ s.hostBootVerifyDone.dram = s.dram := by
  rw [s.hostBootVerifyDone_eq hst hboot hv]
  simp only [hbad, Bool.false_eq_true, if_false]
  exact ⟨s.regF_hostBootState 3 hw (by omega), rfl, rfl⟩

/-- Settles O30: a write of MGT_EMB by its two outcomes, the wakes by the wake's equation in each state, the host boot by its steps. -/
theorem embeddedModeAndHostBoot : Obligations.EmbeddedModeAndHostBoot := by
  refine ⟨fun s hi hon => ⟨fun v hl => ⟨fun h => ?_, fun h => ?_⟩, fun c bit hc => ?_⟩,
    fun s len hi hst hboot hup => ?_⟩
  · have hemb : s.exitIdle.emb = s.emb := congrArg (wbit · 0) (s.exitIdle_reg _)
    obtain ⟨hv, r, hr, hen⟩ := h
    obtain ⟨hkept, hrefused⟩ := s.exitIdle.mgtEmbWrite_refused (v := v) (by simpa using hi.mem.regs) (by simpa using hl) (hemb ▸ hv)
      ⟨r, hr, (congrArg (wbit · 0) (s.exitIdle_reg _)).trans hen⟩
    exact ⟨_, s.next_of_on hon rfl, hkept.trans hemb, hrefused⟩
  · have hemb : s.exitIdle.emb = s.emb := congrArg (wbit · 0) (s.exitIdle_reg _)
    have hring (r : RingId) : s.exitIdle.ringEn r = s.ringEn r := congrArg (wbit · 0) (s.exitIdle_reg _)
    have herr : s.exitIdle.err = s.err := by rw [s.exitIdle_eq]; rfl
    obtain ⟨hset, hother⟩ := s.exitIdle.mgtEmbWrite_taken (v := v) (by simpa using hi.mem.regs) (by simpa using hl)
      (by simpa only [hemb, hring] using h)
    exact ⟨_, s.next_of_on hon rfl, hset, fun o ho hnum => (hother o ho (herr ▸ hnum)).trans (s.exitIdle_reg o)⟩
  · obtain ⟨u, k, hex, hen, rfl, hregs, hjobs, hstate, hreq⟩ := exec_wake s hc hon
    have hw : cellsFrom regReset 0 u.regs = true := hregs ▸ hi.mem.regs
    have hbit : k.bit < 32 := by rcases hc with ⟨-, h⟩ | ⟨-, h⟩ <;> omega
    refine ⟨fun hst hnone => ⟨_, hex, ?_⟩, fun hst hentry => ⟨_, hex, ?_⟩⟩
    · rw [u.wake_of_standby hen (hstate.trans hst) (hreq.trans hnone)]
      exact ⟨rfl, rfl, State.regB_flag_same _ _ _ hw hbit, hjobs⟩
    · rw [u.wake_of_entry hen (hreq.trans hentry)]
      have hev : cellsFrom regReset 0 (State.sysEvent (u.onDev fun d => { d with req := none }) 10).regs = true :=
        State.flag_regsWf _ _ _ (State.flag_regsWf _ _ _ hw)
      refine ⟨rfl, hstate.trans hst, ?_, State.regB_flag_same _ _ _ hev hbit⟩
      exact (congrArg (wbit · 10) (State.reg_flag_other _ _ _ _ (by decide) hev)).trans (State.regB_sysEvent _ _ hw (by omega))
  · have hon : s.dev.state ≠ .off := by simp [hst]
    have hw := hi.mem.regs
    refine ⟨fun hgo => ⟨_, s.next_of_on hon rfl, s.hostBootGo_starts len hw hst hboot hup hgo⟩,
      fun hno => ⟨_, s.next_of_on hon rfl, s.hostBootGo_ignored len hw hst hboot hup hno⟩,
      fun hv => ⟨fun hok => ⟨_, s.next_of_on hon rfl, s.hostBootVerifyDone_accepts hw hst hboot hv hok⟩,
        fun hbad => ⟨_, s.next_of_on hon rfl, s.hostBootVerifyDone_rejects hw hst hboot hv hbad⟩⟩⟩

end Sys2Proof.Machine
end

section
/-! PROOF. What an error record logs, and what an error of each severity stops (R551 to R555). -/

namespace Sys2Proof.Machine

set_option Elab.async false

variable {s : State}

/-! ### The log -/

/-- From `s` to `t` an error is logged: the registers of the error block, the error ring, what is sent and counted for it, and the
history of pairs may differ; embedded mode and the error ring's control stay. -/
structure State.Logs (s t : State) : Prop where
  form : ∃ regs out link errRing pj pairs,
    t = { s with
          regs := regs, out := out, link := link, rings := { s.rings with errRing := errRing }
          ldg := { s.ldg with devicePj := pj }, err := { s.err with pairs := pairs } }
  wf : cellsFrom regReset 0 t.regs = true
  emb : t.reg rMgtEmb = s.reg rMgtEmb
  ctrl : t.reg rRingErrCtrl = s.reg rRingErrCtrl

theorem State.Logs.refl (hw : cellsFrom regReset 0 s.regs = true) : s.Logs s := ⟨⟨_, _, _, _, _, _, rfl⟩, hw, rfl, rfl⟩

theorem State.Logs.trans {t u : State} (h : s.Logs t) (h' : t.Logs u) : s.Logs u := by
  obtain ⟨⟨_, _, _, _, _, _, rfl⟩, -, hemb, hctrl⟩ := h
  obtain ⟨⟨_, _, _, _, _, _, rfl⟩, hw, hemb', hctrl'⟩ := h'
  exact ⟨⟨_, _, _, _, _, _, rfl⟩, hw, hemb'.trans hemb, hctrl'.trans hctrl⟩

/-- A change of what the log may touch, outside the registers. -/
theorem State.Logs.of_regs {t : State} {out : List Out} {link : Link} {errRing : ProdRing} {pj : Nat} {pairs : List ErrPair}
    (hw : cellsFrom regReset 0 s.regs = true)
    (h : t = { s with
               out := out, link := link, rings := { s.rings with errRing := errRing }
               ldg := { s.ldg with devicePj := pj }, err := { s.err with pairs := pairs } } := by rfl) : s.Logs t := by
  subst h
  exact ⟨⟨_, _, _, _, _, _, rfl⟩, hw, rfl, rfl⟩

theorem State.Logs.ite {t u : State} {c : Prop} {_ : Decidable c} (h : s.Logs t) (h' : s.Logs u) : s.Logs (if c then t else u) := by
  split <;> assumption

theorem State.Logs.setRegF {off lo n v : Nat} (hw : cellsFrom regReset 0 s.regs = true) (hemb : rMgtEmb ≠ off)
    (hctrl : rRingErrCtrl ≠ off) : s.Logs (s.setRegF off lo n v) :=
  ⟨⟨_, _, _, _, _, _, rfl⟩, s.setRegF_regsWf _ _ _ _ hw, s.reg_setRegF_other _ _ _ _ _ hemb hw, s.reg_setRegF_other _ _ _ _ _ hctrl hw⟩

theorem State.Logs.flag {off i : Nat} (hw : cellsFrom regReset 0 s.regs = true) (hemb : rMgtEmb ≠ off) (hctrl : rRingErrCtrl ≠ off) :
    s.Logs (s.flag off i) := .setRegF hw hemb hctrl

theorem State.markLasting_logs (u : Nat) (hw : cellsFrom regReset 0 s.regs = true) : s.Logs (s.markLasting u) := by
  unfold State.markLasting
  split <;> exact .flag hw (by simp only [rMgtEmb, rErrLastingC, rErrLastingU]; omega)
    (by simp only [rRingErrCtrl, rErrLastingC, rErrLastingU]; omega)

theorem State.noteEvent_logs (u kind : Nat) (hw : cellsFrom regReset 0 s.regs = true) : s.Logs (s.noteEvent u kind).2 := by
  unfold State.noteEvent
  extract_lets p known t becomes full others kept p' s1 s2 s3
  have h1 : s.Logs s1 := .of_regs hw
  have h2 : s.Logs s2 := .ite (h1.trans (.flag h1.wf (by decide) (by decide))) h1
  exact .ite (h2.trans (State.markLasting_logs u h2.wf)) h2

theorem State.markLasting_rings (u : Nat) : (s.markLasting u).rings = s.rings := by
  unfold State.markLasting
  split <;> rfl

theorem State.noteEvent_rings (u kind : Nat) : (s.noteEvent u kind).2.rings = s.rings := by
  unfold State.noteEvent
  extract_lets p known t becomes full others kept p' s1 s2 s3
  have h2 : s2.rings = s.rings := by
    simp only [s2]
    split <;> rfl
  simp only [s3]
  split
  · exact State.markLasting_rings u |>.trans h2
  · exact h2

theorem State.hostWrite_logs (a : Nat) (bs : Bytes) (bulk : Bool) (hw : cellsFrom regReset 0 s.regs = true) (hemb : s.emb = false) :
    s.Logs (s.hostWrite a bs bulk) := by
  unfold State.hostWrite
  rw [hemb, if_neg Bool.false_ne_true]
  exact List.foldlRecOn _ _ (motive := s.Logs) (.refl hw) fun t ht p _ => ht.trans (.of_regs ht.wf)

theorem State.msix_logs (k : Nat) (hw : cellsFrom regReset 0 s.regs = true) : s.Logs (s.msix k) :=
  .ite (.refl hw) (.ite (.of_regs hw) (.of_regs hw))

theorem State.writeErr_logs (r : ErrRec) (hw : cellsFrom regReset 0 s.regs = true) (hemb : s.emb = false) : s.Logs (s.writeErr r) := by
  unfold State.writeErr
  extract_lets own a s1 s2 s3
  have h1 : s.Logs s1 := State.hostWrite_logs _ _ _ hw hemb
  have h2 : s.Logs s2 := h1.trans (.of_regs h1.wf)
  have h3' : s.Logs (s2.setRegF rErrNumber 0 32 r.number) := h2.trans (.setRegF h2.wf (by decide) (by decide))
  have h3 : s.Logs s3 := h3'.trans (.of_regs h3'.wf)
  exact .ite (h3.trans (State.msix_logs _ h3.wf)) h3

theorem State.onPair_logs (u kind : Nat) (f : ErrPair → ErrPair) (hw : cellsFrom regReset 0 s.regs = true) : s.Logs (s.onPair u kind f) :=
  .of_regs hw

/-- The log is the same from a state whose NUMBER differs. -/
theorem State.Logs.onNumber {t : State} (n : Nat) (h : s.Logs t) :
    State.Logs (s.onErr fun e => { e with number := n }) (t.onErr fun e => { e with number := n }) := by
  obtain ⟨⟨_, _, _, _, _, _, rfl⟩, hw, hemb, hctrl⟩ := h
  exact ⟨⟨_, _, _, _, _, _, rfl⟩, hw, hemb, hctrl⟩

theorem State.errRingBlocked_congr {t : State} (hctrl : t.reg rRingErrCtrl = s.reg rRingErrCtrl) (hr : t.rings = s.rings)
    (hh : t.err.held = s.err.held) : t.errRingBlocked = s.errRingBlocked := by
  have hen : t.ringEn .err = s.ringEn .err := congrArg (wbit · 0) hctrl
  have hsize : t.entries .err = s.entries .err := congrArg (fun w => 2 ^ wbits w 1 4) hctrl
  have hprod : t.prod .err = s.prod .err := congrArg (·.errRing) hr
  have hocc : t.occupied .err = s.occupied .err := by simp only [State.occupied, State.countMod, hsize, hprod]
  rw [State.errRingBlocked, State.errRingBlocked, hen, hh, hocc, hsize]

/-- A record that the error ring takes at once has the next NUMBER. -/
theorem State.issueRec_logs (mk : Nat → ErrRec) (hw : cellsFrom regReset 0 s.regs = true) (hemb : s.emb = false)
    (hb : s.errRingBlocked = false) (hmk : ∀ n, (mk n).number = n) :
    State.Logs (s.onErr fun e => { e with number := nextNumber s.err.number }) (s.issueRec mk) := by
  unfold State.issueRec
  rw [hemb, if_neg Bool.false_ne_true, hb, if_neg Bool.false_ne_true]
  dsimp only
  rw [hmk]
  exact State.writeErr_logs _ hw hemb

/-! ### A record, before its consequence -/

theorem State.noteEvent_recordable (u kind : Nat) (hw : cellsFrom regReset 0 s.regs = true) (hemb : s.emb = false)
    (hb : s.errRingBlocked = false) :
    (s.noteEvent u kind).2.emb = false ∧ (s.noteEvent u kind).2.errRingBlocked = false ∧
      (s.noteEvent u kind).2.err.number = s.err.number := by
  have hn := State.noteEvent_logs u kind hw
  obtain ⟨_, _, _, _, _, _, hform⟩ := hn.form
  refine ⟨(congrArg (wbit · 0) hn.emb).trans hemb, ?_, by rw [hform]⟩
  rw [State.errRingBlocked_congr hn.ctrl (State.noteEvent_rings _ _) (by rw [hform])]
  exact hb

/-- An event on a part whose error ring takes records: a corrected one may only be counted; any other takes the next NUMBER and has the
consequence of its severity. -/
theorem State.reportError_cases (ev : ErrEvent) (hw : cellsFrom regReset 0 s.regs = true) (hemb : s.emb = false)
    (hb : s.errRingBlocked = false) :
    (severityOf ev.kind ev.job.isSome = sevCorrected ∧ s.Logs (s.reportError ev)) ∨
      ∃ u, State.Logs (s.onErr fun e => { e with number := nextNumber s.err.number }) u ∧
        s.reportError ev = u.consequence (severityOf ev.kind ev.job.isSome) ev (nextNumber s.err.number) := by
  have hn := State.noteEvent_logs ev.unit ev.kind hw
  obtain ⟨hemb1, hb1, hnumber⟩ := State.noteEvent_recordable ev.unit ev.kind hw hemb hb
  unfold State.reportError
  extract_lets s0 j sev noted p becomes s1 first due count mk blocked into s2 s3 n
  by_cases hc : (decide (sev = sevCorrected) && !due) = true
  · rw [if_pos hc]
    simp only [Bool.and_eq_true, decide_eq_true_eq] at hc
    exact .inl ⟨hc.1, hn.trans (State.onPair_logs _ _ _ hn.wf)⟩
  · rw [if_neg hc]
    have hinto : into = none := by
      have hopen : blocked = false := by simp only [blocked]; rw [hemb1, if_neg Bool.false_ne_true]; exact hb1
      simp only [into, hopen]
      rfl
    have h2 : State.Logs (s.onErr fun e => { e with number := nextNumber s.err.number }) s2 := by
      have hissue := State.issueRec_logs mk hn.wf hemb1 hb1 fun _ => rfl
      rw [hnumber] at hissue
      exact (hn.onNumber _).trans hissue
    have h3 := h2.trans (State.onPair_logs ev.unit ev.kind (fun q => { q with lastRecord := s2.aoTime, since := 0 }) h2.wf)
    refine .inr ⟨s3, h3, ?_⟩
    have hnext : n = nextNumber s.err.number := by
      obtain ⟨_, _, _, _, _, _, hform⟩ := h3.form
      simp only [n, hinto, Option.getD_none]
      exact congrArg (·.err.number) hform
    rw [hnext]

/-! ### The job charged, and the unit stopped -/

/-- From `s` to `t` jobs are charged: they and the contexts may differ, the slots stay. -/
structure State.Charges (s t : State) : Prop where
  form : ∃ jobs ctxs, t = { s with jobs := jobs, sch := { s.sch with ctxs := ctxs } }
  slots : t.jobs.map (·.slot) = s.jobs.map (·.slot)

theorem State.Charges.refl : s.Charges s := ⟨⟨_, _, rfl⟩, rfl⟩

theorem State.Charges.trans {t u : State} (h : s.Charges t) (h' : t.Charges u) : s.Charges u := by
  obtain ⟨⟨_, _, rfl⟩, hs⟩ := h
  obtain ⟨⟨_, _, rfl⟩, hs'⟩ := h'
  exact ⟨⟨_, _, rfl⟩, hs'.trans hs⟩

theorem updFirst_map {α β : Type} (p : α → Bool) (f : α → α) (g : α → β) (hg : ∀ a, g (f a) = g a) (l : List α) :
    (updFirst p f l).map g = l.map g := by
  induction l with
  | nil => rfl
  | cons a l ih =>
    unfold updFirst
    split <;> simp [hg, ih]

theorem State.onJob_slots (k : Nat) (f : Job → Job) (hf : ∀ j, (f j).slot = j.slot) :
    (s.onJob k f).jobs.map (·.slot) = s.jobs.map (·.slot) := updFirst_map _ f (·.slot) hf _

theorem State.chargeJob_charges (k n : Nat) : s.Charges (s.chargeJob k n) := by
  unfold State.chargeJob
  split
  · exact .refl
  · split
    · exact ⟨⟨_, _, rfl⟩, State.onJob_slots _ _ fun _ => rfl⟩
    · exact .refl

theorem State.foldl_chargeJob_charges (l : List Nat) (n : Nat) : s.Charges (l.foldl (fun s k => s.chargeJob k n) s) :=
  List.foldlRecOn l _ (motive := s.Charges) .refl fun t ht k _ => ht.trans (t.chargeJob_charges k n)

/-- The job charged with a record: its teardown is due. -/
def Job.tornDown (n : Nat) (j : Job) : Job := { j with phase := .teardown, errNumber := n }

theorem State.chargeJob_of_alive {k n : Nat} {j : Job} (hj : s.job? k = some j) (ha : j.alive = true) :
    s.chargeJob k n = (s.onJob k (Job.tornDown n)).onSch fun h =>
      { h with ctxs := h.ctxs.map fun c => if c.jobNumber = j.number then { c with stopped := true } else c } := by
  simp only [State.chargeJob, hj, ha, if_true]
  rfl

theorem find?_updFirst_same {α : Type} (p : α → Bool) (f : α → α) (hf : ∀ a, p (f a) = p a) (l : List α) :
    (updFirst p f l).find? p = (l.find? p).map f := by
  induction l with
  | nil => rfl
  | cons a l ih =>
    cases h : p a <;> simp [updFirst, h, hf, ih]

theorem find?_updFirst_other {α : Type} (p q : α → Bool) (f : α → α) (hf : ∀ a, p a = true → q a = false ∧ q (f a) = false)
    (l : List α) :
    (updFirst p f l).find? q = l.find? q := by
  induction l with
  | nil => rfl
  | cons a l ih =>
    cases h : p a
    · simp [updFirst, h, List.find?_cons, ih]
    · simp [updFirst, h, hf a h]

theorem State.job?_of_jobs {t : State} (h : t.jobs = s.jobs) (k : Nat) : t.job? k = s.job? k := by
  rw [State.job?, State.job?, h]

theorem State.job?_onJob_same (k : Nat) (f : Job → Job) (hf : ∀ j, (f j).slot = j.slot) :
    (s.onJob k f).job? k = (s.job? k).map f :=
  find?_updFirst_same _ f (fun j => by rw [hf]) _

theorem State.job?_onJob_other {k m : Nat} (f : Job → Job) (hf : ∀ j, (f j).slot = j.slot) (hm : m ≠ k) :
    (s.onJob k f).job? m = s.job? m :=
  find?_updFirst_other _ _ f (fun j hj => by simp only [decide_eq_true_eq] at hj; simp [hf, hj, hm.symm]) _

theorem mem_updFirst_of_nodup {α : Type} {key : α → Nat} {k : Nat} {f : α → α} {b : α} {l : List α} (hnd : (l.map key).Nodup)
    (hb : b ∈ updFirst (fun a => decide (key a = k)) f l) : (b ∈ l ∧ key b ≠ k) ∨ ∃ a, b = f a := by
  induction l with
  | nil => exact absurd hb List.not_mem_nil
  | cons a l ih =>
    obtain ⟨hnotin, hnd'⟩ := List.nodup_cons.1 hnd
    by_cases h : key a = k
    · rw [updFirst, if_pos (decide_eq_true h)] at hb
      obtain rfl | hmem := List.mem_cons.1 hb
      · exact .inr ⟨a, rfl⟩
      · exact .inl ⟨List.mem_cons_of_mem _ hmem, fun hk => hnotin (List.mem_map.2 ⟨b, hmem, hk.trans h.symm⟩)⟩
    · rw [updFirst, if_neg (by simpa using h)] at hb
      obtain rfl | hmem := List.mem_cons.1 hb
      · exact .inl ⟨List.mem_cons_self, h⟩
      · exact (ih hnd' hmem).imp_left fun ⟨hin, hk⟩ => ⟨List.mem_cons_of_mem _ hin, hk⟩

/-- A job still at work after a job is charged was at work before, in another slot. -/
theorem State.mem_chargeJob {k n : Nat} (hnd : (s.jobs.map (·.slot)).Nodup) {j : Job} (hj : j ∈ (s.chargeJob k n).jobs)
    (ha : j.alive = true) : j ∈ s.jobs ∧ j.slot ≠ k := by
  cases hfind : s.job? k with
  | none =>
    simp only [State.chargeJob, hfind] at hj
    exact ⟨hj, by simpa using List.find?_eq_none.1 hfind j hj⟩
  | some j₀ =>
    cases ha₀ : j₀.alive with
    | false =>
      simp only [State.chargeJob, hfind, ha₀, Bool.false_eq_true, if_false] at hj
      refine ⟨hj, fun hk => ?_⟩
      have hslot₀ : j₀.slot = k := by simpa using List.find?_some hfind
      have heq : j = j₀ := List.inj_on_of_nodup_map hnd hj (List.mem_of_find?_eq_some hfind) (hk.trans hslot₀.symm)
      rw [heq, ha₀] at ha
      exact Bool.false_ne_true ha
    | true =>
      rw [State.chargeJob_of_alive hfind ha₀] at hj
      refine (mem_updFirst_of_nodup hnd hj).resolve_right ?_
      rintro ⟨a, rfl⟩
      exact absurd ha (by simp [Job.alive, Job.tornDown])

/-- No job is left at work once every slot with one has been charged. -/
theorem State.foldl_chargeJob_ends (n : Nat) (l : List Nat) (hnd : (s.jobs.map (·.slot)).Nodup)
    (hl : ∀ j ∈ s.jobs, j.alive = true → j.slot ∈ l) : ∀ j ∈ (l.foldl (fun s k => s.chargeJob k n) s).jobs, j.alive = false := by
  induction l generalizing s with
  | nil => exact fun j hj => Bool.eq_false_iff.2 fun ha => absurd (hl j hj ha) List.not_mem_nil
  | cons k l ih =>
    refine ih ((s.chargeJob_charges k n).slots ▸ hnd) fun j hj ha => ?_
    obtain ⟨hold, hne⟩ := State.mem_chargeJob hnd hj ha
    exact (List.mem_cons.1 (hl j hold ha)).resolve_left hne

/-! ### The consequence by severity (R551) -/

theorem State.consequence_corrected (ev : ErrEvent) (n : Nat) : s.consequence sevCorrected ev n = s := if_pos rfl

theorem State.consequence_contained {ev : ErrEvent} {k : Nat} (n : Nat) (hk : ev.job = some k) :
    s.consequence sevContained ev n = s.chargeJob k n := by
  simp [State.consequence, hk, sevContained, sevCorrected]

theorem State.consequence_unitFatal {ev : ErrEvent} (n : Nat) (hkind : ev.kind ≠ ekForcedReset) :
    s.consequence sevUnitFatal ev n =
      (s.jobsInUnit ev.unit ++ ev.job.toList).eraseDups.foldl (fun s k => s.chargeJob k n) (s.stopUnit ev.unit) := by
  simp [State.consequence, hkind, sevUnitFatal, sevContained, sevCorrected]

theorem State.consequence_deviceFatal (ev : ErrEvent) (n : Nat) :
    s.consequence sevDeviceFatal ev n =
      let t := ((s.flag rErrStatus 0).jobs.map (·.slot)).foldl (fun s k => s.chargeJob k n) (s.flag rErrStatus 0)
      if t.dev.state.serves then
        let t := if t.dev.req.isSome then t.sysEvent 9 else t
        let t := if t.dev.state = .recovery then t.onDev fun d => { d with req := none } else t.goto .recovery
        (t.onDev fun d => { d with fatalEntry := true }).mgtInt 3
      else t := by
  simp [State.consequence, sevDeviceFatal, sevUnitFatal, sevContained, sevCorrected]

/-- A device-fatal error takes a part that serves to RECOVERY, with every job charged (R27, R555). -/
theorem State.consequence_deviceFatal_served (ev : ErrEvent) (n : Nat) (hw : cellsFrom regReset 0 s.regs = true)
    (hnd : (s.jobs.map (·.slot)).Nodup) (hst : s.dev.state = .service ∨ s.dev.state = .test) :
    (s.consequence sevDeviceFatal ev n).dev.state = .recovery ∧ (s.consequence sevDeviceFatal ev n).dev.fatalEntry = true ∧
      (s.consequence sevDeviceFatal ev n).regB rErrStatus 0 = true ∧ ∀ j ∈ (s.consequence sevDeviceFatal ev n).jobs, j.alive = false := by
  have hends := State.foldl_chargeJob_ends (s := s.flag rErrStatus 0) n ((s.flag rErrStatus 0).jobs.map (·.slot)) hnd
    fun j hj _ => List.mem_map.2 ⟨j, hj, rfl⟩
  have hcharged := State.foldl_chargeJob_charges (s := s.flag rErrStatus 0) ((s.flag rErrStatus 0).jobs.map (·.slot)) n
  rw [State.consequence_deviceFatal]
  generalize ((s.flag rErrStatus 0).jobs.map (·.slot)).foldl (fun s k => s.chargeJob k n) (s.flag rErrStatus 0) = c at hends hcharged ⊢
  have hdev : c.dev = s.dev := by obtain ⟨_, _, h⟩ := hcharged.form; rw [h]; rfl
  have hregs : c.regs = (s.flag rErrStatus 0).regs := by obtain ⟨_, _, h⟩ := hcharged.form; rw [h]
  have hwf : cellsFrom regReset 0 c.regs = true := hregs ▸ s.flag_regsWf _ _ hw
  have hstatus : c.reg rErrStatus = (s.flag rErrStatus 0).reg rErrStatus := State.reg_of_regs hregs _
  have hserves : c.dev.state.serves = true := by rw [hdev]; rcases hst with h | h <;> rw [h] <;> rfl
  obtain ⟨d, hd, hddev, hdjobs, hdwf, hdreg⟩ : ∃ d, (if c.dev.req.isSome then c.sysEvent 9 else c) = d ∧
      d.dev = c.dev ∧ d.jobs = c.jobs ∧ cellsFrom regReset 0 d.regs = true ∧ d.reg rErrStatus = c.reg rErrStatus := by
    refine ⟨_, rfl, ?_⟩
    split
    · have hflag := c.flag_regsWf rSysState 9 hwf
      exact ⟨rfl, rfl, State.flag_regsWf _ _ _ hflag, (State.reg_flag_other _ _ _ _ (by decide) hflag).trans
        (State.reg_flag_other _ _ _ _ (by decide) hwf)⟩
    · exact ⟨rfl, rfl, hwf, rfl⟩
  have hne : d.dev.state ≠ .recovery := by rw [hddev, hdev]; rcases hst with h | h <;> simp [h]
  simp only [hserves, if_true, hd, hne, if_false]
  refine ⟨rfl, rfl, ?_, fun j hj => hends j (hdjobs ▸ hj)⟩
  have hreg := (State.reg_flag_other d rMgtIntStatus 3 rErrStatus (by decide) hdwf).trans (hdreg.trans hstatus)
  exact (congrArg (wbit · 0) hreg).trans (s.regB_flag_same _ _ hw (by omega))

/-- From `s` to `t` an error has its consequence: registers, the device state, the jobs and what the fabric runs may differ. -/
structure State.Suffers (s t : State) : Prop where
  form : ∃ regs dev jobs sch, t = { s with regs := regs, dev := dev, jobs := jobs, sch := sch }
  slots : t.jobs.map (·.slot) = s.jobs.map (·.slot)

theorem State.Suffers.trans {t u : State} (h : s.Suffers t) (h' : t.Suffers u) : s.Suffers u := by
  obtain ⟨⟨_, _, _, _, rfl⟩, hs⟩ := h
  obtain ⟨⟨_, _, _, _, rfl⟩, hs'⟩ := h'
  exact ⟨⟨_, _, _, _, rfl⟩, hs'.trans hs⟩

theorem State.Charges.suffers {t : State} (h : s.Charges t) : s.Suffers t := by
  obtain ⟨⟨_, _, rfl⟩, hs⟩ := h
  exact ⟨⟨_, _, _, _, rfl⟩, hs⟩

/-- Registers and the device state alone. -/
theorem State.Suffers.of_dev {t : State} {regs : RegFile} {dev : Dev} (h : t = { s with regs := regs, dev := dev } := by rfl) :
    s.Suffers t := by
  subst h
  exact ⟨⟨_, _, _, _, rfl⟩, rfl⟩

theorem State.Suffers.ite {t u : State} {c : Prop} {_ : Decidable c} (h : s.Suffers t) (h' : s.Suffers u) :
    s.Suffers (if c then t else u) := by
  split <;> assumption

theorem State.stopUnit_suffers (u : Nat) : s.Suffers (s.stopUnit u) := ⟨⟨_, _, _, _, rfl⟩, rfl⟩

theorem State.consequence_suffers (sev : Nat) (ev : ErrEvent) (n : Nat) : s.Suffers (s.consequence sev ev n) := by
  unfold State.consequence
  refine .ite .of_dev (.ite ?_ (.ite ?_ ?_))
  · split
    · exact (State.chargeJob_charges _ _).suffers
    · exact .of_dev
  · exact .trans (.ite .of_dev (State.stopUnit_suffers _)) (State.foldl_chargeJob_charges _ _).suffers
  · extract_lets t1 t2
    have h2 : s.Suffers t2 := .trans (t := t1) .of_dev (State.foldl_chargeJob_charges _ n).suffers
    refine .ite (h2.trans ?_) h2
    exact .trans (State.Suffers.ite (t := t2.sysEvent 9) .of_dev .of_dev) (.trans (.ite .of_dev .of_dev) .of_dev)

/-! ### READY_IDLE (R534) -/

/-- What the conditions of R533 read. -/
def State.quietParts (s : State) :
    DeviceState × List Nat × List CqRing × List ErrRec × Mgt × List HeldAccount × Col × List (Nat × Nat × Nat) × Kv :=
  (s.dev.state, s.jobs.map (·.slot), s.rings.cqs, s.err.held, s.mgt, s.ldg.held, s.col, s.fol.refills, s.kv)

theorem State.quiet_of_parts {t : State} (h : t.quietParts = s.quietParts) : t.quiet = s.quiet := by
  simp only [State.quietParts, Prod.mk.injEq] at h
  obtain ⟨hdev, hjobs, hcqs, herr, hmgt, hldg, hcol, hfol, hkv⟩ := h
  have hnone : t.jobs = [] ↔ s.jobs = [] := by rw [← List.map_eq_nil_iff (f := Job.slot), hjobs, List.map_eq_nil_iff]
  simp only [State.quiet, State.capturing, hdev, hnone, hcqs, herr, hmgt, hldg, hcol, hfol, hkv]

theorem State.endsIdle_of_parts {f : State → State} (h : (f s).quietParts = s.quietParts) : s.endsIdle f = f s := by
  simp [State.endsIdle, State.quiet_of_parts h]

/-- An event may end READY_IDLE, which moves the power state alone. -/
theorem State.endsIdle_eq (f : State → State) :
    ∃ power idleFor, s.endsIdle f = (f s).onDev fun d => { d with power := power, idleFor := idleFor } := by
  unfold State.endsIdle
  dsimp only
  split
  · exact ⟨_, _, (f s).exitIdle_eq⟩
  · exact ⟨_, _, rfl⟩

theorem State.Logs.quietParts {t : State} (h : s.Logs t) : t.quietParts = s.quietParts := by
  obtain ⟨⟨_, _, _, _, _, _, rfl⟩, -⟩ := h
  rfl

theorem State.Suffers.quietParts {t : State} (h : s.Suffers t) (hdev : t.dev.state = s.dev.state) : t.quietParts = s.quietParts := by
  obtain ⟨⟨_, _, _, _, rfl⟩, hs⟩ := h
  simp only [State.quietParts, Prod.mk.injEq, and_true]
  exact ⟨hdev, hs⟩

theorem State.dropBadShard_eq (ev : ErrEvent) : ∃ shards, s.dropBadShard ev = { s with fol := { s.fol with shards := shards } } := by
  unfold State.dropBadShard
  split
  · split <;> exact ⟨_, rfl⟩
  · exact ⟨_, rfl⟩

/-! ### What the carrel shows of its own errors (R266, R267) -/

/-- From `s` to `t` a carrel's registers and scratch take note of an error. -/
structure State.Notes (s t : State) : Prop where
  form : ∃ regs carrels, t = { s with regs := regs, sch := { s.sch with carrels := carrels } }
  wf : cellsFrom regReset 0 t.regs = true
  emb : t.reg rMgtEmb = s.reg rMgtEmb
  ctrl : t.reg rRingErrCtrl = s.reg rRingErrCtrl

theorem State.bumpErrcnt_notes (c lo : Nat) (f : Carrel → Carrel) (hw : cellsFrom regReset 0 s.regs = true) :
    s.Notes (s.bumpSat (rCarErrcnt c) lo 8 1) ∧ s.Notes ((s.bumpSat (rCarErrcnt c) lo 8 1).onCarrel c f) := by
  have hemb : rMgtEmb ≠ rCarErrcnt c := by simp only [rMgtEmb, rCarErrcnt]; omega
  have hctrl : rRingErrCtrl ≠ rCarErrcnt c := by simp only [rRingErrCtrl, rCarErrcnt]; omega
  have hset := State.Logs.setRegF (lo := lo) (n := 8) (v := satAdd (2 ^ 8 - 1) (s.regF (rCarErrcnt c) lo 8) 1) hw hemb hctrl
  exact ⟨⟨⟨_, _, rfl⟩, hset.wf, hset.emb, hset.ctrl⟩, ⟨⟨_, _, rfl⟩, hset.wf, hset.emb, hset.ctrl⟩⟩

theorem State.noteCarrel_notes (ev : ErrEvent) (hw : cellsFrom regReset 0 s.regs = true) : s.Notes (s.noteCarrel ev) := by
  have hsame : s.Notes s := ⟨⟨_, _, rfl⟩, hw, rfl, rfl⟩
  unfold State.noteCarrel
  dsimp only
  split
  · exact hsame
  · split
    · exact (State.bumpErrcnt_notes _ _ _ hw).2
    · split
      · exact (State.bumpErrcnt_notes _ _ _ hw).2
      · split
        · exact (State.bumpErrcnt_notes _ _ id hw).1
        · split
          · exact (State.bumpErrcnt_notes _ _ id hw).1
          · exact hsame

/-- A corrected error of anything but scratch shows nowhere in the carrel. -/
theorem State.noteCarrel_of_corrected {ev : ErrEvent} {b : Bool} (h : severityOf ev.kind b = sevCorrected) (hk : ev.kind ≠ ekScratchCe) :
    s.noteCarrel ev = s := by
  have hne : ev.kind ≠ ekScratchUe ∧ ev.kind ≠ ekResidue ∧ ev.kind ≠ ekScratchRange := by
    refine ⟨?_, ?_, ?_⟩ <;> intro hk' <;> rw [hk'] at h <;> cases b <;> exact absurd h (by decide)
  simp [State.noteCarrel, hk, hne]

theorem State.Notes.recordable {t : State} (h : s.Notes t) (hemb : s.emb = false) (hb : s.errRingBlocked = false) :
    t.emb = false ∧ t.errRingBlocked = false := by
  obtain ⟨⟨_, _, rfl⟩, -, hemb', hctrl⟩ := h
  exact ⟨(congrArg (wbit · 0) hemb').trans hemb, (State.errRingBlocked_congr hctrl rfl rfl).trans hb⟩

/-! ### The command -/

theorem State.Notes.quietParts {t : State} (h : s.Notes t) : t.quietParts = s.quietParts := by
  obtain ⟨⟨_, _, rfl⟩, -⟩ := h
  rfl

theorem State.dropBadShard_quietParts (ev : ErrEvent) : (s.dropBadShard ev).quietParts = s.quietParts := by
  obtain ⟨_, h⟩ := s.dropBadShard_eq ev
  rw [h]
  rfl

/-- What the record of an uncorrected event leaves before its consequence: jobs, contexts, the device state and DRAM are as before, and
NUMBER is the next. -/
structure State.Recorded (s u : State) : Prop where
  wf : cellsFrom regReset 0 u.regs = true
  jobs : u.jobs = s.jobs
  sch : ∃ carrels, u.sch = { s.sch with carrels := carrels }
  dev : u.dev = s.dev
  dram : u.dram = s.dram
  number : u.err.number = nextNumber s.err.number
  pending : u.err.pending = s.err.pending
  quiet : u.quietParts = s.quietParts

theorem State.Logs.recorded {t : State} (h : State.Logs (s.onErr fun e => { e with number := nextNumber s.err.number }) t) :
    s.Recorded t := by
  obtain ⟨⟨_, _, _, _, _, _, rfl⟩, hw, -, -⟩ := h
  exact ⟨hw, rfl, ⟨_, rfl⟩, rfl, rfl, rfl, rfl, rfl⟩

theorem State.Notes.recorded {t u : State} (h : s.Notes t) (hu : t.Recorded u) : s.Recorded u := by
  obtain ⟨⟨_, _, rfl⟩, -⟩ := h
  obtain ⟨hw, hjobs, ⟨_, hsch⟩, hdev, hdram, hnumber, hpending, hquiet⟩ := hu
  exact ⟨hw, hjobs, ⟨_, hsch⟩, hdev, hdram, hnumber, hpending, hquiet⟩

/-- An uncorrected event that the hardware detects becomes a record, which has its consequence. -/
theorem State.errorRecordIssue_some {ev : ErrEvent} (hw : cellsFrom regReset 0 s.regs = true) (hemb : s.emb = false)
    (hb : s.errRingBlocked = false) (hsev : severityOf ev.kind ev.job.isSome ≠ sevCorrected) :
    ∃ u, s.Recorded u ∧ s.errorRecordIssue (some ev) =
      (u.consequence (severityOf ev.kind ev.job.isSome) ev (nextNumber s.err.number)).dropBadShard ev := by
  have hn := s.noteCarrel_notes ev hw
  obtain ⟨hemb', hb'⟩ := hn.recordable hemb hb
  obtain ⟨hc, -⟩ | ⟨u, hlogs, heq⟩ := State.reportError_cases ev hn.wf hemb' hb'
  · exact absurd hc hsev
  · refine ⟨u, hn.recorded hlogs.recorded, ?_⟩
    have hnumber : (s.noteCarrel ev).err.number = s.err.number := by obtain ⟨⟨_, _, h⟩, -⟩ := hn; rw [h]
    rw [← hnumber, ← heq]
    rfl

/-- The oldest summary on its way up becomes a record in the same way. -/
theorem State.errorRecordIssue_none {ev : ErrEvent} {rest : List ErrEvent} (hp : s.err.pending = ev :: rest)
    (hw : cellsFrom regReset 0 s.regs = true) (hemb : s.emb = false) (hb : s.errRingBlocked = false)
    (hsev : severityOf ev.kind ev.job.isSome ≠ sevCorrected) :
    ∃ u, State.Recorded (s.onErr fun e => { e with pending := rest }) u ∧ s.errorRecordIssue none =
      (u.consequence (severityOf ev.kind ev.job.isSome) ev (nextNumber s.err.number)).dropBadShard ev := by
  obtain ⟨hc, -⟩ | ⟨u, hlogs, heq⟩ := State.reportError_cases (s := s.onErr fun e => { e with pending := rest }) ev hw hemb hb
  · exact absurd hc hsev
  · refine ⟨u, hlogs.recorded, ?_⟩
    have hissue : s.errorRecordIssue none = (State.reportError (s.onErr fun e => { e with pending := rest }) ev).dropBadShard ev := by
      simp only [State.errorRecordIssue, hp]
    rw [hissue, heq]
    rfl

/-- What a log leaves as it was. -/
structure State.Untouched (s t : State) : Prop where
  jobs : t.jobs = s.jobs
  sch : t.sch = s.sch
  dev : t.dev = s.dev
  dram : t.dram = s.dram
  quiet : t.quietParts = s.quietParts

theorem State.Logs.untouched {t : State} (h : s.Logs t) : s.Untouched t := by
  obtain ⟨⟨_, _, _, _, _, _, rfl⟩, -⟩ := h
  exact ⟨rfl, rfl, rfl, rfl, rfl⟩

theorem State.reportError_untouched {ev : ErrEvent} (hw : cellsFrom regReset 0 s.regs = true) (hemb : s.emb = false)
    (hb : s.errRingBlocked = false) (hsev : severityOf ev.kind ev.job.isSome = sevCorrected) : s.Untouched (s.reportError ev) := by
  obtain ⟨-, hlogs⟩ | ⟨u, hlogs, heq⟩ := State.reportError_cases ev hw hemb hb
  · exact hlogs.untouched
  · obtain ⟨hjobs, hsch, hdev, hdram, hquiet⟩ := hlogs.untouched
    rw [heq, hsev, State.consequence_corrected]
    exact ⟨hjobs, hsch, hdev, hdram, hquiet⟩

theorem State.Untouched.dropBadShard {t : State} (h : s.Untouched t) (ev : ErrEvent) : s.Untouched (t.dropBadShard ev) := by
  obtain ⟨hjobs, hsch, hdev, hdram, hquiet⟩ := h
  obtain ⟨_, heq⟩ := t.dropBadShard_eq ev
  have hquiet' := (t.dropBadShard_quietParts ev).trans hquiet
  rw [heq] at hquiet' ⊢
  exact ⟨hjobs, hsch, hdev, hdram, hquiet'⟩

/-- A corrected event is logged at most. -/
theorem State.errorRecordIssue_corrected {ev : ErrEvent} (hw : cellsFrom regReset 0 s.regs = true) (hemb : s.emb = false)
    (hb : s.errRingBlocked = false) (hsev : severityOf ev.kind ev.job.isSome = sevCorrected) :
    (s.noteCarrel ev).Untouched (s.errorRecordIssue (some ev)) := by
  have hn := s.noteCarrel_notes ev hw
  obtain ⟨hemb', hb'⟩ := hn.recordable hemb hb
  exact (State.reportError_untouched hn.wf hemb' hb' hsev).dropBadShard ev

theorem exec_errorRecordIssue (ev : Option ErrEvent) (hon : s.dev.state ≠ .off) :
    exec (.errorRecordIssue ev) s = .next (s.endsIdle fun s => s.errorRecordIssue ev) := s.next_of_on hon rfl

/-- A record whose consequence keeps the device state ends no idling. -/
theorem exec_errorRecordIssue_of_state {ev : ErrEvent} {u : State} {sev n : Nat} (hon : s.dev.state ≠ .off) (hu : s.Recorded u)
    (heq : s.errorRecordIssue (some ev) = (u.consequence sev ev n).dropBadShard ev)
    (hdev : (u.consequence sev ev n).dev.state = s.dev.state) :
    exec (.errorRecordIssue (some ev)) s = .next ((u.consequence sev ev n).dropBadShard ev) := by
  have hquiet : (s.errorRecordIssue (some ev)).quietParts = s.quietParts := by
    rw [heq, State.dropBadShard_quietParts, (u.consequence_suffers sev ev n).quietParts (by rw [hdev, hu.dev]), hu.quiet]
  rw [exec_errorRecordIssue (some ev) hon, State.endsIdle_of_parts (f := fun s => s.errorRecordIssue (some ev)) hquiet, heq]

/-! ### The severities -/

theorem errorRecordIssue_contained {ev : ErrEvent} {k : Nat} {j : Job} (hon : s.dev.state ≠ .off) (hi : s.Inv)
    (hb : s.errRingBlocked = false) (hemb : s.emb = false) (hsev : severityOf ev.kind true = sevContained) (hk : ev.job = some k)
    (hj : s.job? k = some j) (ha : j.alive = true) :
    ∃ t, exec (.errorRecordIssue (some ev)) s = .next t ∧ (t.job? k).map (·.phase) = some .teardown ∧
      (∀ x ∈ t.sch.ctxs, x.jobNumber = j.number → x.stopped = true) ∧ (∀ m, m ≠ k → t.job? m = s.job? m) ∧
      t.err.number = nextNumber s.err.number ∧ t.dev = s.dev ∧ t.dram = s.dram := by
  have hsev' : severityOf ev.kind ev.job.isSome = sevContained := by rw [hk]; exact hsev
  obtain ⟨u, hu, heq⟩ := State.errorRecordIssue_some hi.mem.regs hemb hb (by rw [hsev']; decide)
  have hju : u.job? k = some j := (State.job?_of_jobs hu.jobs k).trans hj
  have hcons := (u.consequence_contained (nextNumber s.err.number) hk).trans (State.chargeJob_of_alive hju ha)
  rw [hsev'] at heq
  refine ⟨_, exec_errorRecordIssue_of_state hon hu heq (by rw [hcons]; exact congrArg (·.state) hu.dev), ?_⟩
  obtain ⟨_, hdrop⟩ := State.dropBadShard_eq (s := u.consequence sevContained ev (nextNumber s.err.number)) ev
  rw [hdrop, hcons]
  refine ⟨?_, ?_, fun m hm => ?_, hu.number, hu.dev, hu.dram⟩
  · have hsame := u.job?_onJob_same k (Job.tornDown (nextNumber s.err.number)) fun _ => rfl
    rw [hju] at hsame
    exact congrArg (Option.map (·.phase)) hsame
  · intro x hx hnum
    obtain ⟨y, -, rfl⟩ := List.mem_map.1 hx
    by_cases hy : y.jobNumber = j.number
    · rw [if_pos hy]
    · rw [if_neg hy] at hnum
      exact absurd hnum hy
  · exact (u.job?_onJob_other (Job.tornDown (nextNumber s.err.number)) (fun _ => rfl) hm).trans (State.job?_of_jobs hu.jobs m)

theorem errorRecordIssue_unitFatal {ev : ErrEvent} (hon : s.dev.state ≠ .off) (hi : s.Inv) (hb : s.errRingBlocked = false)
    (hemb : s.emb = false) (hsev : severityOf ev.kind ev.job.isSome = sevUnitFatal) (hkind : ev.kind ≠ ekForcedReset)
    (hbay : uaLevel ev.unit = 1) :
    ∃ t, exec (.errorRecordIssue (some ev)) s = .next t ∧ t.bayStopped (uaFlatBay ev.unit) = true ∧ t.dev = s.dev ∧
      t.err.number = nextNumber s.err.number := by
  obtain ⟨u, hu, heq⟩ := State.errorRecordIssue_some hi.mem.regs hemb hb (by rw [hsev]; decide)
  rw [hsev] at heq
  have hcons := u.consequence_unitFatal (nextNumber s.err.number) hkind
  obtain ⟨_, _, hform⟩ := (State.foldl_chargeJob_charges (s := u.stopUnit ev.unit) (u.jobsInUnit ev.unit ++ ev.job.toList).eraseDups
    (nextNumber s.err.number)).form
  rw [hform] at hcons
  refine ⟨_, exec_errorRecordIssue_of_state hon hu heq (by rw [hcons]; exact congrArg (·.state) hu.dev), ?_⟩
  obtain ⟨_, hdrop⟩ := State.dropBadShard_eq (s := u.consequence sevUnitFatal ev (nextNumber s.err.number)) ev
  rw [hdrop, hcons]
  refine ⟨?_, hu.dev, hu.number⟩
  have hstopped : uaFlatBay ev.unit ∈ (u.stopUnit ev.unit).sch.stoppedBays := by
    simp only [State.stopUnit, State.onSch_sch, hbay, addNew, OfNat.one_ne_ofNat, if_false, if_true]
    split
    · assumption
    · exact List.mem_append_right _ List.mem_cons_self
  simp only [State.bayStopped, Bool.or_eq_true, decide_eq_true_eq]
  exact .inl hstopped

theorem errorRecordIssue_deviceFatal {ev : ErrEvent} (hi : s.Inv) (hb : s.errRingBlocked = false)
    (hemb : s.emb = false) (hsev : severityOf ev.kind ev.job.isSome = sevDeviceFatal) (hst : s.dev.state = .service ∨ s.dev.state = .test) :
    ∃ t, exec (.errorRecordIssue (some ev)) s = .next t ∧ t.dev.state = .recovery ∧ t.dev.fatalEntry = true ∧
      t.regB rErrStatus 0 = true ∧ ∀ j ∈ t.jobs, j.alive = false := by
  have hon : s.dev.state ≠ .off := by rcases hst with h | h <;> simp [h]
  obtain ⟨u, hu, heq⟩ := State.errorRecordIssue_some hi.mem.regs hemb hb (by rw [hsev]; decide)
  rw [hsev] at heq
  obtain ⟨hstate, hentry, hstatus, hends⟩ := u.consequence_deviceFatal_served ev (nextNumber s.err.number) hu.wf
    (by rw [hu.jobs]; exact hi.apart.jobSlots) (by rw [hu.dev]; exact hst)
  refine ⟨_, exec_errorRecordIssue (some ev) hon, ?_⟩
  obtain ⟨_, _, hidle⟩ := s.endsIdle_eq fun s => s.errorRecordIssue (some ev)
  obtain ⟨_, hdrop⟩ := State.dropBadShard_eq (s := u.consequence sevDeviceFatal ev (nextNumber s.err.number)) ev
  rw [hidle, heq, hdrop]
  exact ⟨hstate, hentry, hstatus, hends⟩

theorem errorRecordIssue_pending {ev : ErrEvent} {rest : List ErrEvent} (hon : s.dev.state ≠ .off) (hi : s.Inv)
    (hb : s.errRingBlocked = false) (hemb : s.emb = false) (hp : s.err.pending = ev :: rest)
    (hsev : severityOf ev.kind ev.job.isSome ≠ sevCorrected) :
    ∃ t, exec (.errorRecordIssue none) s = .next t ∧ t.err.number = nextNumber s.err.number ∧ t.err.pending = rest ∧
      t.dram = s.dram := by
  obtain ⟨u, hu, heq⟩ := State.errorRecordIssue_none hp hi.mem.regs hemb hb hsev
  refine ⟨_, exec_errorRecordIssue none hon, ?_⟩
  obtain ⟨_, _, hidle⟩ := s.endsIdle_eq fun s => s.errorRecordIssue none
  obtain ⟨_, _, _, _, hcons⟩ := (u.consequence_suffers (severityOf ev.kind ev.job.isSome) ev (nextNumber s.err.number)).form
  obtain ⟨_, hdrop⟩ := State.dropBadShard_eq
    (s := u.consequence (severityOf ev.kind ev.job.isSome) ev (nextNumber s.err.number)) ev
  rw [hidle, heq, hdrop, hcons]
  exact ⟨hu.number, hu.pending, hu.dram⟩

/-- The only summary on its way up becomes a record as an event does that no carrel shows. -/
theorem errorRecordIssue_only {ev : ErrEvent} (hon : s.dev.state ≠ .off) (hp : s.err.pending = [ev]) (hlevel : uaLevel ev.unit ≠ 0) :
    exec (.errorRecordIssue none) s = exec (.errorRecordIssue (some ev)) { s with err := { s.err with pending := [] } } := by
  have hissue : s.errorRecordIssue none = State.errorRecordIssue { s with err := { s.err with pending := [] } } (some ev) := by
    simp [State.errorRecordIssue, hp, State.noteCarrel, hlevel, State.onErr]
  have hquiet : s.quiet = State.quiet { s with err := { s.err with pending := [] } } := rfl
  rw [exec_errorRecordIssue none hon, exec_errorRecordIssue (some ev) (s := { s with err := { s.err with pending := [] } }) hon]
  simp only [State.endsIdle, hissue, hquiet]

/-- Settles O34: by the record, which leaves all but the log, and the consequence of its severity. -/
theorem errorsActBySeverity : Obligations.ErrorsActBySeverity := by
  intro s ev hon hi hb hemb
  refine ⟨fun k j hsev hk hj ha => errorRecordIssue_contained hon hi hb hemb hsev hk hj ha, fun hsev => ?_,
    fun hsev hkind hbay => errorRecordIssue_unitFatal hon hi hb hemb hsev hkind hbay,
    fun hsev hst => errorRecordIssue_deviceFatal hi hb hemb hsev hst,
    fun rest hp hsev => errorRecordIssue_pending hon hi hb hemb hp hsev, fun hp hlevel => errorRecordIssue_only hon hp hlevel⟩
  have hn := s.noteCarrel_notes ev hi.mem.regs
  obtain ⟨hjobs, hsch, hdev, hdram, hquiet⟩ := State.errorRecordIssue_corrected hi.mem.regs hemb hb hsev
  refine ⟨_, exec_errorRecordIssue (some ev) hon, ?_⟩
  rw [State.endsIdle_of_parts (f := fun s => s.errorRecordIssue (some ev)) (hquiet.trans hn.quietParts)]
  obtain ⟨_, carrels, hform⟩ := hn.form
  refine ⟨by rw [hjobs, hform], ?_, fun hk => by rw [hsch, State.noteCarrel_of_corrected hsev hk],
    by rw [hdev, hform], by rw [hdram, hform]⟩
  rw [hsch, hform]

end Sys2Proof.Machine
end

section
/-! PROOF. Link events (R39, R44, R612): the endpoint's reset, and the Fabric reset that one requests. -/

namespace Sys2Proof.Machine

variable (s : State)

/-! ### The endpoint (R44) -/

/-- What a link event leaves of the endpoint: Device Control and the MSI-X table as at reset, and the link down but after an FLR. -/
structure Link.ResetBy (l m : Link) (c : Instr) : Prop where
  mps : m.mps = 0
  msixTable : m.msixTable = msixReset
  msixPending : m.msixPending = 0
  down : c ≠ .flr → m.up = false
  up : c = .flr → m.up = l.up

/-- A link event resets the endpoint, and then the fabric as R44 says. -/
theorem exec_linkEvent {c : Instr} (hc : c = .flr ∨ c = .hotReset ∨ c = .linkLoss ∨ c = .perstNAssert) (hon : s.dev.state ≠ .off) :
    ∃ l, s.link.ResetBy l c ∧ exec c s = .next (State.linkReset { s with link := l }) := by
  rcases hc with rfl | rfl | rfl | rfl
  · exact ⟨s.link.configReset, ⟨rfl, rfl, rfl, fun h => absurd rfl h, fun _ => rfl⟩, s.next_of_on hon rfl⟩
  · exact ⟨s.link.down, ⟨rfl, rfl, rfl, fun _ => rfl, nofun⟩, s.next_of_on hon rfl⟩
  · exact ⟨s.link.down, ⟨rfl, rfl, rfl, fun _ => rfl, nofun⟩, s.next_of_on hon rfl⟩
  · exact ⟨{ s.link.down with perstLow := true, txActive := false }, ⟨rfl, rfl, rfl, fun _ => rfl, nofun⟩, s.next_of_on hon rfl⟩

/-! ### A source of Fabric reach -/

theorem State.fabricNoted_form (src : RstSource) :
    s.fabricNoted src =
      { s with regs := (s.fabricNoted src).regs, dev := (s.fabricNoted src).dev, rst := (s.fabricNoted src).rst } := by
  unfold State.fabricNoted
  dsimp only
  split <;> rfl

theorem State.fabricNoted_dev (src : RstSource) :
    (s.fabricNoted src).dev.state = s.dev.state ∧ (s.dev.req = none → (s.fabricNoted src).dev = s.dev) := by
  unfold State.fabricNoted
  dsimp only
  split
  · next h => exact ⟨rfl, fun hreq => by simp [hreq] at h⟩
  · exact ⟨rfl, fun _ => rfl⟩

theorem State.fabricNoted_rst (src : RstSource) :
    (s.fabricNoted src).rst =
      { s.rst.note src .fabric s.dev.state with
        asserted := addNew (s.rst.note src .fabric s.dev.state).asserted (src, .fabric)
        units := (s.rst.note src .fabric s.dev.state).units.map (UnitRst.covered s.hsTimeout .fabric) } := by
  unfold State.fabricNoted
  dsimp only
  split <;> rfl

/-- Before sources are released a Fabric reset has cleared the fabric's work, and not the endpoint or the device state. -/
theorem State.assertSource_fabric_before (src : RstSource) (we : Bool) :
    ∃ t : State, s.assertSource src .fabric we = t.settle ∧ t.dev = (s.fabricNoted src).dev ∧ t.link = s.link ∧
      ∃ b, t.rst = { (s.fabricNoted src).rst with fabricRelease := b } := by
  have hlink : (s.fabricNoted src).link = s.link := by rw [s.fabricNoted_form src]
  cases hrel : s.rst.fabricRelease
  · obtain ⟨_, _, _, _, _, _, _, _, hclear⟩ := (s.fabricNoted src).fabricClear_eq
    refine ⟨_, s.assertSource_fabric src we hrel, ?_⟩
    rw [hclear]
    exact ⟨rfl, hlink, _, rfl⟩
  · refine ⟨s.fabricNoted src, ?_, rfl, hlink, _, rfl⟩
    have h := (s.fabricNoted_fabricRelease src).trans hrel
    unfold State.fabricNoted at h ⊢
    simp only [State.assertSource, Reach.code]
    simp only [show ¬ (2 ≥ 3) by omega, if_false, le_refl, decide_true, Bool.and_true, decide_eq_true_eq]
    rw [if_pos h]

@[simp] theorem State.appendLog_dev : s.appendLog.dev = s.dev := by rw [State.appendLog_eq]
@[simp] theorem State.appendLog_link : s.appendLog.link = s.link := by rw [State.appendLog_eq]
@[simp] theorem State.appendLog_rst : s.appendLog.rst = { s.rst with logSeq := s.rst.logSeq + 1 } := by rw [State.appendLog_eq]

/-- In closed-stacks mode, where every unit is HELD, a request is released at once and logged (assumption 22). -/
theorem State.settle_of_closed {src : RstSource} (ha : s.rst.asserted = [(src, .fabric)]) (hauto : src.auto = true)
    (hopen : s.rst.epOpen = true) (hwidest : s.rst.epWidest = 2) (hheld : ∀ u ∈ s.rst.units, u.phase = .held)
    (hst : s.dev.state = .closedStacks) :
    s.settle.dev = s.dev ∧ s.settle.link = s.link ∧ s.settle.rst.reqBusy = false ∧ s.settle.rst.units = s.rst.units ∧
      (.spine ∈ s.rst.units.map (·.unit) → s.settle.rst.logSeq = s.rst.logSeq + 1) := by
  have hdone : (s.rst.units.all fun u => !Reach.fabric.covers u.unit || decide (u.phase = .held)) = true :=
    List.all_eq_true.2 fun u hu => by simp [hheld u hu]
  have hleft : [(src, Reach.fabric)].filter
      (fun e => !(e.1.auto && s.rst.units.all fun u => !e.2.covers u.unit || decide (u.phase = .held))) = [] := by
    simp [hauto, hdone]
  have hspine : (s.rst.units.any fun u => decide (u.unit = .spine) && decide (u.phase = .held)) =
      decide (.spine ∈ s.rst.units.map (·.unit)) := by
    rw [Bool.eq_iff_iff]
    simp only [List.any_eq_true, List.mem_map, Bool.and_eq_true, decide_eq_true_eq]
    exact exists_congr fun u => and_congr_right fun hu => and_iff_left (hheld u hu)
  unfold State.settle
  simp only [ha, hleft, List.any_nil, List.all_nil, Bool.not_false, Bool.and_true, State.onRst_rst, hopen, hwidest, Bool.true_and,
    Nat.reduceLeDiff, ge_iff_le, decide_false, Bool.false_eq_true, if_false, hspine]
  by_cases h : RstUnit.spine ∈ s.rst.units.map (·.unit) <;> simp [h, hst]

/-- A source of Fabric reach that asserts in closed-stacks mode leaves the part there, its units HELD, and is over at once. -/
theorem State.assertSource_fabric_of_closed {src : RstSource} (we : Bool) (hauto : src.auto = true) (hst : s.dev.state = .closedStacks)
    (hnone : s.rst.asserted = []) (hopen : s.rst.epOpen = false) (hheld : ∀ u ∈ s.rst.units, u.phase = .held) :
    (s.assertSource src .fabric we).link = s.link ∧ (s.assertSource src .fabric we).dev.state = .closedStacks ∧
      (s.assertSource src .fabric we).rst.reqBusy = false ∧
      (s.assertSource src .fabric we).rst.units.map (·.phase) = s.rst.units.map (·.phase) ∧
      (.spine ∈ s.rst.units.map (·.unit) → (s.assertSource src .fabric we).rst.logSeq = s.rst.logSeq + 1) := by
  have hnote : s.rst.note src .fabric s.dev.state =
      { s.rst with epOpen := true, epSources := [src], epWidest := 2, epForced := false, epPrior := s.dev.state, epFailed := false } := by
    simp [Rst.note, hopen, Reach.code, Rst.cutShort, hst]
  have hcovered (u : UnitRst) (hu : u ∈ s.rst.units) :
      (UnitRst.covered s.hsTimeout .fabric u).phase = u.phase ∧ (UnitRst.covered s.hsTimeout .fabric u).unit = u.unit := by
    simp [UnitRst.covered, Reach.covers, hheld u hu]
  obtain ⟨t, ht, hdev, hlink, b, hrst⟩ := s.assertSource_fabric_before src we
  rw [s.fabricNoted_rst, hnote] at hrst
  have hstate : t.dev.state = .closedStacks := by rw [hdev, (s.fabricNoted_dev src).1, hst]
  have hunits : t.rst.units = s.rst.units.map (UnitRst.covered s.hsTimeout .fabric) := by rw [hrst]
  have hnames : t.rst.units.map (·.unit) = s.rst.units.map (·.unit) := by
    rw [hunits, List.map_map]
    exact List.map_congr_left fun u hu => (hcovered u hu).2
  have hphases : t.rst.units.map (·.phase) = s.rst.units.map (·.phase) := by
    rw [hunits, List.map_map]
    exact List.map_congr_left fun u hu => (hcovered u hu).1
  have hkept : ∀ u ∈ t.rst.units, u.phase = .held := by
    rw [hunits]
    intro u hu
    obtain ⟨v, hv, rfl⟩ := List.mem_map.1 hu
    rw [(hcovered v hv).1, hheld v hv]
  obtain ⟨hdev', hlink', hbusy, hsame, hlog⟩ :=
    t.settle_of_closed (src := src) (by rw [hrst]; simp [hnone, addNew]) hauto (by rw [hrst]) (by rw [hrst]) hkept hstate
  rw [ht]
  exact ⟨hlink'.trans hlink, by rw [hdev', hstate], hbusy, by rw [hsame, hphases], fun h => by rw [hlog (hnames ▸ h), hrst]⟩

/-- A part at work keeps its device state and its endpoint through the Fabric reset's handshake. -/
theorem State.assertSource_fabric_keeps (src : RstSource) (we : Bool) (hall : s.allRun) (hne : s.rst.units ≠ [])
    (hreq : s.dev.req = none) :
    (s.assertSource src .fabric we).dev = s.dev ∧ (s.assertSource src .fabric we).link = s.link := by
  obtain ⟨hasserted, hwidest, hunits, -⟩ := s.fabricNoted_of_allRun src hall
  have hidle : ∀ u ∈ (s.fabricNoted src).rst.units, u.phase = .idleReq := by
    rw [hunits]
    intro u hu
    obtain ⟨v, hv, rfl⟩ := List.mem_map.1 hu
    simp [UnitRst.covered, Reach.covers, hall.2.2 v hv, Reach.code]
  obtain ⟨t, ht, hdev, hlink, b, hrst⟩ := s.assertSource_fabric_before src we
  rw [ht, t.settle_of_idleReq (src := src) (by rw [hrst]; exact hasserted) (by rw [hrst]; exact hwidest)
    (by rw [hrst]; simpa [hunits] using hne) (by rw [hrst]; exact hidle)]
  exact ⟨hdev.trans ((s.fabricNoted_dev src).2 hreq), hlink⟩

/-- Outside embedded mode a link event is a software request of Fabric reach (R44). -/
theorem State.linkReset_of_host (h : s.emb = false) :
    s.linkReset = State.assertSource { s with rst := { s.rst with reqBusy := true } } .software .fabric false :=
  if_neg (ne_true_of_eq_false h)

/-! ### Training and Device Control (R39, R612) -/

theorem State.linkUp_trains {speed : Nat} (width : Nat) (hspeed : speed ≠ 0) (hperst : s.link.perstLow = false)
    (htx : s.link.txActive = true) (hdown : s.link.up = false) :
    s.linkUp speed width = s.onLink fun l => { l with up := true, speed := speed, width := width } := by
  simp [State.linkUp, hspeed, hperst, htx, hdown]

theorem State.deviceControl_awake {mps mrrs : Nat} (ro : Bool) (hawake : s.dev.state ≠ .standby) (hmps : mps ≤ 2)
    (hmrrs : mrrs ∈ [128, 256, 512, 1024, 2048, 4096]) :
    s.deviceControl mps mrrs ro = s.onLink fun l => { l with mps := mps, mrrs := mrrs, relaxed := ro } := by
  rw [State.deviceControl, if_neg hawake, State.setDeviceControl]
  simp only [hmps, hmrrs, if_true]

/-- Settles O25: every event by the endpoint it leaves, then by what the Fabric reset does that it requests. -/
theorem linkEvents : Obligations.LinkEvents := by
  refine ⟨fun s c hc hon => ?_, fun s hon => ⟨s.next_of_on hon rfl, fun speed width hspeed hperst htx hdown => ?_,
    fun mps mrrs ro hawake hmps hmrrs => ?_⟩⟩
  · obtain ⟨l, ⟨hmps, hmsix, hpending, hdown, hup⟩, hex⟩ := exec_linkEvent s hc hon
    refine ⟨fun hemb => ?_, fun hemb hst hnone hopen hheld => ?_, fun hemb hst hall hne hrel hreq => ?_⟩
    · have hreset : State.linkReset { s with link := l } = { s with link := l } := if_pos hemb
      exact ⟨_, hex.trans (congrArg _ hreset), rfl, hmps, hmsix, hpending, hdown, hup⟩
    · obtain ⟨hlink, hstate, hbusy, hphases, hlog⟩ := State.assertSource_fabric_of_closed
        { s with link := l, rst := { s.rst with reqBusy := true } } (src := .software) false rfl hst hnone hopen hheld
      refine ⟨_, hex.trans (congrArg _ (State.linkReset_of_host _ hemb)), ?_, ?_, hstate, hbusy, hphases, hlog⟩
      · exact (congrArg (·.mps) hlink).trans hmps
      · exact (congrArg (·.msixTable) hlink).trans hmsix
    · obtain ⟨hidle, hjobs, hdram, hfol, -⟩ := State.assertSource_fabric_of_allRun
        { s with link := l, rst := { s.rst with reqBusy := true } } .software hall hrel hne
      obtain ⟨hdev, hlink⟩ := State.assertSource_fabric_keeps
        { s with link := l, rst := { s.rst with reqBusy := true } } .software false hall hne hreq
      refine ⟨_, hex.trans (congrArg _ (State.linkReset_of_host _ hemb)), ?_, ?_, fun h => ?_, fun h => ?_, hjobs, hdram, hdev,
        hfol, hidle⟩
      · exact (congrArg (·.mps) hlink).trans hmps
      · exact (congrArg (·.msixTable) hlink).trans hmsix
      · exact (congrArg (·.up) hlink).trans (hdown h)
      · exact (congrArg (·.up) hlink).trans (hup h)
  · exact s.next_of_on hon (s.linkUp_trains width hspeed hperst htx hdown)
  · exact s.next_of_on hon (s.deviceControl_awake ro hawake hmps hmrrs)

end Sys2Proof.Machine
end

section
/-! PROOF. Version agreement (R66), BAR4 (R40 to R42), and the host's accesses to a part in STANDBY (R595, R616). -/

namespace Sys2Proof.Machine

variable (s : State)

/-- What leaves the register file leaves every bit that it reads. -/
theorem State.regB_of_regs {s t : State} (h : t.regs = s.regs) (off i : Nat) : t.regB off i = s.regB off i :=
  congrArg (wbit · i) (State.reg_of_regs h off)

/-! ### Version agreement (R66) -/

/-- Why R66 refuses a write of HLK_VER_AGREE: a submission ring is enabled, or a (LO, HI) pair lies out of order or outside the
advertised range. -/
def State.verRefused (hi : Bool) (v : Word) : Prop :=
  (∃ n, n < 64 ∧ s.ringEn (.sq n) = true) ∨
    ∃ k, (k = 0 ∨ k = 16) ∧
      (wbits v (k + 8) 8 < wbits v k 8 ∨ wbits v k 8 < wbits (s.reg (if hi then rHlkVerCap1 else rHlkVerCap0)) k 8 ∨
        wbits (s.reg (if hi then rHlkVerCap1 else rHlkVerCap0)) (k + 8) 8 < wbits v (k + 8) 8)

theorem State.exitIdle_verRefused (hi : Bool) (v : Word) : s.exitIdle.verRefused hi v ↔ s.verRefused hi v := by
  simp only [State.verRefused, State.ringEn, State.regB, State.exitIdle_reg]

theorem rangeOk_eq_false_iff (lo hi mn mx : Nat) : rangeOk lo hi mn mx = false ↔ hi < lo ∨ lo < mn ∨ mx < hi := by
  simp only [rangeOk, Bool.and_eq_false_iff, decide_eq_false_iff_not, Nat.not_le, or_assoc]

theorem State.any_sqEn_iff : allSqs.any s.ringEn = true ↔ ∃ n, n < 64 ∧ s.ringEn (.sq n) = true := by
  simp [allSqs]

theorem State.verAgree_eq (hi : Bool) (v : Word) [Decidable (s.verRefused hi v)] (hl : s.locked = false) :
    s.verAgree hi v =
      if s.verRefused hi v then s.flag rHlkStatus 13 else s.setReg (if hi then rHlkVerAgree1 else rHlkVerAgree0) v := by
  unfold State.verAgree
  dsimp only
  rw [hl, if_neg Bool.false_ne_true]
  refine if_congr ?_ rfl rfl
  simp only [Bool.or_eq_true, Bool.not_eq_true', Bool.and_eq_false_iff, rangeOk_eq_false_iff, s.any_sqEn_iff, State.verRefused,
    or_and_right, exists_or, exists_eq_left, Nat.zero_add]
  exact or_comm

/-- Settles O29: a write that R66 refuses flags HLK_STATUS alone, and any other stores its word. -/
theorem versionAgreement : Obligations.VersionAgreement := by
  intro s hi v hinv hon hawake hl
  classical
  have hw : cellsFrom regReset 0 s.exitIdle.regs = true := by simpa using hinv.mem.regs
  have heq := s.exitIdle.verAgree_eq hi v (by simpa using hl)
  refine ⟨fun hbad => ?_, fun hok => ?_⟩
  · rw [if_pos ((s.exitIdle_verRefused hi v).2 hbad)] at heq
    refine ⟨_, s.next_of_awake hon hawake heq, State.regB_flag_same _ _ _ hw (by omega), ?_, ?_⟩ <;>
      rw [State.reg_flag_other _ _ _ _ (by decide) hw, State.exitIdle_reg]
  · rw [if_neg (mt (s.exitIdle_verRefused hi v).1 hok)] at heq
    refine ⟨_, s.next_of_awake hon hawake heq, State.reg_setReg_same _ _ _ hw, fun o hne => ?_⟩
    rw [State.reg_setReg_other _ _ _ _ hne hw, State.exitIdle_reg]

/-! ### BAR4 (R40 to R42) -/

@[simp] theorem State.exitIdle_link : s.exitIdle.link = s.link := by rw [s.exitIdle_eq]; rfl
@[simp] theorem State.exitIdle_out : s.exitIdle.out = s.out := by rw [s.exitIdle_eq]; rfl
@[simp] theorem State.exitIdle_dramBytes : s.exitIdle.dramBytes = s.dramBytes := by rw [s.exitIdle_eq]; rfl
@[simp] theorem State.exitIdle_windowBase : s.exitIdle.windowBase = s.windowBase := by
  rw [State.windowBase, State.windowBase, State.regF, State.regF, State.exitIdle_reg]
@[simp] theorem State.exitIdle_bar4Locked : s.exitIdle.bar4Locked = s.bar4Locked := by
  rw [State.bar4Locked, State.bar4Locked, State.regB, State.regB, State.exitIdle_reg, State.exitIdle_sec]

/-- An open BAR4 stores a write that ends within the usable capacity (R41). -/
theorem State.bar4_write {off len : Nat} {data : Bytes} (hp : s.link.bar4 = true) (hopen : s.bar4Locked = false)
    (hfit : s.windowBase + off + data.length ≤ s.dramBytes) :
    s.bar4 true off len data = s.dramWrite (s.windowBase + off) data := by
  simp only [State.bar4, hp, hopen, Bool.not_true, Bool.false_eq_true, if_false, if_true]
  rw [List.take_of_length_le (by omega)]

/-- A read that ends within the usable capacity returns the bytes there (R41). -/
theorem State.bar4_read {off len : Nat} {data : Bytes} (hp : s.link.bar4 = true) (hopen : s.bar4Locked = false)
    (hfit : s.windowBase + off + len ≤ s.dramBytes) :
    s.bar4 false off len data = s.emit (.bar4Data (s.dramRead (s.windowBase + off) len)) := by
  have hlen : min len (s.dramBytes - (s.windowBase + off)) = len := by omega
  simp only [State.bar4, hp, hopen, Bool.not_true, Bool.false_eq_true, if_false, hlen, Nat.sub_self, List.replicate_zero,
    List.append_nil]

/-- BAR4 closed by debug policy gives ones, takes nothing, and says so (R42). -/
theorem State.bar4_locked (w : Bool) (off len : Nat) (data : Bytes) (hp : s.link.bar4 = true) (hl : s.bar4Locked = true) :
    s.bar4 w off len data =
      if w then s.flag rHlkStatus 12 else (s.flag rHlkStatus 12).emit (.bar4Data (List.replicate len 0xFF)) := by
  simp only [State.bar4, hp, hl, Bool.not_true, Bool.false_eq_true, if_false, if_true]

theorem exec_bar4Access_awake (w : Bool) (off len : Nat) (data : Bytes) (hon : s.dev.state ≠ .off) (hawake : s.dev.state ≠ .standby) :
    exec (.bar4Access w off len data) s = .next (s.exitIdle.bar4 w off len data) :=
  s.next_of_on hon (if_neg hawake)

/-! ### Accesses in STANDBY (R595, R616) -/

theorem State.hostWaits_of_standby (a : HostAccess) (hst : s.dev.state = .standby) (hreq : s.dev.req = none) :
    s.hostWaits a = ((s.onDev fun d => { d with power := .exiting, waking := true }).flag rPwrWakeCause 0).onLink
      fun l => { l with waiting := l.waiting ++ [a] } := by
  rw [State.hostWaits, s.wake_of_standby (c := .host) rfl hst hreq]
  rfl

/-- A host write that only BAR0 carries waits in STANDBY. -/
theorem State.next_of_asleep (off : Nat) (v : Word) (f : State → State) (hst : s.dev.state = .standby) :
    (.next (s.whenHost off v f) : Result) = .next (s.hostWaits (.write off [(v, 15#4)])) := by
  rw [State.whenHost, s.whenOn_of_on _ (by simp [hst]), if_pos hst]

/-- An access that its own meaning makes wait in STANDBY. -/
theorem State.next_of_waits {a : HostAccess} {f : State → State} (hst : s.dev.state = .standby) (h : f s = s.hostWaits a) :
    (.next (s.whenOn f) : Result) = .next (s.hostWaits a) :=
  s.next_of_on (by simp [hst]) h

/-- Settles O26: BAR4 by its three outcomes, an access in STANDBY by the wake that it makes. -/
theorem hostAccessesAndStandby : Obligations.HostAccessesAndStandby := by
  refine ⟨fun s off len data hinv hon hawake hp => ⟨fun hopen hfit => ?_, fun hopen hfit => ?_, fun hl w => ?_⟩,
    fun s c a hst hreq hmem hc => ?_⟩
  · have hroom : s.windowBase + off + data.length ≤ s.dramBytes := hfit
    have hw : s.exitIdle.bar4 true off len data = s.exitIdle.dramWrite (s.windowBase + off) data := by
      simpa using s.exitIdle.bar4_write (len := len) (by simpa using hp) (by simpa using hopen) (by simpa using hroom)
    have hdram : s.exitIdle.dram.wf = true := by simpa using hinv.mem.dram
    refine ⟨_, (exec_bar4Access_awake s true off len data hon hawake).trans (congrArg _ hw), ?_, s.exitIdle_regs, fun b hb => ?_⟩
    · exact Mem.read_write data _ _ hdram
    · exact (Mem.get_write_other data _ _ b hdram hb).trans (by rw [s.exitIdle_dram])
  · have hroom : s.windowBase + off + len ≤ s.dramBytes := hfit
    have hr : s.exitIdle.bar4 false off len data = s.exitIdle.emit (.bar4Data (s.dramRead (s.windowBase + off) len)) := by
      simpa [State.dramRead] using
        s.exitIdle.bar4_read (data := data) (by simpa using hp) (by simpa using hopen) (by simpa using hroom)
    exact ⟨_, (exec_bar4Access_awake s false off len data hon hawake).trans (congrArg _ hr),
      congrArg (· ++ [Out.bar4Data (s.dramRead (s.windowBase + off) len)]) s.exitIdle_out, s.exitIdle_dram, s.exitIdle_regs⟩
  · have hb := s.exitIdle.bar4_locked w off len data (by simpa using hp) (by simpa using hl)
    have hflag := State.regB_flag_same s.exitIdle rHlkStatus 12 (by simpa using hinv.mem.regs) (by omega)
    refine ⟨_, (exec_bar4Access_awake s w off len data hon hawake).trans (congrArg _ hb), ?_⟩
    cases w
    · exact ⟨s.exitIdle_dram, (State.regB_of_regs (State.emit_regs _ _) _ _).trans hflag, congrArg (· ++ _) s.exitIdle_out⟩
    · exact ⟨s.exitIdle_dram, hflag, s.exitIdle_out.trans (List.append_nil _).symm⟩
  · have hw : cellsFrom regReset 0 (s.onDev fun d => { d with power := .exiting, waking := true }).regs = true := hmem.regs
    have hwaits : exec c s = .next (s.hostWaits a) := by
      have host (off v f) := s.next_of_asleep off v f hst
      have own {b} {f : State → State} (h : f s = s.hostWaits b) := s.next_of_waits hst h
      rcases hc with ⟨off, words, rfl, rfl⟩ | ⟨r, v, rfl, rfl⟩ | ⟨n, v, rfl, rfl⟩ | ⟨n, v, rfl, rfl⟩ | ⟨v, rfl | rfl, rfl⟩ |
        ⟨rfl, rfl⟩ | ⟨m, v, ⟨rfl, rfl⟩ | ⟨rfl, rfl⟩⟩ | ⟨v, ⟨rfl, rfl⟩ | ⟨rfl, rfl⟩ | ⟨rfl, rfl⟩⟩ |
        ⟨mps, mrrs, ro, rfl, rfl⟩ | ⟨bar, off, rfl, rfl⟩ | ⟨w, off, len, data, rfl, rfl⟩ | ⟨rfl, rfl⟩
      exacts [own (if_pos hst), host _ _ _, host _ _ _, host _ _ _, host _ _ _, host _ _ _, host _ _ _, host _ _ _, host _ _ _,
        host _ _ _, host _ _ _, host _ _ _, own (if_pos hst), own (if_pos hst), own (if_pos hst), own (if_pos hst)]
    rw [s.hostWaits_of_standby a hst hreq] at hwaits
    refine ⟨_, hwaits, rfl, rfl, hst, ?_, rfl, rfl, rfl, fun off hne => ?_⟩
    · exact (State.regB_of_regs (State.onLink_regs _ _) _ _).trans (State.regB_flag_same _ _ _ hw (by omega))
    · exact (State.reg_of_regs (State.onLink_regs _ _) _).trans (State.reg_flag_other _ _ _ _ hne hw)

end Sys2Proof.Machine
end

section
/-! PROOF. Kicks: the doorbells that one reads, and where it is held or discarded (R36, R74 to R78). -/

namespace Sys2Proof.Machine

variable (s : State)

theorem DeviceState.on_of_serves {st : DeviceState} (h : st.serves = true) : st ≠ .off ∧ st ≠ .standby := by
  cases st <;> simp_all [DeviceState.serves]

/-! ### Submission rings -/

theorem State.sq_onSq_same {n : Nat} (f : SqRing → SqRing) (hn : n < s.rings.sqs.length) : (s.onSq n f).sq n = f (s.sq n) := by
  simp [State.sq, State.onSq, hn]

theorem State.sq_onSq_other {m n : Nat} (f : SqRing → SqRing) (h : m ≠ n) : (s.onSq m f).sq n = s.sq n := by
  simp [State.sq, State.onSq, h]

@[simp] theorem State.onSq_sqs_length (n : Nat) (f : SqRing → SqRing) : (s.onSq n f).rings.sqs.length = s.rings.sqs.length := by
  simp [State.onSq]

/-! ### Doorbell reads (R75, R76) -/

/-- From `s` to `t` doorbells are read, as ring `n` sees it: what it holds stays, and a read that begins is sent. -/
structure State.ReadsFor (s t : State) (n : Nat) : Prop where
  count : t.rings.sqs.length = s.rings.sqs.length
  own : (t.sq n).own = (s.sq n).own
  fetched : (t.sq n).fetched = (s.sq n).fetched
  kickHeld : (t.sq n).kickHeld = (s.sq n).kickHeld
  reading : (s.sq n).reading = true → (t.sq n).reading = true
  again : (s.sq n).again = true → (t.sq n).again = true
  out : s.out ⊆ t.out
  sent : (s.sq n).reading = false → (t.sq n).reading = true → Out.doorbellRead n ∈ t.out

theorem State.ReadsFor.trans {s t u : State} {n : Nat} (h : s.ReadsFor t n) (h' : t.ReadsFor u n) : s.ReadsFor u n where
  count := h'.count.trans h.count
  own := h'.own.trans h.own
  fetched := h'.fetched.trans h.fetched
  kickHeld := h'.kickHeld.trans h.kickHeld
  reading := h'.reading ∘ h.reading
  again := h'.again ∘ h.again
  out := List.Subset.trans h.out h'.out
  sent hs hu := by
    cases ht : (t.sq n).reading
    · exact h'.sent ht hu
    · exact h'.out (h.sent hs ht)

/-- What leaves the submission ring as it was. -/
theorem State.ReadsFor.of_sq {t : State} {n : Nat} (hcount : t.rings.sqs.length = s.rings.sqs.length) (hsq : t.sq n = s.sq n)
    (hout : s.out ⊆ t.out) : s.ReadsFor t n :=
  ⟨hcount, by rw [hsq], by rw [hsq], by rw [hsq], by rw [hsq]; exact id, by rw [hsq]; exact id, hout,
    fun hs ht => absurd ht (by rw [hsq, hs]; exact Bool.false_ne_true)⟩

/-- The read of a submission ring's doorbell begins, or is noted for once more. -/
theorem State.readDoorbell_same {n : Nat} (hn : n < s.rings.sqs.length) :
    s.ReadsFor (s.readDoorbell (.sq n)) n ∧ ((s.readDoorbell (.sq n)).sq n).reading = true ∧
      ((s.sq n).reading = true → ((s.readDoorbell (.sq n)).sq n).again = true) := by
  cases hr : (s.sq n).reading
  · have heq : s.readDoorbell (.sq n) = (s.onSq n fun q => { q with reading := true }).emit (.doorbellRead n) := by
      simp [State.readDoorbell, hr, recOf]
    have hsq : (s.readDoorbell (.sq n)).sq n = { s.sq n with reading := true } := by
      rw [heq]; exact s.sq_onSq_same _ hn
    rw [heq] at hsq ⊢
    exact ⟨⟨by simp, by rw [hsq], by rw [hsq], by rw [hsq], by rw [hsq]; exact fun _ => rfl, by rw [hsq]; exact id,
      List.subset_append_left _ _, fun _ _ => List.mem_append_right _ List.mem_cons_self⟩, by rw [hsq],
      fun h => absurd h Bool.false_ne_true⟩
  · have heq : s.readDoorbell (.sq n) = s.onSq n fun q => { q with again := true } := by
      simp [State.readDoorbell, hr]
    have hsq : (s.readDoorbell (.sq n)).sq n = { s.sq n with again := true } := by
      rw [heq]; exact s.sq_onSq_same _ hn
    rw [heq] at hsq ⊢
    exact ⟨⟨by simp, by rw [hsq], by rw [hsq], by rw [hsq], by rw [hsq]; exact id, by rw [hsq]; exact fun _ => rfl,
      List.Subset.refl _, fun h => absurd h (by rw [hr]; exact Bool.noConfusion)⟩, by rw [hsq]; exact hr, fun _ => by rw [hsq]⟩

theorem State.readDoorbell_other {r : RingId} {n : Nat} (h : r ≠ .sq n) : s.ReadsFor (s.readDoorbell r) n := by
  cases r with
  | sq m =>
    have hm : m ≠ n := fun e => h (congrArg RingId.sq e)
    unfold State.readDoorbell
    dsimp only
    split
    · exact .of_sq s (by simp) (s.sq_onSq_other _ hm) (List.Subset.refl _)
    · exact .of_sq s (by simp) (s.sq_onSq_other _ hm) (List.subset_append_left _ _)
  | cq _ | err | ldg =>
    unfold State.readDoorbell
    dsimp only
    split
    · exact .of_sq s rfl rfl (List.Subset.refl _)
    · exact .of_sq s rfl rfl (List.subset_append_left _ _)

theorem State.readDoorbell_readsFor (r : RingId) {n : Nat} (hn : n < s.rings.sqs.length) : s.ReadsFor (s.readDoorbell r) n := by
  by_cases h : r = .sq n
  · exact h ▸ (s.readDoorbell_same hn).1
  · exact s.readDoorbell_other h

theorem State.foldl_readDoorbell_readsFor (l : List RingId) {n : Nat} (hn : n < s.rings.sqs.length) :
    s.ReadsFor (l.foldl State.readDoorbell s) n := by
  induction l generalizing s with
  | nil => exact .of_sq s rfl rfl (List.Subset.refl _)
  | cons r l ih =>
    have hr := s.readDoorbell_readsFor r hn
    exact hr.trans (ih _ (hr.count ▸ hn))

/-- A ring among those whose doorbells are read is being read, and once more if it was already. -/
theorem State.foldl_readDoorbell_mem {l : List RingId} {n : Nat} (hn : n < s.rings.sqs.length) (h : .sq n ∈ l) :
    ((l.foldl State.readDoorbell s).sq n).reading = true ∧
      ((s.sq n).reading = true → ((l.foldl State.readDoorbell s).sq n).again = true) := by
  induction l generalizing s with
  | nil => cases h
  | cons r l ih =>
    have hr := s.readDoorbell_readsFor r hn
    have hn' := hr.count ▸ hn
    rcases List.mem_cons.1 h with rfl | h
    · obtain ⟨-, hreading, hagain⟩ := s.readDoorbell_same hn
      have hrest := State.foldl_readDoorbell_readsFor (s.readDoorbell (.sq n)) l hn'
      exact ⟨hrest.reading hreading, fun hs => hrest.again (hagain hs)⟩
    · obtain ⟨hreading, hagain⟩ := ih _ hn' h
      exact ⟨hreading, fun hs => hagain (hr.reading hs)⟩

/-! ### Kicks held (R78) -/

/-- A kick is held for a ring. -/
def State.holdKick (s : State) (n : Nat) : State := s.onSq n fun q => { q with kickHeld := true }

theorem State.foldl_holdKick_eq (l : List Nat) : l.foldl State.holdKick s = { s with rings := (l.foldl State.holdKick s).rings } := by
  induction l generalizing s with
  | nil => rfl
  | cons m l ih => exact ih _

theorem State.foldl_holdKick_held {l : List Nat} {n : Nat} (hn : n < s.rings.sqs.length) (h : n ∈ l ∨ (s.sq n).kickHeld = true) :
    ((l.foldl State.holdKick s).sq n).kickHeld = true := by
  induction l generalizing s with
  | nil => exact h.resolve_left (List.not_mem_nil)
  | cons m l ih =>
    refine ih (s.holdKick m) (by simpa [State.holdKick] using hn) ?_
    by_cases hm : m = n
    · subst hm
      exact .inr (by rw [State.holdKick, s.sq_onSq_same _ hn])
    · rw [State.holdKick, s.sq_onSq_other _ hm]
      exact h.imp_left fun h => (List.mem_cons.1 h).resolve_left (Ne.symm hm)

/-! ### The wake that comes first (R36, R537) -/

/-- From `s` to `t` a wake source has fired on a part that enters no STANDBY: the power state and PWR_WAKE_CAUSE alone may differ. -/
structure State.Wakes (s t : State) : Prop where
  form : t = { s with regs := t.regs, dev := t.dev }
  state : t.dev.state = s.dev.state
  reg : ∀ o, o ≠ rPwrWakeCause → t.reg o = s.reg o

theorem State.wake_wakes (c : WakeCause) (hw : cellsFrom regReset 0 s.regs = true) (hreq : s.dev.req = none) : s.Wakes (s.wake c) := by
  have hother (o : Nat) (ho : o ≠ rPwrWakeCause) := s.reg_flag_other rPwrWakeCause c.bit o ho hw
  have hentry : ¬(s.dev.req = some .standby) := by simp [hreq]
  unfold State.wake
  rw [if_neg hentry]
  split
  · exact ⟨rfl, rfl, fun _ _ => rfl⟩
  · split
    · exact ⟨rfl, rfl, hother⟩
    · split
      · rw [State.exitIdle_eq]
        exact ⟨rfl, rfl, hother⟩
      · exact ⟨rfl, rfl, fun _ _ => rfl⟩

theorem ringCtrl_sq_ne_wakeCause {n : Nat} (hn : n < 64) : ringCtrl (.sq n) ≠ rPwrWakeCause := by
  simp only [ringCtrl, rRingSqCtrl, rPwrWakeCause]
  omega

theorem State.Wakes.ringEn {s t : State} (h : s.Wakes t) {n : Nat} (hn : n < 64) : t.ringEn (.sq n) = s.ringEn (.sq n) :=
  congrArg (wbit · 0) (h.reg _ (ringCtrl_sq_ne_wakeCause hn))

/-! ### A kick by device state (R75, R78) -/

/-- The enabled rings among those that a kick names. -/
def State.kicked (s : State) (rs : List Nat) : List Nat := rs.filter fun n => n < 64 && s.ringEn (.sq n)

theorem State.mem_kicked {rs : List Nat} {n : Nat} (hn : n < 64) (hm : n ∈ rs) (hen : s.ringEn (.sq n) = true) : n ∈ s.kicked rs :=
  List.mem_filter.2 ⟨hm, by simp [hn, hen]⟩

theorem State.kickRings_of_serves {rs : List Nat} {c : WakeCause} (h : (s.wake c).dev.state.serves = true)
    (hup : (s.wake c).fabricUp = true) :
    s.kickRings rs c = ((((s.wake c).kicked rs).map RingId.sq).foldl State.readDoorbell (s.wake c)).readFullProds := by
  rw [List.foldl_map]
  unfold State.kickRings State.kicked
  dsimp only
  cases hst : (s.wake c).dev.state <;> simp_all [DeviceState.serves]

theorem State.kickRings_of_held {rs : List Nat} {c : WakeCause}
    (h : (s.wake c).dev.state = .standby ∨ (s.wake c).dev.state = .bringUp) :
    s.kickRings rs c = ((s.wake c).kicked rs).foldl State.holdKick (s.wake c) := by
  unfold State.kickRings State.kicked State.holdKick
  rcases h with h | h <;> simp only [h]

/-- A part in STANDBY or BRING_UP keeps the kick for later. -/
theorem State.kickRings_held {rs : List Nat} {n : Nat} (hinv : s.Inv) (hreq : s.dev.req = none) (hm : n ∈ rs) (hn : n < 64)
    (hen : s.ringEn (.sq n) = true) (hst : s.dev.state = .standby ∨ s.dev.state = .bringUp) :
    s.kickRings rs .host = { s.wake .host with rings := (s.kickRings rs .host).rings } ∧
      ((s.kickRings rs .host).sq n).kickHeld = true := by
  have hwake := s.wake_wakes .host hinv.mem.regs hreq
  have hcount : n < (s.wake .host).rings.sqs.length := by rw [hwake.form]; simpa [hinv.numbers.sqs] using hn
  rw [s.kickRings_of_held (by rwa [hwake.state])]
  exact ⟨State.foldl_holdKick_eq _ _,
    State.foldl_holdKick_held _ hcount (.inl (State.mem_kicked _ hn hm ((hwake.ringEn hn).trans hen)))⟩

theorem State.Wakes.fabricUp {s t : State} (h : s.Wakes t) : t.fabricUp = s.fabricUp := by rw [h.form]; rfl

/-- A part that serves reads the doorbells of the rings kicked, and those of produced rings that were full. -/
theorem State.kickRings_reads {rs : List Nat} {n : Nat} (hinv : s.Inv) (hreq : s.dev.req = none) (hserves : s.dev.state.serves = true)
    (hup : s.fabricUp = true) (hm : n ∈ rs) (hn : n < 64) (hen : s.ringEn (.sq n) = true) :
    (s.wake .host).ReadsDoorbells (s.kickRings rs .host) ∧ (s.wake .host).ReadsFor (s.kickRings rs .host) n ∧
      ((s.kickRings rs .host).sq n).reading = true ∧
      (((s.wake .host).sq n).reading = true → ((s.kickRings rs .host).sq n).again = true) := by
  have hwake := s.wake_wakes .host hinv.mem.regs hreq
  have hcount : n < (s.wake .host).rings.sqs.length := by rw [hwake.form]; simpa [hinv.numbers.sqs] using hn
  have hmem : RingId.sq n ∈ ((s.wake .host).kicked rs).map RingId.sq :=
    List.mem_map_of_mem (State.mem_kicked _ hn hm ((hwake.ringEn hn).trans hen))
  rw [s.kickRings_of_serves (by rwa [hwake.state]) (by rwa [hwake.fabricUp])]
  generalize ((s.wake .host).kicked rs).map RingId.sq = l at hmem
  obtain ⟨hreading, hagain⟩ := State.foldl_readDoorbell_mem (s.wake .host) hcount hmem
  have hfirst := State.foldl_readDoorbell_readsFor (s.wake .host) l hcount
  have hfull : (l.foldl State.readDoorbell (s.wake .host)).ReadsFor (l.foldl State.readDoorbell (s.wake .host)).readFullProds n :=
    State.foldl_readDoorbell_readsFor _ _ (hfirst.count ▸ hcount)
  exact ⟨(State.foldl_readDoorbell_reads _ l).trans (State.foldl_readDoorbell_reads _ _), hfirst.trans hfull, hfull.reading hreading,
    fun h => hfull.again (hagain h)⟩

theorem exec_kick_awake (off : Nat) (hon : s.dev.state ≠ .off) (hawake : s.dev.state ≠ .standby) :
    exec (.kick off) s = .next (s.kickRings (kickTargets off) .host) :=
  s.next_of_on hon (by simp [State.kick, hawake])

/-! ### Entry into SERVICE -/

/-- On entry into SERVICE the doorbell of every enabled submission ring is being read, and no kick is held for it. -/
theorem State.enterService_sq {n : Nat} (hcount : s.rings.sqs.length = 64) (hn : n < 64) (hen : s.ringEn (.sq n) = true) :
    (s.enterService.sq n).reading = true ∧ (s.enterService.sq n).kickHeld = false := by
  unfold State.enterService
  dsimp only
  generalize hu : (s.goto .service).onRings _ = u
  have hlen : n < u.rings.sqs.length := by rw [← hu]; simpa [State.goto, hcount] using hn
  have hclear : (u.sq n).kickHeld = false := by
    rw [← hu]
    simp [State.sq, State.goto, hcount, hn]
  have hmem : RingId.sq n ∈ (allSqs ++ allProds).filter u.ringEn :=
    List.mem_filter.2 ⟨(mem_allRings_iff _).2 (by simpa [ringValid] using hn), by rw [← hu]; exact hen⟩
  exact ⟨(State.foldl_readDoorbell_mem u hlen hmem).1, (State.foldl_readDoorbell_readsFor u _ hlen).kickHeld.trans hclear⟩

/-- Settles O11: by the wake that comes first, then by what the device state makes of the kick. -/
theorem kicksReadDoorbells : Obligations.KicksReadDoorbells := by
  refine ⟨fun s off n hserves hup hreq hinv hm hn hen => ?_, fun s off n hreq hinv hm hn hen => ⟨?_, ?_, ?_, ?_⟩⟩
  · obtain ⟨hon, hawake⟩ := DeviceState.on_of_serves hserves
    have hwake := s.wake_wakes .host hinv.mem.regs hreq
    have hsq : (s.wake .host).sq n = s.sq n := by rw [hwake.form]; rfl
    obtain ⟨⟨rings, out, hform⟩, hreads, hreading, hagain⟩ := s.kickRings_reads hinv hreq hserves hup hm hn hen
    refine ⟨_, exec_kick_awake s off hon hawake, hreading, fun h => hreads.sent (hsq ▸ h) hreading, fun h => hagain (hsq ▸ h),
      hreads.own.trans (by rw [hsq]), hreads.fetched.trans (by rw [hsq]), ?_, ?_, fun o ho => ?_⟩
    · rw [hform, hwake.form]
    · rw [hform, hwake.form]
    · rw [← hwake.reg o ho, hform]
      rfl
  · intro hst
    have hon : s.dev.state ≠ .off := by simp [hst]
    obtain ⟨hform, hheld⟩ := s.kickRings_held hinv hreq hm hn hen (.inl hst)
    rw [s.wake_of_standby (c := .host) rfl hst hreq] at hform
    have hkick : s.kick off = (s.kickRings (kickTargets off) .host).onLink fun l =>
        { l with waiting := l.waiting ++ if s.link.waiting = [] then [] else [.kick off] } := by
      by_cases h : s.link.waiting = []
      · simp [State.kick, h, State.onLink]
      · simp [State.kick, h, hst]
    refine ⟨_, s.next_of_on hon hkick, ?_, ?_, hheld, ?_, ?_⟩ <;> rw [hform] <;> rfl
  · intro hst
    have hwake := s.wake_wakes .host hinv.mem.regs hreq
    obtain ⟨hform, hheld⟩ := s.kickRings_held hinv hreq hm hn hen (.inr hst)
    refine ⟨_, exec_kick_awake s off (by simp [hst]) (by simp [hst]), hheld, ?_⟩
    rw [hform, hwake.form]
  · intro hst hpower
    have hwake : s.wake .host = s := by simp [State.wake, hreq, hst, hpower]
    rw [exec_kick_awake s off (by simp [hst]) (by simp [hst])]
    simp only [State.kickRings, hwake, hst]
  · exact s.enterService_sq hinv.numbers.sqs hn hen

end Sys2Proof.Machine
end

section
/-! PROOF. The DRAM window of the management port (R53, R54) and its mailbox (R56 to R59, R617). -/

namespace Sys2Proof.Machine

variable (s : State)

/-! ### The DRAM window (R53, R54) -/

/-- A part that serves, with its fabric up, lets window commands through. -/
theorem State.windowChecks_of_serves (h : s.dev.state.serves = true) (hup : s.fabricUp = true) :
    s.windowChecks = [(false, lastWrongState), (false, lastNotAvailable)] := by
  simp [State.windowChecks, h, hup, (DeviceState.on_of_serves h).2]

section Window

variable {s : State} (hserves : s.dev.state.serves = true) (hup : s.fabricUp = true) (hp : s.dev.power ≠ .readyIdle)

include hserves hup hp

theorem State.dwinFetch_granules {a g : Nat} (hg : g ≤ 15) (hfit : 16 * a + 16 * (g + 1) ≤ s.dramBytes) (hb : s.mgt.dwinBusy = false) :
    s.dwinFetch a [BitVec.ofNat 8 g, 0] =
      (s.last lastOk).onMgt fun m =>
        { m with dwinBusy := true, dwinReady := false, dwinOp := some (true, 16 * a, 16 * (g + 1), []) } := by
  have hgran : u8 [BitVec.ofNat 8 g, 0] 0 = g := by simp [u8]; omega
  have hzero : u8 [BitVec.ofNat 8 g, 0] 1 = 0 := rfl
  unfold State.dwinFetch
  dsimp only
  rw [hgran, hzero, s.windowChecks_of_serves hserves hup, s.mgtCmd_of_pass hp]
  simp [hb]
  omega

theorem State.dwinRead_fetched {off len : Nat} (hoff : off % 16 = 0) (hpos : 0 < len) (hlen : len ≤ 256) (hb : s.mgt.dwinBusy = false)
    (hready : s.mgt.dwinReady = true) (hfit : off + len ≤ s.mgt.windowLen) :
    s.dwinRead off len = (s.last lastOk).emit (.mgtData (sliceB s.mgt.window off len)) := by
  unfold State.dwinRead
  rw [s.windowChecks_of_serves hserves hup, s.mgtCmd_of_pass hp]
  · rfl
  · simp [hoff, hb, hready]
    omega

theorem State.dwinWrite_free {a : Nat} {data : Bytes} (hmin : 16 ≤ data.length) (hmax : data.length ≤ 256) (hdiv : data.length % 16 = 0)
    (hfit : 16 * a + data.length ≤ s.dramBytes) (hb : s.mgt.dwinBusy = false) :
    s.dwinWrite a data =
      (s.last lastOk).onMgt fun m =>
        { m with dwinBusy := true, dwinReady := false, dwinOp := some (false, 16 * a, data.length, data) } := by
  unfold State.dwinWrite
  dsimp only
  rw [s.windowChecks_of_serves hserves hup, s.mgtCmd_of_pass hp]
  simp [hdiv, hb]
  omega

/-- The first check that a write of a well-formed length can fail is BUSY. -/
theorem State.dwinWrite_busy (a : Nat) {data : Bytes} (hmin : 16 ≤ data.length) (hmax : data.length ≤ 256)
    (hdiv : data.length % 16 = 0) (hb : s.mgt.dwinBusy = true) : s.dwinWrite a data = s.last lastBusy := by
  unfold State.dwinWrite
  dsimp only
  rw [s.windowChecks_of_serves hserves hup, s.mgtCmd_of_fail hp (c := lastBusy)]
  · rfl
  · simp [hdiv, hb, Nat.not_lt.2 hmin, Nat.not_lt.2 hmax]

end Window

/-- A fetch under way fills the buffer. -/
theorem State.dwinFetchDone_eq {a n : Nat} {x : Bytes} (h : s.mgt.dwinOp = some (true, a, n, x)) :
    s.dwinFetchDone = s.onMgt fun g =>
      { g with dwinBusy := false, dwinReady := true, window := s.dramRead a n, windowLen := n, dwinOp := none } := by
  simp only [State.dwinFetchDone, h]

/-- A write under way goes to DRAM. -/
theorem State.dwinWriteDone_eq {a n : Nat} {bs : Bytes} (h : s.mgt.dwinOp = some (false, a, n, bs)) :
    s.dwinWriteDone = (s.dramWrite a bs).onMgt fun g => { g with dwinBusy := false, dwinOp := none } := by
  simp only [State.dwinWriteDone, h]

/-! ### The mailbox (R57, R58, R617) -/

theorem State.serves_of_running (h : s.running = true) : s.dev.state.serves = true := by
  cases hst : s.dev.state <;> simp_all [State.running, DeviceState.serves]

theorem State.mboxWrite_empty {data : Bytes} (hserves : s.dev.state.serves = true) (hp : s.dev.power ≠ .readyIdle)
    (hmin : 8 ≤ data.length) (hmax : data.length ≤ 256) (hin : s.mgt.inbox = none) :
    s.mboxWrite data = (s.last lastOk).onMgt fun g => { g with inbox := some data } :=
  s.mgtCmd_of_pass hp (by simp [hserves, hin]; omega)

/-- A message posted while the mailbox is free is in it. -/
theorem State.post_free (m : MboxMsg) (h : s.mgt.outbox = none) : s.post m = s.onMgt fun g => g.writeOut m := by
  simp only [State.post, State.onMgt, h]

/-- What Penuo answers a message with (R57, R58). -/
theorem State.mboxTake_eq {m : Bytes} (hrun : s.running = true) (hin : s.mgt.inbox = some m) (hout : s.mgt.outbox = none)
    (hheld : s.mgt.held = []) :
    s.mboxTake = s.onMgt fun g =>
      { g with
        inbox := none
        outbox := some (
          if u16 m 2 > 248 ∨ u16 m 2 ≠ m.length - 8 then mboxBytes mtMalformed (u32 m 4) []
          else if u8 m 0 = mtEcho then mboxBytes mtEcho (u32 m 4) (m.drop 8)
          else mboxBytes mtUnknown (u32 m 4) []) } := by
  have hnone : s.mgt.repliesHeld = 0 := by simp [Mgt.repliesHeld, hheld]
  have hpost (r : MboxMsg) := State.post_free (s.onMgt fun g => { g with inbox := none }) r hout
  simp only [State.mboxTake, hin, hrun, hnone, hpost, Bool.not_true, Bool.false_or, ge_iff_le, Nat.reduceLeDiff, decide_false,
    Bool.false_eq_true, if_false, Bool.or_eq_true, decide_eq_true_eq]
  split
  · rfl
  · split <;> rfl

/-- With nothing held behind it the outbound message is read and the mailbox is free. -/
theorem State.mboxRead_only {m : Bytes} (hserves : s.dev.state.serves = true) (hp : s.dev.power ≠ .readyIdle)
    (hout : s.mgt.outbox = some m) (hheld : s.mgt.held = []) (hstuck : s.err.stuck = []) (hemb : s.emb = false) :
    s.mboxRead 256 = ((s.last lastOk).emit (.mgtData (sliceB m 0 256))).onMgt fun g => { g with outbox := none } := by
  rw [State.mboxRead, s.mgtCmd_of_pass hp (by simp [hserves, hout])]
  dsimp only
  rw [if_neg (ne_true_of_eq_false (by exact hemb))]
  change State.unstick s.err.stuck.length _ = _
  rw [hstuck, List.length_nil, State.unstick]
  simp only [State.last, State.onMgt, State.emit, hout, hheld, Option.getD_some]

/-- Settles O32: each command of the window and of the mailbox by its equation. -/
theorem windowAndMailbox : Obligations.WindowAndMailbox := by
  refine ⟨fun s hserves hup hp hdram => ?_, fun s hrun hp => ?_⟩
  · have hon : s.dev.state ≠ .off := (DeviceState.on_of_serves hserves).1
    refine ⟨fun a g hg hfit hb => ?_, fun a n x hop => ?_, fun off len hoff hpos hlen hb hready hfit => ?_,
      fun a data hmin hmax hdiv hfit hb => ?_, fun a n bs hop => ?_, fun a data hmin hmax hdiv hb => ?_⟩
    · exact ⟨_, s.next_of_on hon (State.dwinFetch_granules hserves hup hp hg hfit hb), rfl, rfl, rfl, rfl, rfl⟩
    · exact ⟨_, s.next_of_on hon (s.dwinFetchDone_eq hop), rfl, rfl, rfl, rfl, rfl⟩
    · exact s.next_of_on hon (State.dwinRead_fetched hserves hup hp hoff hpos hlen hb hready hfit)
    · exact ⟨_, s.next_of_on hon (State.dwinWrite_free hserves hup hp hmin hmax hdiv hfit hb), rfl, rfl, rfl, rfl, rfl⟩
    · exact ⟨_, s.next_of_on hon (s.dwinWriteDone_eq hop), rfl, Mem.read_write bs _ _ hdram,
        fun b hb => Mem.get_write_other bs _ _ b hdram hb⟩
    · exact s.next_of_on hon (State.dwinWrite_busy hserves hup hp a hmin hmax hdiv hb)
  · have hserves := s.serves_of_running hrun
    have hon : s.dev.state ≠ .off := (DeviceState.on_of_serves hserves).1
    refine ⟨fun data hmin hmax hin => ?_, fun m hin hout hheld => ?_, fun m hout hheld hstuck hemb => ?_⟩
    · exact s.next_of_on hon (s.mboxWrite_empty hserves hp hmin hmax hin)
    · exact s.next_of_on hon (s.mboxTake_eq hrun hin hout hheld)
    · exact s.next_of_on hon (s.mboxRead_only hserves hp hout hheld hstuck hemb)

end Sys2Proof.Machine
end

section
/-! PROOF. What every operation upholds (R88, R263, R459, R572): jobs, contexts and scratch units apart, and the bits of OTP that are
burnt. Each of the three has its own relation from before to after; an operation on the machine is then a chain of lemmas, one for each
operation it is made of. -/

namespace Sys2Proof.Machine

set_option Elab.async false

/-! ### The part of `State.Apart` that lies in the job table, and the part in the compute fabric -/

/-- One job to a slot and to a number, and no number that is still to be given. -/
structure JobsApart (jobs : List Job) (count : Nat) : Prop where
  slots : (jobs.map (·.slot)).Nodup
  numbers : (jobs.map (·.number)).Nodup
  below : ∀ j ∈ jobs, j.number < count

/-- The context that slot `k` of carrel `c` names. -/
def Sch.seat? (g : Sch) (c k : Nat) : Option Nat := ((g.carrels.getD c Carrel.none).slots.getD k ([], none)).2

/-- Where the contexts with an identifier know that they sit. -/
def Sch.placeOf (g : Sch) (id : Nat) : Option (Option (Nat × Nat)) := (g.ctxs.find? (·.id = id)).map (·.place)

/-- One context to an identifier and to the slot that names it, and no scratch unit of a carrel twice. -/
structure Sch.Apart (g : Sch) : Prop where
  ids : (g.ctxs.map (·.id)).Nodup
  below : ∀ x ∈ g.ctxs, x.id < g.nextCtx
  units : ∀ r ∈ g.carrels, (r.slots.flatMap (·.1)).Nodup
  seats : ∀ c k id, g.seat? c k = some id → g.placeOf id = some (some (c, k))

theorem State.apart_iff {s : State} : s.Apart ↔ JobsApart s.jobs s.jobCount ∧ s.sch.Apart := by
  have hseat (c k id : Nat) : (∃ x, s.ctx? id = some x ∧ x.place = some (c, k)) ↔ s.sch.placeOf id = some (some (c, k)) :=
    Option.map_eq_some_iff.symm
  constructor
  · rintro ⟨slots, numbers, below, ids, next, units, seats⟩
    exact ⟨⟨slots, numbers, below⟩, ids, next, units, fun c k id h => (hseat c k id).1 (seats c k id h)⟩
  · rintro ⟨⟨slots, numbers, below⟩, ids, next, units, seats⟩
    exact ⟨slots, numbers, below, ids, next, units, fun c k id h => (hseat c k id).2 (seats c k id h)⟩

/-- Burnt bits stay, in a memory in canonical form. -/
def Mem.Burns (m m' : Mem) : Prop :=
  m.wf = true → m'.wf = true ∧ ∀ a i, (m.get a).getLsbD i = true → (m'.get a).getLsbD i = true

theorem Mem.Burns.refl {m : Mem} : m.Burns m := fun w => ⟨w, fun _ _ => id⟩

theorem Mem.Burns.trans {m m' m'' : Mem} (h : m.Burns m') (h' : m'.Burns m'') : m.Burns m'' := fun w =>
  have ⟨w', b⟩ := h w
  have ⟨w'', b'⟩ := h' w'
  ⟨w'', fun a i => b' a i ∘ b a i⟩

/-! ### The relations -/

/-- What the fabric `g` has apart `h` has apart, and no slot names a context that it did not name. -/
def Sch.Upholds (g h : Sch) : Prop := (g.Apart → h.Apart) ∧ ∀ c k id, h.seat? c k = some id → g.seat? c k = some id

/-- What every operation upholds from the state before it to the state after it, but those that seat a context. -/
structure State.Upholds (s t : State) : Prop where
  jobs : JobsApart s.jobs s.jobCount → JobsApart t.jobs t.jobCount
  sch : s.sch.Upholds t.sch
  otp : s.sec.otp.Burns t.sec.otp

/-- What every step upholds. -/
structure State.Secures (s t : State) : Prop where
  jobs : JobsApart s.jobs s.jobCount → JobsApart t.jobs t.jobCount
  sch : s.sch.Apart → t.sch.Apart
  otp : s.sec.otp.Burns t.sec.otp

theorem Sch.Upholds.refl {g : Sch} : g.Upholds g := ⟨id, fun _ _ _ => id⟩

theorem Sch.Upholds.trans {g h i : Sch} (a : g.Upholds h) (b : h.Upholds i) : g.Upholds i :=
  ⟨b.1 ∘ a.1, fun c k id => a.2 c k id ∘ b.2 c k id⟩

theorem Sch.Upholds.ite {g a b : Sch} {c : Prop} {_ : Decidable c} (ha : g.Upholds a) (hb : g.Upholds b) :
    g.Upholds (if c then a else b) := by
  split <;> assumption

theorem State.Upholds.refl {s : State} : s.Upholds s := ⟨id, .refl, .refl⟩

theorem State.Upholds.trans {s t u : State} (h : s.Upholds t) (h' : t.Upholds u) : s.Upholds u :=
  ⟨h'.jobs ∘ h.jobs, h.sch.trans h'.sch, h.otp.trans h'.otp⟩

theorem State.Secures.trans {s t u : State} (h : s.Secures t) (h' : t.Secures u) : s.Secures u :=
  ⟨h'.jobs ∘ h.jobs, h'.sch ∘ h.sch, h.otp.trans h'.otp⟩

theorem State.Upholds.secures {s t : State} (h : s.Upholds t) : s.Secures t := ⟨h.jobs, h.sch.1, h.otp⟩

theorem State.Secures.apart {s t : State} (h : s.Secures t) (ha : s.Apart) : t.Apart :=
  have ⟨hj, hs⟩ := State.apart_iff.1 ha
  State.apart_iff.2 ⟨h.jobs hj, h.sch hs⟩

/-! ### Changes of the job table -/

/-- A job table of the same slots and numbers. -/
theorem JobsApart.of_map_eq {l l' : List Job} {n : Nat} (h : JobsApart l n) (hs : l'.map (·.slot) = l.map (·.slot))
    (hn : l'.map (·.number) = l.map (·.number)) : JobsApart l' n := by
  refine ⟨hs ▸ h.slots, hn ▸ h.numbers, fun j hj => ?_⟩
  obtain ⟨i, hi, e⟩ := List.mem_map.1 (hn ▸ List.mem_map_of_mem hj : j.number ∈ l.map (·.number))
  exact e ▸ h.below i hi

/-- A job table that some jobs have left. -/
theorem JobsApart.sublist {l l' : List Job} {n : Nat} (h : JobsApart l n) (hl : l'.Sublist l) : JobsApart l' n :=
  ⟨h.slots.sublist (hl.map _), h.numbers.sublist (hl.map _), fun j hj => h.below j (hl.subset hj)⟩

/-- No job is left. -/
theorem JobsApart.nil {n : Nat} : JobsApart [] n := ⟨.nil, .nil, fun _ h => (List.not_mem_nil h).elim⟩

/-- A new job takes a free slot and the next number (R88). -/
theorem JobsApart.append {l : List Job} {n : Nat} {j : Job} (h : JobsApart l n) (hs : ∀ i ∈ l, i.slot ≠ j.slot) (hn : j.number = n) :
    JobsApart (l ++ [j]) (n + 1) := by
  refine ⟨?_, ?_, fun i hi => ?_⟩
  · simpa [List.nodup_append] using ⟨h.slots, hs⟩
  · simpa [List.nodup_append] using ⟨h.numbers, fun i hi => by have := h.below i hi; omega⟩
  · obtain hi | rfl := by simpa using hi
    · exact Nat.lt_succ_of_lt (h.below i hi)
    · omega

/-! ### Changes of the fabric -/

/-- The fabric's contexts keep their identifiers and places. -/
def SameCtxs (l l' : List Ctx) : Prop := l'.map (fun x => (x.id, x.place)) = l.map fun x => (x.id, x.place)

theorem SameCtxs.map {l : List Ctx} {f : Ctx → Ctx} (hf : ∀ x, (f x).id = x.id ∧ (f x).place = x.place) : SameCtxs l (l.map f) := by
  simp [SameCtxs, hf]

theorem SameCtxs.updFirst {l : List Ctx} {p : Ctx → Bool} {f : Ctx → Ctx} (hf : ∀ x, (f x).id = x.id ∧ (f x).place = x.place) :
    SameCtxs l (updFirst p f l) :=
  updFirst_map _ _ _ (fun x => Prod.ext (hf x).1 (hf x).2) _

/-- Some contexts change, and keep identifier and place. -/
theorem SameCtxs.mapIte {l : List Ctx} {p : Ctx → Prop} {_ : DecidablePred p} {f : Ctx → Ctx}
    (hf : ∀ x, (f x).id = x.id ∧ (f x).place = x.place := by exact fun _ => ⟨rfl, rfl⟩) :
    SameCtxs l (l.map fun x => if p x then f x else x) :=
  .map fun x => by split <;> [exact hf x; exact ⟨rfl, rfl⟩]

theorem SameCtxs.ids {l l' : List Ctx} (h : SameCtxs l l') : l'.map (·.id) = l.map (·.id) := by
  simpa [List.map_map, Function.comp_def] using congrArg (List.map Prod.fst) h

theorem SameCtxs.placeOf {g h : Sch} (hc : SameCtxs g.ctxs h.ctxs) (id : Nat) : h.placeOf id = g.placeOf id := by
  have key (l : List Ctx) : (l.find? (·.id = id)).map (·.place) =
      ((l.map fun x => (x.id, x.place)).find? (·.1 = id)).map (·.2) := by
    rw [List.find?_map, Option.map_map]
    rfl
  rw [Sch.placeOf, Sch.placeOf, key, key, hc]

/-- The carrel `r'` has its units apart if `r` has, and its slots name nobody else. -/
def Carrel.Thins (r r' : Carrel) : Prop :=
  ((r.slots.flatMap (·.1)).Nodup → (r'.slots.flatMap (·.1)).Nodup) ∧
    ∀ k id, (r'.slots.getD k ([], Option.none)).2 = some id → (r.slots.getD k ([], Option.none)).2 = some id

theorem Carrel.Thins.slots {r r' : Carrel} (h : r'.slots = r.slots) : r.Thins r' := by simp [Carrel.Thins, h]

theorem Carrel.Thins.reset {r : Carrel} : r.Thins Carrel.reset := by
  refine ⟨fun _ => by decide, fun k id h => ?_⟩
  simp only [Carrel.reset, List.getD_eq_getElem?_getD, List.getElem?_replicate] at h
  split at h <;> cases h

/-- Taking a slot's units and context away takes none from the others. -/
theorem Carrel.Thins.emptySlot {r : Carrel} {k : Nat} : r.Thins (r.emptySlot k) := by
  constructor
  · refine fun h => h.sublist ?_
    simp only [Carrel.emptySlot]
    generalize r.slots = l
    induction l generalizing k with
    | nil => exact .slnil
    | cons a l ih =>
      cases k with
      | zero => simp
      | succ k => exact (List.Sublist.refl a.1).append ih
  · intro i id h
    simp only [Carrel.emptySlot, List.getD_eq_getElem?_getD, List.getElem?_set] at h ⊢
    split at h
    · split at h <;> cases h
    · exact h

/-- Each carrel of `l'` is thinned from the one in its place in `l`. -/
def CarrelsThin (l l' : List Carrel) : Prop := ∀ i r', l'[i]? = some r' → (l.getD i Carrel.none).Thins r'

theorem CarrelsThin.refl {l : List Carrel} : CarrelsThin l l := fun i r h => by
  rw [List.getD_eq_getElem?_getD, h]
  exact .slots rfl

theorem CarrelsThin.replicate {l : List Carrel} {n : Nat} : CarrelsThin l (List.replicate n Carrel.reset) := fun i r h => by
  rw [List.eq_of_mem_replicate (List.mem_of_getElem? h)]
  exact .reset

theorem CarrelsThin.mapIdx {l : List Carrel} {f : Nat → Carrel → Carrel} (hf : ∀ i (r : Carrel), r.Thins (f i r)) : CarrelsThin l (l.mapIdx f) :=
  fun i r h => by
    obtain ⟨q, hq, rfl⟩ := Option.map_eq_some_iff.1 (List.getElem?_mapIdx ▸ h)
    rw [List.getD_eq_getElem?_getD, hq]
    exact hf i q

theorem CarrelsThin.modify {l : List Carrel} {c : Nat} {f : Carrel → Carrel} (hf : ∀ r : Carrel, r.Thins (f r)) : CarrelsThin l (l.modify c f) :=
  fun i r h => by
    rw [List.getElem?_modify] at h
    obtain ⟨q, hq, rfl⟩ := Option.map_eq_some_iff.1 h
    rw [List.getD_eq_getElem?_getD, hq]
    split
    · exact hf q
    · exact .slots rfl

/-- A fabric whose contexts keep their names and places, and whose carrels are thinned. -/
theorem Sch.Upholds.of {g h : Sch} (ctxs : SameCtxs g.ctxs h.ctxs := by exact rfl) (next : h.nextCtx = g.nextCtx := by rfl)
    (carrels : CarrelsThin g.carrels h.carrels := by exact .refl) : g.Upholds h := by
  have hseat (c k id : Nat) (e : h.seat? c k = some id) : g.seat? c k = some id := by
    rcases hr : h.carrels[c]? with _ | r
    · simp [Sch.seat?, hr, Carrel.none] at e
    · refine (carrels c r hr).2 k id ?_
      simpa [Sch.seat?, hr] using e
  refine ⟨fun w => ⟨ctxs.ids ▸ w.ids, fun x hx => ?_, fun r hr => ?_, fun c k id e => ?_⟩, hseat⟩
  · obtain ⟨y, hy, e⟩ := List.mem_map.1 (ctxs.ids ▸ List.mem_map_of_mem hx : x.id ∈ g.ctxs.map (·.id))
    exact next ▸ e ▸ w.below y hy
  · obtain ⟨i, hi⟩ := List.mem_iff_getElem?.1 hr
    refine (carrels i r hi).1 ?_
    rw [List.getD_eq_getElem?_getD]
    rcases hq : g.carrels[i]? with _ | q
    · simp [Carrel.none]
    · exact w.units q (List.mem_of_getElem? hq)
  · exact (ctxs.placeOf id).trans (w.seats c k id (hseat c k id e))

theorem Sch.Upholds.reset {g : Sch} : g.Upholds Sch.reset := by
  have hnone (c k : Nat) : Sch.reset.seat? c k = none := by
    rcases e : Sch.reset.seat? c k with _ | id
    · rfl
    · have := (Sch.Upholds.of (g := { Sch.reset with carrels := [] }) (h := Sch.reset) (carrels := .replicate)).2 c k id e
      simp [Sch.seat?, Carrel.none] at this
  refine ⟨fun _ => ⟨.nil, fun _ h => (List.not_mem_nil h).elim, fun r hr => ?_, fun c k id e => ?_⟩, fun c k id e => ?_⟩
  · rw [List.eq_of_mem_replicate hr]
    decide
  · simp [hnone] at e
  · simp [hnone] at e

/-! ### A context ends, leaves its slot, or takes one -/

/-- No slot names the context. -/
def Sch.Unseated (g : Sch) (id : Nat) : Prop := ∀ c k, g.seat? c k ≠ some id

theorem Sch.Unseated.mono {g h : Sch} {id : Nat} (hu : g.Unseated id) (w : g.Upholds h) : h.Unseated id :=
  fun c k e => hu c k (w.2 c k id e)

/-- Among elements of distinct keys a search by key finds the one that has it. -/
theorem find?_key_of_mem {α : Type} {key : α → Nat} {l : List α} {a : α} (hnd : (l.map key).Nodup) (ha : a ∈ l) :
    l.find? (fun b => decide (key b = key a)) = some a := by
  induction l with
  | nil => exact absurd ha List.not_mem_nil
  | cons b l ih =>
    obtain ⟨hb, hnd'⟩ := List.nodup_cons.1 hnd
    obtain rfl | hmem := List.mem_cons.1 ha
    · simp
    · have hne : key b ≠ key a := fun e => hb (List.mem_map.2 ⟨a, hmem, e.symm⟩)
      rw [List.find?_cons_of_neg (by simpa using hne), ih hnd' hmem]

theorem Sch.placeOf_of_find {g : Sch} {id : Nat} {x : Ctx} (h : g.ctxs.find? (·.id = id) = some x) : g.placeOf id = some x.place := by
  rw [Sch.placeOf, h]
  rfl

/-- A context that knows of no slot but those that are empty by now sits nowhere. -/
theorem Sch.unseated_of_place {g h : Sch} {id : Nat} {p : Option (Nat × Nat)} (ha : g.Apart) (w : g.Upholds h)
    (hp : g.placeOf id = some p) (hempty : ∀ c k, p = some (c, k) → h.seat? c k = none) : h.Unseated id := fun c k e => by
  have hpl := ha.seats c k id (w.2 c k id e)
  rw [hp, Option.some.injEq] at hpl
  rw [hempty c k hpl] at e
  cases e

theorem Sch.seat?_emptySlot (g : Sch) (c k : Nat) :
    { g with carrels := g.carrels.modify c fun r => r.emptySlot k }.seat? c k = none := by
  simp only [Sch.seat?, List.getD_eq_getElem?_getD, List.getElem?_modify, if_pos]
  rcases g.carrels[c]? with _ | r
  · simp [Carrel.none]
  · by_cases hk : k < r.slots.length <;> simp [Carrel.emptySlot, hk]

/-- A context that sits nowhere ends (R456). -/
theorem Sch.Upholds.dropCtx {g h : Sch} {id : Nat} (w : g.Upholds h) (hu : g.Apart → h.Unseated id) :
    g.Upholds { h with ctxs := h.ctxs.filter (·.id ≠ id) } := by
  refine ⟨fun ha => ?_, w.2⟩
  have hh := w.1 ha
  refine ⟨hh.ids.sublist (List.filter_sublist.map _), fun x hx => hh.below x (List.mem_of_mem_filter hx), hh.units, fun c k i e => ?_⟩
  have hne : i ≠ id := fun hi => hu ha c k (hi ▸ e)
  refine Eq.trans ?_ (hh.seats c k i e)
  rw [Sch.placeOf, Sch.placeOf, List.find?_filter]
  congr 2
  funext x
  by_cases hx : x.id = i <;> simp [hx, hne]

/-- A context that sits nowhere may believe itself anywhere. -/
theorem Sch.Upholds.replace {g h : Sch} {id : Nat} {f : Ctx → Ctx} (w : g.Upholds h) (hu : g.Apart → h.Unseated id)
    (hf : ∀ x, (f x).id = x.id) : g.Upholds { h with ctxs := updFirst (·.id = id) f h.ctxs } := by
  refine ⟨fun ha => ?_, w.2⟩
  have hh := w.1 ha
  have hids : (updFirst (·.id = id) f h.ctxs).map (·.id) = h.ctxs.map (·.id) := updFirst_map _ _ _ hf _
  refine ⟨hids ▸ hh.ids, fun x hx => ?_, hh.units, fun c k i e => ?_⟩
  · obtain ⟨y, hy, e⟩ := List.mem_map.1 (hids ▸ List.mem_map_of_mem hx : x.id ∈ h.ctxs.map (·.id))
    exact e ▸ hh.below y hy
  · have hne : i ≠ id := fun hi => hu ha c k (hi ▸ e)
    refine Eq.trans ?_ (hh.seats c k i e)
    rw [Sch.placeOf, Sch.placeOf, find?_updFirst_other _ _ f fun x hx => ?_]
    simp only [decide_eq_true_eq, decide_eq_false_iff_not] at hx ⊢
    simp [hf, hx, hne.symm]

/-- A new context takes the next identifier. -/
theorem Sch.Apart.addCtx {g : Sch} {x : Ctx} (ha : g.Apart) (hx : x.id = g.nextCtx) :
    { g with ctxs := g.ctxs ++ [x], nextCtx := g.nextCtx + 1 }.Apart := by
  refine ⟨?_, fun y hy => ?_, ha.units, fun c k id e => ?_⟩
  · simpa [List.nodup_append, ha.ids, hx] using fun y hy => (ha.below y hy).ne
  · obtain hy | rfl := by simpa using hy
    · exact Nat.lt_succ_of_lt (ha.below y hy)
    · exact Nat.lt_succ_of_le hx.le
  · have h := ha.seats c k id e
    obtain ⟨y, hy, hp⟩ := Option.map_eq_some_iff.1 h
    simp [Sch.placeOf, List.find?_append, hy, hp]

theorem Sch.unseated_next {g : Sch} (ha : g.Apart) : g.Unseated g.nextCtx := fun c k e => by
  obtain ⟨y, hy, -⟩ := Option.map_eq_some_iff.1 (ha.seats c k _ e)
  have := ha.below y (List.mem_of_find?_eq_some hy)
  have := List.find?_some hy
  simp at this
  omega

/-- Units taken from those that no slot of a carrel has, for one of its slots. -/
theorem units_nodup_set {l : List (List Nat × Option Nat)} {k : Nat} {map : List Nat} {o : Option Nat}
    (h : (l.flatMap (·.1)).Nodup) (hm : map.Nodup) (hd : ∀ u ∈ map, u ∉ l.flatMap (·.1)) : ((l.set k (map, o)).flatMap (·.1)).Nodup := by
  induction l generalizing k with
  | nil => simp
  | cons a l ih =>
    simp only [List.flatMap_cons, List.nodup_append', List.mem_append, not_or] at h hd
    obtain ⟨ha, hl, hal⟩ := h
    cases k with
    | zero =>
      simp only [List.set_cons_zero, List.flatMap_cons, List.nodup_append']
      exact ⟨hm, hl, fun u hu hul => (hd u hu).2 hul⟩
    | succ k =>
      simp only [List.set_cons_succ, List.flatMap_cons, List.nodup_append']
      refine ⟨ha, ih hl fun u hu => (hd u hu).2, fun u hu hul => ?_⟩
      obtain ⟨p, hp, hup⟩ := List.mem_flatMap.1 hul
      obtain hp | rfl := List.mem_or_eq_of_mem_set hp
      · exact hal hu (List.mem_flatMap.2 ⟨p, hp, hup⟩)
      · exact (hd u hup).1 hu

/-- Once a slot is given away, it names its new context alone, and every other slot whom it named before. -/
theorem Sch.seat?_set {g : Sch} {l : List Ctx} {id c k d m i : Nat} {map : List Nat} {f : Carrel → Carrel}
    (hf : ∀ r, (f r).slots = r.slots.set k (map, some id))
    (e : { g with carrels := g.carrels.modify c f, ctxs := l }.seat? d m = some i) :
    (d = c ∧ m = k ∧ i = id) ∨ g.seat? d m = some i := by
  rcases hr : g.carrels[d]? with _ | r
  · simp [Sch.seat?, List.getElem?_modify, hr, Carrel.none] at e
  · by_cases hcd : c = d
    · subst hcd
      simp only [Sch.seat?, List.getD_eq_getElem?_getD, List.getElem?_modify, hr, if_true, Option.map_eq_map, Option.map_some,
        Option.getD_some, hf, List.getElem?_set] at e ⊢
      split at e
      · subst m
        split at e
        · exact .inl ⟨trivial, rfl, by simpa using e.symm⟩
        · cases e
      · exact .inr e
    · exact .inr (by simpa [Sch.seat?, hr, hcd] using e)

/-- A context that sits nowhere takes a slot, with units that no slot of the carrel has (R263, R459). -/
theorem Sch.Apart.seat {g : Sch} {id c k : Nat} {map : List Nat} {f : Carrel → Carrel} {fx : Ctx → Ctx} (ha : g.Apart)
    (hu : g.Unseated id) (hid : (g.placeOf id).isSome = true) (hf : ∀ r, (f r).slots = r.slots.set k (map, some id))
    (hmap : map.Nodup) (hfree : ∀ u ∈ map, u ∉ (g.carrels.getD c Carrel.none).slots.flatMap (·.1))
    (hfx : ∀ x, (fx x).id = x.id ∧ (fx x).place = some (c, k)) :
    { g with carrels := g.carrels.modify c f, ctxs := updFirst (·.id = id) fx g.ctxs }.Apart := by
  have hids : (updFirst (·.id = id) fx g.ctxs).map (·.id) = g.ctxs.map (·.id) := updFirst_map _ _ _ (fun x => (hfx x).1) _
  refine ⟨hids ▸ ha.ids, fun x hx => ?_, fun r hr => ?_, fun d m i e => ?_⟩
  · obtain ⟨y, hy, e⟩ := List.mem_map.1 (hids ▸ List.mem_map_of_mem hx : x.id ∈ g.ctxs.map (·.id))
    exact e ▸ ha.below y hy
  · obtain ⟨i, hi⟩ := List.mem_iff_getElem?.1 hr
    rw [List.getElem?_modify] at hi
    obtain ⟨q, hq, rfl⟩ := Option.map_eq_some_iff.1 hi
    have hq' := ha.units q (List.mem_of_getElem? hq)
    split
    · rename_i hci
      subst hci
      rw [hf]
      exact units_nodup_set hq' hmap fun u hu => by simpa [hq] using hfree u hu
    · exact hq'
  · obtain ⟨rfl, rfl, rfl⟩ | hold := Sch.seat?_set hf e
    · obtain ⟨p, hp⟩ := Option.isSome_iff_exists.1 hid
      obtain ⟨x, hx, -⟩ := Option.map_eq_some_iff.1 hp
      rw [Sch.placeOf, find?_updFirst_same _ _ fun y => by rw [(hfx y).1], hx]
      simp [(hfx x).2]
    · have hne : i ≠ id := fun h => hu d m (h ▸ hold)
      refine Eq.trans ?_ (ha.seats d m i hold)
      rw [Sch.placeOf, Sch.placeOf, find?_updFirst_other _ _ fx fun x hx => ?_]
      simp only [decide_eq_true_eq, decide_eq_false_iff_not] at hx ⊢
      simp [hfx, hx, hne.symm]

namespace State

variable {s₀ s : State}

/-! ### Changes of one part of the state -/

/-- A state whose units each uphold their part. -/
theorem Upholds.units {t : State} (h : s₀.Upholds s) (jobs : JobsApart s.jobs s.jobCount → JobsApart t.jobs t.jobCount := by exact id)
    (sch : s.sch.Upholds t.sch := by exact .refl) (otp : s.sec.otp.Burns t.sec.otp := by exact .refl) : s₀.Upholds t :=
  h.trans ⟨jobs, sch, otp⟩

/-- A change of what none of the three speaks of. -/
theorem Upholds.plain {p : List Instr} {rf : RegFile} {fr ao ar : Nat} {o : List Out} {d : Dev} {r : Rst} {k : Link} {m : Mgt} {q : Rings}
    {a : Acc} {c : Col} {f : Fol} {v : Kv} {l : Ldg} {e : Errs} {dm fm : Mem} (h : s₀.Upholds s) :
    s₀.Upholds { s with pending := p, regs := rf, fresh := fr, out := o, aoTime := ao, arithNow := ar, dev := d, rst := r, link := k,
                        mgt := m, rings := q, acc := a, col := c, fol := f, kv := v, ldg := l, err := e, dram := dm, flash := fm } :=
  h.units

theorem Upholds.onDev {f : Dev → Dev} (h : s₀.Upholds s) : s₀.Upholds (s.onDev f) := h.plain
theorem Upholds.onRst {f : Rst → Rst} (h : s₀.Upholds s) : s₀.Upholds (s.onRst f) := h.plain
theorem Upholds.onLink {f : Link → Link} (h : s₀.Upholds s) : s₀.Upholds (s.onLink f) := h.plain
theorem Upholds.onMgt {f : Mgt → Mgt} (h : s₀.Upholds s) : s₀.Upholds (s.onMgt f) := h.plain
theorem Upholds.onRings {f : Rings → Rings} (h : s₀.Upholds s) : s₀.Upholds (s.onRings f) := h.plain
theorem Upholds.onAcc {f : Acc → Acc} (h : s₀.Upholds s) : s₀.Upholds (s.onAcc f) := h.plain
theorem Upholds.onCol {f : Col → Col} (h : s₀.Upholds s) : s₀.Upholds (s.onCol f) := h.plain
theorem Upholds.onFol {f : Fol → Fol} (h : s₀.Upholds s) : s₀.Upholds (s.onFol f) := h.plain
theorem Upholds.onKv {f : Kv → Kv} (h : s₀.Upholds s) : s₀.Upholds (s.onKv f) := h.plain
theorem Upholds.onLdg {f : Ldg → Ldg} (h : s₀.Upholds s) : s₀.Upholds (s.onLdg f) := h.plain
theorem Upholds.onErr {f : Errs → Errs} (h : s₀.Upholds s) : s₀.Upholds (s.onErr f) := h.plain
theorem Upholds.setReg {off : Nat} {v : Word} (h : s₀.Upholds s) : s₀.Upholds (s.setReg off v) := h.plain
theorem Upholds.dramWrite {a : Nat} {bs : Bytes} (h : s₀.Upholds s) : s₀.Upholds (s.dramWrite a bs) := h.plain
theorem Upholds.flashWrite {a : Nat} {bs : Bytes} (h : s₀.Upholds s) : s₀.Upholds (s.flashWrite a bs) := h.plain

theorem Upholds.onSec {f : Sec → Sec} (h : s₀.Upholds s) (hf : ∀ c : Sec, c.otp.Burns (f c).otp := by exact fun _ => .refl) :
    s₀.Upholds (s.onSec f) :=
  h.units (otp := hf _)

theorem Upholds.onSch {f : Sch → Sch} (h : s₀.Upholds s) (hf : ∀ g : Sch, g.Upholds (f g) := by exact fun _ => .of) :
    s₀.Upholds (s.onSch f) :=
  h.units (sch := hf _)

theorem Upholds.onJob {slot : Nat} {f : Job → Job} (h : s₀.Upholds s)
    (hf : ∀ j, (f j).slot = j.slot ∧ (f j).number = j.number := by exact fun _ => ⟨rfl, rfl⟩) : s₀.Upholds (s.onJob slot f) :=
  h.units (jobs := fun w => w.of_map_eq (updFirst_map _ _ _ (fun j => (hf j).1) _) (updFirst_map _ _ _ (fun j => (hf j).2) _))

theorem Upholds.onJobNum {number : Nat} {f : Job → Job} (h : s₀.Upholds s)
    (hf : ∀ j, (f j).slot = j.slot ∧ (f j).number = j.number := by exact fun _ => ⟨rfl, rfl⟩) : s₀.Upholds (s.onJobNum number f) :=
  h.units (jobs := fun w => w.of_map_eq (updFirst_map _ _ _ (fun j => (hf j).1) _) (updFirst_map _ _ _ (fun j => (hf j).2) _))

theorem Upholds.withJobs {l : List Job} (h : s₀.Upholds s) (hl : l.Sublist s.jobs) : s₀.Upholds { s with jobs := l } :=
  h.units (jobs := fun w => w.sublist hl)

theorem Upholds.onCarrel {c : Nat} {f : Carrel → Carrel} (h : s₀.Upholds s)
    (hf : ∀ r : Carrel, r.Thins (f r) := by exact fun _ => .slots rfl) : s₀.Upholds (s.onCarrel c f) :=
  .onSch h fun _ => .of (carrels := .modify hf)

theorem Upholds.onCtx {id : Nat} {f : Ctx → Ctx} (h : s₀.Upholds s)
    (hf : ∀ x, (f x).id = x.id ∧ (f x).place = x.place := by exact fun _ => ⟨rfl, rfl⟩) : s₀.Upholds (s.onCtx id f) :=
  .onSch h fun _ => .of (ctxs := .updFirst hf)

/-! ### Choices and repetitions -/

theorem Upholds.ite {t : State} {c : Prop} {_ : Decidable c} (h : s₀.Upholds s) (h' : s₀.Upholds t) : s₀.Upholds (if c then s else t) := by
  split <;> assumption

theorem Upholds.iteFst {β : Type} {p q : State × β} {c : Prop} {_ : Decidable c} (h : s₀.Upholds p.1) (h' : s₀.Upholds q.1) :
    s₀.Upholds (if c then p else q).1 := by
  split <;> assumption

theorem Upholds.iteSnd {β : Type} {p q : β × State} {c : Prop} {_ : Decidable c} (h : s₀.Upholds p.2) (h' : s₀.Upholds q.2) :
    s₀.Upholds (if c then p else q).2 := by
  split <;> assumption

theorem Upholds.foldl {α : Type} {f : State → α → State} {l : List α} (h : s₀.Upholds s)
    (hf : ∀ t a, s₀.Upholds t → s₀.Upholds (f t a)) : s₀.Upholds (l.foldl f s) := by
  induction l generalizing s with
  | nil => exact h
  | cons a l ih => exact ih (hf _ _ h)

/-- A fold that carries the state beside something else. -/
theorem Upholds.foldlSnd {α β : Type} {f : β × State → α → β × State} {l : List α} {p : β × State} (h : s₀.Upholds p.2)
    (hf : ∀ t a, s₀.Upholds t.2 → s₀.Upholds (f t a).2) : s₀.Upholds (l.foldl f p).2 := by
  induction l generalizing p with
  | nil => exact h
  | cons a l ih => exact ih (hf _ _ h)

theorem Upholds.foldlFst {α β : Type} {f : State × β → α → State × β} {l : List α} {p : State × β} (h : s₀.Upholds p.1)
    (hf : ∀ t a, s₀.Upholds t.1 → s₀.Upholds (f t a).1) : s₀.Upholds (l.foldl f p).1 := by
  induction l generalizing p with
  | nil => exact h
  | cons a l ih => exact ih (hf _ _ h)

theorem Upholds.pairFst {β : Type} {b : β} (h : s₀.Upholds s) : s₀.Upholds (s, b).1 := h

theorem Upholds.pairSnd {β : Type} {b : β} (h : s₀.Upholds s) : s₀.Upholds (b, s).2 := h

/-- The state that a pair was found to hold. -/
theorem Upholds.ofFst {β : Type} {p : State × β} {b : β} (h : s₀.Upholds p.1) (e : p = (s, b)) : s₀.Upholds s := by
  subst e; exact h

end State

/-! ### Answers that may be none -/

/-- The state answered, if any, upholds the three. -/
def UpholdsSome (s₀ : State) (o : Option State) : Prop := ∀ t, o = some t → s₀.Upholds t

theorem UpholdsSome.none {s₀ : State} : UpholdsSome s₀ none := fun _ e => nomatch e

theorem UpholdsSome.some {s₀ s : State} (h : s₀.Upholds s) : UpholdsSome s₀ (some s) := fun _ e => Option.some.inj e ▸ h

theorem UpholdsSome.ite {s₀ : State} {o o' : Option State} {c : Prop} {_ : Decidable c} (h : UpholdsSome s₀ o) (h' : UpholdsSome s₀ o') :
    UpholdsSome s₀ (if c then o else o') := by
  split <;> assumption

theorem UpholdsSome.orElse {s₀ : State} {o o' : Option State} (h : UpholdsSome s₀ o) (h' : UpholdsSome s₀ o') :
    UpholdsSome s₀ (o.orElse fun _ => o') := by
  cases o with
  | none => exact h'
  | some t => exact h

/-! ### Effects -/

/-- Every state that an effect ends in upholds the three. -/
def Eff.Upholds (s₀ : State) : Eff → Prop
  | .ok s => s₀.Upholds s
  | .err s _ _ _ => s₀.Upholds s
  | .wait => True

section
variable {s₀ s : State}

theorem Eff.Upholds.ok (h : s₀.Upholds s) : Eff.Upholds s₀ (.ok s) := h

theorem Eff.Upholds.err {kind unit detail : Nat} (h : s₀.Upholds s) : Eff.Upholds s₀ (.err s kind unit detail) := h

theorem Eff.Upholds.wait : Eff.Upholds s₀ .wait := trivial

theorem State.Upholds.ofOk {e : Eff} (h : Eff.Upholds s₀ e) (he : e = .ok s) : s₀.Upholds s := by
  subst he; exact h

theorem State.Upholds.ofErr {e : Eff} {kind unit detail : Nat} (h : Eff.Upholds s₀ e) (he : e = .err s kind unit detail) : s₀.Upholds s := by
  subst he; exact h

theorem Eff.Upholds.ite {e e' : Eff} {c : Prop} {_ : Decidable c} (h : Eff.Upholds s₀ e) (h' : Eff.Upholds s₀ e') :
    Eff.Upholds s₀ (if c then e else e') := by
  split <;> assumption

end

end Sys2Proof.Machine
end

section
/-! PROOF. What each operation upholds of registers, records, boot, ledger, resets and power. -/

namespace Sys2Proof.Machine

set_option Elab.async false

variable {s₀ s : State}

/-! ### Registers and outputs -/

theorem State.Upholds.setRegF {off lo n v : Nat} (h : s₀.Upholds s) : s₀.Upholds (s.setRegF off lo n v) := .setReg h

theorem State.Upholds.flag {off i : Nat} (h : s₀.Upholds s) : s₀.Upholds (s.flag off i) := .setRegF h

theorem State.Upholds.bumpSat {off lo n k : Nat} (h : s₀.Upholds s) : s₀.Upholds (s.bumpSat off lo n k) := .setRegF h

theorem State.Upholds.access {bit off : Nat} (h : s₀.Upholds s) : s₀.Upholds (s.access bit off) := .setRegF (.flag h)

theorem State.Upholds.writeWord {off : Nat} {v : Word} (h : s₀.Upholds s) : s₀.Upholds (s.writeWord off v) := by
  unfold State.writeWord
  split
  · exact h
  · exact .ite (.access (.setReg h)) (.setReg h)

theorem State.Upholds.emit {o : Out} (h : s₀.Upholds s) : s₀.Upholds (s.emit o) := .plain h

theorem State.Upholds.msix {vector : Nat} (h : s₀.Upholds s) : s₀.Upholds (s.msix vector) :=
  .ite h (.ite (.onLink (f := fun l => { l with msixPending := l.msixPending ||| 2 ^ vector }) h) (.emit h))

theorem State.Upholds.mgtInt {k : Nat} (h : s₀.Upholds s) : s₀.Upholds (s.mgtInt k) := .flag h

theorem State.Upholds.hostWrite {a : Nat} {bs : Bytes} {bulk : Bool} (h : s₀.Upholds s) : s₀.Upholds (s.hostWrite a bs bulk) :=
  .ite (.dramWrite h) (.foldl h fun _ _ => .emit)

theorem State.Upholds.hostRead {a n : Nat} (h : s₀.Upholds s) : s₀.Upholds (s.hostRead a n) := .ite h (.foldl h fun _ _ => .emit)

theorem State.Upholds.fetchHost {a n : Nat} {given : Bytes} (h : s₀.Upholds s) : s₀.Upholds (s.fetchHost a n given).2 := .hostRead h

theorem State.Upholds.whenOn {f : State → State} (h : s₀.Upholds s) (hf : ∀ t, s₀.Upholds t → s₀.Upholds (f t)) : s₀.Upholds (s.whenOn f) :=
  .ite h (hf _ h)

theorem State.Upholds.whenPowered {f : State → State} (h : s₀.Upholds s) (hf : ∀ t, s₀.Upholds t → s₀.Upholds (f t)) :
    s₀.Upholds (s.whenPowered f) :=
  .ite h (hf _ h)

theorem State.Upholds.sysEvent {bit : Nat} (h : s₀.Upholds s) : s₀.Upholds (s.sysEvent bit) := .mgtInt (.flag h)

theorem State.Upholds.goto {st : DeviceState} (h : s₀.Upholds s) : s₀.Upholds (s.goto st) := .onDev h

theorem State.Upholds.drawBytes {n : Nat} (h : s₀.Upholds s) : s₀.Upholds (s.drawBytes n).2 := .plain h

theorem State.Upholds.extendMs {i : Nat} {d : Bytes} (h : s₀.Upholds s) : s₀.Upholds (s.extendMs i d) := .onSec h

theorem State.Upholds.extendOtp (h : s₀.Upholds s) : s₀.Upholds s.extendOtp := .extendMs h

/-! ### Plane and sequence pages -/

theorem State.Upholds.onSeq {n : Nat} {f : SeqSlot → SeqSlot} (h : s₀.Upholds s) : s₀.Upholds (s.onSeq n f) := .onKv h

theorem State.Upholds.freePage {p log2 : Nat} (h : s₀.Upholds s) : s₀.Upholds (s.freePage p log2) := .onKv h

theorem State.Upholds.dropHold {p log2 : Nat} (h : s₀.Upholds s) : s₀.Upholds (s.dropHold p log2) := .ite (.freePage h) h

theorem State.Upholds.freeSwap {slot unit : Nat} (h : s₀.Upholds s) : s₀.Upholds (s.freeSwap slot unit) := .onKv h

theorem State.Upholds.onTable {slot : Nat} {f : List Pte → List Pte} (h : s₀.Upholds s) : s₀.Upholds (s.onTable slot f) := by
  unfold State.onTable
  dsimp only
  split
  · exact .dramWrite (.onSeq h)
  · exact .onSeq h

theorem State.Upholds.onPte {slot base : Nat} {f : Pte → Pte} (h : s₀.Upholds s) : s₀.Upholds (s.onPte slot base f) := .onTable h

theorem State.Upholds.dropEntry {slot : Nat} {p : Pte} (h : s₀.Upholds s) : s₀.Upholds (s.dropEntry slot p) :=
  .ite (.freeSwap h) (.ite (.dropHold h) h)

theorem State.Upholds.removePte {slot base : Nat} (h : s₀.Upholds s) : s₀.Upholds (s.removePte slot base) := by
  unfold State.removePte
  split
  · exact h
  · exact .dropEntry (.onSeq h)

theorem State.Upholds.releasePages {slot : Nat} (h : s₀.Upholds s) : s₀.Upholds (s.releasePages slot) := by
  unfold State.releasePages
  split
  · exact h
  · extract_lets s1
    have h1 : s₀.Upholds s1 := .foldl h fun _ _ => .removePte
    split
    · exact .freePage (.onSeq h1)
    · exact h1

theorem State.Upholds.releaseSeq {slot : Nat} (h : s₀.Upholds s) : s₀.Upholds (s.releaseSeq slot) := by
  unfold State.releaseSeq
  exact .onSch (.onKv (.releasePages h)) fun _ => .of (ctxs := .map fun _ => by unfold Ctx.forget; split <;> exact ⟨rfl, rfl⟩)

theorem State.Upholds.releasePage {number idx : Nat} (h : s₀.Upholds s) : s₀.Upholds (s.releasePage number idx) :=
  .foldl h fun _ _ => .releaseSeq

/-! ### Records, interrupts and errors -/

theorem State.Upholds.charge {a : Account} (h : s₀.Upholds s) : s₀.Upholds (s.charge a) := .ite (.ite h (.onLdg h)) h

theorem State.Upholds.chargeWait {client cycles preempted : Nat} (h : s₀.Upholds s) : s₀.Upholds (s.chargeWait client cycles preempted) :=
  .ite (.onLdg h) h

theorem State.Upholds.chargeArray {c n : Nat} (h : s₀.Upholds s) : s₀.Upholds (s.chargeArray c n) := .charge h

theorem State.Upholds.chargeVector {c n : Nat} (h : s₀.Upholds s) : s₀.Upholds (s.chargeVector c n) := .charge h

theorem State.Upholds.chargeDram {c n : Nat} (h : s₀.Upholds s) : s₀.Upholds (s.chargeDram c n) := .charge h

theorem State.Upholds.chargePcie {c n : Nat} (h : s₀.Upholds s) : s₀.Upholds (s.chargePcie c n) := .ite (.chargeDram h) (.charge h)

theorem State.Upholds.unattributed {k n : Nat} (h : s₀.Upholds s) : s₀.Upholds (s.unattributed k n) := .onLdg h

theorem State.Upholds.unattributedHost {n : Nat} (h : s₀.Upholds s) : s₀.Upholds (s.unattributedHost n) := .unattributed h

theorem State.Upholds.post {m : MboxMsg} (h : s₀.Upholds s) : s₀.Upholds (s.post m) := .onMgt h

theorem State.Upholds.onSq {n : Nat} {f : SqRing → SqRing} (h : s₀.Upholds s) : s₀.Upholds (s.onSq n f) := .onRings h

theorem State.Upholds.onCq {n : Nat} {f : CqRing → CqRing} (h : s₀.Upholds s) : s₀.Upholds (s.onCq n f) := .onRings h

theorem State.Upholds.onProd {r : RingId} {f : ProdRing → ProdRing} (h : s₀.Upholds s) : s₀.Upholds (s.onProd r f) := by
  unfold State.onProd
  split
  · exact h
  · exact .onCq h
  · exact .onRings h
  · exact .onRings h

theorem State.Upholds.readDoorbell {r : RingId} (h : s₀.Upholds s) : s₀.Upholds (s.readDoorbell r) := by
  unfold State.readDoorbell
  split
  · exact .ite (.onSq h) (.emit (.onSq h))
  · exact .ite (.onProd h) (.emit (.onProd h))

theorem State.Upholds.readAllSqs (h : s₀.Upholds s) : s₀.Upholds s.readAllSqs := .foldl h fun _ _ => .readDoorbell

theorem State.Upholds.readFullProds (h : s₀.Upholds s) : s₀.Upholds s.readFullProds := .foldl h fun _ _ => .readDoorbell

theorem State.Upholds.readAllRings (h : s₀.Upholds s) : s₀.Upholds s.readAllRings := .foldl h fun _ _ => .readDoorbell

theorem State.Upholds.enterService (h : s₀.Upholds s) : s₀.Upholds s.enterService := .readAllRings (.onRings (.goto h))

theorem State.Upholds.holdKept {number : Nat} (h : s₀.Upholds s) : s₀.Upholds (s.holdKept number) := .onAcc h

theorem State.Upholds.freeSlot {slot : Nat} (h : s₀.Upholds s) : s₀.Upholds (s.freeSlot slot) := by
  unfold State.freeSlot
  split
  · exact .withJobs (.holdKept (number := _) (.ite (.bumpSat h) h)) List.filter_sublist
  · exact h

theorem State.Upholds.cqInterrupt {n : Nat} {jobEnd : Bool} (h : s₀.Upholds s) : s₀.Upholds (s.cqInterrupt n jobEnd) :=
  .ite (.ite (.post (.mgtInt h)) (.msix h)) h

theorem State.Upholds.writeCq {n : Nat} {r : CqRec} (h : s₀.Upholds s) : s₀.Upholds (s.writeCq n r) := by
  unfold State.writeCq
  extract_lets ring own a s1 s2 jobEnd s3 noPages s4 s4' s5
  have h3 : s₀.Upholds s3 := .chargePcie (.cqInterrupt (.onProd (.hostWrite h)))
  have h4 : s₀.Upholds s4 := .ite h3 (.charge h3)
  have h4' : s₀.Upholds s4' := by
    dsimp only [s4']
    split
    · exact .releasePage h4
    · exact h4
  have h5 : s₀.Upholds s5 := by
    dsimp only [s5]
    split
    · exact .freeSlot h4'
    · exact h4'
  exact .ite (.readFullProds (.readAllSqs h5)) h5

theorem State.Upholds.postCq {n : Nat} {r : CqRec} (h : s₀.Upholds s) : s₀.Upholds (s.postCq n r) := .ite (.onCq h) (.writeCq h)

theorem State.Upholds.flushCq {fuel n : Nat} (h : s₀.Upholds s) : s₀.Upholds (State.flushCq fuel s n) := by
  induction fuel generalizing s with
  | zero => exact h
  | succ fuel ih =>
    unfold State.flushCq
    split
    · exact .onProd h
    · exact .ite h (ih (.writeCq (.onCq h)))

theorem State.Upholds.endJob {slot status extraFlags amount detail : Nat} (h : s₀.Upholds s) :
    s₀.Upholds (s.endJob slot status extraFlags amount detail) := by
  unfold State.endJob
  split
  · exact h
  · exact .postCq (.onJob h)

theorem State.Upholds.seqRecord {slot idx sample status flags amount detail : Nat} (h : s₀.Upholds s) :
    s₀.Upholds (s.seqRecord slot idx sample status flags amount detail) := by
  unfold State.seqRecord
  split
  · exact h
  · exact .ite h (.postCq (.onJob h))

theorem State.Upholds.markLasting {u : Nat} (h : s₀.Upholds s) : s₀.Upholds (s.markLasting u) := by
  unfold State.markLasting
  split <;> exact .flag h

theorem State.Upholds.noteEvent {u kind : Nat} (h : s₀.Upholds s) : s₀.Upholds (s.noteEvent u kind).2 :=
  .ite (.markLasting (.ite (.flag (.onErr h)) (.onErr h))) (.ite (.flag (.onErr h)) (.onErr h))

theorem State.Upholds.onPair {u kind : Nat} {f : ErrPair → ErrPair} (h : s₀.Upholds s) : s₀.Upholds (s.onPair u kind f) := .onErr h

theorem State.Upholds.writeErr {r : ErrRec} (h : s₀.Upholds s) : s₀.Upholds (s.writeErr r) :=
  .ite (.msix (.unattributedHost (.setRegF (.onProd (.hostWrite h))))) (.unattributedHost (.setRegF (.onProd (.hostWrite h))))

theorem State.Upholds.holdErr {mk : Nat → ErrRec} (h : s₀.Upholds s) : s₀.Upholds (s.holdErr mk) :=
  .ite (.ite (.onMgt h) (.onErr h)) (.ite (.ite (.onMgt (.onErr h)) (.onErr (.onErr h))) (.ite (.flag (.onErr h)) (.onErr (.onErr h))))

theorem State.Upholds.issueRec {mk : Nat → ErrRec} (h : s₀.Upholds s) : s₀.Upholds (s.issueRec mk) := by
  unfold State.issueRec
  refine .ite ?_ (.ite (.holdErr (.onProd h)) (.writeErr (.onErr h)))
  split
  · exact .onMgt (.setRegF (.onErr h))
  · exact .holdErr h

theorem State.Upholds.unstick {fuel : Nat} (h : s₀.Upholds s) : s₀.Upholds (State.unstick fuel s) := by
  induction fuel generalizing s with
  | zero => exact h
  | succ fuel ih =>
    unfold State.unstick
    split
    · exact h
    · refine .ite (ih (.ite ?_ (.onErr (.onErr h)))) h
      split <;> exact .onMgt (.onErr h)

theorem State.Upholds.flushErr {fuel : Nat} (h : s₀.Upholds s) : s₀.Upholds (State.flushErr fuel s) := by
  induction fuel generalizing s with
  | zero => exact h
  | succ fuel ih =>
    unfold State.flushErr
    split
    · exact .onProd h
    · exact .ite h (.ite (.onProd h) (ih (.unstick (.writeErr (.onErr h)))))

theorem State.Upholds.errsToMailbox (h : s₀.Upholds s) : s₀.Upholds s.errsToMailbox := by
  unfold State.errsToMailbox
  refine .foldl (.onErr h) fun _ _ h => ?_
  split
  · exact .onMgt (.setRegF h)
  · exact .onMgt h

theorem State.Upholds.chargeJob {slot number : Nat} (h : s₀.Upholds s) : s₀.Upholds (s.chargeJob slot number) := by
  unfold State.chargeJob
  split
  · exact h
  · exact .ite (.onSch (.onJob h) fun _ => .of (ctxs := .mapIte)) h

theorem State.Upholds.stopUnit {u : Nat} (h : s₀.Upholds s) : s₀.Upholds (s.stopUnit u) :=
  .onSch h fun _ => .ite .of (.ite .of .of)

theorem State.Upholds.consequence {sev : Nat} {ev : ErrEvent} {n : Nat} (h : s₀.Upholds s) : s₀.Upholds (s.consequence sev ev n) := by
  unfold State.consequence
  refine .ite h (.ite ?_ (.ite (.foldl (.ite h (.stopUnit h)) fun _ _ => .chargeJob) ?_))
  · split
    · exact .chargeJob h
    · exact h
  · extract_lets _ s1
    have h1 : s₀.Upholds s1 := .foldl (.flag h) fun _ _ => .chargeJob
    exact .ite (.mgtInt (.onDev (.ite (.onDev (.ite (.sysEvent h1) h1)) (.goto (.ite (.sysEvent h1) h1))))) h1

theorem State.Upholds.reportError {ev : ErrEvent} (h : s₀.Upholds s) : s₀.Upholds (s.reportError ev) :=
  .ite (.onPair (.noteEvent h)) (.consequence (.onPair (.issueRec (.noteEvent h))))

theorem State.Upholds.raise {ev : ErrEvent} (h : s₀.Upholds s) : s₀.Upholds (s.raise ev) := by
  unfold State.raise
  dsimp only
  split
  · exact .ite (.onErr h) (.onSch (.onErr h) fun _ => .of (ctxs := .mapIte))
  · exact .onErr h

/-! ### The boot flash and the bring-up -/

theorem State.Upholds.dropRecord {b : Bool} (h : s₀.Upholds s) : s₀.Upholds (s.dropRecord b) := .flashWrite (.flashWrite h)

theorem State.Upholds.putRecord {b : Bool} {r : Bytes} (h : s₀.Upholds s) : s₀.Upholds (s.putRecord b r) := .flashWrite (.flashWrite h)

theorem State.Upholds.loadPenuo {src : BootSrc} {img : Bytes} (h : s₀.Upholds s) : s₀.Upholds (s.loadPenuo src img) := .onDev (.extendMs h)

theorem State.Upholds.bootFrom {l : List (Bool × Bytes)} {failed : Bool} {t : State} (h : s₀.Upholds s) (e : s.bootFrom l failed = some t) :
    s₀.Upholds t := by
  induction l generalizing failed with
  | nil => cases e
  | cons p l ih =>
    simp only [State.bootFrom] at e
    split at e
    · cases e
      exact .loadPenuo h
    · exact ih e

theorem State.Upholds.bootStep4 (h : s₀.Upholds s) : s₀.Upholds s.bootStep4 := by
  unfold State.bootStep4
  refine .ite (.onDev (.setRegF (.onDev (.extendOtp h)))) ?_
  split
  · rename_i eq2
    exact .bootFrom (.onDev (.extendOtp h)) eq2
  · exact .ite (.onDev (.setRegF (.onDev (.extendOtp h)))) (.onDev (.extendOtp h))

theorem State.Upholds.hostBootGo {length : Nat} (h : s₀.Upholds s) : s₀.Upholds (s.hostBootGo length) :=
  .ite h (.ite (.onDev (.setRegF (.setRegF h))) (.setRegF h))

theorem State.Upholds.hostBootVerifyDone (h : s₀.Upholds s) : s₀.Upholds s.hostBootVerifyDone :=
  .ite (.ite (.loadPenuo (.setRegF h)) (.setRegF h)) h

theorem State.Upholds.rcvBlock {block : Nat} {data : Bytes} (h : s₀.Upholds s) : s₀.Upholds (s.rcvBlock block data) :=
  .ite (.onSec h) (.ite (.onDev (.flashWrite (.onSec (.dropRecord h)))) (.ite (.onSec (.flashWrite h)) (.onSec h)))

theorem State.Upholds.rcvProgramDone (h : s₀.Upholds s) : s₀.Upholds s.rcvProgramDone := .onSec h

theorem State.Upholds.rcvCommit {len : Nat} (h : s₀.Upholds s) : s₀.Upholds (s.rcvCommit len) := .onSec h

theorem State.Upholds.rcvCommitDone (h : s₀.Upholds s) : s₀.Upholds s.rcvCommitDone := by
  unfold State.rcvCommitDone
  split
  · exact h
  · exact .ite (.onSec (.putRecord h)) (.onSec h)

theorem State.Upholds.abandonUpdate (h : s₀.Upholds s) : s₀.Upholds s.abandonUpdate := .ite (.dropRecord (.onSec h)) (.onSec h)

theorem State.Upholds.endUpdate (h : s₀.Upholds s) : s₀.Upholds s.endUpdate := .ite (.onSec (.drawBytes (.abandonUpdate h))) (.abandonUpdate h)

/-! ### The ledger -/

theorem State.Upholds.setCarry {client v : Nat} (h : s₀.Upholds s) : s₀.Upholds (s.setCarry client v) := .onLdg h

theorem State.Upholds.writeLdg {h' : HeldAccount} (h : s₀.Upholds s) : s₀.Upholds (s.writeLdg h') := by
  unfold State.writeLdg
  extract_lets own a s1 s2 s3
  have h3 : s₀.Upholds s3 := .unattributedHost (.mgtInt (.onProd (.hostWrite h)))
  exact .ite (.post h3) (.ite (.msix h3) h3)

theorem State.Upholds.issueAccount {h' : HeldAccount} (h : s₀.Upholds s) : s₀.Upholds (s.issueAccount h') :=
  .ite (.onLdg (.onProd h)) (.writeLdg h)

theorem State.Upholds.closeAccount {a : Account} (h : s₀.Upholds s) : s₀.Upholds (s.closeAccount a) := .issueAccount (.ite (.setCarry h) h)

theorem State.Upholds.closeInterval (h : s₀.Upholds s) : s₀.Upholds s.closeInterval := by
  unfold State.closeInterval
  exact .onLdg (.foldl h fun _ _ => .closeAccount)

theorem State.Upholds.beginInterval {n : Nat} (h : s₀.Upholds s) : s₀.Upholds (s.beginInterval n) := .onLdg (.setRegF h)

theorem State.Upholds.openInterval (h : s₀.Upholds s) : s₀.Upholds s.openInterval := .beginInterval h

theorem State.Upholds.flushLdg {fuel : Nat} (h : s₀.Upholds s) : s₀.Upholds (State.flushLdg fuel s) := by
  induction fuel generalizing s with
  | zero => exact h
  | succ fuel ih =>
    unfold State.flushLdg
    split
    · exact .onProd h
    · exact .ite h (.ite (.onProd h) (ih (.writeLdg (.onLdg h))))

theorem State.Upholds.ledgerIntervalClose (h : s₀.Upholds s) : s₀.Upholds s.ledgerIntervalClose :=
  .ite (.openInterval (.closeInterval (.plain h))) h

theorem State.Upholds.ledgerEnable {v : Word} (h : s₀.Upholds s) : s₀.Upholds (s.ledgerEnable v) :=
  .ite h (.ite (.writeWord h) (.ite (.flag h) (.beginInterval (.writeWord h))))

theorem State.Upholds.ledgerDisable {v : Word} (h : s₀.Upholds s) : s₀.Upholds (s.ledgerDisable v) :=
  .ite h (.ite (.writeWord (.closeInterval h)) (.writeWord h))

theorem State.Upholds.slowPop (h : s₀.Upholds s) : s₀.Upholds s.slowPop := .onLdg h

theorem State.Upholds.deviceUjRead (h : s₀.Upholds s) : s₀.Upholds s.deviceUjRead := .emit (.onLdg h)

theorem State.Upholds.slowCheck {slot : Nat} (h : s₀.Upholds s) : s₀.Upholds (s.slowCheck slot) := by
  unfold State.slowCheck
  split
  · exact h
  · exact .ite (.ite (.flag (.onJob h)) (.ite (.msix (.onLdg (.onJob h))) (.onLdg (.onJob h)))) h

/-! ### Resets -/

theorem State.Upholds.onUnit {u : RstUnit} {f : UnitRst → UnitRst} (h : s₀.Upholds s) : s₀.Upholds (s.onUnit u f) := .onRst h

theorem State.Upholds.fabricClear (h : s₀.Upholds s) : s₀.Upholds s.fabricClear := by
  unfold State.fabricClear
  extract_lets s1 acc fol err mgt sec s2 s3
  have h2 : s₀.Upholds s2 := .units (.abandonUpdate h) (jobs := fun _ => .nil) (sch := .reset)
  exact .ite (.openInterval (.onLdg h2)) (.onLdg h2)

theorem State.Upholds.warmClear (h : s₀.Upholds s) : s₀.Upholds s.warmClear :=
  .units (.abandonUpdate h) (jobs := fun _ => .nil) (sch := .reset)

theorem State.Upholds.coldClear (h : s₀.Upholds s) : s₀.Upholds s.coldClear :=
  .units (.warmClear h)

theorem State.Upholds.countStart {src : RstSource} {windowExpired : Bool} (h : s₀.Upholds s) : s₀.Upholds (s.countStart src windowExpired) :=
  .ite (.onRst h) h

theorem State.Upholds.unitResetEvents {reach : Reach} {fresh : Bool} (h : s₀.Upholds s) : s₀.Upholds (s.unitResetEvents reach fresh) := by
  unfold State.unitResetEvents
  dsimp only
  split
  · exact .ite (.ite (.raise h) h) (.foldl h fun _ _ => .raise)
  · exact .ite (.ite (.raise h) h) (.foldl h fun _ _ => .raise)
  · exact h

theorem State.Upholds.dropShards {p : Nat → Bool} (h : s₀.Upholds s) : s₀.Upholds (s.dropShards p) := .onFol h

theorem State.Upholds.appendLog (h : s₀.Upholds s) : s₀.Upholds s.appendLog := by
  unfold State.appendLog
  exact .onRst (.ite (.flag (.setRegF (.setReg h))) (.setRegF (.setReg h)))

theorem State.Upholds.bringUpStep1 (h : s₀.Upholds s) : s₀.Upholds s.bringUpStep1 := by
  unfold State.bringUpStep1
  exact .onRst (.appendLog (.onDev (.goto h)))

theorem State.Upholds.settle (h : s₀.Upholds s) : s₀.Upholds s.settle :=
  .ite (.ite (.onRst h) (.ite (.onRst h) (.bringUpStep1 (.onRst h)))) (.onRst (.ite (.onRst (.appendLog (.onRst h))) (.onRst h)))

theorem State.Upholds.assertSource {src : RstSource} {reach : Reach} {windowExpired : Bool} (h : s₀.Upholds s) :
    s₀.Upholds (s.assertSource src reach windowExpired) := by
  unfold State.assertSource
  extract_lets _ s1 s2 s3 s4 s5
  have h3 : s₀.Upholds s3 := .onRst (.ite (.countStart (.onRst h)) (.onRst h))
  have h4 : s₀.Upholds s4 := .ite (.sysEvent (.onDev h3)) h3
  refine .settle ?_
  dsimp only [s5]
  split
  · exact .dropShards (.unitResetEvents (.endUpdate h4))
  · exact .dropShards (.unitResetEvents (.endUpdate h4))
  · exact .ite h4 (.onRst (.fabricClear h4))
  · exact .onRst (.warmClear h4)
  · exact .onRst (.coldClear h4)

theorem State.Upholds.releaseSource {src : RstSource} (h : s₀.Upholds s) : s₀.Upholds (s.releaseSource src) := .ite (.settle (.onRst h)) h

theorem State.Upholds.unitIdleAck {u : RstUnit} (h : s₀.Upholds s) : s₀.Upholds (s.unitIdleAck u) :=
  .ite (.settle (.ite (.onDev (.onUnit h)) (.onUnit h))) h

theorem State.Upholds.handshakeTimeout {u : RstUnit} (h : s₀.Upholds s) : s₀.Upholds (s.handshakeTimeout u) := .ite (.onRst (.onUnit h)) h

theorem State.Upholds.forcedResetApplied {u : RstUnit} (h : s₀.Upholds s) : s₀.Upholds (s.forcedResetApplied u) :=
  .ite (.settle (.raise (.onUnit h))) h

theorem State.Upholds.bayRelease {b : Nat} (h : s₀.Upholds s) : s₀.Upholds (s.bayRelease b) :=
  .onDev (.onSch h fun _ => .of (carrels := .mapIdx fun _ _ => by split <;> [exact .reset; exact .slots rfl]))

theorem State.Upholds.wingRelease {w : Nat} (h : s₀.Upholds s) : s₀.Upholds (s.wingRelease w) :=
  .onDev (.onSch h)

theorem State.Upholds.bringUpUnit {u : RstUnit} {boot : BootReport} (h : s₀.Upholds s) : s₀.Upholds (s.bringUpUnit u boot).1 := by
  unfold State.bringUpUnit
  split
  · exact .pairFst (.onLink (.onDev h))
  · exact .iteFst (.pairFst (.ite (.bootStep4 (.onDev h)) (.onDev h))) h
  · exact .iteFst (.pairFst (.ite (.bootStep4 (.onLink (.onDev h))) (.onLink (.onDev h)))) h
  · exact .iteFst (.pairFst (.onDev h)) h
  · exact .iteFst (.pairFst (.onDev h)) h
  · exact .iteFst (.pairFst (.bayRelease h)) h
  · exact .iteFst (.pairFst (.wingRelease h)) h

theorem State.Upholds.unitReleaseDone {u : RstUnit} {boot : BootReport} (h : s₀.Upholds s) : s₀.Upholds (s.unitReleaseDone u boot) := by
  unfold State.unitReleaseDone
  refine .ite ?_ h
  extract_lets _ r
  have hr : s₀.Upholds r.1 := by
    refine .iteFst (.bringUpUnit h) ?_
    split
    · exact .pairFst (.bayRelease h)
    · exact .pairFst (.wingRelease h)
    · exact .pairFst (.onDev h)
    · exact .pairFst (.onDev h)
    · exact h
  exact .ite (.ite (.onDev (.onRst (.onUnit hr))) (.onUnit hr)) h

theorem State.Upholds.startOk (h : s₀.Upholds s) : s₀.Upholds s.startOk :=
  .ite (.ite (.mgtInt (.onDev (.goto (.flag (.onRst h))))) (.enterService (.flag (.onRst h)))) h

theorem State.Upholds.startWindowExpiry (h : s₀.Upholds s) : s₀.Upholds s.startWindowExpiry := .ite (.assertSource h) h

theorem State.Upholds.refuseReset (h : s₀.Upholds s) : s₀.Upholds s.refuseReset := .flag h

theorem State.Upholds.requestReset {reach : Reach} (h : s₀.Upholds s) : s₀.Upholds (s.requestReset reach) :=
  .ite (.refuseReset h) (.assertSource (.onRst h))

theorem State.Upholds.linkReset (h : s₀.Upholds s) : s₀.Upholds s.linkReset := .ite h (.assertSource (.onRst h))

theorem State.Upholds.powerOn (h : s₀.Upholds s) : s₀.Upholds s.powerOn :=
  .ite (.units (.coldClear h)) h

theorem State.Upholds.powerOnRelease {coreLow : Bool} (h : s₀.Upholds s) : s₀.Upholds (s.powerOnRelease coreLow) :=
  .ite (.releaseSource (.ite (.onRst h) h)) h

theorem State.Upholds.vddAoLost (h : s₀.Upholds s) : s₀.Upholds s.vddAoLost :=
  .units (.coldClear h)

theorem State.Upholds.clockFailure {pll : Nat} (h : s₀.Upholds s) : s₀.Upholds (s.clockFailure pll) :=
  .ite h (.assertSource (.ite (.flag (.setRegF h)) (.setRegF h)))

theorem State.Upholds.lockUp {wing : Option Nat} (h : s₀.Upholds s) : s₀.Upholds (s.lockUp wing) := by
  unfold State.lockUp
  split
  · exact .ite h (.assertSource h)
  · exact .assertSource h

theorem State.Upholds.watchdogRestart (h : s₀.Upholds s) : s₀.Upholds s.watchdogRestart := .ite (.onDev h) h

theorem State.Upholds.watchdogExpiry (h : s₀.Upholds s) : s₀.Upholds s.watchdogExpiry := .ite (.assertSource (.onDev h)) h

/-! ### States, power and the tick -/

theorem State.Upholds.baysOff (h : s₀.Upholds s) : s₀.Upholds s.baysOff :=
  .onFol (.onSch h fun _ => .of (carrels := .replicate))

theorem State.Upholds.wingsOff (h : s₀.Upholds s) : s₀.Upholds s.wingsOff :=
  .onSch h

theorem State.Upholds.stateReq {st : DeviceState} (h : s₀.Upholds s) : s₀.Upholds (s.stateReq st) := .ite (.sysEvent h) (.onDev h)

theorem State.Upholds.stateTransitionDone (h : s₀.Upholds s) : s₀.Upholds s.stateTransitionDone := by
  unfold State.stateTransitionDone
  split
  · exact .enterService h
  · exact .onDev (.goto h)
  · exact .onDev (.goto h)
  · exact h

theorem State.Upholds.standbyEntryDone (h : s₀.Upholds s) : s₀.Upholds s.standbyEntryDone :=
  .ite (.onDev (.goto (.wingsOff (.baysOff (.ite (.closeInterval h) h))))) h

theorem State.Upholds.exitIdle (h : s₀.Upholds s) : s₀.Upholds s.exitIdle := .ite (.onDev h) h

theorem State.Upholds.wake {c : WakeCause} (h : s₀.Upholds s) : s₀.Upholds (s.wake c) :=
  .ite h (.ite (.flag (.sysEvent (.onDev h))) (.ite (.flag (.onDev h)) (.ite (.exitIdle (.flag h)) h)))

theorem State.Upholds.wakeUp (h : s₀.Upholds s) : s₀.Upholds s.wakeUp :=
  .ite (.ite (.openInterval (.enterService (.onDev h))) (.enterService (.onDev h))) h

theorem State.Upholds.endsIdle {f : State → State} (h : s₀.Upholds s) (hf : ∀ t, s₀.Upholds t → s₀.Upholds (f t)) : s₀.Upholds (s.endsIdle f) :=
  .ite (.exitIdle (hf _ h)) (hf _ h)

theorem State.Upholds.readyIdleEntry {aborted : Bool} (h : s₀.Upholds s) : s₀.Upholds (s.readyIdleEntry aborted) :=
  .ite (.ite (.flag (.onDev h)) (.onDev (.baysOff h))) h

theorem State.Upholds.readyIdleExitDone (h : s₀.Upholds s) : s₀.Upholds s.readyIdleExitDone := .ite (.onDev h) h

theorem State.Upholds.wakeTimerExpiry (h : s₀.Upholds s) : s₀.Upholds s.wakeTimerExpiry := .ite h (.wake (.setRegF h))

theorem State.Upholds.clkArithStep {v : Word} (h : s₀.Upholds s) : s₀.Upholds (s.clkArithStep v) :=
  .ite (.access h) (.ite (.onDev (.writeWord h)) h)

theorem State.Upholds.aoClockFallback (h : s₀.Upholds s) : s₀.Upholds s.aoClockFallback := .ite h (.raise (.onDev h))

theorem State.Upholds.tempUpdate {readings : List (Nat × Int)} (h : s₀.Upholds s) : s₀.Upholds (s.tempUpdate readings) := by
  unfold State.tempUpdate
  extract_lets on
  split
  · exact h
  · extract_lets s1 warn s2 s3
    have h1 : s₀.Upholds s1 := .setRegF (.setRegF h)
    have h2 : s₀.Upholds s2 := .mgtInt (.flag (.onDev h1))
    exact .onDev (.ite (.ite (.msix h2) h2) (.ite (.onDev h1) h1))

theorem State.Upholds.tick (h : s₀.Upholds s) : s₀.Upholds s.tick :=
  .ite h (.onDev (.onDev (.onSch (.onRst (.ite (.setRegF (.plain h)) (.plain h))))))

theorem State.Upholds.whenReg {f : State → State} (h : s₀.Upholds s) (hf : ∀ t, s₀.Upholds t → s₀.Upholds (f t)) : s₀.Upholds (s.whenReg f) :=
  .whenOn h fun _ h => hf _ (.exitIdle h)

theorem State.Upholds.hostWaits {a : HostAccess} (h : s₀.Upholds s) : s₀.Upholds (s.hostWaits a) := .onLink (.wake h)

theorem State.Upholds.whenHost {off : Nat} {v : Word} {f : State → State} (h : s₀.Upholds s) (hf : ∀ t, s₀.Upholds t → s₀.Upholds (f t)) :
    s₀.Upholds (s.whenHost off v f) :=
  .whenOn h fun _ h => .ite (.hostWaits h) (hf _ (.exitIdle h))

end Sys2Proof.Machine
end


section
/-! PROOF. What each operation upholds of rings, carrels, commands, pages and attention. -/

namespace Sys2Proof.Machine

set_option Elab.async false

variable {s₀ s : State}

/-! ### Rings and descriptors -/

theorem State.Upholds.kickRings {rs : List Nat} {c : WakeCause} (h : s₀.Upholds s) : s₀.Upholds (s.kickRings rs c) := by
  unfold State.kickRings
  dsimp only
  split
  · exact .foldl (.wake h) fun _ _ => .onSq
  · exact .foldl (.wake h) fun _ _ => .onSq
  · exact .ite (.readFullProds (.foldl (.wake h) fun _ _ => .readDoorbell)) (.wake h)
  · exact .ite (.readFullProds (.foldl (.wake h) fun _ _ => .readDoorbell)) (.wake h)
  · exact .ite (.readFullProds (.foldl (.wake h) fun _ _ => .readDoorbell)) (.wake h)
  · exact .wake h

theorem State.Upholds.kick {off : Nat} (h : s₀.Upholds s) : s₀.Upholds (s.kick off) := .ite (.onLink (.kickRings h)) (.kickRings h)

theorem State.Upholds.releaseCancels (h : s₀.Upholds s) : s₀.Upholds s.releaseCancels := .foldl (.onRings h) fun _ _ => .postCq

theorem State.Upholds.takeCount {r : RingId} {index gen : Nat} (h : s₀.Upholds s) : s₀.Upholds (s.takeCount r index gen) := by
  unfold State.takeCount
  refine .ite (.flag h) ?_
  split
  · exact .onSq h
  · exact .onProd h

theorem State.Upholds.flushRing {r : RingId} (h : s₀.Upholds s) : s₀.Upholds (s.flushRing r) := by
  unfold State.flushRing
  split
  · exact h
  · exact .flushCq h
  · exact .unstick (.flushErr h)
  · exact .flushLdg h

theorem State.Upholds.doorbellReadDone {rec index gen : Nat} (h : s₀.Upholds s) : s₀.Upholds (s.doorbellReadDone rec index gen) := by
  unfold State.doorbellReadDone
  split
  · exact h
  · refine .ite h ?_
    extract_lets s1 _ _ s2 _
    have h1 : s₀.Upholds s1 := by
      dsimp only [s1]
      split
      · exact .onSq h
      · exact .onProd h
    have h2 : s₀.Upholds s2 := .ite (.flushRing (.takeCount (.unattributedHost h1))) (.unattributedHost h1)
    exact .ite (.readDoorbell (.releaseCancels h2)) (.releaseCancels h2)

theorem State.Upholds.noteUnload {slot : Nat} {d : Bytes} {ok : Bool} (h : s₀.Upholds s) : s₀.Upholds (s.noteUnload slot d ok) :=
  .ite (.onFol h) h

theorem State.job?_of_freeJobSlot {k : Nat} (h : s.freeJobSlot = some k) : s.job? k = none := by
  simpa using List.find?_some h

/-- A fetched descriptor's job takes a free slot and the next number (R88). -/
theorem State.Upholds.takeJobSlot {k n : Nat} {lc ok : Bool} {d : Bytes} (h : s₀.Upholds s) (hk : s.freeJobSlot = some k) :
    s₀.Upholds { s with jobs := s.jobs ++ [newJob k s.jobCount n lc d ok], jobCount := s.jobCount + 1 } :=
  h.units (jobs := fun w => w.append (by simpa [State.job?, newJob] using State.job?_of_freeJobSlot hk) rfl)

theorem State.Upholds.fetchDescs {n : Nat} {l : List Bytes} (h : s₀.Upholds s) : s₀.Upholds (s.fetchDescs n l) := by
  induction l generalizing s with
  | nil => exact h
  | cons d l ih =>
    unfold State.fetchDescs
    refine .ite h (.ite ?_ (ih (.chargePcie (.onSq h))))
    split <;> rename_i hk
    · exact .ite (ih (.noteUnload (.chargePcie (.onSq (.takeJobSlot h hk))))) h
    · exact h

theorem State.Upholds.finishDesc {n : Nat} {d : Bytes} {slot : Option Nat} {status detail amount : Nat} (h : s₀.Upholds s) :
    s₀.Upholds (s.finishDesc n d slot status detail amount) := by
  unfold State.finishDesc
  refine .postCq ?_
  split
  · exact .onJob h
  · exact h

theorem State.Upholds.popHead {n : Nat} (h : s₀.Upholds s) : s₀.Upholds (s.popHead n) := .onSq h

theorem State.Upholds.drainRowless {fuel n : Nat} (h : s₀.Upholds s) : s₀.Upholds (State.drainRowless fuel s n) := by
  induction fuel generalizing s with
  | zero => exact h
  | succ fuel ih =>
    unfold State.drainRowless
    split
    · exact .ite (ih (.finishDesc (.popHead h))) h
    · exact h

theorem State.Upholds.beginDesc {n : Nat} {want : Bytes → Bool} {run : State → Bytes → Option Nat → State} (h : s₀.Upholds s)
    (hrun : ∀ t a b, s₀.Upholds t → s₀.Upholds (run t a b)) : s₀.Upholds (s.beginDesc n want run) := by
  unfold State.beginDesc
  dsimp only
  split
  · exact .drainRowless h
  · refine .ite (.drainRowless h) (.drainRowless ?_)
    split
    · exact .finishDesc (.popHead (.drainRowless h))
    · exact hrun _ _ _ (.popHead (.drainRowless h))

theorem State.Upholds.readDescs {n k : Nat} (h : s₀.Upholds s) : s₀.Upholds (s.readDescs n k) := .hostRead (.hostRead h)

theorem State.Upholds.descriptorFetch {n : Nat} {descs : List Bytes} (h : s₀.Upholds s) : s₀.Upholds (s.descriptorFetch n descs) :=
  .ite h (.ite (.onRings (.plain (.fetchDescs h))) (.plain (.fetchDescs h)))

theorem State.Upholds.nop {n : Nat} (h : s₀.Upholds s) : s₀.Upholds (s.nop n) := .beginDesc h fun _ _ _ => .finishDesc

theorem State.Upholds.ringEnable {r : RingId} {v : Word} (h : s₀.Upholds s) : s₀.Upholds (s.ringEnable r v) := by
  unfold State.ringEnable
  refine .ite h (.ite (.ite (.setRegF h) h) (.ite (.flag h) ?_))
  dsimp only
  split
  · exact .onSq (.writeWord h)
  · exact .onCq (.writeWord h)
  · exact .flushRing (.onProd (.writeWord h))
  · exact .flushRing (.onProd (.writeWord h))

theorem State.Upholds.clearEn {r : RingId} {v : Word} (h : s₀.Upholds s) : s₀.Upholds (s.clearEn r v) := .setRegF (.ite (.setRegF h) h)

theorem State.Upholds.sqDisable {n : Nat} {v : Word} (h : s₀.Upholds s) : s₀.Upholds (s.sqDisable n v) :=
  .ite h (.ite (.onSq (.clearEn h)) (.writeWord h))

theorem State.Upholds.cqDisable {n : Nat} {v : Word} (h : s₀.Upholds s) : s₀.Upholds (s.cqDisable n v) :=
  .ite h (.ite (.ite (.flag h) (.clearEn h)) (.writeWord h))

/-! ### Scratch and far memory -/

theorem State.Upholds.locWrite {x : Ctx} {a : Nat} {bs : Bytes} (h : s₀.Upholds s) : s₀.Upholds (s.locWrite x a bs) := by
  unfold State.locWrite
  split
  · exact .onCarrel h
  · exact h

theorem State.Upholds.chargeCtx {x : Ctx} {n : Nat} {mk : State → Nat → Nat → State} (h : s₀.Upholds s)
    (hmk : ∀ t a b, s₀.Upholds t → s₀.Upholds (mk t a b)) : s₀.Upholds (s.chargeCtx x n mk) := by
  unfold State.chargeCtx
  split
  · exact hmk _ _ _ (.foldl h fun _ _ h => hmk _ _ _ h)
  · exact hmk _ _ _ h
  · exact hmk _ _ _ h

theorem State.Upholds.emptySlot {c k : Nat} (h : s₀.Upholds s) : s₀.Upholds (s.onCarrel c fun r => r.emptySlot k) :=
  .onCarrel h fun _ => .emptySlot

theorem State.Upholds.onShelf {b : Nat} {f : Mem → Mem} (h : s₀.Upholds s) : s₀.Upholds (s.onShelf b f) := .onSch h

theorem State.Upholds.farRead {x : Ctx} {b o n : Nat} (h : s₀.Upholds s) : s₀.Upholds (s.farRead x b o n).2 := by
  unfold State.farRead
  dsimp only
  split
  · exact h
  · exact h
  · exact .drawBytes h
  · exact h

theorem State.Upholds.farWrite {x : Ctx} {b o : Nat} {bs : Bytes} (h : s₀.Upholds s) : s₀.Upholds (s.farWrite x b o bs) := by
  unfold State.farWrite
  dsimp only
  split
  · exact .dramWrite h
  · exact .onShelf h
  · exact .chargeCtx (.foldlFst h fun _ _ => .hostWrite) fun _ _ _ => .chargePcie
  · exact .foldlFst h fun _ _ => .dramWrite

theorem State.Upholds.readShard {x : Ctx} {f : Folio} {n : Nat} (h : s₀.Upholds s) : s₀.Upholds (s.readShard x f n).2 :=
  .iteSnd (.pairSnd (.onFol h)) (.iteSnd (.pairSnd (.charge (.bumpSat (.onFol (.bumpSat h))))) (.bumpSat h))

theorem State.Upholds.farTouch {x : Ctx} {b o n : Nat} (h : s₀.Upholds s) : s₀.Upholds (s.farTouch x b o n) := by
  unfold State.farTouch
  refine .ite h (.ite ?_ ?_)
  · split
    · exact h
    · exact .foldl h fun _ _ h => .ite (.chargeCtx (.readShard h) fun _ _ _ => .chargeDram) (.readShard h)
  · split
    · exact .chargeCtx h fun _ _ _ => .chargeDram
    · exact .chargeCtx h fun _ _ _ => .chargeDram
    · exact h

theorem Eff.Upholds.scratchErr {x : Ctx} {c : Nat} {d : Bytes} {addr : Nat} (h : s₀.Upholds s) : Eff.Upholds s₀ (scratchErr s x c d addr) :=
  .err (.bumpSat h)

theorem Eff.Upholds.commandErr {x : Ctx} {c : Nat} {d : Bytes} {addr : Nat} (h : s₀.Upholds s) : Eff.Upholds s₀ (commandErr s x c d addr) :=
  .err h

theorem Eff.Upholds.farErr {x : Ctx} {c : Nat} {d : Bytes} {addr : Nat} (h : s₀.Upholds s) : Eff.Upholds s₀ (farErr s x c d addr) := .err h

theorem State.Upholds.injectRead {c : Nat} {words : List Nat} (h : s₀.Upholds s) : s₀.Upholds (s.injectRead c words) := by
  unfold State.injectRead
  dsimp only
  split
  · exact h
  · exact .ite (.onCarrel (.setRegF h)) h

theorem State.Upholds.readWord64 {x : Ctx} {c w : Nat} (h : s₀.Upholds s) : s₀.Upholds (s.readWord64 x c w).1 := by
  unfold State.readWord64
  split
  · exact h
  · exact .iteFst (.bumpSat (.drawBytes h)) (.raise (.bumpSat (.drawBytes h)))

theorem State.Upholds.readWords64 {x : Ctx} {c : Nat} {ws : List Nat} (h : s₀.Upholds s) : s₀.Upholds (s.readWords64 x c ws).1 := by
  induction ws generalizing s with
  | nil => exact h
  | cons w ws ih =>
    unfold State.readWords64
    split <;> rename_i e
    · exact .ofFst (.readWord64 h) e
    · exact ih (.ofFst (.readWord64 h) e)

theorem State.Upholds.sense {x : Ctx} {c : Nat} {reads writes : List (Nat × Nat)} (h : s₀.Upholds s) :
    s₀.Upholds (s.sense x c reads writes).1 :=
  .readWords64 (.injectRead h)

theorem Eff.Upholds.touching {x : Ctx} {c : Nat} {reads writes : List (Nat × Nat)} {run : State → Eff} (h : s₀.Upholds s)
    (hrun : ∀ t, s₀.Upholds t → Eff.Upholds s₀ (run t)) : Eff.Upholds s₀ (Machine.touching s x c reads writes run) := by
  unfold Machine.touching
  split <;> rename_i e
  · exact .err (.ofFst (.sense h) e)
  · exact hrun _ (.ofFst (.sense h) e)

theorem State.Upholds.accessing {x : Ctx} {c : Nat} {reads writes : List (Nat × Nat)} {run : State → State} (h : s₀.Upholds s)
    (hrun : ∀ t, s₀.Upholds t → s₀.Upholds (run t)) : s₀.Upholds (s.accessing x c reads writes run) := by
  unfold State.accessing
  split
  · rename_i eq0
    exact .raise (.ofFst (.sense h) eq0)
  · rename_i eq0
    exact hrun _ (.ofFst (.sense h) eq0)

theorem State.Upholds.chargeWaits {l : List (Nat × Nat)} (h : s₀.Upholds s) : s₀.Upholds (s.chargeWaits l) :=
  .foldl h fun _ _ => .chargeWait

theorem State.Upholds.advance {was : State} {now : Nat} (h : s₀.Upholds s) : s₀.Upholds (s.advance was now) := .plain (.chargeWaits h)

theorem State.Upholds.issued {c k now : Nat} {x : Ctx} {d : Bytes} {stays : Bool} (h : s₀.Upholds s) :
    s₀.Upholds (s.issued c k now x d stays) :=
  .plain (.onCarrel (.onSch (.onCtx h)))

theorem State.Upholds.issue {c k now op : Nat} {stays : Bool} {run : State → Ctx → Bytes → Eff} (h : s₀.Upholds s)
    (hrun : ∀ t a b, s₀.Upholds t → Eff.Upholds s₀ (run t a b)) : s₀.Upholds (s.issue c k now op stays run) := by
  unfold State.issue
  split
  · exact h
  · split
    · exact h
    · refine .ite h ?_
      split
      · rename_i eq3
        exact .chargeWaits (.chargeWaits (.issued (.ofOk (hrun _ _ _ h) eq3)))
      · exact h
      · rename_i eq3
        exact .advance (.raise (.ofErr (hrun _ _ _ h) eq3))

theorem State.Upholds.streamSrc {x : Ctx} {d : Bytes} {k n : Nat} (h : s₀.Upholds s) : s₀.Upholds (s.streamSrc x d k n).2 :=
  .foldlSnd h fun _ _ => .farRead

theorem State.Upholds.streamBytes {x : Ctx} {d : Bytes} {a n : Nat} (h : s₀.Upholds s) : s₀.Upholds (s.streamBytes x d a n).2 :=
  .iteSnd (.streamSrc h) (.streamSrc h)

theorem State.Upholds.ringWrite {x : Ctx} {d : Bytes} {a : Nat} {bs : Bytes} (h : s₀.Upholds s) : s₀.Upholds (s.ringWrite x d a bs) :=
  .foldl h fun _ _ => .locWrite

theorem State.Upholds.pump {x : Ctx} {h' : StreamH} (h : s₀.Upholds s) : s₀.Upholds (s.pump x h').2 := .ringWrite (.streamBytes h)

theorem State.Upholds.takeStream {x : Ctx} {fuel n : Nat} {g : StreamH} {acc : Bytes} (h : s₀.Upholds s) :
    s₀.Upholds (State.takeStream x fuel s g n acc).2.2 := by
  induction fuel generalizing s g n acc with
  | zero => exact h
  | succ fuel ih =>
    unfold State.takeStream
    dsimp only
    split
    · exact h
    · exact ih (.pump h)

theorem State.Upholds.opRead {x : Ctx} {w n : Nat} (h : s₀.Upholds s) : s₀.Upholds (s.opRead x w n).2 := by
  unfold State.opRead
  refine .iteSnd ?_ h
  split
  · exact .onCtx (.takeStream (.pump h))
  · exact h

theorem State.Upholds.cmdLineFetch {c k : Nat} (h : s₀.Upholds s) : s₀.Upholds (s.cmdLineFetch c k) := by
  unfold State.cmdLineFetch
  split
  · exact h
  · exact .ite h (.onCtx (.ite (.farTouch h) (.ite h (.chargeCtx h fun _ _ _ => .chargeDram))))

theorem State.Upholds.savePass {x : Ctx} (h : s₀.Upholds s) : s₀.Upholds (s.savePass x) := by
  unfold State.savePass
  split
  · refine .ite h ?_
    dsimp only
    split
    · exact .onCtx (.locWrite h)
    · exact .onCtx h
  · exact h

theorem State.Upholds.loadPass {x : Ctx} {c : Nat} (h : s₀.Upholds s) : s₀.Upholds (s.loadPass x c) := by
  unfold State.loadPass
  split
  · split
    · exact h
    · exact .onCtx (.ite h (.onCarrel h))
  · exact h

theorem State.Upholds.enginePreempt {c k : Nat} {vec : Bool} (h : s₀.Upholds s) : s₀.Upholds (s.enginePreempt c k vec) := by
  unfold State.enginePreempt
  split
  · exact h
  · split
    · exact h
    · exact .ite h (.foldl h fun _ _ h => .chargeWait (.onCtx (.ite (.savePass h) h)))

theorem State.Upholds.returnTo {c id : Nat} (h : s₀.Upholds s) : s₀.Upholds (s.returnTo c id) := by
  unfold State.returnTo
  split
  · exact h
  · exact .ite h (.ite (.onCtx h) (.loadPass (.onCtx h)))

theorem State.Upholds.returnEngines {c : Nat} (h : s₀.Upholds s) : s₀.Upholds (s.returnEngines c) := .foldl h fun _ _ => .returnTo

/-! ### Commands and operands -/

theorem Eff.Upholds.load {c : Nat} {x : Ctx} {d : Bytes} (h : s₀.Upholds s) : Eff.Upholds s₀ (s.load c x d) := by
  unfold State.load
  dsimp only
  split
  · exact .farErr h
  · exact .scratchErr h
  · exact .touching h fun _ h => .ok (.onCtx (.foldl h fun _ _ h => .locWrite (.farRead (.farTouch h))))

theorem Eff.Upholds.store {c : Nat} {x : Ctx} {d : Bytes} (h : s₀.Upholds s) : Eff.Upholds s₀ (s.store c x d) := by
  unfold State.store
  dsimp only
  split
  · exact .farErr h
  · exact .scratchErr h
  · exact .touching h fun _ h => .ok (.foldl h fun _ _ h => .farWrite (.farTouch h))

theorem Eff.Upholds.stream {c : Nat} {x : Ctx} {d : Bytes} (h : s₀.Upholds s) : Eff.Upholds s₀ (s.stream c x d) := by
  unfold State.stream
  dsimp only
  split
  · exact .farErr h
  · split
    · exact .scratchErr h
    · exact .touching (.foldl h fun _ _ => .farTouch) fun _ h => .ok (.onCtx (.pump h))

theorem State.Upholds.exPixel {x : Ctx} {d : Bytes} {y v : Int} (h : s₀.Upholds s) : s₀.Upholds (s.exPixel x d y v).2 := .iteSnd (.farRead h) h

theorem State.Upholds.exRow {x : Ctx} {d : Bytes} {oy ox : Nat} (h : s₀.Upholds s) : s₀.Upholds (s.exRow x d oy ox).2 := by
  unfold State.exRow
  exact .foldlSnd h fun _ _ => .exPixel

theorem Eff.Upholds.expand {c : Nat} {x : Ctx} {d : Bytes} (h : s₀.Upholds s) : Eff.Upholds s₀ (s.expand c x d) := by
  unfold State.expand
  refine .ite (.farErr h) (.ite (.farErr h) ?_)
  dsimp only
  split
  · exact .farErr h
  · exact .ok (.foldl (.foldl h fun _ _ => .farTouch) fun _ _ h => .foldl h fun _ _ h => .onShelf (.exRow h))

theorem Eff.Upholds.pack {c : Nat} {x : Ctx} {d : Bytes} (h : s₀.Upholds s) : Eff.Upholds s₀ (s.pack c x d) := by
  unfold State.pack
  refine .ite (.commandErr h) ?_
  dsimp only
  split
  · exact .farErr h
  · split
    · exact .farErr h
    · exact .ok (.farWrite (.farWrite (.farWrite (.farWrite (.farWrite (.foldl (.foldlSnd h fun _ _ h => .farRead (.farTouch h))
        fun _ _ => .farTouch))))))

theorem Eff.Upholds.signal {x : Ctx} {d : Bytes} (h : s₀.Upholds s) : Eff.Upholds s₀ (s.signal x d) := .ok (.onJobNum h)

/-! ### The array and the vector unit -/

theorem State.Upholds.rowDiff {x : Ctx} {d : Bytes} {afmt : Nat} (h : s₀.Upholds s) : s₀.Upholds (s.rowDiff x d afmt).2 := by
  unfold State.rowDiff
  split
  · refine .iteSnd ?_ h
    split
    · exact h
    · exact .drawBytes h
  · exact .iteSnd h (.drawBytes h)

theorem State.Upholds.tmacBook {x : Ctx} {d : Bytes} {wfmt : Nat} (h : s₀.Upholds s) : s₀.Upholds (s.tmacBook x d wfmt).2 := by
  unfold State.tmacBook
  refine .iteSnd h ?_
  split
  · exact h
  · exact .drawBytes h

theorem State.Upholds.colZero {x : Ctx} {d : Bytes} {wfmt : Nat} (h : s₀.Upholds s) : s₀.Upholds (s.colZero x d wfmt).2 := by
  unfold State.colZero
  refine .iteSnd ?_ h
  split
  · exact h
  · exact .drawBytes h

theorem State.Upholds.countTensor {jobNumber tensor sat zc elems : Nat} (h : s₀.Upholds s) :
    s₀.Upholds (s.countTensor jobNumber tensor sat zc elems) :=
  .onJobNum h fun _ => by dsimp only; split <;> exact ⟨rfl, rfl⟩

theorem State.Upholds.injectResidue {c : Nat} {cells : List AccCell} (h : s₀.Upholds s) : s₀.Upholds (s.injectResidue c cells).2 := by
  unfold State.injectResidue
  refine .iteSnd ?_ h
  split <;> exact .drawBytes (.setRegF h)

theorem Eff.Upholds.residueErr {c detail : Nat} (h : s₀.Upholds s) : Eff.Upholds s₀ (residueErr s c detail) := .err (.bumpSat h)

theorem Eff.Upholds.drainRegs {x : Ctx} {c : Nat} {d : Bytes} {cells : List AccCell} (h : s₀.Upholds s) :
    Eff.Upholds s₀ (s.drainRegs x c d cells) := by
  unfold State.drainRegs
  dsimp only
  split
  · exact .residueErr (.injectResidue h)
  · exact .ok (.onCtx (.countTensor (.injectResidue h)))

theorem Eff.Upholds.tmac {c now : Nat} {x : Ctx} {d : Bytes} (h : s₀.Upholds s) : Eff.Upholds s₀ (s.tmac c now x d) := by
  unfold State.tmac
  extract_lets opA opW nA nW nG ranges
  split
  · exact .scratchErr h
  · refine .ite .wait (.touching h fun _ h => ?_)
    extract_lets ra rw rz rb rc s1 t ins passes s2 s3
    have hb : s₀.Upholds rb.2 := .tmacBook (.rowDiff (.opRead (.opRead h)))
    have h3 : s₀.Upholds s3 := .chargeCtx (.onCarrel (.onCtx (.iteSnd (.colZero hb) (.pairSnd hb)))) fun _ _ _ => .chargeArray
    exact .ite (.drainRegs (.chargeCtx h3 fun _ _ _ => .chargeArray)) (.ok (.onCtx h3))

theorem Eff.Upholds.req {c : Nat} {x : Ctx} {d : Bytes} (h : s₀.Upholds s) : Eff.Upholds s₀ (s.req c x d) := by
  unfold State.req
  split
  · exact .wait
  · extract_lets pitch out recs tile
    split
    · exact .scratchErr h
    · refine .touching h fun _ h => ?_
      extract_lets r s1 shift f s2 rq q s3 s4 s5 s6 s7
      have hr : s₀.Upholds r.2 := .injectResidue h
      split
      · exact .residueErr hr
      · have h3 : s₀.Upholds s3 := .foldl (.iteSnd (.drawBytes hr) hr) fun _ _ => .locWrite
        have h5 : s₀.Upholds s5 := .countTensor (.ite (.locWrite h3) h3)
        exact .ok (.onCtx (.chargeCtx (.ite (.onJobNum h5) h5) fun _ _ _ => .chargeArray))

theorem State.Upholds.setVreg {x : Ctx} {n : Nat} {v : List Word} (h : s₀.Upholds s) : s₀.Upholds (s.setVreg x n v) := .onCtx h

theorem State.Upholds.drawWords {n : Nat} (h : s₀.Upholds s) : s₀.Upholds (s.drawWords n).2 := .drawBytes h

theorem State.Upholds.vecInstr {id t : Nat} {i : Bytes} (h : s₀.Upholds s) : s₀.Upholds (s.vecInstr id t i) := by
  unfold State.vecInstr
  split
  · exact h
  · exact .ite h (.ite (.setVreg h) (.ite (.locWrite h) (.ite (.setVreg h) (.ite (.setVreg h) (.ite (.setVreg h) (.setVreg
      (.drawWords h)))))))

theorem Eff.Upholds.vec {c : Nat} {x : Ctx} {d : Bytes} (h : s₀.Upholds s) : Eff.Upholds s₀ (s.vec c x d) := by
  unfold State.vec
  split
  · exact .scratchErr h
  · exact .touching h fun _ h => .ok (.chargeCtx (.foldl h fun _ _ h => .foldl h fun _ _ => .vecInstr) fun _ _ _ => .chargeVector)

theorem Eff.Upholds.argmax {c : Nat} {x : Ctx} {d : Bytes} (h : s₀.Upholds s) : Eff.Upholds s₀ (s.argmax c x d) := by
  unfold State.argmax
  dsimp only
  split
  · exact .scratchErr h
  · exact .touching h fun _ h => .ok (.chargeCtx (.locWrite h) fun _ _ _ => .chargeVector)

/-! ### Pages, the concordance and KVAPP -/

theorem State.Upholds.kvTick (h : s₀.Upholds s) : s₀.Upholds s.kvTick := .onKv h

theorem State.Upholds.takePage {log2 bytes : Nat} {r : Nat × State} (h : s₀.Upholds s) (e : s.takePage log2 bytes = some r) :
    s₀.Upholds r.2 := by
  unfold State.takePage at e
  split at e
  · cases e
  · cases e
    dsimp only
    exact .onKv h

theorem State.Upholds.editOne {slot : Nat} {e : Edit} (h : s₀.Upholds s) : s₀.Upholds (s.editOne slot e) := by
  unfold State.editOne
  split
  · exact h
  · exact .ite h (.foldl (.onKv (.onTable h)) fun _ _ => .dropEntry)

theorem State.Upholds.applyEdits {slot : Nat} {es : List Edit} (h : s₀.Upholds s) : s₀.Upholds (s.applyEdits slot es) :=
  .ite h (.onSeq (.foldl h fun _ _ => .editOne))

theorem State.Upholds.requestEdits {slot : Nat} {es : List Edit} (h : s₀.Upholds s) : s₀.Upholds (s.requestEdits slot es) := by
  unfold State.requestEdits
  split
  · exact h
  · exact .ite (.onSeq h) (.ite (.onSeq h) (.applyEdits h))

theorem State.Upholds.editApply {slot : Nat} {e : Option Edit} (h : s₀.Upholds s) : s₀.Upholds (s.editApply slot e) := by
  unfold State.editApply
  split
  · exact .requestEdits h
  · exact .ite (.onSeq (.applyEdits h)) h
  · exact h

theorem State.Upholds.prefixMatch {slot : Nat} {prompt : List Nat} (h : s₀.Upholds s) : s₀.Upholds (s.prefixMatch slot prompt) := by
  unfold State.prefixMatch
  split
  · exact h
  · refine .ite h ?_
    dsimp only
    split
    · exact .ite (.onSeq h) (.ite (.onSeq h) (.onTable (.onSeq (.bumpSat (.onKv (.kvTick (.onSeq h)))))))
    · exact .onSeq h

theorem State.Upholds.removeNode {n : Node} (h : s₀.Upholds s) : s₀.Upholds (s.removeNode n) := .ite (.freePage (.onKv h)) (.onKv h)

theorem State.Upholds.reclaimLeaf {log2 : Nat} {t : State} (h : s₀.Upholds s) (e : s.reclaimLeaf log2 = some t) : s₀.Upholds t := by
  obtain ⟨n, -, rfl⟩ := Option.map_eq_some_iff.1 e
  exact .removeNode h

theorem State.Upholds.reclaimAll {fuel : Nat} (h : s₀.Upholds s) : s₀.Upholds (State.reclaimAll fuel s) := by
  induction fuel generalizing s with
  | zero => exact h
  | succ fuel ih =>
    unfold State.reclaimAll
    split
    · exact ih (.removeNode h)
    · exact h

theorem State.Upholds.concFlush (h : s₀.Upholds s) : s₀.Upholds s.concFlush := .ite h (.reclaimAll h)

theorem State.Upholds.nodeInsert {slot base : Nat} (h : s₀.Upholds s) : s₀.Upholds (s.nodeInsert slot base) := by
  unfold State.nodeInsert
  split
  · exact h
  · split
    · extract_lets size k parentNode parent s1 stop room
      refine .ite h (.ite h (.ite (.onSeq (.kvTick h)) ?_))
      rcases e : room with _ | t
      · exact .onSeq (.kvTick h)
      · refine .requestEdits (.onSeq (.bumpSat (.onKv ?_)))
        dsimp only [room] at e
        split at e
        · cases e
          exact .kvTick h
        · exact .reclaimLeaf (.kvTick h) e
    · exact h

theorem State.Upholds.carve {k : Nat} {t : State} (h : s₀.Upholds s) (e : s.carve k = some t) : s₀.Upholds t := by
  obtain ⟨-, e⟩ := Option.ite_none_left_eq_some.1 e
  cases e
  exact .freePage (.onKv h)

theorem State.Upholds.restockTo {k fuel : Nat} (h : s₀.Upholds s) : s₀.Upholds (State.restockTo k fuel s) := by
  induction fuel generalizing s with
  | zero => exact h
  | succ fuel ih =>
    unfold State.restockTo
    refine .ite h ?_
    split <;> rename_i e
    · exact ih (.carve h e)
    · split <;> rename_i e
      · exact ih (.reclaimLeaf h e)
      · exact h

theorem State.Upholds.restock {k : Nat} (h : s₀.Upholds s) : s₀.Upholds (s.restock k) := .ite h (.restockTo h)

theorem State.Upholds.spareTake {slot : Nat} (h : s₀.Upholds s) : s₀.Upholds (s.spareTake slot) := by
  unfold State.spareTake
  split
  · exact h
  · split
    · split
      · rename_i eq2
        exact .onSeq (.takePage h eq2)
      · exact h
    · exact h

theorem State.Upholds.evict {slot : Nat} (h : s₀.Upholds s) : s₀.Upholds (s.evict slot) := by
  unfold State.evict
  split
  · exact h
  · split
    · exact h
    · exact .ite h (.bumpSat (.foldl h fun _ _ => .requestEdits))

theorem State.Upholds.kvPut {slot : Nat} {g : KvDecl} {e : Pte} {d : Bytes} {p : Nat} {codes : List Nat} (h : s₀.Upholds s) :
    s₀.Upholds (s.kvPut slot g e d p codes) := by
  unfold State.kvPut
  extract_lets _ _ _ s1 _ _
  have h1 : s₀.Upholds s1 := .ite (.foldl h fun _ _ => .dramWrite) (.foldl h fun _ _ => .dramWrite)
  exact .ite (.nodeInsert (.onPte h1)) (.onPte h1)

theorem State.Upholds.appendSpare {slot page log2 base : Nat} (h : s₀.Upholds s) : s₀.Upholds (s.appendSpare slot page log2 base) :=
  .evict (.onTable (.onSeq h))

theorem State.Upholds.kvRows {slot : Nat} {g : KvDecl} {d : Bytes} {c0 i : Nat} {rows : List (List Nat)} (h : s₀.Upholds s) :
    s₀.Upholds (State.kvRows slot g d c0 i rows s).2 := by
  induction rows generalizing s i with
  | nil => exact h
  | cons row rows ih =>
    unfold State.kvRows
    split
    · exact h
    · dsimp only
      split
      · exact ih (.kvPut h)
      · split
        · exact h
        · split
          · exact ih (.kvPut (.appendSpare h))
          · exact .appendSpare h

theorem Eff.Upholds.kvapp {c : Nat} {x : Ctx} {d : Bytes} (h : s₀.Upholds s) : Eff.Upholds s₀ (s.kvapp c x d) := by
  unfold State.kvapp
  split
  · exact .wait
  · split
    · exact .ite (.ok (.onCtx h)) (.commandErr h)
    · split
      · exact .commandErr h
      · refine .ite (.commandErr h) ?_
        split
        · exact .scratchErr h
        · refine .ite (.ok (.onCtx h)) (.touching h fun _ h => ?_)
          extract_lets r s1 out w rows s2 s3 s4 s5
          have hr : s₀.Upholds r.2 := .iteSnd (.injectResidue h) (.pairSnd h)
          split
          · exact .residueErr hr
          · have h2 : s₀.Upholds s2 := .chargeCtx (.kvRows hr) fun _ _ _ => .chargeDram
            have h4 : s₀.Upholds s4 := .chargeCtx (.countTensor h2) fun _ _ _ => .chargeArray
            exact .ite (.ok (.onCtx h2)) (.ok (.onCtx (.ite (.onSeq h4) h4)))

theorem State.Upholds.kvappResume {c k : Nat} (h : s₀.Upholds s) : s₀.Upholds (s.kvappResume c k) := by
  unfold State.kvappResume
  split
  · exact h
  · refine .ite h ?_
    split
    · exact h
    · split
      · exact .ite (.onCtx h) h
      · refine .ite h ?_
        split
        · rename_i eq5
          exact .ofOk (.kvapp h) eq5
        · exact h
        · rename_i eq5
          exact .raise (.ofErr (.kvapp h) eq5)

theorem State.Upholds.swapPages {client slot : Nat} {g : KvDecl} {placed : List (Pte × Nat)} (h : s₀.Upholds s) :
    s₀.Upholds (s.swapPages client slot g placed) :=
  .foldl h fun _ _ h => .editOne (.bumpSat (.chargeDram (.chargePcie (.hostWrite h))))

theorem State.Upholds.swapOut {exhausted : State → Nat → Nat → State} (h : s₀.Upholds s)
    (hexhausted : ∀ t a b, s₀.Upholds t → s₀.Upholds (exhausted t a b)) : s₀.Upholds (s.swapOut exhausted) := by
  unfold State.swapOut
  split
  · exact h
  · refine .ite h ?_
    split
    · exact hexhausted _ _ _ h
    · split
      · exact h
      · split
        · exact h
        · refine .ite h ?_
          split
          · exact h
          · exact .onSeq (.swapPages (.onKv (.kvTick h)))

theorem State.Upholds.swapIn {slot : Nat} {data : Bytes} (h : s₀.Upholds s) : s₀.Upholds (s.swapIn slot data) := by
  unfold State.swapIn
  split
  · exact h
  · split
    · refine .ite h (.onSeq (.foldlSnd h fun _ _ h => ?_))
      extract_lets n
      split <;> rename_i e
      · exact h
      · exact .pairSnd (.editOne (.bumpSat (.chargeDram (.chargePcie (.dramWrite (.fetchHost (.takePage h e)))))))
    · exact h

theorem State.Upholds.cardBuild {slot base : Nat} (h : s₀.Upholds s) : s₀.Upholds (s.cardBuild slot base) := by
  unfold State.cardBuild
  split
  · exact h
  · split
    · exact .ite (.onSeq h) h
    · exact h

/-! ### Attention -/

theorem Eff.Upholds.attn {c : Nat} {x : Ctx} {d : Bytes} (h : s₀.Upholds s) : Eff.Upholds s₀ (s.attn c x d) := by
  unfold State.attn
  split
  · exact .ite (.ok (.onCtx h)) (.commandErr h)
  · refine .ite (.commandErr h) ?_
    split
    · exact .scratchErr h
    · refine .ite (.commandErr (.locWrite h)) ?_
      split
      · exact .scratchErr (.locWrite h)
      · refine .touching (.locWrite h) fun t h => .ite (.commandErr h) ?_
        extract_lets n s1 s2 s3 nc cy s4 s5 s6
        have h3 : s₀.Upholds s3 := .locWrite (.locWrite (.locWrite h))
        have h5 : s₀.Upholds s5 := .chargeCtx (.chargeCtx h3 fun _ _ _ => .chargeArray) fun _ _ _ => .chargeVector
        exact .ok (.onCtx (.ite (.chargeCtx h5 fun _ _ _ => .chargeDram) h3))

theorem State.Upholds.setPartRow {x : Ctx} {d : Bytes} {i : Nat} {r : PartRow} (h : s₀.Upholds s) : s₀.Upholds (s.setPartRow x d i r) :=
  .locWrite (.locWrite (.locWrite h))

theorem State.Upholds.attnBlock {x : Ctx} {d p : Bytes} {b : Block} (h : s₀.Upholds s) : s₀.Upholds (s.attnBlock x d p b).2 :=
  .foldlSnd h fun _ _ => .setPartRow

theorem State.Upholds.consumePage {id : Nat} {d : Bytes} {i : Nat} (h : s₀.Upholds s) : s₀.Upholds (s.consumePage id d i) := by
  unfold State.consumePage
  split
  · exact h
  · split
    · exact h
    · split
      · exact h
      · refine .onCtx (.foldlSnd h fun _ _ h => ?_)
        extract_lets blk o cy s1 s2
        have h2 : s₀.Upholds s2 := .chargeCtx (.chargeCtx (.attnBlock h) fun _ _ _ => .chargeArray) fun _ _ _ => .chargeVector
        exact .pairSnd (.chargeCtx h2 fun _ _ _ => .chargeDram)

theorem State.Upholds.attnResidue {x : Ctx} {c : Nat} {v : Int} {t : State} (h : s₀.Upholds s) (e : s.attnResidue x c v = some t) :
    s₀.Upholds t := by
  obtain ⟨det, -, rfl⟩ := Option.map_eq_some_iff.1 e
  exact .raise (.bumpSat (.injectResidue h))

theorem State.Upholds.takePageOf {x : Ctx} {d : Bytes} {i : Nat} (h : s₀.Upholds s) : s₀.Upholds (s.takePageOf x d i) := by
  unfold State.takePageOf
  split
  · exact h
  · refine .accessing h fun t h => ?_
    cases e : t.attnResidue x _ (t.firstScore x d i) with
    | none => exact .consumePage h
    | some u => exact .attnResidue h e

theorem State.Upholds.consumeQueued {id : Nat} {d : Bytes} (h : s₀.Upholds s) : s₀.Upholds (s.consumeQueued id d) := by
  unfold State.consumeQueued
  split
  · exact h
  · refine .onCtx (.foldl h fun _ _ h => ?_)
    split
    · exact .ite h (.takePageOf h)
    · exact h

theorem State.Upholds.attnGoesOn {id : Nat} (h : s₀.Upholds s) : s₀.Upholds (s.attnGoesOn id) := by
  unfold State.attnGoesOn
  split
  · exact .ite h (.consumeQueued h)
  · exact h

theorem State.Upholds.giveBack {c : Nat} (h : s₀.Upholds s) : s₀.Upholds (s.giveBack c) := .foldl (.returnEngines h) fun _ _ => .attnGoesOn

theorem State.Upholds.kvEmit {c k : Nat} (h : s₀.Upholds s) : s₀.Upholds (s.kvEmit c k) := by
  unfold State.kvEmit
  split
  · exact h
  · split
    · exact .ite h (.attnGoesOn (.onCtx h))
    · exact h

theorem State.Upholds.scorePages {x : Ctx} {d : Bytes} {w : Walk} {rows : List PartRow} (h : s₀.Upholds s) :
    s₀.Upholds (s.scorePages x d w rows) :=
  .ite (.foldl h fun _ _ => .onPte) h

theorem State.Upholds.readingRows {x : Ctx} {d : Bytes} {run : State → State} (h : s₀.Upholds s)
    (hrun : ∀ t, s₀.Upholds t → s₀.Upholds (run t)) : s₀.Upholds (s.readingRows x d run) := by
  unfold State.readingRows
  split
  · exact .accessing h fun _ h => hrun _ h
  · exact hrun _ h

theorem State.Upholds.attnComplete {x : Ctx} {d : Bytes} (h : s₀.Upholds s) : s₀.Upholds (s.attnComplete x d) := by
  unfold State.attnComplete
  refine .readingRows h fun _ h => ?_
  split
  · exact h
  · exact .onCtx (.chargeCtx (.ite (.locWrite (.scorePages h)) (.scorePages h)) fun _ _ _ => .chargeVector)

theorem State.Upholds.combineDone {x : Ctx} {idx : Nat} {rows : List PartRow} {d : Bytes} (h : s₀.Upholds s) :
    s₀.Upholds (s.combineDone x idx rows d) := by
  unfold State.combineDone
  split
  · exact h
  · refine .onCtx ?_
    split
    · exact .locWrite (.onSch h)
    · exact .onCtx (.onSch h)

theorem State.Upholds.combinePart {c k : Nat} (h : s₀.Upholds s) : s₀.Upholds (s.combinePart c k) := by
  unfold State.combinePart
  split
  · exact h
  · split
    · refine .ite h (.readingRows h fun _ h => ?_)
      extract_lets _ s1 s2
      have h2 : s₀.Upholds s2 := .onSch (.onCtx h) fun _ => .ite .of .of
      split
      · exact .ite (.combineDone h2) h2
      · exact h2
    · exact h

end Sys2Proof.Machine
end


section
/-! PROOF. What each operation upholds of jobs, runs, contexts, records and folios; and what seats a context. -/

namespace Sys2Proof.Machine

set_option Elab.async false

variable {s₀ s : State}

/-! ### Jobs and their ends -/

theorem State.Upholds.poolTake {bytes refs : Nat} {owner : PoolOwner} {r : Nat × State} (h : s₀.Upholds s)
    (e : s.poolTake bytes owner refs = some r) : s₀.Upholds r.2 := by
  unfold State.poolTake at e
  dsimp only at e
  split at e
  · cases e
  · cases e
    dsimp only
    exact .onAcc h

theorem State.Upholds.poolWaits {owner : PoolOwner} (h : s₀.Upholds s) : s₀.Upholds (s.poolWaits owner) := .onAcc h

theorem State.Upholds.poolDone {p : PoolOwner → Bool} (h : s₀.Upholds s) : s₀.Upholds (s.poolDone p) := .onAcc h

theorem State.Upholds.sweepPools (h : s₀.Upholds s) : s₀.Upholds s.sweepPools := by
  unfold State.sweepPools
  exact .onAcc (.onCol h)

theorem State.Upholds.onRefs {addr : Nat} {f : Nat → Nat} (h : s₀.Upholds s) : s₀.Upholds (s.onRefs addr f) := by
  unfold State.onRefs
  exact .onCol (.onAcc h)

theorem State.Upholds.dropRefs {addrs : List Nat} (h : s₀.Upholds s) : s₀.Upholds (s.dropRefs addrs) :=
  .sweepPools (.foldl h fun _ _ => .onRefs)

theorem State.Upholds.dropPageBuffers {number idx : Nat} {planes : List Nat} (h : s₀.Upholds s) :
    s₀.Upholds (s.dropPageBuffers number idx planes) :=
  .sweepPools (.foldl (.onAcc h) fun _ _ => .onRefs)

/-- A context's slot empties as it ends, and then no slot names it. -/
theorem State.Upholds.endCtx {id : Nat} (h : s₀.Upholds s) : s₀.Upholds (s.endCtx id) := by
  unfold State.endCtx
  split <;> rename_i e
  · exact h
  · rename_i x
    extract_lets s1 s2 s3 s4
    have h1 : s.Upholds s1 := by
      dsimp only [s1]
      split
      · exact .emptySlot .refl
      · exact .refl
    have hempty (c k : Nat) (hp : x.place = some (c, k)) : s1.sch.seat? c k = none := by
      simp only [s1, hp]
      exact s.sch.seat?_emptySlot c k
    have h2 : s.Upholds s2 := ⟨h1.jobs, h1.sch.dropCtx fun ha => Sch.unseated_of_place ha h1.sch (Sch.placeOf_of_find e) hempty, h1.otp⟩
    have h3 : s₀.Upholds s3 := .onAcc (h.trans h2)
    refine .dropRefs ?_
    dsimp only [s4]
    split
    · exact .giveBack h3
    · exact h3

theorem State.Upholds.retirePage {number idx : Nat} (h : s₀.Upholds s) : s₀.Upholds (s.retirePage number idx) := .onKv h

theorem State.Upholds.leaveBatch {number idx : Nat} (h : s₀.Upholds s) : s₀.Upholds (s.leaveBatch number idx) := .onAcc h

theorem State.Upholds.dropPlan {j : Job} (h : s₀.Upholds s) : s₀.Upholds (s.dropPlan j) := by
  unfold State.dropPlan
  split
  · exact h
  · exact .onJob (.foldl h fun _ _ => .onJobNum)

theorem State.Upholds.abandonStep {slot : Nat} (h : s₀.Upholds s) : s₀.Upholds (s.abandonStep slot) := .onSeq h

theorem State.Upholds.releaseJob {slot : Nat} (h : s₀.Upholds s) : s₀.Upholds (s.releaseJob slot) := by
  unfold State.releaseJob
  split
  · exact h
  · extract_lets mine others s1 s2 s3 s4 claimed s5 s6 s7 s8 s9 s10
    have h3 : s₀.Upholds s3 := .foldl (.foldl (.foldl h fun _ _ => .endCtx) fun _ _ => .abandonStep) fun _ _ => .releaseSeq
    have h6 : s₀.Upholds s6 := .sweepPools (.poolDone (.foldl (.onAcc (.onSch h3)) fun _ _ => .onRefs))
    exact .dropPlan (.onRings (.onSec (.onCol (.onFol h6))))

theorem State.Upholds.closeJob {slot status flags detail : Nat} (h : s₀.Upholds s) : s₀.Upholds (s.closeJob slot status flags detail) := by
  unfold State.closeJob
  split
  · exact h
  · exact .releaseCancels (.endJob (.releaseJob h))

theorem State.Upholds.jobEndCheck {slot : Nat} (h : s₀.Upholds s) : s₀.Upholds (s.jobEndCheck slot) := by
  unfold State.jobEndCheck
  split
  · exact h
  · exact .ite (.closeJob h) h

theorem State.Upholds.endSequence {slot idx sample status flags amount detail : Nat} (h : s₀.Upholds s) :
    s₀.Upholds (s.endSequence slot idx sample status flags amount detail) := by
  unfold State.endSequence
  split
  · exact h
  · exact .ite h (.jobEndCheck (.poolDone (.leaveBatch (.dropPageBuffers (.retirePage (.seqRecord h))))))

theorem State.Upholds.jobTeardown {slot : Nat} (h : s₀.Upholds s) : s₀.Upholds (s.jobTeardown slot) := by
  unfold State.jobTeardown
  split
  · exact h
  · exact .ite (.bumpSat (.closeJob h)) h

theorem State.Upholds.cancelOne {j : Job} (h : s₀.Upholds s) : s₀.Upholds (s.cancelOne j) := .ite (.closeJob h) (.onRings h)

theorem State.Upholds.cancelDesc {n : Nat} {d : Bytes} (h : s₀.Upholds s) : s₀.Upholds (s.cancelDesc n d) :=
  .releaseCancels (.onRings (.foldl h fun _ _ => .cancelOne))

theorem State.Upholds.cancel {n : Nat} (h : s₀.Upholds s) : s₀.Upholds (s.cancel n) := .beginDesc h fun _ _ _ => .cancelDesc

/-! ### Catalogs -/

theorem State.Upholds.onCat {slot : Nat} {f : CatSeq → CatSeq} (h : s₀.Upholds s) : s₀.Upholds (s.onCat slot f) := .onSeq h

theorem State.Upholds.deliver {j : Job} {idx lo hi : Nat} {emitted : List (Byte × BitVec 16)} {fields : List (Nat × Nat)} {redo : List Nat}
    (h : s₀.Upholds s) : s₀.Upholds (s.deliver j idx lo hi emitted fields redo) := by
  unfold State.deliver
  extract_lets _ _ _ s1 _ _ s2 _
  have h1 : s₀.Upholds s1 := .ite h (.chargePcie (.hostWrite h))
  have h2 : s₀.Upholds s2 := .foldl h1 fun _ _ h => .chargePcie (.hostWrite h)
  exact .ite h1 (.ite h2 (.chargePcie (.hostWrite h2)))

theorem State.Upholds.catEnd {slot status detail n : Nat} (h : s₀.Upholds s) : s₀.Upholds (s.catEnd slot status detail n) := by
  unfold State.catEnd
  split
  · exact h
  · split
    · exact .endSequence (.ite (.bumpSat (.deliver h)) (.ite (.bumpSat (.deliver h)) (.deliver h)))
    · exact h

theorem State.Upholds.catMask {slot : Nat} (h : s₀.Upholds s) : s₀.Upholds (s.catMask slot) := by
  unfold State.catMask
  split
  · exact h
  · split
    · exact .catEnd h
    · exact .ite (.onCat (.bumpSat h)) (.onCat h)
    · exact .onCat h

theorem State.Upholds.catAdvance {slot : Nat} (h : s₀.Upholds s) : s₀.Upholds (s.catAdvance slot) := by
  unfold State.catAdvance
  split
  · exact h
  · split
    · split
      · exact h
      · refine .ite h ?_
        split
        · exact h
        · refine .ite (.catEnd (.onCat (.ite (.bumpSat (.charge h)) (.charge h)))) ?_
          dsimp only
          split
          · exact .catEnd (.onCat (.ite (.bumpSat (.charge h)) (.charge h)))
          · exact .catEnd (.onCat (.ite (.bumpSat (.charge h)) (.charge h)))
          · exact .catMask (.onCat (.deliver (.ite (.bumpSat (.charge h)) (.charge h))))
    · exact h

theorem State.Upholds.tokenChoice {slot : Nat} (h : s₀.Upholds s) : s₀.Upholds (s.tokenChoice slot) := by
  unfold State.tokenChoice
  split
  · exact h
  · split
    · split
      · exact .ite h (.ite (.onCat h) (.onCat (.bumpSat h)))
      · exact h
    · exact h

theorem Eff.Upholds.cathand {c : Nat} {x : Ctx} {d : Bytes} (h : s₀.Upholds s) : Eff.Upholds s₀ (s.cathand c x d) := by
  unfold State.cathand
  split
  · exact .scratchErr h
  · exact .touching h fun _ h => .ok (.foldl h fun _ _ => .onCat)

/-! ### Runs and the grant of sequences -/

theorem State.Upholds.runBlock {d : Bytes} {f : Folio} {given : Bytes} (h : s₀.Upholds s) : s₀.Upholds (s.runBlock d f given).2 :=
  .iteSnd (.chargePcie (.fetchHost h)) h

theorem State.Upholds.runDesc {n : Nat} {given : Bytes} (h : s₀.Upholds s) : s₀.Upholds (s.runDesc n given) := by
  unfold State.runDesc
  refine .beginDesc h fun _ _ _ h => ?_
  split
  · exact h
  · split
    · exact .ite (.finishDesc (.drawBytes h)) (.finishDesc h)
    · split
      · exact h
      · refine .ite (.onJob h) ?_
        dsimp only
        split
        · exact .finishDesc (.runBlock h)
        · exact .onJob (.runBlock h)

theorem State.Upholds.refuseBound {slot detail : Nat} (h : s₀.Upholds s) : s₀.Upholds (s.refuseBound slot detail) := .closeJob (.bumpSat h)

theorem State.Upholds.lcAdmission {slot now : Nat} (h : s₀.Upholds s) : s₀.Upholds (s.lcAdmission slot now) := by
  unfold State.lcAdmission
  split
  · exact h
  · refine .ite h ?_
    split
    · exact h
    · refine .ite (.refuseBound (.drawBytes (.advance h))) ?_
      split
      · exact .refuseBound (.advance h)
      · exact .onJob (.foldl (.advance h) fun _ _ => .onJobNum)

theorem State.Upholds.takeHeldOk {j : Job} {f : Folio} {id kind : Nat} {r : Planes × State} (h : s₀.Upholds s)
    (e : s.takeHeld j f id kind = .ok r) : s₀.Upholds r.2 := by
  unfold State.takeHeld at e
  split at e
  · split at e <;> cases e
    dsimp only
    exact .onRefs (.onAcc h)
  · split at e
    · cases e
    · split at e <;> try cases e
      split at e <;> cases e
      dsimp only
      exact .onRefs (.onAcc h)

theorem State.Upholds.startCat {f : Folio} {j : Job} {i slot : Nat} (h : s₀.Upholds s) : s₀.Upholds (s.startCat f j i slot) := by
  unfold State.startCat
  refine .ite h ?_
  split
  · exact h
  · exact .catMask (.onSeq h)

theorem State.Upholds.formUpTo {j : Job} {i fuel : Nat} (h : s₀.Upholds s) : s₀.Upholds (State.formUpTo j i fuel s) := by
  induction fuel generalizing s with
  | zero => exact h
  | succ fuel ih =>
    unfold State.formUpTo
    exact .ite h (ih (.onAcc h))

theorem State.Upholds.formBatch {j : Job} {f : Folio} {i : Nat} (h : s₀.Upholds s) : s₀.Upholds (s.formBatch j f i) := .ite h (.formUpTo h)

theorem State.Upholds.grantPage {j : Job} {f : Folio} {i : Nat} {slots tables : List Nat} (h : s₀.Upholds s) :
    s₀.Upholds (s.grantPage j f i slots tables) := by
  unfold State.grantPage
  extract_lets s1 geom id first place s2 s3
  have h1 : s₀.Upholds s1 := .kvTick (.onJob h)
  have h2 : s₀.Upholds s2 := .formBatch h1
  have h3 : s₀.Upholds s3 := .ite (.chargeDram h2) h2
  have hplace : ∀ t pl, s₀.Upholds t → s₀.Upholds (place t pl) := fun t pl h => by
    dsimp only [place]
    split
    · exact .ite (.endSequence (.onKv h)) (.startCat (.onKv h))
    · exact .startCat (.onKv h)
  refine .ite (hplace s1 none h1) ?_
  split <;> rename_i e
  · exact .endSequence h3
  · exact hplace _ (some _) (.takeHeldOk h3 e)

theorem State.Upholds.grantSide {tables : List Nat} (h : s₀.Upholds s) : s₀.Upholds (s.grantSide tables) := by
  unfold State.grantSide
  split
  · exact h
  · split
    · exact h
    · split
      · exact .grantPage h
      · exact h

theorem State.Upholds.grantRow {slot : Nat} {tables : List Nat} (h : s₀.Upholds s) : s₀.Upholds (s.grantRow slot tables) := by
  unfold State.grantRow
  split
  · exact h
  · split
    · split
      · exact h
      · exact .ite h (.onAcc (.onKv (.kvTick h)))
    · exact h

theorem State.Upholds.seqSlotGrant {row : Bool} {slot : Nat} {tables : List Nat} (h : s₀.Upholds s) :
    s₀.Upholds (s.seqSlotGrant row slot tables) :=
  .ite h (.ite (.grantRow h) (.grantSide h))

theorem State.Upholds.closeStep {slot : Nat} (h : s₀.Upholds s) : s₀.Upholds (s.closeStep slot) := by
  unfold State.closeStep
  dsimp only
  split
  · exact .kvTick h
  · exact .ite (.onSeq (.kvTick h)) (.onSeq (.kvTick h))

theorem State.Upholds.stepRunEnds {slot : Nat} (h : s₀.Upholds s) : s₀.Upholds (s.stepRunEnds slot) := by
  unfold State.stepRunEnds
  split
  · exact h
  · exact .ite h (.ite (.closeStep h) (.onSeq h))

theorem State.Upholds.countRun {x : Ctx} {g : Stage} (h : s₀.Upholds s) : s₀.Upholds (s.countRun x g) := by
  unfold State.countRun
  refine .foldl h fun _ _ h => ?_
  split
  · exact h
  · exact .slowCheck (.onJob h)

theorem State.Upholds.idleCtx {id : Nat} (h : s₀.Upholds s) : s₀.Upholds (s.idleCtx id) := .dropRefs (.onCtx h)

theorem State.Upholds.noteDone {x : Ctx} {g : Stage} (h : s₀.Upholds s) : s₀.Upholds (s.noteDone x g) := by
  unfold State.noteDone
  exact .onKv h

theorem State.Upholds.rowEncoded {number batch stage : Nat} (h : s₀.Upholds s) : s₀.Upholds (s.rowEncoded number batch stage) := by
  unfold State.rowEncoded
  split
  · exact h
  · dsimp only
    split
    · exact .ite (.dropRefs (.onAcc h)) (.onAcc h)
    · exact .onAcc h

theorem State.Upholds.rowEnds {x : Ctx} {g : Stage} {slot : Nat} (h : s₀.Upholds s) : s₀.Upholds (s.rowEnds x g slot) := by
  unfold State.rowEnds
  split
  · exact h
  · exact .ite (.releaseSeq (.rowEncoded h)) h

theorem State.Upholds.pageChecks {number stage : Nat} (h : s₀.Upholds s) : s₀.Upholds (s.pageChecks number stage) := by
  unfold State.pageChecks
  split
  · exact h
  · split
    · exact h
    · exact .foldl h fun _ _ h => .ite (.endSequence h) (.ite (.endSequence h) h)

theorem State.Upholds.runEnds {x : Ctx} (h : s₀.Upholds s) : s₀.Upholds (s.runEnds x) := by
  unfold State.runEnds
  split
  · exact .endCtx h
  · extract_lets _ _ s1 s2 _ _
    have h1 : s₀.Upholds s1 := .ite (.idleCtx (.noteDone (.countRun h))) (.endCtx (.noteDone (.countRun h)))
    have h2 : s₀.Upholds s2 := .ite (.foldl h1 fun _ _ => .stepRunEnds) h1
    refine .foldl (.foldl (.ite (.foldl h2 fun _ _ => .rowEnds) h2) fun _ _ => .pageChecks) fun _ _ h => ?_
    split
    · exact .jobEndCheck h
    · exact h

theorem State.Upholds.dmaServed {c : Nat} {x : Ctx} (h : s₀.Upholds s) : s₀.Upholds (s.dmaServed c x) := .onSch h

theorem State.Upholds.commandComplete {c k idx now : Nat} (h : s₀.Upholds s) : s₀.Upholds (s.commandComplete c k idx now) := by
  unfold State.commandComplete
  split
  · exact h
  · split
    · exact h
    · extract_lets pair s1 s2 s3 s4 s5
      have h2 : s₀.Upholds s2 := .ite (.dmaServed (.advance h)) (.advance h)
      have h3 : s₀.Upholds s3 := .ite (.attnComplete h2) h2
      have h5 : s₀.Upholds s5 := .giveBack (.onCtx h3)
      refine .ite h (.ite h3 ?_)
      split
      · exact .ite (.runEnds h5) h5
      · exact h5

/-- Either answer of `takeBuffers` or `takeAll` holds a state that keeps the forms. -/
def UpholdsExcept (s₀ : State) : Except (PoolOwner × State) State → Prop
  | .ok s => s₀.Upholds s
  | .error e => s₀.Upholds e.2

/-! ### Contexts and their switches -/

theorem State.Upholds.takeBuffersEither {f : Folio} {stage : Nat} {page : Nat × Nat} (h : s₀.Upholds s) :
    UpholdsExcept s₀ (s.takeBuffers f stage page) := by
  unfold State.takeBuffers
  refine List.foldlRecOn (motive := UpholdsExcept s₀) _ _ h fun acc hacc b _ => ?_
  split
  · exact hacc
  · dsimp only
    split
    · exact hacc
    · split <;> rename_i e
      · exact .poolDone (.poolTake hacc (Option.ite_none_right_eq_some.1 e).2)
      · exact hacc

theorem State.Upholds.deferRest {f : Folio} {g : Stage} {p : CtxPlan} {cl : Bool} {batch : List Nat} (h : s₀.Upholds s) :
    s₀.Upholds (s.deferRest f g p cl batch) :=
  .foldl h fun _ _ => .onSeq

theorem State.Upholds.openSteps {g : Stage} {parts : Nat} {key : Nat × Nat × Nat} {wing : Nat} {batch : List (Nat × Option (Nat × Nat))}
    (h : s₀.Upholds s) : s₀.Upholds (s.openSteps g parts key wing batch) :=
  .foldl (.kvTick h) fun _ _ => .onSeq

theorem State.Upholds.noteSpillNeed {b n number : Nat} (h : s₀.Upholds s) : s₀.Upholds (s.noteSpillNeed b n number) := .onSch h

theorem State.Upholds.freeFill {x : Ctx} {lo hi : Nat} (h : s₀.Upholds s) : s₀.Upholds (s.freeFill x lo hi) := .locWrite (.drawBytes h)

/-- A context's slot empties, and then no slot names it. -/
theorem State.Upholds.unplace {id c k : Nat} {f : Ctx → Ctx} {t : State} (h : s.Upholds t)
    (hp : s.sch.placeOf id = some (some (c, k))) (hf : ∀ y, (f y).id = y.id) :
    s.Upholds ((t.onCarrel c fun r => r.emptySlot k).onCtx id f) := by
  have hv : s.Upholds (t.onCarrel c fun r => r.emptySlot k) := .emptySlot h
  refine ⟨hv.jobs, hv.sch.replace (fun ha => Sch.unseated_of_place ha hv.sch hp fun c' k' e => ?_) hf, hv.otp⟩
  obtain ⟨rfl, rfl⟩ : c = c' ∧ k = k' := by simpa using e
  exact t.sch.seat?_emptySlot c k

theorem State.Upholds.switchOut {id : Nat} (h : s₀.Upholds s) : s₀.Upholds (s.switchOut id) := by
  refine h.trans ?_
  unfold State.switchOut
  split <;> rename_i e
  · exact .refl
  · split <;> rename_i hp _
    · exact .accessing (.savePass .refl) fun _ h =>
        .chargeWait (.giveBack (.unplace (.kvTick (.onShelf h)) (hp ▸ Sch.placeOf_of_find e) fun _ => rfl))
    · exact .refl

theorem State.Upholds.bringImage {x : Ctx} {b : Nat} {t : State} (h : s₀.Upholds s) (e : s.bringImage x b = some t) : s₀.Upholds t := by
  unfold State.bringImage at e
  split at e
  · cases e
    exact h
  · split at e
    · cases e
      exact h
    · obtain ⟨a, -, rfl⟩ := Option.map_eq_some_iff.1 e
      dsimp only
      exact .onCtx (.onAcc (.onShelf h))

theorem State.Upholds.beginSwitch {c k : Nat} {leaving entering : Option Nat} {sOut sIn : Nat} (h : s₀.Upholds s) :
    s₀.Upholds (s.beginSwitch c k leaving entering sOut sIn) :=
  .onCarrel (.ite (.bumpSat h) h)

theorem State.Upholds.spillMove {b : Nat} (h : s₀.Upholds s) : s₀.Upholds (s.spillMove b) := by
  unfold State.spillMove
  refine .ite h ?_
  split
  · exact h
  · split <;> rename_i e
    · obtain ⟨i, -, e⟩ := Option.bind_eq_some_iff.1 e
      exact .onCtx (.dramWrite (.poolTake h e))
    · exact h

theorem State.Upholds.putList {p : CtxPlan} {bay : Nat} (h : s₀.Upholds s) : s₀.Upholds (s.putList p bay) :=
  .ite h (.ite (.onShelf h) (.dramWrite h))

theorem State.Upholds.noteRun {f : Folio} {g : Stage} {p : CtxPlan} {number : Nat} (h : s₀.Upholds s) : s₀.Upholds (s.noteRun f g p number) :=
  .foldl (.foldl (.ite h (.bumpSat h)) fun _ _ => .onJob) fun _ _ => .onJob

theorem State.Upholds.drawBank (h : s₀.Upholds s) : s₀.Upholds s.drawBank.2 := .plain h

theorem State.Upholds.startRun {g : Stage} {p : CtxPlan} {wing : Nat} {batch : List (Nat × Option (Nat × Nat))} (h : s₀.Upholds s) :
    s₀.Upholds (s.startRun g p wing batch) :=
  .ite (.openSteps h) h

theorem State.Upholds.waitsFor {number : Nat} {p : CtxPlan} {g : Stage} {lc : Bool} (h : s₀.Upholds s) :
    s₀.Upholds (s.waitsFor number p g lc) :=
  .onSch h

theorem State.Upholds.waitsNoMore {number : Nat} {p : CtxPlan} {g : Stage} (h : s₀.Upholds s) : s₀.Upholds (s.waitsNoMore number p g) :=
  .onSch h

theorem State.Upholds.takeAllEither {f : Folio} {stage : Nat} {pages : List (Nat × Nat)} (h : s₀.Upholds s) :
    UpholdsExcept s₀ (s.takeAll f stage pages) := by
  unfold State.takeAll
  refine List.foldlRecOn (motive := UpholdsExcept s₀) _ _ h fun acc hacc page _ => ?_
  cases acc with
  | error e => exact hacc
  | ok t => exact State.Upholds.takeBuffersEither hacc

theorem State.Upholds.takeAllOk {f : Folio} {stage : Nat} {pages : List (Nat × Nat)} {t : State} (h : s₀.Upholds s)
    (e : s.takeAll f stage pages = .ok t) : s₀.Upholds t := by
  have := h.takeAllEither (f := f) (stage := stage) (pages := pages)
  rw [e] at this
  exact this

theorem State.Upholds.takeAllError {f : Folio} {stage : Nat} {pages : List (Nat × Nat)} {r : PoolOwner × State} (h : s₀.Upholds s)
    (e : s.takeAll f stage pages = .error r) : s₀.Upholds r.2 := by
  have := h.takeAllEither (f := f) (stage := stage) (pages := pages)
  rw [e] at this
  exact this

theorem State.Upholds.moveBay {x : Ctx} {b : Nat} (h : s₀.Upholds s) : s₀.Upholds (s.moveBay x b) := by
  unfold State.moveBay
  split
  · exact h
  · split
    · exact h
    · exact .onCtx (.onShelf (.drawBytes h))

theorem State.Upholds.leaveBay {f : Folio} {g : Stage} {x : Ctx} {c k : Nat} (h : s₀.Upholds s) : s₀.Upholds (s.leaveBay f g x c k) :=
  .ite h (.ite (.ite (.switchOut h) (.beginSwitch (.switchOut h))) (.noteSpillNeed h))

theorem State.Upholds.nextRun {j : Job} {f : Folio} {g : Stage} {p : CtxPlan} {x : Ctx} {c : Nat} (h : s₀.Upholds s) :
    s₀.Upholds (s.nextRun j f g p x c) := by
  unfold State.nextRun
  dsimp only
  split
  · exact h
  · refine .ite h ?_
    split
    · rename_i eq4
      exact .poolWaits (.takeAllError h eq4)
    · rename_i eq4
      exact .startRun (.noteRun (.onCtx (.putList (.deferRest (.takeAllOk h eq4)))))

theorem State.Upholds.refuseRange {j : Job} {f : Folio} {g : Stage} {p : CtxPlan} {t : State} (h : s₀.Upholds s)
    (e : s.refuseRange j f g p = some t) : s₀.Upholds t := by
  unfold State.refuseRange at e
  split at e
  · split at e
    · obtain ⟨-, e⟩ := Option.ite_none_right_eq_some.1 e
      cases e
      exact .endSequence h
    · cases e
  · cases e

theorem State.Upholds.contextSwitchDone {c : Nat} (h : s₀.Upholds s) : s₀.Upholds (s.contextSwitchDone c) := by
  unfold State.contextSwitchDone
  split
  · exact h
  · dsimp only
    split
    · exact .onCarrel h
    · split
      · exact .onCarrel h
      · exact .onCtx (.locWrite (.onCarrel h))

/-! ### Contexts that take a slot (R263, R459, R473) -/

theorem State.Secures.and {t : State} (h : s₀.Secures s) (h' : s.Upholds t) : s₀.Secures t := h.trans h'.secures

theorem State.freeUnits_apart (s : State) (c n : Nat) :
    ((s.freeUnits c).take n).Nodup ∧ ∀ u ∈ (s.freeUnits c).take n, u ∉ (s.sch.carrels.getD c Carrel.none).slots.flatMap (·.1) :=
  ⟨(List.nodup_range.filter _).sublist (List.take_sublist _ _), fun u hu => by
    have h := (List.mem_filter.1 (List.mem_of_mem_take hu)).2
    exact of_decide_eq_false (by rwa [Bool.not_eq_true'] at h)⟩

/-- A context that sits nowhere is seated. -/
theorem State.Secures.seat {id c k units : Nat} (h : s₀.Secures s) (hu : s₀.sch.Apart → s.sch.Unseated id)
    (hid : (s.sch.placeOf id).isSome = true) : s₀.Secures (s.seat id c k units) :=
  have ⟨hmap, hfree⟩ := s.freeUnits_apart c units
  ⟨h.jobs, fun ha => (h.sch ha).seat (hu ha) hid (fun _ => rfl) hmap hfree fun _ => ⟨rfl, rfl⟩, h.otp⟩

theorem State.Secures.switchIn {id c k : Nat} (h : s₀.Secures s) (hu : s₀.sch.Apart → s.sch.Unseated id) :
    s₀.Secures (s.switchIn id c k) := by
  unfold State.switchIn
  split <;> rename_i e
  · exact h
  · have hs (units : Nat) : s₀.Secures (s.seat id c k units) := h.seat hu (by rw [Sch.placeOf_of_find e]; rfl)
    dsimp only
    split
    · exact (hs _).and (.onCtx .refl)
    · exact (hs _).and (.giveBack (.freeFill (.locWrite (.onCtx .refl))))

theorem State.putList_nextCtx (p : CtxPlan) (b : Nat) : (s.putList p b).sch.nextCtx = s.sch.nextCtx := by
  unfold State.putList
  split
  · rfl
  · split <;> rfl

/-- A new context takes the next identifier, which no slot names, and then its slot. -/
theorem State.Secures.placeNew {j : Job} {f : Folio} {g : Stage} {p : CtxPlan} {lc over_ : Bool} {c k : Nat}
    {batch : List (Nat × Option (Nat × Nat))} (h : s₀.Secures s) : s₀.Secures (s.placeNew j f g p lc over_ c k batch).1 := by
  unfold State.placeNew
  extract_lets b s1 cl batch' s2 p' pages id expand x s3 s4 s5 s6 s7
  have h2 : s₀.Secures (s2.drawBank.2.putList p' b) :=
    h.and (.putList (.drawBank (.ite (.deferRest (.waitsNoMore .refl)) (.waitsNoMore .refl))))
  have hid : x.id = (s2.drawBank.2.putList p' b).sch.nextCtx := (State.putList_nextCtx (s := s2.drawBank.2) p' b).symm
  have hsch3 : s3.sch = { (s2.drawBank.2.putList p' b).sch with
      ctxs := (s2.drawBank.2.putList p' b).sch.ctxs ++ [x], nextCtx := (s2.drawBank.2.putList p' b).sch.nextCtx + 1 } := by
    rw [← hid]; rfl
  have h3 : s₀.Secures s3 := ⟨h2.jobs, fun ha => hsch3 ▸ (h2.sch ha).addCtx hid, h2.otp⟩
  have hsch5 : s5.sch = s3.sch := by
    have h4 : s4.sch = s3.sch := by dsimp only [s4]; split <;> rfl
    have h5 (l : List (Nat × Nat)) : ∀ t : State, t.sch = s3.sch → (l.foldl (fun s e => match s.pageHead e.1 e.2 with
        | some q => s.onSeq q.slot fun q => { q with shelfBay := some b }
        | none => s) t).sch = s3.sch := fun t ht =>
      List.foldlRecOn l _ (motive := fun t : State => t.sch = s3.sch) ht fun t ht e _ => by split <;> exact ht
    dsimp only [s5]
    split
    · exact h5 _ _ h4
    · exact h4
  have h5 : s₀.Secures s5 := h3.and (.ite (.foldl (.ite .refl (.onJob .refl)) fun _ _ h => by split <;> [exact .onSeq h; exact h])
    (.ite .refl (.onJob .refl)))
  have hu (ha : s₀.sch.Apart) : s5.sch.Unseated id := by
    rw [hsch5, hsch3]
    exact hid ▸ Sch.unseated_next (h2.sch ha)
  have hin : (s5.sch.placeOf id).isSome = true := by
    rw [hsch5, hsch3]
    simp [Sch.placeOf, x, newCtx]
  exact (h5.seat hu hin).and (.startRun (.noteRun .refl))

theorem State.Secures.placeFirst {j : Job} {f : Folio} {g : Stage} {p : CtxPlan} (s : State) : s.Secures (s.placeFirst j f g p) := by
  unfold State.placeFirst
  dsimp only
  split
  · exact State.Upholds.refl.secures
  · split <;> rename_i e
    · exact (State.Upholds.poolWaits (.takeAllError .refl e)).secures
    · have ht := State.Upholds.takeAllOk .refl e
      split
      · exact (State.Upholds.waitsFor (.onAcc .refl)).secures
      · exact (State.Upholds.noteSpillNeed (.waitsFor (.onAcc .refl))).secures
      · split
        · exact (State.Upholds.onAcc .refl).secures
        · exact .placeNew ht.secures
      · split
        · exact (State.Upholds.onAcc .refl).secures
        · split
          · exact (State.Upholds.switchOut ht).secures
          · exact (State.Secures.placeNew (State.Upholds.switchOut ht).secures).and (.beginSwitch .refl)

theorem State.Secures.resumeOn {x : Ctx} {c k : Nat} {leaving : Option Nat} (hu : s.sch.Apart → s.sch.Unseated x.id) :
    s.Secures (s.resumeOn x c k leaving) := by
  unfold State.resumeOn
  extract_lets sIn sOut
  split <;> rename_i e
  · exact State.Upholds.refl.secures
  · extract_lets s1 s2
    have h1 : s.Upholds s1 := .ite (.bringImage .refl e) (.moveBay (.bringImage .refl e))
    have h2 : s.Upholds s2 := by
      dsimp only [s2]
      split
      · exact .switchOut h1
      · exact h1
    split
    · exact h2.secures
    · exact (h2.secures.switchIn fun ha => (hu ha).mono h2.sch).and (.onSch (.beginSwitch .refl))

theorem State.Secures.resume {j : Job} {f : Folio} {g : Stage} {x : Ctx} (hu : s.sch.Apart → s.sch.Unseated x.id) :
    s.Secures (s.resume j f g x) := by
  unfold State.resume
  split
  · exact State.Upholds.refl.secures
  · dsimp only
    split
    · exact State.Upholds.refl.secures
    · exact (State.Upholds.noteSpillNeed .refl).secures
    · split
      · exact State.Upholds.refl.secures
      · exact .resumeOn hu
    · exact .resumeOn hu

/-- A context of an apart fabric that knows of no slot sits nowhere. -/
theorem Sch.Apart.unseated {g : Sch} {x : Ctx} (ha : g.Apart) (hx : x ∈ g.ctxs) (hp : x.place = none) : g.Unseated x.id := by
  have hfind : g.ctxs.find? (·.id = x.id) = some x := find?_key_of_mem (key := Ctx.id) ha.ids hx
  have hpl : g.placeOf x.id = some none := hp ▸ Sch.placeOf_of_find hfind
  exact Sch.unseated_of_place ha .refl hpl nofun

theorem State.Secures.contextPlace {p : CtxPlan} (s : State) : s.Secures (s.contextPlace p) := by
  unfold State.contextPlace
  split
  · exact State.Upholds.refl.secures
  · split
    · exact State.Upholds.refl.secures
    · split
      · exact State.Upholds.refl.secures
      · split
        · exact State.Upholds.refl.secures
        · dsimp only
          split
          · split <;> rename_i e
            · exact (State.Upholds.refuseRange .refl e).secures
            · exact .placeFirst s
          · rename_i e
            split <;> rename_i hp
            · exact .resume fun ha => ha.unseated (List.mem_of_find?_eq_some e) hp
            · exact (State.Upholds.ite .refl (.ite (.leaveBay .refl) (.ite (.nextRun .refl) .refl))).secures

/-! ### Lanes and records -/

theorem State.Upholds.failRecord {slot idx sample status detail : Nat} (h : s₀.Upholds s) :
    s₀.Upholds (s.failRecord slot idx sample status detail) :=
  .endSequence (.ite (.bumpSat h) (.ite (.bumpSat h) h))

theorem State.Upholds.framingLost {j : Job} {detail : Nat} (h : s₀.Upholds s) : s₀.Upholds (s.framingLost j detail) :=
  .foldl (.onJob h) fun _ _ h => .ite h (.failRecord h)

theorem State.Upholds.setLane {k : Nat} {r : Option LaneRec} (h : s₀.Upholds s) : s₀.Upholds (s.setLane k r) := .onAcc h

theorem State.Upholds.nameSequence {number idx sample : Nat} (h : s₀.Upholds s) : s₀.Upholds (s.nameSequence number idx sample) := .onKv h

theorem State.Upholds.hadTurn {kind : Nat} {j : Job} (h : s₀.Upholds s) : s₀.Upholds (s.hadTurn kind j) := .onAcc h

theorem State.Upholds.toLane {j : Job} {f : Folio} (h : s₀.Upholds s) : s₀.Upholds (s.toLane j f) := by
  unfold State.toLane
  split
  · exact h
  · extract_lets kind owner waits s1 p
    split
    · exact h
    · refine .ite h ?_
      have h1 : s₀.Upholds s1 := .ite h (.hadTurn h)
      split <;> rename_i e
      · exact .poolWaits h1
      · exact .setLane (.chargePcie (.nameSequence (.onJob (.poolDone (.formBatch
          (.poolTake h1 (Option.ite_none_right_eq_some.1 e).2))))))

theorem State.Upholds.walkRecord {j : Job} {buf : Bytes} (h : s₀.Upholds s) : s₀.Upholds (s.walkRecord j buf) := by
  unfold State.walkRecord
  refine .ite h ?_
  dsimp only
  split
  · exact .framingLost (.hostRead h)
  · refine .ite (.onJob (.hostRead h)) ?_
    split
    · exact .failRecord (.chargePcie (.onJob (.hostRead h)))
    · exact .onJob (.hostRead (.hostRead h))

theorem State.Upholds.recordDispatch {slot : Nat} {buf : Bytes} (h : s₀.Upholds s) : s₀.Upholds (s.recordDispatch slot buf) := by
  unfold State.recordDispatch
  split
  · exact h
  · split
    · exact h
    · refine .ite h ?_
      dsimp only
      split
      · exact .ite (.toLane (.walkRecord h)) (.walkRecord h)
      · exact .walkRecord h

theorem State.Upholds.keepPage {j : Job} {r : LaneRec} (h : s₀.Upholds s) : s₀.Upholds (s.keepPage j r) := .ite (.onAcc h) h

theorem State.Upholds.laneFree {lane cycles client : Nat} (h : s₀.Upholds s) : s₀.Upholds (s.laneFree lane cycles client) :=
  .charge (.setLane h)

theorem State.Upholds.returnRecord {r : LaneRec} (h : s₀.Upholds s) : s₀.Upholds (s.returnRecord r) := .sweepPools (.onRefs h)

theorem State.Upholds.recordDecoded {lane : Nat} (h : s₀.Upholds s) : s₀.Upholds (s.recordDecoded lane) := by
  unfold State.recordDecoded
  split
  · exact h
  · split
    · exact .setLane h
    · refine .ite h ?_
      extract_lets d s1
      have h1 : s₀.Upholds s1 := .laneFree (.drawBytes h)
      split
      · exact .failRecord (.returnRecord h1)
      · refine .ite (.failRecord (.returnRecord h1)) ?_
        extract_lets s2 s3
        have h3 : s₀.Upholds s3 := .keepPage (.chargeDram (.dramWrite h1))
        split
        · exact h3
        · extract_lets s4 first s5
          have h5 : s₀.Upholds s5 := .onSeq (.onRefs h3)
          exact .ite (.endSequence h5) (.ite (.dropPageBuffers h5) h5)

theorem State.Upholds.budgetExpiry {lane rows : Nat} (h : s₀.Upholds s) : s₀.Upholds (s.budgetExpiry lane rows) := by
  unfold State.budgetExpiry
  split
  · exact h
  · exact .ite h (.failRecord (.returnRecord (.laneFree h)))

theorem State.Upholds.keepDrop (h : s₀.Upholds s) : s₀.Upholds s.keepDrop := .ite h (.sweepPools (.foldl (.onAcc h) fun _ _ => .onRefs))

theorem State.Upholds.cropPixel {p : Option Planes} {x y : Nat} (h : s₀.Upholds s) : s₀.Upholds (s.cropPixel p x y).2 := by
  unfold State.cropPixel
  split
  · exact .iteSnd h (.drawBytes h)
  · exact .drawBytes h

theorem State.Upholds.cropPosition {p : Option Planes} {x y : Nat} (h : s₀.Upholds s) : s₀.Upholds (s.cropPosition p x y).2 := by
  unfold State.cropPosition
  exact .foldlSnd h fun _ _ h => .pairSnd (.cropPixel h)

theorem State.Upholds.cropSegment {number : Nat} {g : Segment} (h : s₀.Upholds s) : s₀.Upholds (s.cropSegment number g).2 := by
  unfold State.cropSegment
  exact .foldlSnd h fun _ _ h => .pairSnd (.cropPosition h)

theorem State.Upholds.writeRow {number batch addr row : Nat} {blank : Bytes} {segs : List Segment} (h : s₀.Upholds s) :
    s₀.Upholds (s.writeRow number batch addr row blank segs) :=
  .dramWrite (.foldlSnd h fun _ _ => .cropSegment)

theorem State.Upholds.batchPack {slot number : Nat} {crops : List (Nat × List CropLine)} {rowBase : Nat} (h : s₀.Upholds s) :
    s₀.Upholds (s.batchPack slot number crops rowBase) := by
  unfold State.batchPack
  split
  · exact h
  · split
    · exact .ite h (.pageChecks (.dropRefs (.onAcc (.foldl (.drawBytes h) fun _ _ h => .chargeDram (.writeRow h)))))
    · exact h

/-! ### Folios and shards -/

theorem State.Upholds.refuseLoad {slot handle : Nat} {f : LoadFault} (h : s₀.Upholds s) : s₀.Upholds (s.refuseLoad slot handle f) :=
  .closeJob (.setReg h)

theorem State.Upholds.folioLoad {n : Nat} (h : s₀.Upholds s) : s₀.Upholds (s.folioLoad n) := by
  unfold State.folioLoad
  refine .beginDesc h fun _ _ _ h => ?_
  split
  · exact h
  · refine .ite (.finishDesc h) ?_
    dsimp only
    split
    · exact .refuseLoad (.setReg h)
    · exact .onJob (.onFol (.setReg h))

theorem State.Upholds.applyFixups {addr : Nat} {img : Bytes} (h : s₀.Upholds s) : s₀.Upholds (s.applyFixups addr img) :=
  .foldl h fun _ _ => .dramWrite

theorem State.Upholds.refillPinned {w : Nat} (h : s₀.Upholds s) : s₀.Upholds (s.refillPinned w) := .bumpSat (.onFol h)

theorem State.Upholds.refillAllPinned (h : s₀.Upholds s) : s₀.Upholds s.refillAllPinned := .foldl h fun _ _ => .refillPinned

theorem State.Upholds.setPinned {h' : Nat} {v : Bool} (h : s₀.Upholds s) : s₀.Upholds (s.setPinned h' v) :=
  .ite (.refillAllPinned (.onFol h)) (.onFol h)

theorem State.Upholds.folioFetchDone {slot : Nat} {given : Bytes} (h : s₀.Upholds s) : s₀.Upholds (s.folioFetchDone slot given) := by
  unfold State.folioFetchDone
  split
  · exact h
  · split
    · exact h
    · refine .ite h ?_
      dsimp only
      split
      · exact .refuseLoad (.dramWrite (.chargePcie (.fetchHost h)))
      · exact .onJob (.ite (.setPinned (.applyFixups (.onFol (.dramWrite (.chargePcie (.fetchHost h)))))) (.applyFixups (.onFol
          (.dramWrite (.chargePcie (.fetchHost h))))))

theorem State.Upholds.closeAmount {slot amount : Nat} (h : s₀.Upholds s) : s₀.Upholds (s.closeAmount slot amount) :=
  .releaseCancels (.endJob (.releaseJob h))

theorem State.Upholds.folioCommit {slot : Nat} (h : s₀.Upholds s) : s₀.Upholds (s.folioCommit slot) := by
  unfold State.folioCommit
  split
  · exact h
  · split
    · exact h
    · exact .ite h (.closeAmount (.foldl (.extendMs (.onFol h)) fun _ _ => .extendMs))

theorem State.Upholds.folioUnload {n : Nat} (h : s₀.Upholds s) : s₀.Upholds (s.folioUnload n) := by
  unfold State.folioUnload
  refine .beginDesc h fun _ _ _ h => ?_
  split
  · exact h
  · exact .ite (.onJob h) (.finishDesc h)

theorem State.Upholds.folioUnloadRelease {slot : Nat} (h : s₀.Upholds s) : s₀.Upholds (s.folioUnloadRelease slot) := by
  unfold State.folioUnloadRelease
  split
  · exact h
  · split
    · exact h
    · exact .ite h (.closeJob (.onFol (.foldl h fun _ _ => .removeNode)))

theorem State.Upholds.folioPin {h' : Nat} {v : Bool} (h : s₀.Upholds s) : s₀.Upholds (s.folioPin h' v) := by
  unfold State.folioPin
  split
  · exact .flag h
  · exact .ite (.flag h) (.setPinned h)

theorem State.Upholds.pinWrite {h' : Nat} {v : Bool} (h : s₀.Upholds s) : s₀.Upholds (s.pinWrite h' v) := .ite h (.folioPin h)

theorem State.Upholds.shelfSplit {v : Word} (h : s₀.Upholds s) : s₀.Upholds (s.shelfSplit v) :=
  .ite h (.ite (.ite (.setRegF h) h) (.ite (.flag (.ite (.setRegF h) h)) (.refillAllPinned (.onFol (.setRegF (.ite (.setRegF h) h))))))

theorem State.Upholds.enterShard {w b h' n : Nat} {pinned : Bool} (h : s₀.Upholds s) : s₀.Upholds (s.enterShard w b h' n pinned) := by
  unfold State.enterShard
  exact .onFol h

theorem State.Upholds.refillDone {w h' n : Nat} (h : s₀.Upholds s) : s₀.Upholds (s.refillDone w h' n) := by
  unfold State.refillDone
  refine .ite h ?_
  dsimp only
  split
  · exact .onFol h
  · split
    · exact .enterShard (.ite (.unattributed (.onFol h)) (.onFol h))
    · split
      · exact .enterShard (.onFol (.ite (.unattributed (.onFol h)) (.onFol h)))
      · exact .ite (.unattributed (.onFol h)) (.onFol h)

end Sys2Proof.Machine
end


section
/-! PROOF. What each operation upholds of capture, the link, errors, security and the registers. -/

namespace Sys2Proof.Machine

set_option Elab.async false

variable {s₀ s : State}

/-! ### Transports and lines -/

theorem State.Upholds.onTransport {t : Nat} {f : Transport → Transport} (h : s₀.Upholds s) : s₀.Upholds (s.onTransport t f) := .onCol h

theorem State.Upholds.onLsp {p : Nat} {f : Lsp → Lsp} (h : s₀.Upholds s) : s₀.Upholds (s.onLsp p f) := .onCol h

theorem State.Upholds.colEvent {t bit : Nat} {page : Option Nat} (h : s₀.Upholds s) : s₀.Upholds (s.colEvent t bit page) := by
  unfold State.colEvent
  extract_lets _ _ _ s1
  have h1 : s₀.Upholds s1 := by
    dsimp only [s1]
    split
    · exact .setRegF (.flag h)
    · exact .flag h
  exact .ite (.msix h1) h1

theorem State.Upholds.pageEvent {t bit : Nat} (h : s₀.Upholds s) : s₀.Upholds (s.pageEvent t bit) := .onTransport (.colEvent h)

theorem State.Upholds.sideEvent {t side bit : Nat} (h : s₀.Upholds s) : s₀.Upholds (s.sideEvent t side bit) := .onTransport (.colEvent h)

theorem State.Upholds.loseLine {g : Trigger} (h : s₀.Upholds s) : s₀.Upholds (s.loseLine g) := by
  unfold State.loseLine
  split
  · exact h
  · exact .ite h (.sideEvent (.onTransport h))

theorem State.Upholds.skipLines {g : Trigger} {n : Nat} (h : s₀.Upholds s) : s₀.Upholds (s.skipLines g n) := by
  unfold State.skipLines
  split
  · exact h
  · exact .ite h (.sideEvent (.onTransport h))

theorem State.Upholds.issueLsync {p : Nat} {gs : List Trigger} {minLine : Nat} (h : s₀.Upholds s) : s₀.Upholds (s.issueLsync p gs minLine) :=
  .emit (.onLsp (.foldl (.ite h (.onLsp (.bumpSat (.foldl h fun _ _ => .loseLine)))) fun _ _ => .sideEvent))

theorem State.Upholds.triggerPort {p : Nat} {gs : List Trigger} {minLine : Nat} (h : s₀.Upholds s) : s₀.Upholds (s.triggerPort p gs minLine) :=
  .ite (.onLsp h) (.issueLsync h)

theorem State.Upholds.fireRows {t fuel : Nat} {l : List (Nat × Nat)} (h : s₀.Upholds s) : s₀.Upholds (s.fireRows t fuel l) := by
  induction fuel generalizing s l with
  | zero => exact h
  | succ fuel ih =>
    match l with
    | [] => exact h
    | (k, i) :: rest =>
      unfold State.fireRows
      split
      · exact h
      · exact ih (.triggerPort (.foldl h fun _ _ => .onTransport))

theorem State.Upholds.strobeEvent {t : Nat} {b : Strobe} (h : s₀.Upholds s) : s₀.Upholds (s.strobeEvent t b) := by
  unfold State.strobeEvent
  refine .ite h ?_
  split
  · exact .ite h (.onCol h)
  · exact .colEvent h

theorem State.Upholds.fireStrobes {t : Nat} {c : TransportCfg} (h : s₀.Upholds s) : s₀.Upholds (s.fireStrobes t c) := by
  unfold State.fireStrobes
  refine .foldl h fun _ _ h => ?_
  split
  · exact h
  · exact .strobeEvent (.onTransport h)

theorem State.Upholds.keepStrobes {t side : Nat} (h : s₀.Upholds s) : s₀.Upholds (s.keepStrobes t side) := by
  unfold State.keepStrobes
  split
  · exact h
  · exact .ite h (.onTransport h)

theorem State.Upholds.fireLate {t : Nat} (h : s₀.Upholds s) : s₀.Upholds (s.fireLate t) :=
  .ite h (.foldl (.onTransport h) fun _ _ => .strobeEvent)

theorem State.Upholds.fireDue {t : Nat} (h : s₀.Upholds s) : s₀.Upholds (s.fireDue t) := by
  unfold State.fireDue
  split
  · exact h
  · exact .ite h (.fireRows (.fireStrobes h))

theorem State.Upholds.addHeld {p : Planes} {fate : HeldFate} (h : s₀.Upholds s) : s₀.Upholds (s.addHeld p fate) := .onAcc h

theorem State.Upholds.failSide {t : Nat} {o : OpenSide} {fate : HeldFate} (h : s₀.Upholds s) : s₀.Upholds (s.failSide t o fate) :=
  .addHeld (.onCol (.onTransport (.keepStrobes h)))

theorem State.Upholds.closeSide {t : Nat} {c : TransportCfg} {o : OpenSide} {n : Nat} (h : s₀.Upholds s) : s₀.Upholds (s.closeSide t c o n) :=
  .addHeld (.onCol (.onTransport (.keepStrobes (.unattributed (.dramWrite h)))))

theorem State.Upholds.orphan {want : Trigger → Bool} (h : s₀.Upholds s) : s₀.Upholds (s.orphan want) := .onCol h

theorem State.Upholds.closeEarly {t : Nat} {c : TransportCfg} {want : OpenSide → Bool} (h : s₀.Upholds s) :
    s₀.Upholds (s.closeEarly t c want) :=
  .foldl (.orphan (.foldl h fun _ _ => .sideEvent)) fun _ _ => .closeSide

theorem State.Upholds.closeCheck {t : Nat} (h : s₀.Upholds s) : s₀.Upholds (s.closeCheck t) := by
  unfold State.closeCheck
  dsimp only
  split
  · exact h
  · exact .ite h (.foldl h fun _ _ h => .ite h (.foldl (.ite (.sideEvent h) h) fun _ _ => .closeSide))

theorem State.Upholds.openSide {t : Nat} {c : TransportCfg} {page side : Nat} (h : s₀.Upholds s) : s₀.Upholds (s.openSide t c page side) := by
  unfold State.openSide
  dsimp only
  split
  · exact .addHeld (.colEvent h)
  · exact .onTransport (.onCol h)

theorem State.Upholds.openSides {t : Nat} {c : TransportCfg} {sides : List Nat} (h : s₀.Upholds s) : s₀.Upholds (s.openSides t c sides) :=
  .foldl (.onTransport h) fun _ _ => .openSide

theorem State.Upholds.leadEdge {t p : Nat} (h : s₀.Upholds s) : s₀.Upholds (s.leadEdge t p) := by
  unfold State.leadEdge
  split
  · exact h
  · exact .fireDue (.openSides (.onTransport (.closeEarly (.onCol (.foldl (.ite h (.orphan h)) fun _ _ => .closeJob)))))

theorem State.Upholds.takeLatches (h : s₀.Upholds s) : s₀.Upholds s.takeLatches := by
  unfold State.takeLatches
  refine .ite h (.foldl h fun _ _ h => ?_)
  dsimp only
  split
  · exact h
  · exact .closeCheck (.ite (.onTransport (.leadEdge (.onTransport h))) (.leadEdge (.onTransport h)))

theorem State.Upholds.movePos {t : Nat} {d : Int} (h : s₀.Upholds s) : s₀.Upholds (s.movePos t d) := .onTransport h

theorem State.Upholds.follow {t : Nat} {fwd : Bool} (h : s₀.Upholds s) : s₀.Upholds (s.follow t fwd) := by
  unfold State.follow
  dsimp only
  split
  · exact h
  · exact .ite h (.ite (.ite (.closeCheck (.fireDue (.onTransport h))) h) (.ite (.pageEvent h) h))

theorem State.Upholds.encEdge {t : Nat} {a b : Bool} (h : s₀.Upholds s) : s₀.Upholds (s.encEdge t a b) := by
  unfold State.encEdge
  extract_lets x step s1 s2 d fwd s3
  have h1 : s₀.Upholds s1 := .onTransport h
  have h2 : s₀.Upholds s2 := .wake h1
  have h3 : s₀.Upholds s3 := .movePos h2
  exact .ite h (.ite h1 (.ite (.ite (.pageEvent (.onTransport h2)) (.movePos (.drawBytes h2)))
    (.ite (.follow (.ite (.fireLate h3) h3)) h3)))

theorem State.Upholds.leadAssert {t : Nat} (h : s₀.Upholds s) : s₀.Upholds (s.leadAssert t) := by
  unfold State.leadAssert
  refine .ite h ?_
  dsimp only
  split
  · exact .onTransport h
  · exact .ite (.wake (.onTransport h)) (.ite (.closeCheck (.leadEdge (.wake (.onTransport h)))) (.onTransport (.wake (.onTransport h))))

theorem State.Upholds.leadDeassert {t : Nat} (h : s₀.Upholds s) : s₀.Upholds (s.leadDeassert t) :=
  .ite h (.ite (.ite (.closeCheck (.onTransport (.onTransport h))) (.onTransport (.onTransport h))) (.onTransport h))

theorem State.Upholds.dfeedAssert {t : Nat} (h : s₀.Upholds s) : s₀.Upholds (s.dfeedAssert t) := .ite (.pageEvent h) h

theorem State.Upholds.ilkOpen {t : Nat} (h : s₀.Upholds s) : s₀.Upholds (s.ilkOpen t) := .ite h (.onCol (.onTransport h))

theorem State.Upholds.ilkClose {t : Nat} (h : s₀.Upholds s) : s₀.Upholds (s.ilkClose t) := .ite h (.onTransport h)

theorem State.Upholds.stallLimit {t : Nat} (h : s₀.Upholds s) : s₀.Upholds (s.stallLimit t) := by
  unfold State.stallLimit
  split
  · exact h
  · exact .ite (.pageEvent h) h

theorem State.Upholds.strobeOn {m : Nat} (h : s₀.Upholds s) : s₀.Upholds (s.strobeOn m) := .onCol h

theorem State.Upholds.strobeOff {m : Nat} (h : s₀.Upholds s) : s₀.Upholds (s.strobeOff m) := .onCol h

theorem State.Upholds.lineTriggerDeferred {p : Nat} (h : s₀.Upholds s) : s₀.Upholds (s.lineTriggerDeferred p) := by
  unfold State.lineTriggerDeferred
  refine .ite h ?_
  split
  · exact .onLsp h
  · exact .issueLsync (.foldl (.onLsp h) fun _ _ h => .sideEvent (.onTransport h))

theorem State.Upholds.dropFrame {p : Nat} (h : s₀.Upholds s) : s₀.Upholds (s.dropFrame p) :=
  .foldl (.onLsp (.foldl h fun _ _ => .loseLine)) fun _ _ => .closeCheck

theorem State.Upholds.takeLine {g : Trigger} {bits : Nat} {vs : List Nat} (h : s₀.Upholds s) : s₀.Upholds (s.takeLine g bits vs) := by
  unfold State.takeLine
  dsimp only
  split
  · exact .onTransport h
  · exact h

theorem State.Upholds.takeCal {g : Trigger} {vs : List Nat} (h : s₀.Upholds s) : s₀.Upholds (s.takeCal g vs) := .onCol h

theorem State.Upholds.versionEnd {p : Nat} (h : s₀.Upholds s) : s₀.Upholds (s.versionEnd p) := by
  unfold State.versionEnd
  refine .foldl (.onLsp h) fun _ _ h => ?_
  extract_lets _ _ s1
  have h1 : s₀.Upholds s1 := .foldl (.orphan h) fun _ _ => .failSide
  exact .ite h1 (.closeCheck h1)

theorem State.Upholds.lineFrame {p : Nat} {f : Bytes} (h : s₀.Upholds s) : s₀.Upholds (s.lineFrame p f) := by
  unfold State.lineFrame
  refine .ite h ?_
  extract_lets s1 gs skipped s2 s3 s4
  have h1 : s₀.Upholds s1 := .onLsp h
  have h2 : s₀.Upholds s2 := .ite h1 (.bumpSat (.foldl h1 fun _ _ => .skipLines))
  have h3 : s₀.Upholds s3 := .foldl h2 fun _ _ h => by split <;> [exact h; exact .ite (.takeCal h) (.takeLine h)]
  refine .ite (.dropFrame (.bumpSat h1)) (.ite (.versionEnd h1) (.ite (.dropFrame (.bumpSat h1)) (.ite (.dropFrame h1)
    (.ite (.dropFrame (.bumpSat h1)) (.ite (.onLsp (.bumpSat h1)) ?_)))))
  exact .foldl (.onLsp h3) fun _ _ => .closeCheck

theorem State.Upholds.frameStart {port vc : Nat} (h : s₀.Upholds s) : s₀.Upholds (s.frameStart port vc) := by
  unfold State.frameStart
  refine .ite h (.foldl (.onCol h) fun _ _ h => ?_)
  dsimp only
  split
  · exact h
  · exact .ite h (.ite (.onCol h) (.openSides (.onTransport (.drawBytes (.closeEarly h)))))

theorem State.Upholds.closeFrame {t : Nat} {c : TransportCfg} {sides : List Nat} {clipped : Bool} (h : s₀.Upholds s) :
    s₀.Upholds (s.closeFrame t c sides clipped) :=
  .foldl (.ite (.foldl h fun _ _ h => .ite (.sideEvent h) h) h) fun _ _ => .closeSide

theorem State.Upholds.frameEnd {port vc : Nat} (h : s₀.Upholds s) : s₀.Upholds (s.frameEnd port vc) := by
  unfold State.frameEnd
  refine .ite h (.foldl (.onCol h) fun _ _ h => ?_)
  dsimp only
  split
  · exact h
  · exact .ite h (.closeFrame (.onCol h))

theorem State.Upholds.csiTake {t port vc dt : Nat} {b : Bytes} {ok : Bool} {e : Nat × Source} (h : s₀.Upholds s) :
    s₀.Upholds (s.csiTake t port vc dt b ok e) :=
  .ite (.ite h (.onCol h)) (.ite h (.ite (.takeLine (.onTransport h)) (.loseLine (.onTransport h))))

theorem State.Upholds.csiLine {port vc dt : Nat} {b : Bytes} {headerErrors : Nat} {crcOk : Bool} (h : s₀.Upholds s) :
    s₀.Upholds (s.csiLine port vc dt b headerErrors crcOk) := by
  unfold State.csiLine
  refine .ite h ?_
  split
  · exact h
  · refine .foldl h fun _ _ h => ?_
    extract_lets x srcs s1
    split
    · exact h
    · have h1 : s₀.Upholds s1 := .foldl h fun _ _ => .csiTake
      exact .ite h1 (.closeFrame h1)

theorem State.Upholds.abortPage {t : Nat} (h : s₀.Upholds s) : s₀.Upholds (s.abortPage t) :=
  .ite h (.foldl (.orphan h) fun _ _ => .failSide)

theorem State.Upholds.dropPages {t v : Nat} (h : s₀.Upholds s) : s₀.Upholds (s.dropPages t v) := .sweepPools (.onAcc h)

/-! ### Capture -/

theorem State.Upholds.queueCapture {slot : Nat} {cfgs : List (Nat × Option TransportCfg)} (h : s₀.Upholds s) :
    s₀.Upholds (s.queueCapture slot cfgs) :=
  .ite (.closeJob h) (.onJob (.onCol h))

theorem State.Upholds.commit {n : Nat} {given : Bytes} (h : s₀.Upholds s) : s₀.Upholds (s.commit n given) := by
  unfold State.commit
  refine .beginDesc h fun _ _ _ h => ?_
  split
  · exact h
  · dsimp only
    split
    · exact .closeJob (.chargePcie (.fetchHost h))
    · exact .queueCapture (.chargePcie (.fetchHost h))

theorem State.Upholds.captureStop {n : Nat} (h : s₀.Upholds s) : s₀.Upholds (s.captureStop n) := by
  unfold State.captureStop
  refine .beginDesc h fun _ _ _ h => ?_
  split
  · exact h
  · exact .queueCapture h

theorem State.Upholds.setCfg {t : Nat} {cfg : Option TransportCfg} (h : s₀.Upholds s) : s₀.Upholds (s.setCfg t cfg) := by
  unfold State.setCfg
  exact .onCol (.onTransport h)

theorem State.Upholds.configApply {t : Nat} (h : s₀.Upholds s) : s₀.Upholds (s.configApply t) := by
  unfold State.configApply
  refine .ite h ?_
  split
  · exact h
  · exact .ite (.closeJob (.onCol (.setCfg h))) (.onCol (.setCfg h))

theorem State.Upholds.calibrate {n : Nat} {white : Bool} (h : s₀.Upholds s) : s₀.Upholds (s.calibrate n white) := by
  unfold State.calibrate
  refine .beginDesc h fun _ _ _ h => ?_
  split
  · exact h
  · exact .onJob (.onCol h)

theorem State.Upholds.onCalib {slot : Nat} {f : Calib → Calib} (h : s₀.Upholds s) : s₀.Upholds (s.onCalib slot f) := .onCol h

theorem State.Upholds.calibrationStart {slot : Nat} (h : s₀.Upholds s) : s₀.Upholds (s.calibrationStart slot) := by
  unfold State.calibrationStart
  split
  · exact h
  · exact .ite h (.ite (.onCalib h) (.onCol (.onCalib h)))

theorem State.Upholds.calLineTrigger {slot : Nat} (h : s₀.Upholds s) : s₀.Upholds (s.calLineTrigger slot) := by
  unfold State.calLineTrigger
  split
  · exact h
  · exact .ite h (.foldl h fun _ _ h => .ite h (.ite (.foldl (.issueLsync h) fun _ _ => .strobeEvent) (.issueLsync h)))

theorem State.Upholds.setRefs {t i : Nat} {white : Bool} {vs : List Nat} (h : s₀.Upholds s) : s₀.Upholds (s.setRefs t i white vs) := by
  unfold State.setRefs
  split
  · exact h
  · exact .onCol h

theorem State.Upholds.calibrationDone {slot : Nat} (h : s₀.Upholds s) : s₀.Upholds (s.calibrationDone slot) := by
  unfold State.calibrationDone
  split
  · exact h
  · exact .ite h (.closeAmount (.orphan (.foldl h fun _ _ => .setRefs)))

/-! ### The link and the management port -/

theorem State.Upholds.flr (h : s₀.Upholds s) : s₀.Upholds s.flr := .linkReset (.onLink h)

theorem State.Upholds.hotReset (h : s₀.Upholds s) : s₀.Upholds s.hotReset := .linkReset (.onLink h)

theorem State.Upholds.linkLoss (h : s₀.Upholds s) : s₀.Upholds s.linkLoss := .linkReset (.onLink h)

theorem State.Upholds.perstAssert (h : s₀.Upholds s) : s₀.Upholds s.perstAssert := .linkReset (.onLink h)

theorem State.Upholds.perstRelease (h : s₀.Upholds s) : s₀.Upholds s.perstRelease := .onLink h

theorem State.Upholds.linkUp {speed width : Nat} (h : s₀.Upholds s) : s₀.Upholds (s.linkUp speed width) := .ite h (.onLink h)

theorem State.Upholds.setDeviceControl {mps mrrs : Nat} {ro : Bool} (h : s₀.Upholds s) : s₀.Upholds (s.setDeviceControl mps mrrs ro) :=
  .onLink h

theorem State.Upholds.deviceControl {mps mrrs : Nat} {ro : Bool} (h : s₀.Upholds s) : s₀.Upholds (s.deviceControl mps mrrs ro) :=
  .ite (.hostWaits h) (.setDeviceControl h)

theorem State.Upholds.atomicOp {bar off : Nat} (h : s₀.Upholds s) : s₀.Upholds (s.atomicOp bar off) := .ite (.hostWaits h) (.emit (.exitIdle h))

theorem State.Upholds.bar4 {write : Bool} {off len : Nat} {data : Bytes} (h : s₀.Upholds s) : s₀.Upholds (s.bar4 write off len data) :=
  .ite (.ite h (.emit h)) (.ite (.ite (.flag h) (.emit (.flag h))) (.ite (.dramWrite h) (.emit h)))

theorem State.Upholds.bar4Access {write : Bool} {off len : Nat} {data : Bytes} (h : s₀.Upholds s) :
    s₀.Upholds (s.bar4Access write off len data) :=
  .ite (.hostWaits h) (.bar4 (.exitIdle h))

theorem State.Upholds.verAgree {hi : Bool} {v : Word} (h : s₀.Upholds s) : s₀.Upholds (s.verAgree hi v) :=
  .ite (.access h) (.ite (.flag h) (.setReg h))

theorem State.Upholds.mgtEmbWrite {v : Word} (h : s₀.Upholds s) : s₀.Upholds (s.mgtEmbWrite v) :=
  .ite (.access (.ite (.setRegF h) h)) (.ite (.flag (.ite (.setRegF h) h)) (.ite (.errsToMailbox (.setRegF (.ite (.setRegF h) h)))
    (.setRegF (.ite (.setRegF h) h))))

theorem State.Upholds.last {c : Nat} (h : s₀.Upholds s) : s₀.Upholds (s.last c) := .onMgt h

theorem State.Upholds.mgtCmd {checks : List (Bool × Nat)} {refused act : State → State} (h : s₀.Upholds s)
    (hrefused : ∀ t, s₀.Upholds t → s₀.Upholds (refused t)) (hact : ∀ t, s₀.Upholds t → s₀.Upholds (act t)) :
    s₀.Upholds (s.mgtCmd checks refused act) := by
  unfold State.mgtCmd
  dsimp only
  split
  · exact hrefused _ (.last (.exitIdle h))
  · exact hact _ (.last (.exitIdle h))

theorem State.Upholds.dwinFetch {addr : Nat} {data : Bytes} (h : s₀.Upholds s) : s₀.Upholds (s.dwinFetch addr data) :=
  .mgtCmd h (fun _ h => h) fun _ => .onMgt

theorem State.Upholds.dwinFetchDone (h : s₀.Upholds s) : s₀.Upholds s.dwinFetchDone := by
  unfold State.dwinFetchDone
  split
  · exact .onMgt h
  · exact h

theorem State.Upholds.dwinRead {addr len : Nat} (h : s₀.Upholds s) : s₀.Upholds (s.dwinRead addr len) :=
  .mgtCmd h (fun _ => .emit) fun _ => .emit

theorem State.Upholds.dwinWrite {addr : Nat} {data : Bytes} (h : s₀.Upholds s) : s₀.Upholds (s.dwinWrite addr data) :=
  .mgtCmd h (fun _ h => h) fun _ => .onMgt

theorem State.Upholds.dwinWriteDone (h : s₀.Upholds s) : s₀.Upholds s.dwinWriteDone := by
  unfold State.dwinWriteDone
  split
  · exact .onMgt (.dramWrite h)
  · exact h

theorem State.Upholds.mboxWrite {data : Bytes} (h : s₀.Upholds s) : s₀.Upholds (s.mboxWrite data) :=
  .mgtCmd h (fun _ h => h) fun _ => .onMgt

theorem State.Upholds.mboxTake (h : s₀.Upholds s) : s₀.Upholds s.mboxTake := by
  unfold State.mboxTake
  split
  · exact h
  · exact .ite h (.ite (.post (.onMgt h)) (.ite (.post (.onMgt h)) (.post (.onMgt h))))

theorem State.Upholds.mboxRead {len : Nat} (h : s₀.Upholds s) : s₀.Upholds (s.mboxRead len) :=
  .mgtCmd h (fun _ h => .ite (.emit h) h) fun _ h => .unstick (.ite (.setRegF (.onMgt (.emit h))) (.onMgt (.emit h)))

theorem State.Upholds.mgtKick {addr len : Nat} (h : s₀.Upholds s) : s₀.Upholds (s.mgtKick addr len) :=
  .mgtCmd h (fun _ h => h) fun _ => .kickRings

theorem State.Upholds.mgtPlain {len : Nat} {act : State → State} (h : s₀.Upholds s) (hact : ∀ t, s₀.Upholds t → s₀.Upholds (act t)) :
    s₀.Upholds (s.mgtPlain len act) :=
  .mgtCmd h (fun _ h => h) fun _ h => hact _ h

theorem State.Upholds.mgtReset {addr len : Nat} (h : s₀.Upholds s) : s₀.Upholds (s.mgtReset addr len) := by
  unfold State.mgtReset
  exact .mgtCmd h (fun _ h => .ite (.refuseReset h) h) fun _ => .requestReset

theorem State.Upholds.mgtRcvData {addr : Nat} {data : Bytes} (h : s₀.Upholds s) : s₀.Upholds (s.mgtRcvData addr data) :=
  .mgtCmd h (fun _ h => h) fun _ => .rcvBlock

theorem State.Upholds.mgtRcvCommit {image len : Nat} (h : s₀.Upholds s) : s₀.Upholds (s.mgtRcvCommit image len) :=
  .mgtCmd h (fun _ h => h) fun _ => .rcvCommit

theorem State.Upholds.mgtRdStatus {len : Nat} (h : s₀.Upholds s) : s₀.Upholds (s.mgtRdStatus len) :=
  .ite (.emit (.exitIdle h)) (.last (.exitIdle h))

theorem State.Upholds.mgtBadFrame {complementOk : Bool} (h : s₀.Upholds s) : s₀.Upholds (s.mgtBadFrame complementOk) :=
  .ite (.last (.exitIdle h)) (.ite (.last (.exitIdle h)) h)

/-! ### Errors and self-tests -/

theorem State.Upholds.dropBadShard {ev : ErrEvent} (h : s₀.Upholds s) : s₀.Upholds (s.dropBadShard ev) := by
  unfold State.dropBadShard
  refine .ite ?_ h
  split
  · exact .onFol h
  · exact h

theorem State.Upholds.noteCarrel {e : ErrEvent} (h : s₀.Upholds s) : s₀.Upholds (s.noteCarrel e) :=
  .ite h (.ite (.onCarrel (.bumpSat h)) (.ite (.onCarrel (.bumpSat h)) (.ite (.bumpSat h) (.ite (.bumpSat h) h))))

theorem State.Upholds.errorRecordIssue {ev : Option ErrEvent} (h : s₀.Upholds s) : s₀.Upholds (s.errorRecordIssue ev) := by
  unfold State.errorRecordIssue
  split
  · exact .dropBadShard (.reportError (.noteCarrel h))
  · split
    · exact h
    · exact .dropBadShard (.reportError (.onErr h))

theorem State.Upholds.fenceWrite {k : Nat} {v : Word} (h : s₀.Upholds s) : s₀.Upholds (s.fenceWrite k v) :=
  .ite h (.ite (.onFol (.writeWord h)) (.writeWord h))

theorem State.Upholds.lastingClear {k : Nat} {v : Word} (h : s₀.Upholds s) : s₀.Upholds (s.lastingClear k v) := .ite h (.onErr (.writeWord h))

theorem State.Upholds.bistNext {fuel : Nat} (h : s₀.Upholds s) : s₀.Upholds (State.bistNext fuel s) := by
  induction fuel generalizing s with
  | zero => exact h
  | succ fuel ih =>
    unfold State.bistNext
    refine .ite h ?_
    split
    · exact h
    · dsimp only
      split
      · exact ih (.closeJob (.onSch h))
      · exact .onJob (.onSch (.onSch h))

theorem State.Upholds.bistStart (h : s₀.Upholds s) : s₀.Upholds s.bistStart := .bistNext h

theorem State.Upholds.bayBist {n : Nat} (h : s₀.Upholds s) : s₀.Upholds (s.bayBist n) := by
  unfold State.bayBist
  refine .beginDesc h fun _ _ _ h => ?_
  split
  · exact h
  · exact .bistStart (.onSch h)

theorem State.Upholds.bistDrainDone (h : s₀.Upholds s) : s₀.Upholds s.bistDrainDone := by
  unfold State.bistDrainDone
  split
  · exact h
  · exact .ite h (.onFol (.onJob h))

theorem State.Upholds.bistDrainTimeout (h : s₀.Upholds s) : s₀.Upholds s.bistDrainTimeout := by
  unfold State.bistDrainTimeout
  split
  · exact h
  · exact .ite h (.bistStart (.closeJob (.onSch h)))

theorem State.Upholds.bistTestsDone {fails : Nat} (h : s₀.Upholds s) : s₀.Upholds (s.bistTestsDone fails) := by
  unfold State.bistTestsDone
  split
  · exact h
  · exact .bistStart (.closeAmount (.refillPinned (.ite (.bayRelease (.onSch h)) (.reportError (.bayRelease (.onSch h))))))

/-! ### Security -/

/-- A burn leaves what is burnt (R572). -/
theorem State.burn_burns (s : State) (off : Nat) (bs : Bytes) : s.sec.otp.Burns (s.burn off bs).sec.otp := fun w => by
  refine ⟨Mem.write_wf _ s.sec.otp off w, fun a i h => ?_⟩
  rw [State.burn_get s off a bs w]
  split
  · simp [h]
  · exact h

theorem State.Upholds.burn {off : Nat} {bs : Bytes} (h : s₀.Upholds s) : s₀.Upholds (s.burn off bs) :=
  h.units (otp := s.burn_burns off bs)

theorem State.Upholds.otpProg {f : Nat} (h : s₀.Upholds s) : s₀.Upholds (s.otpProg f) := .ite h (.ite (.flag h) (.onSec h))

theorem State.Upholds.otpProgDone (h : s₀.Upholds s) : s₀.Upholds s.otpProgDone := by
  unfold State.otpProgDone
  split
  · exact h
  · exact .extendOtp (.flag (.onSec (.burn h)))

theorem State.Upholds.rbAdvance {v : Word} (h : s₀.Upholds s) : s₀.Upholds (s.rbAdvance v) :=
  .ite h (.ite (.onSec (.writeWord h)) (.flag (.writeWord h)))

theorem State.Upholds.rollbackBurnDone (h : s₀.Upholds s) : s₀.Upholds s.rollbackBurnDone := by
  unfold State.rollbackBurnDone
  split
  · exact h
  · exact .extendOtp (.onSec (.burn h))

theorem State.Upholds.firmwareUpdate {v : Word} (h : s₀.Upholds s) : s₀.Upholds (s.firmwareUpdate v) :=
  .ite h (.ite (.writeWord h) (.ite (.onSec h) (.onSec (.writeWord h))))

theorem State.Upholds.firmwareUpdateDone {given : Bytes} {flashError : Bool} (h : s₀.Upholds s) :
    s₀.Upholds (s.firmwareUpdateDone given flashError) := by
  unfold State.firmwareUpdateDone
  split
  · exact h
  · extract_lets r img s1 fin b s2 d s3
    have h1 : s₀.Upholds s1 := .unattributedHost (.fetchHost h)
    have h2 : s₀.Upholds s2 := .dropRecord h1
    exact .ite (.onSec h1) (.ite (.onSec h1) (.ite (.onSec (.flashWrite (.drawBytes h2))) (.onSec (.putRecord (.flashWrite h2)))))

theorem State.Upholds.queueAttest {slot : Nat} {d : Bytes} (h : s₀.Upholds s) : s₀.Upholds (s.queueAttest slot d) := .onJob (.onSec h)

theorem State.Upholds.report {n : Nat} (h : s₀.Upholds s) : s₀.Upholds (s.report n) := by
  unfold State.report
  refine .beginDesc h fun _ _ _ h => ?_
  split
  · exact h
  · exact .ite (.closeJob h) (.ite (.closeJob h) (.queueAttest h))

theorem State.Upholds.extendJob {n : Nat} (h : s₀.Upholds s) : s₀.Upholds (s.extendJob n) := by
  unfold State.extendJob
  refine .beginDesc h fun _ _ _ h => ?_
  split
  · exact h
  · exact .queueAttest h

theorem State.Upholds.attestDone (h : s₀.Upholds s) : s₀.Upholds s.attestDone := by
  unfold State.attestDone
  split
  · exact h
  · exact .ite h (.ite (.closeAmount (.extendMs h)) (.closeAmount (.chargePcie (.hostWrite h))))

theorem State.Upholds.challenge (h : s₀.Upholds s) : s₀.Upholds s.challenge := .ite (.onSec (.emit h)) (.onSec (.emit h))

theorem State.Upholds.debugFail (h : s₀.Upholds s) : s₀.Upholds s.debugFail := .onSec h

theorem State.Upholds.debugResponse {scope block : Bytes} (h : s₀.Upholds s) : s₀.Upholds (s.debugResponse scope block) := by
  unfold State.debugResponse
  split
  · exact .debugFail h
  · exact .onSec h

theorem State.Upholds.debugVerifyDone (h : s₀.Upholds s) : s₀.Upholds s.debugVerifyDone := by
  unfold State.debugVerifyDone
  split
  · exact h
  · exact .ite (.debugFail (.onSec h)) (.ite (.onSec h) (.extendMs (.onSec (.onSec h))))

/-! ### Access to the registers -/

theorem State.Upholds.readWord {off : Nat} (h : s₀.Upholds s) : s₀.Upholds (s.readWord off).2 := .ite (.onLdg h) h

theorem State.Upholds.injectWrite {v : Word} (h : s₀.Upholds s) : s₀.Upholds (s.injectWrite v) :=
  .ite h (.ite (.flag (.ite (.setRegF h) h)) (.writeWord h))

theorem State.Upholds.ringCtrlWrite {r : RingId} {v : Word} (h : s₀.Upholds s) : s₀.Upholds (s.ringCtrlWrite r v) := by
  unfold State.ringCtrlWrite
  refine .ite (.ringEnable h) ?_
  split
  · exact .sqDisable h
  · exact .cqDisable h
  · exact .ite (.clearEn h) (.writeWord h)

theorem State.Upholds.rstReqWrite {v : Word} (h : s₀.Upholds s) : s₀.Upholds (s.rstReqWrite v) := by
  unfold State.rstReqWrite
  refine .ite h ?_
  split
  · exact .requestReset h
  · exact .requestReset h
  · exact .requestReset h
  · exact .requestReset h
  · exact .refuseReset h

theorem State.Upholds.writeAo {off : Nat} {v : Word} (h : s₀.Upholds s) : UpholdsSome s₀ (s.writeAo off v) := by
  refine .ite (.some ?_) (.ite (.some (.rstReqWrite h)) (.ite (.some (.clkArithStep h)) (.ite (.some (.verAgree h))
    (.ite (.some (.verAgree h)) (.ite (.some (.hostBootGo h)) (.ite (.some (.mgtEmbWrite h)) .none))))))
  split
  · exact .stateReq h
  · exact .sysEvent h

theorem State.Upholds.writeIntake {off : Nat} {v : Word} (h : s₀.Upholds s) : UpholdsSome s₀ (s.writeIntake off v) :=
  .ite (.some (.ite (.keepDrop h) h)) (.ite (.some (.ite (.abortPage h) h)) (.ite (.some (.dropPages h)) (.ite (.some (.injectWrite h))
    (.ite (.some (.shelfSplit h)) (.ite (.some (.pinWrite (.ite (.setRegF h) h))) .none)))))

theorem State.Upholds.writeRest {off : Nat} {v : Word} (h : s₀.Upholds s) : UpholdsSome s₀ (s.writeRest off v) :=
  .ite (.some (.ite (.concFlush (.setRegF h)) (.setRegF h))) (.ite (.some (.fenceWrite h)) (.ite (.some (.lastingClear h))
    (.ite (.some (.ite (.ledgerEnable h) (.ledgerDisable h))) (.ite (.some (.ite (.slowPop h) h)) (.ite (.some (.rbAdvance h))
      (.ite (.some (.firmwareUpdate h)) (.ite (.some (.ite (.otpProg (.writeWord h)) (.writeWord h))) .none)))))))

theorem State.Upholds.writeReg {off : Nat} {v : Word} (h : s₀.Upholds s) : s₀.Upholds (s.writeReg off v) := by
  refine .ite (.access h) (.ite h ?_)
  split
  · exact .ringCtrlWrite h
  · split <;> rename_i e
    · exact UpholdsSome.orElse h.writeAo (.orElse h.writeIntake h.writeRest) _ e
    · exact .writeWord h

theorem State.Upholds.sendUnmasked (h : s₀.Upholds s) : s₀.Upholds s.sendUnmasked := .foldl h fun _ _ h => .msix (.onLink h)

theorem State.Upholds.hostWord {off : Nat} {v : Word} {be : BitVec 4} (h : s₀.Upholds s) : s₀.Upholds (s.hostWord off v be) :=
  .ite (.access h) (.ite (.ite (.sendUnmasked (.onLink h)) h) (.writeReg h))

theorem State.Upholds.hostWords {off : Nat} {words : List (Word × BitVec 4)} (h : s₀.Upholds s) : s₀.Upholds (s.hostWords off words) := by
  induction words generalizing s off with
  | nil => exact h
  | cons w words ih => exact ih (.hostWord h)

theorem State.Upholds.registerWrite {off : Nat} {words : List (Word × BitVec 4)} (h : s₀.Upholds s) : s₀.Upholds (s.registerWrite off words) :=
  .ite (.hostWaits h) (.hostWords (.exitIdle h))

theorem State.Upholds.ujRead (h : s₀.Upholds s) : s₀.Upholds s.ujRead := .ite (.hostWaits h) (.deviceUjRead (.exitIdle h))

theorem State.Upholds.readWords {l : List Nat} (h : s₀.Upholds s) : s₀.Upholds (s.readWords l).2 := by
  induction l generalizing s with
  | nil => exact h
  | cons o l ih => exact ih (.iteSnd (.readWord h) h)

theorem State.Upholds.mgtRdReg {addr len : Nat} (h : s₀.Upholds s) : s₀.Upholds (s.mgtRdReg addr len) := by
  unfold State.mgtRdReg
  exact .mgtCmd h (fun _ h => .ite (.emit (.readWords h)) (.emit h)) fun _ h => .emit (.readWords h)

theorem State.Upholds.mgtWrReg {addr : Nat} {data : Bytes} (h : s₀.Upholds s) : s₀.Upholds (s.mgtWrReg addr data) :=
  .mgtCmd h (fun _ h => h) fun _ h => .foldl h fun _ _ => .writeReg

theorem State.Upholds.releaseDone {u : RstUnit} {boot : BootReport} (h : s₀.Upholds s) : s₀.Upholds (s.releaseDone u boot) :=
  .ite (.refillAllPinned (.unitReleaseDone h)) (.unitReleaseDone h)

theorem State.Upholds.idleExitDone (h : s₀.Upholds s) : s₀.Upholds s.idleExitDone :=
  .ite (.refillAllPinned (.takeLatches (.readyIdleExitDone h))) h

theorem State.Upholds.serveAccess {a : HostAccess} (h : s₀.Upholds s) : s₀.Upholds (s.serveAccess a) := by
  unfold State.serveAccess
  split
  · exact .hostWords h
  · exact .bar4 h
  · exact .deviceUjRead h
  · exact .kick h
  · exact .emit h
  · exact .setDeviceControl h

theorem State.Upholds.wakeComplete (h : s₀.Upholds s) : s₀.Upholds s.wakeComplete :=
  .ite (.foldl (.onLink (.refillAllPinned (.takeLatches (.wakeUp (.onDev h))))) fun _ _ => .serveAccess) h

end Sys2Proof.Machine
end


section
/-! PROOF. What every command and every step upholds (R88, R263, R459, R572). -/

namespace Sys2Proof.Machine

set_option Elab.async false

/-- The outcome is a next state, in which what was apart is apart, and what was burnt is burnt. -/
def SecuresNext (s : State) (r : Host.Outcome State Fault Refusal) : Prop := ∃ t, r = .next t ∧ s.Secures t

theorem SecuresNext.next {s t : State} (h : s.Upholds t) : SecuresNext s (.next t) := ⟨t, rfl, h.secures⟩

theorem exec_secures (s : State) : ∀ c : Instr, SecuresNext s (exec c s)
  | .kick .. => .next (.whenOn .refl fun _ => .kick)
  | .doorbellReadDone .. => .next (.whenOn .refl fun _ => .doorbellReadDone)
  | .descriptorFetch .. => .next (.whenOn .refl fun _ => .descriptorFetch)
  | .nop .. => .next (.whenOn .refl fun _ => .nop)
  | .run .. => .next (.whenOn .refl fun _ => .runDesc)
  | .cancel .. => .next (.whenOn .refl fun _ h => .bistStart (.cancel h))
  | .folioLoad .. => .next (.whenOn .refl fun _ => .folioLoad)
  | .folioFetchDone .. => .next (.whenOn .refl fun _ => .folioFetchDone)
  | .folioCommit .. => .next (.whenOn .refl fun _ => .folioCommit)
  | .folioUnload .. => .next (.whenOn .refl fun _ => .folioUnload)
  | .folioUnloadRelease .. => .next (.whenOn .refl fun _ => .folioUnloadRelease)
  | .bayBist .. => .next (.whenOn .refl fun _ => .bayBist)
  | .bistDrainDone => .next (.whenOn .refl fun _ => .bistDrainDone)
  | .bistDrainTimeout => .next (.whenOn .refl fun _ => .bistDrainTimeout)
  | .bistTestsDone .. => .next (.whenOn .refl fun _ => .bistTestsDone)
  | .commit .. => .next (.whenOn .refl fun _ => .commit)
  | .calibrateDark .. => .next (.whenOn .refl fun _ => .calibrate)
  | .calibrateWhite .. => .next (.whenOn .refl fun _ => .calibrate)
  | .stop .. => .next (.whenOn .refl fun _ => .captureStop)
  | .configApply .. => .next (.whenOn .refl fun _ => .configApply)
  | .calibrationStart .. => .next (.whenOn .refl fun _ => .calibrationStart)
  | .calLineTrigger .. => .next (.whenOn .refl fun _ => .calLineTrigger)
  | .calibrationDone .. => .next (.whenOn .refl fun _ => .calibrationDone)
  | .report .. => .next (.whenOn .refl fun _ => .report)
  | .extend .. => .next (.whenOn .refl fun _ => .extendJob)
  | .attestDone => .next (.whenOn .refl fun _ => .attestDone)
  | .stateReqStandby => .next (.whenReg .refl fun _ => .stateReq)
  | .stateReqService => .next (.whenReg .refl fun _ => .stateReq)
  | .stateReqTest => .next (.whenReg .refl fun _ => .stateReq)
  | .stateReqRecovery => .next (.whenReg .refl fun _ => .stateReq)
  | .stateTransitionDone => .next (.whenOn .refl fun _ => .stateTransitionDone)
  | .standbyEntryDone => .next (.whenOn .refl fun _ => .standbyEntryDone)
  | .startOk => .next (.whenOn .refl fun _ => .startOk)
  | .startWindowExpiry => .next (.whenOn .refl fun _ => .startWindowExpiry)
  | .watchdogRestart => .next (.whenOn .refl fun _ => .watchdogRestart)
  | .watchdogExpiry => .next (.whenOn .refl fun _ => .watchdogExpiry)
  | .powerOn => .next (.powerOn .refl)
  | .powerOnRelease .. => .next (.powerOnRelease .refl)
  | .vddAoLost => .next (.vddAoLost .refl)
  | .brownOut => .next (.whenPowered .refl fun _ => .assertSource)
  | .brownOutRelease => .next (.whenPowered .refl fun _ => .releaseSource)
  | .resetNAssert => .next (.whenPowered .refl fun _ => .assertSource)
  | .resetNRelease => .next (.whenPowered .refl fun _ => .releaseSource)
  | .rstReqBay .. => .next (.whenReg .refl fun _ => .requestReset)
  | .rstReqWing .. => .next (.whenReg .refl fun _ => .requestReset)
  | .rstReqFabric => .next (.whenReg .refl fun _ => .requestReset)
  | .rstReqWarm => .next (.whenReg .refl fun _ => .requestReset)
  | .debugResetRequest .. => .next (.whenOn .refl fun _ h => .ite (.assertSource h) h)
  | .debugResetWithdraw => .next (.whenOn .refl fun _ => .releaseSource)
  | .clockFailure .. => .next (.whenOn .refl fun _ => .clockFailure)
  | .lockUp .. => .next (.whenOn .refl fun _ => .lockUp)
  | .unitIdleAck .. => .next (.whenOn .refl fun _ => .unitIdleAck)
  | .handshakeTimeout .. => .next (.whenOn .refl fun _ => .handshakeTimeout)
  | .forcedResetApplied .. => .next (.whenOn .refl fun _ => .forcedResetApplied)
  | .unitReleaseDone .. => .next (.whenOn .refl fun _ => .releaseDone)
  | .flr => .next (.whenOn .refl fun _ => .flr)
  | .hotReset => .next (.whenOn .refl fun _ => .hotReset)
  | .perstNAssert => .next (.whenOn .refl fun _ => .perstAssert)
  | .perstNRelease => .next (.whenOn .refl fun _ => .perstRelease)
  | .linkLoss => .next (.whenOn .refl fun _ => .linkLoss)
  | .hostAccessWake => .next (.whenOn .refl fun _ => .wake)
  | .bar4Access .. => .next (.whenOn .refl fun _ => .bar4Access)
  | .bar0AtomicOp .. => .next (.whenOn .refl fun _ => .atomicOp)
  | .registerWrite .. => .next (.whenOn .refl fun _ => .registerWrite)
  | .ldgDeviceUjLoRead => .next (.whenOn .refl fun _ => .ujRead)
  | .sysLock => .next (.whenReg .refl fun _ => .flag)
  | .hlkVerAgreeWrite .. => .next (.whenHost .refl fun _ => .verAgree)
  | .mgtEmbWrite .. => .next (.whenReg .refl fun _ => .mgtEmbWrite)
  | .hostBootGo .. => .next (.whenOn .refl fun _ => .hostBootGo)
  | .hostBootVerifyDone => .next (.whenOn .refl fun _ => .hostBootVerifyDone)
  | .ringEnable .. => .next (.whenHost .refl fun _ => .ringEnable)
  | .sqRingDisable .. => .next (.whenHost .refl fun _ => .sqDisable)
  | .cqRingDisable .. => .next (.whenHost .refl fun _ => .cqDisable)
  | .keepDrop => .next (.whenHost .refl fun _ => .keepDrop)
  | .abort .. => .next (.whenHost .refl fun _ h => .ite h (.abortPage h))
  | .colTDrop .. => .next (.whenHost .refl fun _ h => .ite h (.dropPages h))
  | .carInjectArm .. => .next (.whenHost .refl fun _ => .injectWrite)
  | .shelfSplitWrite .. => .next (.whenHost .refl fun _ h => .ite h (.shelfSplit h))
  | .folioPin .. => .next (.whenHost .refl fun _ => .pinWrite)
  | .folioUnpin .. => .next (.whenHost .refl fun _ => .pinWrite)
  | .flush => .next (.whenHost .refl fun _ => .concFlush)
  | .ledgerEnable .. => .next (.whenHost .refl fun _ => .ledgerEnable)
  | .ledgerDisable .. => .next (.whenHost .refl fun _ => .ledgerDisable)
  | .ldgSlowPop => .next (.whenHost .refl fun _ => .slowPop)
  | .clkArithStep .. => .next (.whenReg .refl fun _ => .clkArithStep)
  | .wakeTimerWrite .. => .next (.whenReg .refl fun _ => .writeWord)
  | .wakeTimerExpiry => .next (.whenOn .refl fun _ => .wakeTimerExpiry)
  | .fenceWrite .. => .next (.whenHost .refl fun _ => .fenceWrite)
  | .lastingClear .. => .next (.whenHost .refl fun _ => .lastingClear)
  | .otpProgCustHash0 => .next (.whenHost .refl fun _ => .otpProg)
  | .otpProgCustHash1 => .next (.whenHost .refl fun _ => .otpProg)
  | .otpProgRevoke0 => .next (.whenHost .refl fun _ => .otpProg)
  | .otpProgRevoke1 => .next (.whenHost .refl fun _ => .otpProg)
  | .otpProgDebugDisable => .next (.whenHost .refl fun _ => .otpProg)
  | .otpProgDone => .next (.whenOn .refl fun _ => .otpProgDone)
  | .secRbAdvance .. => .next (.whenHost .refl fun _ => .rbAdvance)
  | .rollbackBurnDone => .next (.whenOn .refl fun _ => .rollbackBurnDone)
  | .firmwareUpdate .. => .next (.whenHost .refl fun _ => .firmwareUpdate)
  | .firmwareUpdateDone .. => .next (.whenOn .refl fun _ => .firmwareUpdateDone)
  | .mgtRdStatus .. => .next (.whenOn .refl fun _ => .mgtRdStatus)
  | .mgtRdReg .. => .next (.whenOn .refl fun _ => .mgtRdReg)
  | .mgtWrReg .. => .next (.whenOn .refl fun _ => .mgtWrReg)
  | .mgtDwinFetch .. => .next (.whenOn .refl fun _ => .dwinFetch)
  | .dwinFetchDone => .next (.whenOn .refl fun _ => .dwinFetchDone)
  | .mgtDwinRead .. => .next (.whenOn .refl fun _ => .dwinRead)
  | .mgtDwinWrite .. => .next (.whenOn .refl fun _ => .dwinWrite)
  | .dwinWriteDone => .next (.whenOn .refl fun _ => .dwinWriteDone)
  | .mgtMboxWrite .. => .next (.whenOn .refl fun _ => .mboxWrite)
  | .mboxTake => .next (.whenOn .refl fun _ => .mboxTake)
  | .mgtMboxRead .. => .next (.whenOn .refl fun _ => .mboxRead)
  | .mgtKick .. => .next (.whenOn .refl fun _ => .mgtKick)
  | .mgtWake .. => .next (.whenOn .refl fun _ h => .mgtPlain h fun _ h => .wake h)
  | .mgtReset .. => .next (.whenOn .refl fun _ => .mgtReset)
  | .mgtClearStarts .. => .next (.whenOn .refl fun _ h => .mgtPlain h fun _ h => .onRst h)
  | .mgtMode8d .. => .next (.whenOn .refl fun _ h => .mgtPlain h fun _ h => .onMgt h)
  | .mgtMode1s .. => .next (.whenOn .refl fun _ h => .mgtPlain h fun _ h => .onMgt h)
  | .mgtRcvData .. => .next (.whenOn .refl fun _ => .mgtRcvData)
  | .rcvProgramDone => .next (.whenOn .refl fun _ => .rcvProgramDone)
  | .mgtRcvCommit .. => .next (.whenOn .refl fun _ => .mgtRcvCommit)
  | .rcvCommitDone => .next (.whenOn .refl fun _ => .rcvCommitDone)
  | .mgtBadFrame .. => .next (.whenOn .refl fun _ => .mgtBadFrame)
  | .recordDispatch .. => .next (.whenOn .refl fun _ => .recordDispatch)
  | .recordDecoded .. => .next (.whenOn .refl fun _ => .recordDecoded)
  | .decodeBudgetExpiry .. => .next (.whenOn .refl fun _ => .budgetExpiry)
  | .seqSlotGrant .. => .next (.whenOn .refl fun _ => .seqSlotGrant)
  | .batchPack .. => .next (.whenOn .refl fun _ => .batchPack)
  | .lcAdmission .. => .next (.whenOn .refl fun _ => .lcAdmission)
  | .contextPlace p => ⟨_, rfl, by
      unfold State.whenOn
      split
      · exact State.Upholds.refl.secures
      · exact .contextPlace s⟩
  | .contextSwitchDone .. => .next (.whenOn .refl fun _ => .contextSwitchDone)
  | .spillMove .. => .next (.whenOn .refl fun _ => .spillMove)
  | .cmdLineFetch .. => .next (.whenOn .refl fun _ => .cmdLineFetch)
  | .enginePreempt .. => .next (.whenOn .refl fun _ => .enginePreempt)
  | .load .. => .next (.whenOn .refl fun _ h => .issue h fun _ _ _ h => .load h)
  | .store .. => .next (.whenOn .refl fun _ h => .issue h fun _ _ _ h => .store h)
  | .stream .. => .next (.whenOn .refl fun _ h => .issue h fun _ _ _ h => .stream h)
  | .expand .. => .next (.whenOn .refl fun _ h => .issue h fun _ _ _ h => .expand h)
  | .tmac .. => .next (.whenOn .refl fun _ h => .issue h fun _ _ _ h => .tmac h)
  | .vec .. => .next (.whenOn .refl fun _ h => .issue h fun _ _ _ h => .vec h)
  | .req .. => .next (.whenOn .refl fun _ h => .issue h fun _ _ _ h => .req h)
  | .attn .. => .next (.whenOn .refl fun _ h => .issue h fun _ _ _ h => .attn h)
  | .kvapp .. => .next (.whenOn .refl fun _ h => .issue h fun _ _ _ h => .kvapp h)
  | .argmax .. => .next (.whenOn .refl fun _ h => .issue h fun _ _ _ h => .argmax h)
  | .pack .. => .next (.whenOn .refl fun _ h => .issue h fun _ _ _ h => .pack h)
  | .cathand .. => .next (.whenOn .refl fun _ h => .issue h fun _ _ _ h => .cathand h)
  | .fence .. => .next (.whenOn .refl fun _ h => .issue h fun _ _ _ h => .ok h)
  | .signal .. => .next (.whenOn .refl fun _ h => .issue h fun _ _ _ h => .signal h)
  | .waitsig .. => .next (.whenOn .refl fun _ h => .issue h fun _ _ _ h => .ok h)
  | .cmdNop .. => .next (.whenOn .refl fun _ h => .issue h fun _ _ _ h => .ok h)
  | .commandComplete .. => .next (.whenOn .refl fun _ => .commandComplete)
  | .kvDescriptorEmit .. => .next (.whenOn .refl fun _ => .kvEmit)
  | .combinePart .. => .next (.whenOn .refl fun _ => .combinePart)
  | .spareTake .. => .next (.whenOn .refl fun _ => .spareTake)
  | .kvappResume .. => .next (.whenOn .refl fun _ => .kvappResume)
  | .editApply .. => .next (.whenOn .refl fun _ => .editApply)
  | .prefixMatch .. => .next (.whenOn .refl fun _ => .prefixMatch)
  | .freeListRestock .. => .next (.whenOn .refl fun _ => .restock)
  | .swapOut => .next (.whenOn .refl fun _ h => .swapOut h fun _ _ _ h => .closeJob h)
  | .swapIn .. => .next (.whenOn .refl fun _ => .swapIn)
  | .cardSummaryBuild .. => .next (.whenOn .refl fun _ => .cardBuild)
  | .refillDone .. => .next (.whenOn .refl fun _ => .refillDone)
  | .tokenChoice .. => .next (.whenOn .refl fun _ => .tokenChoice)
  | .catalogAdvance .. => .next (.whenOn .refl fun _ => .catAdvance)
  | .lineFrame .. => .next (.whenOn .refl fun _ => .lineFrame)
  | .frameStart .. => .next (.whenOn .refl fun _ => .frameStart)
  | .frameEnd .. => .next (.whenOn .refl fun _ => .frameEnd)
  | .csiLine .. => .next (.whenOn .refl fun _ => .csiLine)
  | .encEdge .. => .next (.whenOn .refl fun _ => .encEdge)
  | .lineTriggerDeferred .. => .next (.whenOn .refl fun _ => .lineTriggerDeferred)
  | .strobeOn .. => .next (.whenOn .refl fun _ => .strobeOn)
  | .strobeOff .. => .next (.whenOn .refl fun _ => .strobeOff)
  | .stallLimit .. => .next (.whenOn .refl fun _ => .stallLimit)
  | .leadAssert .. => .next (.whenOn .refl fun _ => .leadAssert)
  | .leadDeassert .. => .next (.whenOn .refl fun _ => .leadDeassert)
  | .dfeedAssert .. => .next (.whenOn .refl fun _ => .dfeedAssert)
  | .ilkOpen .. => .next (.whenOn .refl fun _ => .ilkOpen)
  | .ilkClose .. => .next (.whenOn .refl fun _ => .ilkClose)
  | .readyIdleEntry .. => .next (.whenOn .refl fun _ => .readyIdleEntry)
  | .readyIdleExitDone => .next (.whenOn .refl fun _ => .idleExitDone)
  | .wakeComplete => .next (.whenOn .refl fun _ => .wakeComplete)
  | .collationReady => .next (.whenOn .refl fun _ h => .ite (.takeLatches (.onDev h)) h)
  | .tempUpdate .. => .next (.whenOn .refl fun _ => .tempUpdate)
  | .aoClockFallback => .next (.whenOn .refl fun _ => .aoClockFallback)
  | .ledgerIntervalClose => .next (.whenOn .refl fun _ h => .endsIdle h fun _ => .ledgerIntervalClose)
  | .errorRecordIssue .. => .next (.whenOn .refl fun _ h => .endsIdle h fun _ => .errorRecordIssue)
  | .jobTeardown .. => .next (.whenOn .refl fun _ h => .bistStart (.jobTeardown h))
  | .challenge => .next (.whenOn .refl fun _ => .challenge)
  | .response .. => .next (.whenOn .refl fun _ => .debugResponse)
  | .debugVerifyDone => .next (.whenOn .refl fun _ => .debugVerifyDone)
  | .deviceControlWrite .. => .next (.whenOn .refl fun _ => .deviceControl)
  | .linkUp .. => .next (.whenOn .refl fun _ => .linkUp)

theorem secures_of_step {s t : State} (h : step s = .next t) : s.Secures t := by
  unfold step at h
  split at h
  · cases h
    exact (State.Upholds.tick .refl).secures
  · obtain ⟨u, hu, hs⟩ := exec_secures _ _
    cases hu.symm.trans h
    exact (State.Upholds.plain .refl).secures.trans hs

/-- Settles O59: `secures_of_step`, its parts on jobs and on the fabric. -/
theorem stepsKeepThingsApart : Obligations.StepsKeepThingsApart := fun _ _ h => (secures_of_step h).apart

end Sys2Proof.Machine
end

section
/-! PROOF. Ring controls: what a write of a ring's control register with EN 1 or 0 leaves (R111 to R114). -/

namespace Sys2Proof.Machine

set_option Elab.async false

variable (s : State)

/-! ### The control registers of the rings -/

/-- The row of the register table that lists a ring's control register. -/
def ringRow : RingId → RegRow
  | .sq _ => ⟨0x2300, 64, 0x1FFFFF, 0x200000, 0, 0, 0⟩
  | .cq _ => ⟨0x2600, 64, 0x1FFF, 0x4000, 0, 0, 0⟩
  | .err => ⟨0x20D0, 1, 0xFFF, 0x2000, 0, 0, 0⟩
  | .ldg => ⟨0x20DC, 1, 0xFFF, 0x2000, 0, 0, 0⟩

theorem regRow?_ringCtrl {r : RingId} (hr : ringValid r = true) : regRow? (ringCtrl r) = some (ringRow r) := by
  cases r with
  | sq n =>
    have hall : ∀ m < 64, regRow? (rRingSqCtrl m) = some (ringRow (.sq 0)) := by decide +kernel
    exact hall n (by simpa [ringValid] using hr)
  | cq n =>
    have hall : ∀ m < 64, regRow? (rRingCqCtrl m) = some (ringRow (.cq 0)) := by decide +kernel
    exact hall n (by simpa [ringValid] using hr)
  | err => decide +kernel
  | ldg => decide +kernel

theorem ringRow_rwl (r : RingId) : (ringRow r).rwl = 0 := by cases r <;> rfl
theorem ringRow_en (r : RingId) :
    (ringRow r).rw.testBit 0 = true ∧ (ringRow r).w1c.testBit 0 = false ∧ (ringRow r).w1s.testBit 0 = false := by
  cases r <;> simp only [ringRow] <;> decide

/-- A bit that is RW, and of no other code, reads as written. -/
theorem wbit_writtenWord_rw {r : RegRow} (locked : Bool) (old v : Word) {i : Nat} (hi : i < 32) (hw : r.rw.testBit i = true)
    (hc : r.w1c.testBit i = false) (hs : r.w1s.testBit i = false) : wbit (writtenWord r locked old v) i = wbit v i := by
  have hmask : (0xFFFFFFFF : Nat).testBit i = true := by
    rw [show (0xFFFFFFFF : Nat) = 2 ^ 32 - 1 from rfl, Nat.testBit_two_pow_sub_one, decide_eq_true hi]
  cases locked <;>
    simp only [writtenWord, wbit, BitVec.toNat_ofNat, Nat.testBit_mod_two_pow, Nat.testBit_or, Nat.testBit_and, Nat.testBit_xor, hi, hc,
      hs, hmask] <;> simp [hw]

/-- Two bits of a ring's control register that its operations set: EN and REFUSED are apart. -/
theorem refusedBit_bounds (r : RingId) : 0 < refusedBit r ∧ refusedBit r < 32 := by
  cases r <;> simp [refusedBit]

/-- A whole-word write gives EN the value written. -/
theorem State.ringEn_writeWord {r : RingId} (v : Word) (hr : ringValid r = true) (hw : cellsFrom regReset 0 s.regs = true) :
    (s.writeWord (ringCtrl r) v).ringEn r = wbit v 0 := by
  obtain ⟨hrw, hc, hs⟩ := ringRow_en r
  rw [State.ringEn, State.regB, s.writeWord_of_open v (regRow?_ringCtrl hr) (.inr (ringRow_rwl r)), State.reg_setReg_same _ _ _ hw,
    wbit_writtenWord_rw _ _ _ (by omega) hrw hc hs]

theorem State.ringEn_of_regs {s t : State} (h : t.regs = s.regs) (r : RingId) : t.ringEn r = s.ringEn r :=
  State.regB_of_regs h _ _

@[simp] theorem State.exitIdle_ringEn (r : RingId) : s.exitIdle.ringEn r = s.ringEn r := State.ringEn_of_regs s.exitIdle_regs r
@[simp] theorem State.exitIdle_fabricHidden (off : Nat) : s.exitIdle.fabricHidden off = s.fabricHidden off := by
  simp only [State.fabricHidden, State.exitIdle_rst]
@[simp] theorem State.exitIdle_rings : s.exitIdle.rings = s.rings := by rw [s.exitIdle_eq]; rfl
@[simp] theorem State.exitIdle_sch : s.exitIdle.sch = s.sch := by rw [s.exitIdle_eq]; rfl
@[simp] theorem State.exitIdle_err : s.exitIdle.err = s.err := by rw [s.exitIdle_eq]; rfl
@[simp] theorem State.exitIdle_ldg : s.exitIdle.ldg = s.ldg := by rw [s.exitIdle_eq]; rfl

/-! ### RING_ENABLE (R112, R113) -/

/-- The grounds of R113 on which a write that sets EN is refused. -/
def State.enableBad (s : State) (r : RingId) (v : Word) : Prop :=
  wbits v 1 4 < 4 ∨ 12 < wbits v 1 4 ∨
    ∃ n, r = .sq n ∧ (wbits v 6 9 = 0 ∨ 256 < wbits v 6 9 ∨ s.ringEn (.cq (wbits v 15 6)) = false ∨ ∃ j ∈ s.jobs, j.sq = n)

theorem State.enableRefused_iff (r : RingId) (v : Word) : s.enableRefused r v = true ↔ s.enableBad r v := by
  cases r <;> simp [State.enableRefused, State.enableBad, or_assoc]

theorem State.exitIdle_enableBad (r : RingId) (v : Word) : s.exitIdle.enableBad r v ↔ s.enableBad r v := by
  simp only [State.enableBad, State.exitIdle_ringEn, State.exitIdle_jobs]

/-- The count of a ring that is enabled starts at 0, and what was held for it is written (R112). -/
def State.restartRing (s : State) : RingId → State
  | .sq n => s.onSq n fun _ => SqRing.empty
  | .cq n => s.onCq n fun _ => CqRing.empty
  | .err => (s.onProd .err fun _ => ProdRing.empty).flushRing .err
  | .ldg => (s.onProd .ldg fun _ => ProdRing.empty).flushRing .ldg

section
variable {r : RingId} {v : Word} (hr : ringValid r = true) (hv : wbit v 0 = true) (hhid : s.fabricHidden (ringCtrl r) = false)
  (hen : s.ringEn r = false)
include hr hv hhid hen

theorem State.ringEnable_of_bad (h : s.enableBad r v) : s.ringEnable r v = s.flag (ringCtrl r) (refusedBit r) := by
  simp [State.ringEnable, hr, hv, hhid, hen, (s.enableRefused_iff r v).2 h]

theorem State.ringEnable_of_good (h : ¬s.enableBad r v) : s.ringEnable r v = (s.writeWord (ringCtrl r) v).restartRing r := by
  have hgood : s.enableRefused r v = false := by simpa using mt (s.enableRefused_iff r v).1 h
  cases r <;> simp [State.ringEnable, State.restartRing, hr, hv, hhid, hen, hgood]

end

/-- With nothing held for the error ring, its flush only notes that it is not full. -/
theorem State.flushRing_err_of_none (hh : s.err.held = []) (hs : s.err.stuck = []) :
    s.flushRing .err = s.onProd .err fun p => { p with full := false } := by
  simp [State.flushRing, State.flushErr, State.unstick, hh, hs]

theorem State.flushRing_ldg_of_none (hh : s.ldg.held = []) : s.flushRing .ldg = s.onProd .ldg fun p => { p with full := false } := by
  simp [State.flushRing, State.flushLdg, hh]

theorem State.flushRing_cq_of_none {n : Nat} (hh : (s.cq n).held = []) :
    s.flushRing (.cq n) = s.onProd (.cq n) fun p => { p with full := false } := by
  simp [State.flushRing, State.flushCq, hh]

theorem State.cq_onCq_same {n : Nat} (f : CqRing → CqRing) (hn : n < s.rings.cqs.length) : (s.onCq n f).cq n = f (s.cq n) := by
  simp [State.cq, State.onCq, hn]

/-- Settles O16: by R113's grounds; a write that meets none of them sets EN and restarts the ring. -/
theorem ringEnableOrRefuse : Obligations.RingEnableOrRefuse := by
  intro s r v hr hv hinv hon hawake hhid hen
  have hregs : cellsFrom regReset 0 s.exitIdle.regs = true := by simpa using hinv.mem.regs
  obtain ⟨hpos, hlt⟩ := refusedBit_bounds r
  have hhid' : s.exitIdle.fabricHidden (ringCtrl r) = false := by simpa using hhid
  have hen' : s.exitIdle.ringEn r = false := by simpa using hen
  refine ⟨fun hbad => ?_, fun hgood => ?_⟩
  · have hact := s.exitIdle.ringEnable_of_bad hr hv hhid' hen' ((s.exitIdle_enableBad r v).2 hbad)
    refine ⟨_, s.next_of_awake hon hawake hact, State.regB_flag_same _ _ _ hregs hlt, ?_, s.exitIdle_rings⟩
    exact (State.regB_flag_other _ _ _ _ hregs (by omega) (by omega)).trans hen'
  · have hact := s.exitIdle.ringEnable_of_good hr hv hhid' hen' (mt (s.exitIdle_enableBad r v).1 hgood)
    have hset : (s.exitIdle.writeWord (ringCtrl r) v).ringEn r = true := (State.ringEn_writeWord _ v hr hregs).trans hv
    have hnum := (hinv.numbers)
    refine ⟨_, s.next_of_awake hon hawake hact, ?_, ?_, ?_, ?_⟩
    · rintro n rfl
      exact ⟨hset, State.sq_onSq_same _ _ (by simpa [hnum.sqs, ringValid] using hr)⟩
    · rintro n rfl
      exact ⟨hset, State.cq_onCq_same _ _ (by simpa [hnum.cqs, ringValid] using hr)⟩
    · rintro rfl hheld hstuck
      rw [State.restartRing, State.flushRing_err_of_none _ (by simpa [State.onProd] using hheld) (by simpa [State.onProd] using hstuck)]
      exact ⟨hset, rfl⟩
    · rintro rfl hheld
      rw [State.restartRing, State.flushRing_ldg_of_none _ (by simpa [State.onProd] using hheld)]
      exact ⟨hset, rfl⟩

/-! ### SQ_RING_DISABLE and CQ_RING_DISABLE (R111, R114) -/

/-- A write with EN 0 to an enabled ring moves its control register alone, and EN reads 0. -/
theorem State.clearEn_eq (r : RingId) (v : Word) : s.clearEn r v = { s with regs := (s.clearEn r v).regs } := by
  unfold State.clearEn
  dsimp only
  split <;> rfl

theorem State.ringEn_clearEn (r : RingId) (v : Word) (hw : cellsFrom regReset 0 s.regs = true) : (s.clearEn r v).ringEn r = false := by
  unfold State.clearEn
  dsimp only
  split
  · simp [State.ringEn, State.regB_setRegF _ _ _ _ _ _ (s.setRegF_regsWf _ _ _ _ hw)]
  · simp [State.ringEn, State.regB_setRegF _ _ _ _ _ _ hw]

/-- A completion ring that is in use: a job in a slot or an enabled submission ring names it, or records are held for it. -/
def State.cqUsed (s : State) (n : Nat) : Prop :=
  (∃ j ∈ s.jobs, dCq j.desc = n) ∨ (∃ k, k < 64 ∧ s.ringEn (.sq k) = true ∧ s.regF (rRingSqCtrl k) 15 6 = n) ∨ (s.cq n).held ≠ []

theorem State.exitIdle_cqUsed (n : Nat) : s.exitIdle.cqUsed n ↔ s.cqUsed n := by
  simp only [State.cqUsed, State.exitIdle_jobs, State.exitIdle_ringEn, State.regF, State.exitIdle_reg, State.cq, State.exitIdle_rings]

section
variable {n : Nat} {v : Word} (hn : n < 64) (hv : wbit v 0 = false)
include hn hv

theorem State.sqDisable_of_enabled (hhid : s.fabricHidden (rRingSqCtrl n) = false) (hen : s.ringEn (.sq n) = true) :
    s.sqDisable n v = (s.clearEn (.sq n) v).onSq n fun q => { q with kickHeld := false } := by
  simp [State.sqDisable, hn, hv, hhid, hen]

theorem State.sqDisable_of_disabled (hhid : s.fabricHidden (rRingSqCtrl n) = false) (hen : s.ringEn (.sq n) = false) :
    s.sqDisable n v = s.writeWord (rRingSqCtrl n) v := by
  simp [State.sqDisable, hn, hv, hhid, hen]

theorem State.cqDisable_of_enabled (hhid : s.fabricHidden (rRingCqCtrl n) = false) (hen : s.ringEn (.cq n) = true) :
    (s.cqUsed n → s.cqDisable n v = s.flag (rRingCqCtrl n) 14) ∧ (¬s.cqUsed n → s.cqDisable n v = s.clearEn (.cq n) v) := by
  have hused : (s.jobs.any (fun j => dCq j.desc = n) ||
      (List.range 64).any (fun k => s.ringEn (.sq k) && s.regF (rRingSqCtrl k) 15 6 = n) || (s.cq n).held ≠ []) = true ↔ s.cqUsed n := by
    simp [State.cqUsed, or_assoc]
  have hact : s.cqDisable n v = if (s.jobs.any (fun j => dCq j.desc = n) ||
      (List.range 64).any (fun k => s.ringEn (.sq k) && s.regF (rRingSqCtrl k) 15 6 = n) || (s.cq n).held ≠ []) = true
      then s.flag (rRingCqCtrl n) 14 else s.clearEn (.cq n) v := by
    simp [State.cqDisable, hn, hv, hhid, hen]
  exact ⟨fun h => by rw [hact, if_pos (hused.2 h)], fun h => by rw [hact, if_neg (mt hused.1 h)]⟩

theorem State.cqDisable_of_disabled (hhid : s.fabricHidden (rRingCqCtrl n) = false) (hen : s.ringEn (.cq n) = false) :
    s.cqDisable n v = s.writeWord (rRingCqCtrl n) v := by
  simp [State.cqDisable, hn, hv, hhid, hen]

end

/-- Settles O17: by the equation of each control on an enabled ring and on a disabled one. -/
theorem ringDisable : Obligations.RingDisable := by
  intro s n v hn hv hinv hon hawake hup
  have hregs : cellsFrom regReset 0 s.exitIdle.regs = true := by simpa using hinv.mem.regs
  have hhid (off : Nat) : s.exitIdle.fabricHidden off = false := by simpa using s.fabricHidden_of_up hup off
  have hen (r : RingId) {b : Bool} (h : s.ringEn r = b) : s.exitIdle.ringEn r = b := by simpa using h
  refine ⟨fun h => ?_, fun h => ?_, fun h => ?_, fun h => ?_⟩
  · refine ⟨_, s.next_of_awake hon hawake (s.exitIdle.sqDisable_of_enabled hn hv (hhid _) (hen _ h)),
      State.ringEn_clearEn _ _ _ hregs, ?_⟩
    have hn' : n < (s.exitIdle.clearEn (.sq n) v).rings.sqs.length := by rw [State.clearEn_eq]; simpa [hinv.numbers.sqs] using hn
    rw [State.sq_onSq_same _ _ hn', State.clearEn_eq]
    refine ⟨s.exitIdle_jobs, s.exitIdle_sch, ?_, s.exitIdle_out, s.exitIdle_dram⟩
    exact congrArg (fun r : Rings => (r.sqs.getD n SqRing.empty).fetched) s.exitIdle_rings
  · obtain ⟨hused, hfree⟩ := s.exitIdle.cqDisable_of_enabled hn hv (hhid _) (hen _ h)
    by_cases hu : s.cqUsed n
    · refine ⟨_, s.next_of_awake hon hawake (hused ((s.exitIdle_cqUsed n).2 hu)), s.exitIdle_rings, s.exitIdle_jobs,
        fun _ => ⟨State.regB_flag_same _ _ _ hregs (by omega), ?_⟩, absurd hu⟩
      exact (State.regB_flag_other _ _ _ _ hregs (by omega) (by omega)).trans (hen _ h)
    · refine ⟨_, s.next_of_awake hon hawake (hfree (mt (s.exitIdle_cqUsed n).1 hu)), ?_, ?_, fun h => absurd h hu,
        fun _ => State.ringEn_clearEn _ _ _ hregs⟩
      · rw [State.clearEn_eq]; exact s.exitIdle_rings
      · rw [State.clearEn_eq]; exact s.exitIdle_jobs
  · exact s.next_of_awake hon hawake (s.exitIdle.sqDisable_of_disabled hn hv (hhid _) (hen _ h))
  · exact s.next_of_awake hon hawake (s.exitIdle.cqDisable_of_disabled hn hv (hhid _) (hen _ h))

end Sys2Proof.Machine
end

section
/-! PROOF. Records: the one write that carries each, and what its write is followed by (R38, R68, R75, R98 to R100). -/

namespace Sys2Proof.Machine

set_option Elab.async false

variable (s : State)

/-! ### Rings by projection -/

/-- What a change of submission rings leaves in each ring reads as before. -/
theorem State.sq_onSq_proj {α : Type} (g : SqRing → α) (m n : Nat) (f : SqRing → SqRing) (hf : ∀ q, g (f q) = g q) :
    g ((s.onSq m f).sq n) = g (s.sq n) := by
  simp only [State.sq, State.onSq, State.onRings, List.getD_eq_getElem?_getD, List.getElem?_modify]
  cases s.rings.sqs[n]? with
  | none => rfl
  | some q => by_cases h : m = n <;> simp [h, hf]

theorem State.cq_onCq_proj {α : Type} (g : CqRing → α) (m n : Nat) (f : CqRing → CqRing) (hf : ∀ q, g (f q) = g q) :
    g ((s.onCq m f).cq n) = g (s.cq n) := by
  simp only [State.cq, State.onCq, State.onRings, List.getD_eq_getElem?_getD, List.getElem?_modify]
  cases s.rings.cqs[n]? with
  | none => rfl
  | some q => by_cases h : m = n <;> simp [h, hf]

theorem State.onProd_cq_held (r : RingId) (n : Nat) (f : ProdRing → ProdRing) : ((s.onProd r f).cq n).held = (s.cq n).held := by
  cases r with
  | cq m => exact s.cq_onCq_proj CqRing.held m n _ fun _ => rfl
  | sq _ | err | ldg => rfl

theorem State.onProd_cancels (r : RingId) (f : ProdRing → ProdRing) : (s.onProd r f).rings.cancels = s.rings.cancels := by
  cases r <;> rfl

theorem State.onProd_sq (r : RingId) (n : Nat) (f : ProdRing → ProdRing) : (s.onProd r f).sq n = s.sq n := by
  cases r <;> rfl

/-- A change of a produced ring is one of the rings alone. -/
theorem State.onProd_eq (r : RingId) (f : ProdRing → ProdRing) : s.onProd r f = { s with rings := (s.onProd r f).rings } := by
  cases r <;> rfl

/-! ### What follows a record -/

/-- From `s` to `t` more may be sent, jobs may be gone and registers may move; nothing sent is taken back, what is fetched stays fetched,
nothing is written to DRAM, and no record is held or released. -/
structure State.Trails (s t : State) : Prop where
  out : s.out <+: t.out
  fetched : ∀ n, (t.sq n).fetched = (s.sq n).fetched
  dram : t.dram = s.dram
  held : ∀ n, (t.cq n).held = (s.cq n).held
  cancels : t.rings.cancels = s.rings.cancels

variable {s} {t u : State}

theorem State.Trails.refl : s.Trails s := ⟨List.prefix_rfl, fun _ => rfl, rfl, fun _ => rfl, rfl⟩

theorem State.Trails.trans (h : s.Trails t) (h' : t.Trails u) : s.Trails u where
  out := h.out.trans h'.out
  fetched n := (h'.fetched n).trans (h.fetched n)
  dram := h'.dram.trans h.dram
  held n := (h'.held n).trans (h.held n)
  cancels := h'.cancels.trans h.cancels

theorem State.Trails.ite {c : Prop} {_ : Decidable c} (h : s.Trails t) (h' : s.Trails u) : s.Trails (if c then t else u) := by
  split <;> assumption

theorem State.Trails.foldl {α : Type} {f : State → α → State} (hf : ∀ (t : State) a, t.Trails (f t a)) (l : List α) (s : State) :
    s.Trails (l.foldl f s) := by
  induction l generalizing s with
  | nil => exact .refl
  | cons a l ih => exact (hf s a).trans (ih _)

/-- A change that leaves the rings and DRAM, and takes back nothing sent. -/
theorem State.Trails.of_same (hout : s.out <+: t.out) (hrings : t.rings = s.rings) (hdram : t.dram = s.dram) : s.Trails t where
  out := hout
  fetched n := by rw [State.sq, hrings, State.sq]
  dram := hdram
  held n := by rw [State.cq, hrings, State.cq]
  cancels := by rw [hrings]

/-! ### The steps that follow a completion record -/

/-- From `s` to `t` pages and swap units are let go: only the KV memory's tables and the contexts that name a sequence may differ. -/
def State.LetsGo (s t : State) : Prop := ∃ kv sch, t = { s with kv := kv, sch := sch }

theorem State.LetsGo.trans (h : s.LetsGo t) (h' : t.LetsGo u) : s.LetsGo u := by
  obtain ⟨_, _, rfl⟩ := h
  obtain ⟨_, _, rfl⟩ := h'
  exact ⟨_, _, rfl⟩

theorem State.LetsGo.foldl {α : Type} {f : State → α → State} (hf : ∀ (t : State) a, t.LetsGo (f t a)) (l : List α) (s : State) :
    s.LetsGo (l.foldl f s) := by
  induction l generalizing s with
  | nil => exact ⟨_, _, rfl⟩
  | cons a l ih => exact (hf s a).trans (ih _)

theorem State.LetsGo.trails (h : s.LetsGo t) : s.Trails t := by
  obtain ⟨_, _, rfl⟩ := h
  exact .of_same List.prefix_rfl rfl rfl

variable (s)

theorem State.dropEntry_letsGo (k : Nat) (p : Pte) : s.LetsGo (s.dropEntry k p) := by
  unfold State.dropEntry State.dropHold
  split
  · exact ⟨_, _, rfl⟩
  · split
    · split <;> exact ⟨_, _, rfl⟩
    · exact ⟨_, _, rfl⟩

theorem State.removePte_letsGo (k b : Nat) : s.LetsGo (s.removePte k b) := by
  unfold State.removePte
  split
  · exact ⟨_, _, rfl⟩
  · exact .trans ⟨_, _, rfl⟩ (State.dropEntry_letsGo _ _ _)

theorem State.releasePages_letsGo (k : Nat) : s.LetsGo (s.releasePages k) := by
  unfold State.releasePages
  split
  · exact ⟨_, _, rfl⟩
  · have hentries := State.LetsGo.foldl (fun t b => t.removePte_letsGo k b)
    split
    · exact (hentries _ _).trans ⟨_, _, rfl⟩
    · exact hentries _ _

theorem State.releaseSeq_letsGo (k : Nat) : s.LetsGo (s.releaseSeq k) := (s.releasePages_letsGo k).trans ⟨_, _, rfl⟩

theorem State.releasePage_letsGo (number idx : Nat) : s.LetsGo (s.releasePage number idx) :=
  .foldl (fun t k => t.releaseSeq_letsGo k) _ _

/-- A count for an account touches the ledger alone. -/
theorem State.charge_eq (a : Account) : s.charge a = { s with ldg := (s.charge a).ldg } := by
  unfold State.charge
  dsimp only
  split
  · split <;> split <;> rfl
  · rfl

theorem State.chargePcie_eq (c n : Nat) : s.chargePcie c n = { s with ldg := (s.chargePcie c n).ldg } := by
  unfold State.chargePcie State.chargeDram
  split <;> exact s.charge_eq _

theorem State.charge_trails (a : Account) : s.Trails (s.charge a) := by
  rw [s.charge_eq]; exact .of_same List.prefix_rfl rfl rfl

theorem State.chargePcie_trails (c n : Nat) : s.Trails (s.chargePcie c n) := by
  rw [s.chargePcie_eq]; exact .of_same List.prefix_rfl rfl rfl

theorem State.emit_trails (o : Out) : s.Trails (s.emit o) := .of_same (List.prefix_append _ _) rfl rfl

theorem State.msix_trails (k : Nat) : s.Trails (s.msix k) :=
  .ite .refl (.ite (.of_same List.prefix_rfl rfl rfl) (s.emit_trails _))

theorem State.cqInterrupt_trails (n : Nat) (jobEnd : Bool) : s.Trails (s.cqInterrupt n jobEnd) :=
  .ite (.ite (.of_same List.prefix_rfl rfl rfl) (s.msix_trails _)) .refl

theorem State.onProd_trails (r : RingId) (f : ProdRing → ProdRing) : s.Trails (s.onProd r f) where
  out := by rw [s.onProd_eq]
  fetched n := congrArg SqRing.fetched (s.onProd_sq r n f)
  dram := by rw [s.onProd_eq]
  held n := s.onProd_cq_held r n f
  cancels := s.onProd_cancels r f

theorem State.onSq_trails (n : Nat) (f : SqRing → SqRing) (hf : ∀ q, (f q).fetched = q.fetched) : s.Trails (s.onSq n f) where
  out := List.prefix_rfl
  fetched m := s.sq_onSq_proj SqRing.fetched n m f hf
  dram := rfl
  held _ := rfl
  cancels := rfl

theorem State.readDoorbell_trails (r : RingId) : s.Trails (s.readDoorbell r) := by
  unfold State.readDoorbell
  cases r with
  | sq n =>
    have hread := s.onSq_trails n (fun q => { q with reading := true }) fun _ => rfl
    exact .ite (s.onSq_trails n (fun q => { q with again := true }) fun _ => rfl) (hread.trans (State.emit_trails _ _))
  | cq _ | err | ldg => exact .ite (s.onProd_trails _ _) ((s.onProd_trails _ _).trans (State.emit_trails _ _))

theorem State.readAllSqs_trails : s.Trails s.readAllSqs := .foldl State.readDoorbell_trails _ _
theorem State.readFullProds_trails : s.Trails s.readFullProds := .foldl State.readDoorbell_trails _ _

theorem State.freeSlot_trails (k : Nat) : s.Trails (s.freeSlot k) := by
  unfold State.freeSlot
  split
  · dsimp only
    split <;> exact .of_same List.prefix_rfl rfl rfl
  · exact .refl

/-! ### The write of a completion record -/

/-- The record's bytes are on their way, and the ring's own count has moved on. -/
def State.putCq (s : State) (n : Nat) (r : CqRec) : State :=
  (s.hostWrite (s.ringBase (.cq n) + (s.cq n).ring.own % s.entries (.cq n) * 32) (cqRecBytes s.ronvelHi (s.phase (.cq n)) r) false).onProd
    (.cq n) fun p => { p with own := ((s.cq n).ring.own + 1) % s.countMod (.cq n) }

/-- What the write of a completion record is followed by: its interrupt, its accounts, the sequence slots it lets go. -/
def State.afterCq (s : State) (n : Nat) (r : CqRec) : State :=
  let jobEnd := decide (r.flags.testBit 14)
  let s3 := (s.cqInterrupt n jobEnd).chargePcie r.client 32
  let s4 := if jobEnd then s3 else s3.charge { Account.zero r.client with pages := 1 }
  match r.ofPage with
  | some p => s4.releasePage p.1 p.2
  | none => s4

/-- The job slot that a record frees, and the doorbell reads that a job-end record causes. -/
def State.closeCq (s : State) (r : CqRec) : State :=
  let s5 := match r.frees with
    | some slot => s.freeSlot slot
    | none => s
  if decide (r.flags.testBit 14) then (s5.readAllSqs).readFullProds else s5

theorem State.writeCq_eq (n : Nat) (r : CqRec) : s.writeCq n r = ((s.putCq n r).afterCq n r).closeCq r := by
  rw [State.writeCq, State.closeCq, State.afterCq, State.putCq]
  rcases r.frees with _ | _ <;> rcases r.ofPage with _ | _ <;> rfl

theorem State.afterCq_trails (n : Nat) (r : CqRec) : s.Trails (s.afterCq n r) := by
  unfold State.afterCq
  extract_lets jobEnd s3 _ s4
  have h3 : s.Trails s3 := (s.cqInterrupt_trails _ _).trans (State.chargePcie_trails _ _ _)
  have h4 : s.Trails s4 := .ite h3 (h3.trans (s3.charge_trails _))
  split
  · exact h4.trans (s4.releasePage_letsGo _ _).trails
  · exact h4

theorem State.closeCq_trails (r : CqRec) : s.Trails (s.closeCq r) := by
  unfold State.closeCq
  extract_lets s5
  have h5 : s.Trails s5 := by
    change s.Trails (match r.frees with | some slot => s.freeSlot slot | none => s)
    split
    · exact s.freeSlot_trails _
    · exact .refl
  exact .ite ((h5.trans s5.readAllSqs_trails).trans (State.readFullProds_trails _)) h5

theorem State.writeCq_trails (n : Nat) (r : CqRec) : (s.putCq n r).Trails (s.writeCq n r) := by
  rw [s.writeCq_eq]
  exact (State.afterCq_trails _ _ _).trans (State.closeCq_trails _ _)

/-! ### A record is one write (R39, R68) -/

/-- A write that fits its page and the smallest maximum payload goes in one piece. -/
theorem State.hostWrite_single {a : Nat} {bs : Bytes} (hemb : s.emb = false) (hne : bs ≠ []) (hlen : bs.length ≤ 128)
    (hfit : a % 4096 + bs.length ≤ 4096) : s.hostWrite a bs false = s.emit (.hostWrite a bs false) := by
  have hmps : 128 ≤ s.mpsBytes := Nat.le_mul_of_pos_right _ (Nat.two_pow_pos _)
  have hpiece : bs.length ≤ min s.mpsBytes (4096 - a % 4096) := by omega
  have hsplit : splitWrite s.mpsBytes (bs.length + 1) a bs = [(a, bs)] := by
    obtain ⟨b, l, rfl⟩ := List.exists_cons_of_ne_nil hne
    simp only [List.length_cons, splitWrite, List.take_of_length_le hpiece, List.drop_of_length_le hpiece]
  rw [State.hostWrite, if_neg (by simp [hemb]), hsplit]
  rfl

theorem cqRecBytes_length (hi : Nat) (phase : Bool) (r : CqRec) : (cqRecBytes hi phase r).length = 32 := by
  simp [cqRecBytes]
theorem errRecBytes_length (phase : Bool) (r : ErrRec) : (errRecBytes phase r).length = 32 := by simp [errRecBytes]
theorem ldgRecBytes_length (phase : Bool) (h : HeldAccount) : (ldgRecBytes phase h).length = 64 := by simp [ldgRecBytes]

/-- The record leaves in one write at the ring's entry. -/
theorem State.putCq_of_aligned {n : Nat} (r : CqRec) (hemb : s.emb = false) (hbase : s.ringBase (.cq n) % 4096 = 0) :
    s.putCq n r = (s.emit (s.cqWrite n r)).onProd (.cq n) fun p => { p with own := ((s.cq n).ring.own + 1) % s.countMod (.cq n) } := by
  have hlen := cqRecBytes_length s.ronvelHi (s.phase (.cq n)) r
  rw [State.putCq, s.hostWrite_single hemb (List.ne_nil_of_length_pos (by omega)) (by omega) (by omega)]
  rfl

theorem State.putCq_out {n : Nat} (r : CqRec) (hemb : s.emb = false) (hbase : s.ringBase (.cq n) % 4096 = 0) :
    (s.putCq n r).out = s.out ++ [s.cqWrite n r] := by
  rw [s.putCq_of_aligned r hemb hbase, State.onProd_eq]
  rfl

/-- The record is the first thing sent. -/
theorem State.writeCq_out {n : Nat} (r : CqRec) (hemb : s.emb = false) (hbase : s.ringBase (.cq n) % 4096 = 0) :
    ∃ more, (s.writeCq n r).out = s.out ++ s.cqWrite n r :: more := by
  obtain ⟨more, h⟩ := (s.writeCq_trails n r).out
  exact ⟨more, by rw [← h, s.putCq_out r hemb hbase, List.append_assoc, List.singleton_append]⟩

/-- What follows an error record's write adds to what is sent. -/
theorem State.writeErr_out_prefix (r : ErrRec) :
    (s.hostWrite (s.ringBase .err + s.rings.errRing.own % s.entries .err * 32) (errRecBytes (s.phase .err) r) false).out <+:
      (s.writeErr r).out := by
  unfold State.writeErr
  extract_lets own a s1 s2 s3
  split
  · exact (s3.msix_trails _).out
  · exact List.prefix_rfl

/-- What follows a ledger record's write adds to what is sent. -/
theorem State.writeLdg_out_prefix (h : HeldAccount) :
    (s.hostWrite (s.ringBase .ldg + s.rings.ldgRing.own % s.entries .ldg * 64) (ldgRecBytes (s.phase .ldg) h) false).out <+:
      (s.writeLdg h).out := by
  unfold State.writeLdg
  extract_lets own a s1 s2 s3
  split
  · exact List.prefix_rfl
  · split
    · exact (s3.msix_trails _).out
    · exact List.prefix_rfl

/-- One write, and more after it. -/
theorem State.out_of_hostWrite {a : Nat} {bs : Bytes} {l : List Out} (hone : s.hostWrite a bs false = s.emit (.hostWrite a bs false))
    (h : (s.hostWrite a bs false).out <+: l) : ∃ more, l = s.out ++ .hostWrite a bs false :: more := by
  rw [hone] at h
  obtain ⟨more, rfl⟩ := h
  exact ⟨more, by rw [State.emit_out, List.append_assoc, List.singleton_append]⟩

/-- Settles O14: each record is one piece of its entry, and what follows it only adds to what is sent. -/
theorem recordsAreSingleWrites : Obligations.RecordsAreSingleWrites := by
  refine fun s hemb => ⟨fun n r hbase _ => ?_, fun r hbase _ => ?_, fun h hbase _ => ?_⟩
  · obtain ⟨more, hout⟩ := s.writeCq_out r hemb hbase
    exact ⟨_, more, cqRecBytes_length _ _ _, hout⟩
  · have hlen := errRecBytes_length (s.phase .err) r
    have hone := s.hostWrite_single (a := s.ringBase .err + s.rings.errRing.own % s.entries .err * 32) hemb
      (List.ne_nil_of_length_pos (by omega)) (by omega) (by omega : _ + (errRecBytes (s.phase .err) r).length ≤ 4096)
    obtain ⟨more, hout⟩ := s.out_of_hostWrite hone (s.writeErr_out_prefix r)
    exact ⟨_, more, hlen, hout⟩
  · have hlen := ldgRecBytes_length (s.phase .ldg) h
    have hone := s.hostWrite_single (a := s.ringBase .ldg + s.rings.ldgRing.own % s.entries .ldg * 64) hemb
      (List.ne_nil_of_length_pos (by omega)) (by omega) (by omega : _ + (ldgRecBytes (s.phase .ldg) h).length ≤ 4096)
    obtain ⟨more, hout⟩ := s.out_of_hostWrite hone (s.writeLdg_out_prefix h)
    exact ⟨_, more, hlen, hout⟩

end Sys2Proof.Machine
end

section
/-! PROOF. The beginning of a descriptor, its own job-end record, and NOP (R80 to R83, R92, R98). -/

namespace Sys2Proof.Machine

set_option Elab.async false

variable (s : State)

/-! ### A descriptor that begins (R80 to R82) -/

theorem State.head?_of_ready {n : Nat} {d : Bytes} {slot : Option Nat} (h : s.ready n d slot) : s.head? n = some (d, slot) := by
  have hgo : (s.running && (!dFence d || s.fenceOpen n)) = true := by
    cases hf : dFence d
    · simp [h.running]
    · simp [h.running, h.fence hf]
  rw [State.head?, h.head]
  exact if_pos hgo

/-- A descriptor that some row begins is none to refuse for want of a row. -/
theorem State.drainRowless_of_row {n : Nat} {d : Bytes} {slot : Option Nat} (hh : s.head? n = some (d, slot)) (hrow : rowless d = false)
    (fuel : Nat) : s.drainRowless fuel n = s := by
  cases fuel with
  | zero => rfl
  | succ fuel => simp [State.drainRowless, hh, hrow]

/-- The descriptor that is ready begins; with it every descriptor of its ring is gone. -/
theorem State.beginDesc_of_ready {n : Nat} {d : Bytes} {slot : Option Nat} {want : Bytes → Bool}
    {run : State → Bytes → Option Nat → State} (h : s.ready n d slot) (hrow : rowless d = false) (hwant : want d = true)
    (hrun : ((run (s.popHead n) d slot).sq n).fetched = []) : s.beginDesc n want run = run (s.popHead n) d slot := by
  have hform : (s.popHead n).descFault d = none := h.form
  rw [State.beginDesc, s.drainRowless_of_row (s.head?_of_ready h) hrow, s.head?_of_ready h]
  simp only [hwant, Bool.not_true, Bool.false_eq_true, if_false, hform, hrun, List.length_nil, State.drainRowless]

theorem State.popHead_fetched {n : Nat} {d : Bytes} {slot : Option Nat} (h : s.ready n d slot) (hcount : s.rings.sqs.length = 64) :
    ((s.popHead n).sq n).fetched = [] := by
  rw [State.popHead, s.sq_onSq_same _ (hcount ▸ h.ring), h.head]
  rfl

/-! ### Completion rings with room -/

theorem State.postCq_of_open {c : Nat} (r : CqRec) (hheld : (s.cq c).held = []) (hroom : s.occupied (.cq c) < s.entries (.cq c)) :
    s.postCq c r = s.writeCq c r := by
  have hfree : ¬((s.cq c).held ≠ [] || s.occupied (.cq c) ≥ s.entries (.cq c)) = true := by simp [hheld, hroom]
  rw [State.postCq, if_neg hfree]

/-- A descriptor whose form holds names a completion ring that is enabled. -/
theorem State.cqFor_of_form {d : Bytes} (n : Nat) (h : s.descFault d = none) : s.cqFor n d = dCq d := by
  unfold State.descFault at h
  split at h
  · cases h
  · rw [State.cqFor]
    split at h
    next hcq => rw [if_pos hcq]
    next => cases h

theorem State.readAll_jobs (l : List RingId) : (l.foldl State.readDoorbell s).jobs = s.jobs := by
  obtain ⟨_, _, h⟩ := s.foldl_readDoorbell_reads l
  rw [h]

theorem State.Reports.jobs {s t : State} (h : s.Reports t) : t.jobs = s.jobs := by
  obtain ⟨_, _, _, _, _, _, _, _, h⟩ := h
  rw [h]

theorem State.putCq_reports (n : Nat) (r : CqRec) : s.Reports (s.putCq n r) :=
  (s.hostWrite_reports _ _ _).trans (State.onProd_reports _ _ _)

theorem State.cqInterrupt_reports (n : Nat) (jobEnd : Bool) : s.Reports (s.cqInterrupt n jobEnd) :=
  .ite s (.ite s (.of_eq s) (s.msix_reports _)) (.of_eq s)

theorem State.charge_reports (a : Account) : s.Reports (s.charge a) := by rw [s.charge_eq]; exact .of_eq s
theorem State.chargePcie_reports (c n : Nat) : s.Reports (s.chargePcie c n) := by rw [s.chargePcie_eq]; exact .of_eq s

theorem State.afterCq_jobs (n : Nat) (r : CqRec) : (s.afterCq n r).jobs = s.jobs := by
  unfold State.afterCq
  extract_lets jobEnd s3 _ s4
  have h3 : s.Reports s3 := (s.cqInterrupt_reports _ _).trans (State.chargePcie_reports _ _ _)
  have h4 : s4.jobs = s.jobs := (State.Reports.ite s h3 (h3.trans (s3.charge_reports _))).jobs
  split
  · obtain ⟨_, _, h⟩ := s4.releasePage_letsGo _ _
    rw [h]
    exact h4
  · exact h4

/-- A record that frees no job slot leaves the jobs. -/
theorem State.writeCq_jobs {n : Nat} {r : CqRec} (h : r.frees = none) : (s.writeCq n r).jobs = s.jobs := by
  have hput : ((s.putCq n r).afterCq n r).jobs = s.jobs := ((s.putCq n r).afterCq_jobs n r).trans (s.putCq_reports n r).jobs
  rw [s.writeCq_eq, State.closeCq, h]
  dsimp only
  split
  · exact ((State.readAll_jobs _ _).trans (State.readAll_jobs _ _)).trans hput
  · exact hput

theorem State.putCq_dram {n : Nat} (r : CqRec) (hemb : s.emb = false) (hbase : s.ringBase (.cq n) % 4096 = 0) :
    (s.putCq n r).dram = s.dram := by
  rw [s.putCq_of_aligned r hemb hbase, State.onProd_eq]
  rfl

theorem State.writeCq_dram {n : Nat} (r : CqRec) (hemb : s.emb = false) (hbase : s.ringBase (.cq n) % 4096 = 0) :
    (s.writeCq n r).dram = s.dram :=
  (s.writeCq_trails n r).dram.trans (s.putCq_dram r hemb hbase)

theorem State.hostWrite_rings (a : Nat) (bs : Bytes) (bulk : Bool) : (s.hostWrite a bs bulk).rings = s.rings := by
  unfold State.hostWrite
  split
  · rfl
  · exact List.foldlRecOn _ _ (motive := fun t : State => t.rings = s.rings) rfl fun t h _ _ => h

theorem State.writeCq_fetched (n m : Nat) (r : CqRec) : ((s.writeCq n r).sq m).fetched = (s.sq m).fetched := by
  refine ((s.writeCq_trails n r).fetched m).trans ?_
  rw [State.putCq, State.onProd_sq, State.sq, State.hostWrite_rings, State.sq]

/-! ### NOP (R81) -/

/-- Settles O15: NOP's record is the first thing sent, and it frees no slot. -/
theorem nopCompletesWithOk : Obligations.NopCompletesWithOk := by
  intro s n d hn hinv hrun hemb hhead hop hfence hform hheld hroom hbase hsize
  have hready : s.ready n d none := ⟨hrun, hn, hhead, hfence, hform⟩
  have hrow : rowless d = false := by simp [rowless, hop, opNop, opCapture, opAttest]
  have hfin : (s.popHead n).finishDesc n d none stOk 0 0 =
      (s.popHead n).writeCq (dCq d) (jobEndRec n d stOk 0 0 0 0 0 0 none) := by
    rw [State.finishDesc, (s.popHead n).cqFor_of_form n hform]
    exact State.postCq_of_open _ _ hheld hroom
  have hgone := (State.writeCq_fetched (s.popHead n) (dCq d) n (jobEndRec n d stOk 0 0 0 0 0 0 none)).trans
    (s.popHead_fetched hready hinv.numbers.sqs)
  have hact : s.nop n = (s.popHead n).writeCq (dCq d) (jobEndRec n d stOk 0 0 0 0 0 0 none) := by
    rw [State.nop, s.beginDesc_of_ready hready hrow (decide_eq_true hop) (by rw [hfin]; exact hgone), hfin]
  obtain ⟨more, hout⟩ := State.writeCq_out (s.popHead n) (jobEndRec n d stOk 0 0 0 0 0 0 none) hemb hbase
  obtain ⟨hon, -⟩ := DeviceState.on_of_serves (s.serves_of_running hrun)
  exact ⟨_, more, s.next_of_on hon hact, hgone, State.writeCq_jobs _ rfl, State.writeCq_dram _ _ hemb hbase, hout⟩

end Sys2Proof.Machine
end

section
/-! PROOF. Fetching: one pending descriptor, within the bounds of R88 or whatever they are (R88 to R91). -/

namespace Sys2Proof.Machine

set_option Elab.async false

variable (s : State)

/-! ### Free-running counts (R72) -/

theorem modSub_self (m a : Nat) : modSub m a a = 0 := by
  rw [modSub, Nat.add_sub_cancel_left, Nat.mod_self]

/-- One more of a count that lay one behind: nothing is left between the two. -/
theorem modSub_succ_eq_zero {m a b : Nat} (hm : 0 < m) (h : modSub m a b = 1) : modSub m a ((b + 1) % m) = 0 := by
  unfold modSub at *
  rw [Nat.mod_mod, Nat.add_mod]
  have ha := Nat.mod_lt a hm
  have hb := Nat.mod_lt b hm
  generalize a % m = x at *
  generalize b % m = y at *
  rcases Nat.lt_or_ge 1 m with hm1 | hm1
  · rw [Nat.mod_eq_of_lt hm1]
    rcases Nat.lt_or_ge x y with hxy | hxy
    · rw [Nat.mod_eq_of_lt (by omega)] at h
      have hy : y + 1 = m := by omega
      have hx : x = 0 := by omega
      rw [hy, hx, Nat.mod_self, Nat.zero_add, Nat.sub_zero, Nat.mod_self]
    · rw [show x + m - y = (x - y) + m by omega, Nat.add_mod_right, Nat.mod_eq_of_lt (by omega)] at h
      rw [Nat.mod_eq_of_lt (by omega : y + 1 < m), show x + m - (y + 1) = m by omega, Nat.mod_self]
  · have hm' : m = 1 := by omega
    subst hm'
    exact Nat.mod_one _

theorem State.countMod_pos (r : RingId) : 0 < s.countMod r :=
  Nat.mul_pos (Nat.two_pow_pos _) (Nat.two_pow_pos _)

/-! ### One descriptor (R88, R91) -/

/-- The ring takes a descriptor, with the job slot that it got. -/
def State.takeDesc (s : State) (n : Nat) (d : Bytes) (slot : Option Nat) : State :=
  (s.onSq n fun q => { q with own := (q.own + 1) % s.countMod (.sq n), fetched := q.fetched ++ [(d, slot)] }).chargePcie (dClient d) 64

/-- A job that waits takes a job slot. -/
def State.seatJob (s : State) (n : Nat) (d : Bytes) (k : Nat) : State :=
  { s with jobs := s.jobs ++ [newJob k s.jobCount n (s.ringLc n) d (s.folioTakes d)], jobCount := s.jobCount + 1 }

theorem State.takeDesc_form (n : Nat) (d : Bytes) (slot : Option Nat) :
    ∃ rings ldg, s.takeDesc n d slot = { s with rings := rings, ldg := ldg } := by
  rw [State.takeDesc, State.chargePcie_eq]
  exact ⟨_, _, rfl⟩

theorem State.fetchDescs_of_none {n : Nat} (h : s.pendingDescs n = 0) (l : List Bytes) : s.fetchDescs n l = s := by
  cases l with
  | nil => rfl
  | cons d l => rw [State.fetchDescs, if_pos h]

theorem State.noteUnload_eq (k : Nat) (d : Bytes) (ok : Bool) : s.noteUnload k d ok = { s with fol := (s.noteUnload k d ok).fol } := by
  unfold State.noteUnload
  split <;> rfl

section
variable {n : Nat} (hn : n < s.rings.sqs.length)
include hn

/-- What a ring reads once it has taken a descriptor. -/
theorem State.takeDesc_sq (d : Bytes) (slot : Option Nat) : (s.takeDesc n d slot).sq n =
    { s.sq n with own := ((s.sq n).own + 1) % s.countMod (.sq n), fetched := (s.sq n).fetched ++ [(d, slot)] } := by
  rw [State.takeDesc, State.chargePcie_eq]
  exact s.sq_onSq_same _ hn

/-- The last pending descriptor is taken. -/
theorem State.takeDesc_pending (d : Bytes) (slot : Option Nat) (h : s.pendingDescs n = 1) : (s.takeDesc n d slot).pendingDescs n = 0 := by
  have hmod : (s.takeDesc n d slot).countMod (.sq n) = s.countMod (.sq n) := by rw [State.takeDesc, State.chargePcie_eq]; rfl
  rw [State.pendingDescs, hmod, s.takeDesc_sq hn]
  exact modSub_succ_eq_zero (s.countMod_pos _) h

theorem State.fetchDescs_slotless {d : Bytes} (hd : takesSlot d = false) (hp : s.pendingDescs n = 1) (l : List Bytes) :
    s.fetchDescs n (d :: l) = s.takeDesc n d none := by
  rw [State.fetchDescs, if_neg (by omega)]
  simp only [hd, Bool.false_eq_true, if_false]
  exact State.fetchDescs_of_none _ (s.takeDesc_pending hn d none hp) l

theorem State.fetchDescs_seated {d : Bytes} {k : Nat} (hd : takesSlot d = true) (hp : s.pendingDescs n = 1) (hmay : s.maySlot n = true)
    (hk : s.freeJobSlot = some k) (l : List Bytes) :
    ∃ fol, s.fetchDescs n (d :: l) = { (s.seatJob n d k).takeDesc n d (some k) with fol := fol } := by
  have hnone : ((s.seatJob n d k).takeDesc n d (some k)).pendingDescs n = 0 := (s.seatJob n d k).takeDesc_pending hn d (some k) hp
  refine ⟨(((s.seatJob n d k).takeDesc n d (some k)).noteUnload k d (s.descFault d).isNone).fol, ?_⟩
  rw [State.fetchDescs, if_neg (by omega)]
  simp only [hd, if_true, hk, hmay]
  refine (State.fetchDescs_of_none _ ?_ l).trans (State.noteUnload_eq _ _ _ _)
  rw [State.noteUnload_eq]
  exact hnone

end

/-! ### The fetch turn (R89, R90) -/

/-- The end of a fetch turn from `s` in which the descriptors taken have made `t`: their reads are sent, and a ring that took a job slot
has had its class's turn. -/
def State.endTurn (s t : State) (n : Nat) : State :=
  let t := { t with out := (s.readDescs n (modSub (s.countMod (.sq n)) (t.sq n).own (s.sq n).own)).out }
  if t.jobCount ≠ s.jobCount then t.onRings fun r => if s.ringLc n then { r with lastLc := n } else { r with lastBe := n } else t

/-- The descriptors that a turn may take: all of them, or those before the first that takes a slot. -/
def State.turnTakes (s : State) (n : Nat) (all : List Bytes) : List Bytes :=
  if s.turn = some n then all else all.takeWhile fun d => !takesSlot d

theorem State.descriptorFetch_of_open {n : Nat} (descs : List Bytes) (hn : n < 64) (hrun : s.running = true) (hstop : s.fetchStop = false)
    (hen : s.ringEn (.sq n) = true) :
    s.descriptorFetch n descs = s.endTurn (s.fetchDescs n (s.turnTakes n (s.turnDescs n descs))) n := by
  simp only [State.descriptorFetch, hrun, hstop, hen, Bool.not_true, Bool.false_or, ge_iff_le, not_le.2 hn, decide_false, Bool.false_eq_true,
    if_false]
  rfl

section
variable (t : State) (n : Nat)

@[simp] theorem State.endTurn_sq (m : Nat) : (s.endTurn t n).sq m = t.sq m := by
  unfold State.endTurn
  dsimp only
  split
  · cases s.ringLc n <;> rfl
  · rfl

/-- The end of a turn sends reads and notes whose turn it was. -/
theorem State.endTurn_form : ∃ rings out, s.endTurn t n = { t with rings := rings, out := out } := by
  unfold State.endTurn
  dsimp only
  split <;> exact ⟨_, _, rfl⟩

theorem State.endTurn_last (h : t.jobCount ≠ s.jobCount) :
    if s.ringLc n then (s.endTurn t n).rings.lastLc = n else (s.endTurn t n).rings.lastBe = n := by
  rw [State.endTurn]
  dsimp only
  rw [if_pos h]
  cases s.ringLc n <;> rfl

end

/-- A turn that takes nothing changes nothing. -/
theorem State.endTurn_self (n : Nat) : s.endTurn s n = s := by
  have hout : (s.readDescs n 0).out = s.out := by
    simp [State.readDescs, State.hostRead, splitRead]
  rw [State.endTurn, modSub_self, hout]
  exact if_neg (not_not.2 rfl)

/-- The turn is a ring's only while R88 lets it take a slot. -/
theorem State.maySlot_of_turn {n : Nat} (h : s.turn = some n) : s.maySlot n = true := by
  have hcompetes : s.competes n = true := by
    unfold State.turn at h
    dsimp only at h
    split at h
    · rename_i hf
      cases h
      exact (Bool.and_eq_true _ _ ▸ List.find?_some hf : _ ∧ _).2
    · exact (Bool.and_eq_true _ _ ▸ List.find?_some h : _ ∧ _).2
  simp only [State.competes, Bool.and_eq_true] at hcompetes
  exact hcompetes.2

/-- Settles O13: by what the turn takes; the pending count falls to 0 with the one descriptor. -/
theorem fetchWithinBounds : Obligations.FetchWithinBounds := by
  intro s n descs rest d hn hrun hinv hen hdescs hpend
  obtain ⟨hon, -⟩ := DeviceState.on_of_serves (s.serves_of_running hrun)
  have hcount : n < s.rings.sqs.length := by rw [hinv.numbers.sqs]; exact hn
  refine ⟨fun hd hstop hmay hturn k hk => ?_, fun hd hbound => s.next_of_on hon ?_, fun hd hstop => ?_⟩
  · have htakes : s.turnTakes n (s.turnDescs n descs) = d :: rest := by rw [State.turnTakes, if_pos hturn, hdescs]
    obtain ⟨fol, hfetch⟩ := s.fetchDescs_seated hcount hd hpend hmay hk rest
    have hact := s.descriptorFetch_of_open descs hn hrun hstop hen
    rw [htakes, hfetch] at hact
    have hsq := (s.seatJob n d k).takeDesc_sq hcount d (some k)
    obtain ⟨rings, ldg, htake⟩ := (s.seatJob n d k).takeDesc_form n d (some k)
    rw [htake] at hact hsq
    obtain ⟨rings', out, hform⟩ := s.endTurn_form { s.seatJob n d k with rings := rings, ldg := ldg, fol := fol } n
    have hsq' := (s.endTurn_sq { s.seatJob n d k with rings := rings, ldg := ldg, fol := fol } n n).trans hsq
    have hlast := s.endTurn_last { s.seatJob n d k with rings := rings, ldg := ldg, fol := fol } n (Nat.succ_ne_self _)
    exact ⟨_, s.next_of_on hon hact, by rw [hform]; rfl, by rw [hform]; rfl, congrArg SqRing.own hsq', congrArg SqRing.fetched hsq', hlast,
      by rw [hform]; rfl, by rw [hform]; rfl⟩
  · by_cases hstop : s.fetchStop = true
    · rw [State.descriptorFetch, if_pos (by simp [hstop])]
    · have hturn : s.turn ≠ some n := by
        rcases hbound with h | h | h
        · exact absurd h hstop
        · exact fun ht => by simp [s.maySlot_of_turn ht] at h
        · exact h
      have htakes : s.turnTakes n (s.turnDescs n descs) = [] := by simp [State.turnTakes, hturn, hdescs, hd]
      rw [s.descriptorFetch_of_open descs hn hrun (by simpa using hstop) hen, htakes]
      exact s.endTurn_self n
  · have htakes : ∃ l, s.turnTakes n (s.turnDescs n descs) = d :: l := by
      rw [State.turnTakes, hdescs]
      split
      · exact ⟨_, rfl⟩
      · exact ⟨_, List.takeWhile_cons_of_pos (by simp [hd])⟩
    obtain ⟨l, htakes⟩ := htakes
    have hact := s.descriptorFetch_of_open descs hn hrun hstop hen
    have hsq := s.takeDesc_sq hcount d none
    rw [htakes, s.fetchDescs_slotless hcount hd hpend l] at hact
    obtain ⟨rings', out, hform⟩ := s.endTurn_form (s.takeDesc n d none) n
    obtain ⟨rings, ldg, htake⟩ := s.takeDesc_form n d none
    have hsq' := (s.endTurn_sq (s.takeDesc n d none) n n).trans hsq
    exact ⟨_, s.next_of_on hon hact, by rw [hform, htake], congrArg SqRing.own hsq', congrArg SqRing.fetched hsq'⟩

end Sys2Proof.Machine
end

section
/-! PROOF. Doorbell data: the host count that a read brings, and what it lets be written (R70, R72, R73, R99). -/

namespace Sys2Proof.Machine

set_option Elab.async false

variable (s : State)

/-! ### Produced rings by projection -/

theorem State.prod_onProd_proj {α : Type} (g : ProdRing → α) (r r' : RingId) (f : ProdRing → ProdRing) (hf : ∀ p, g (f p) = g p) :
    g ((s.onProd r f).prod r') = g (s.prod r') := by
  cases r with
  | sq _ => rfl
  | cq m =>
    cases r' with
    | cq n => exact s.cq_onCq_proj (fun c => g c.ring) m n _ fun c => hf c.ring
    | sq _ | err | ldg => rfl
  | err =>
    cases r' with
    | err => exact hf _
    | sq _ | cq _ | ldg => rfl
  | ldg =>
    cases r' with
    | ldg => exact hf _
    | sq _ | cq _ | err => rfl

/-- A produced ring that the part has. -/
def State.hasProd (s : State) : RingId → Prop
  | .sq _ => False
  | .cq n => n < s.rings.cqs.length
  | .err => True
  | .ldg => True

theorem State.prod_onProd_same {r : RingId} (f : ProdRing → ProdRing) (h : s.hasProd r) : (s.onProd r f).prod r = f (s.prod r) := by
  cases r with
  | sq _ => exact h.elim
  | cq n => exact congrArg CqRing.ring (s.cq_onCq_same _ h)
  | err | ldg => rfl

@[simp] theorem State.onProd_onProd_hasProd (r r' : RingId) (f : ProdRing → ProdRing) : (s.onProd r f).hasProd r' ↔ s.hasProd r' := by
  cases r <;> cases r' <;> simp [State.hasProd, State.onProd, State.onCq]

/-! ### The steps of DOORBELL_READ_DONE -/

/-- A doorbell read of the ring is in flight. -/
def State.beingRead (s : State) : RingId → Bool
  | .sq n => (s.sq n).reading
  | r => (s.prod r).reading

/-- One more doorbell read was noted meanwhile. -/
def State.readNoted (s : State) : RingId → Bool
  | .sq n => (s.sq n).again
  | r => (s.prod r).again

/-- The read in flight is over; its bytes are counted. -/
def State.readOver (s : State) (r : RingId) : State :=
  (match r with
    | .sq n => s.onSq n fun q => { q with reading := false, again := false }
    | _ => s.onProd r fun p => { p with reading := false, again := false }).unattributedHost 4

/-- The read noted meanwhile begins. -/
def State.readOnce (s : State) (r : RingId) (again : Bool) : State := if again && s.ringEn r then s.readDoorbell r else s

theorem State.releaseCancels_of_none (h : s.rings.cancels = []) : s.releaseCancels = s := by
  have hself : (s.onRings fun r => { r with cancels := r.cancels.filter (fun e => !e.2.2.all fun k => (s.jobNum? k).isNone) }) = s := by
    obtain ⟨_, _, _, _, _, _, _, _, _, _, ⟨_, _, _, _, _, _, cancels⟩, _⟩ := s
    cases h
    rfl
  rw [State.releaseCancels]
  dsimp only
  rw [hself, h]
  rfl

theorem State.doorbellReadDone_of_read {rec index gen : Nat} {r : RingId} (hring : ringOf rec = some r) (hread : s.beingRead r = true)
    (hemb : s.emb = false) (hen : s.ringEn r = true) (hi : index < 65536) (hg : gen < 65536) :
    s.doorbellReadDone rec index gen =
      ((((s.readOver r).takeCount r index gen).flushRing r).releaseCancels).readOnce r (s.readNoted r) := by
  have hdata (t : State) (ht : t.regs = s.regs) : t.doorbellData rec index gen = (index, gen) := by
    have hemb' : t.emb = false := (State.regB_of_regs ht _ _).trans hemb
    rw [State.doorbellData, hemb', Nat.mod_eq_of_lt hi, Nat.mod_eq_of_lt hg]
    rfl
  have hen' (t : State) (ht : t.regs = s.regs) : t.ringEn r = true := (State.ringEn_of_regs ht r).trans hen
  have hread' := hread
  unfold State.doorbellReadDone
  rw [hring]
  cases r <;>
  · simp only [State.beingRead] at hread'
    simp only [hread', Bool.not_true, Bool.false_eq_true, if_false]
    rw [hdata, if_pos (hen' _ _)]
    all_goals rfl

/-! ### What the steps leave -/

/-- From `s` to `t` doorbell data is taken: no job, no error record and no ledger record that waits is touched, besides what `Trails` says. -/
structure State.Takes (s t : State) : Prop extends s.Trails t where
  sameJobs : t.jobs = s.jobs
  err : t.err = s.err
  ldgHeld : t.ldg.held = s.ldg.held

variable {s} in
theorem State.Takes.trans {t u : State} (h : s.Takes t) (h' : t.Takes u) : s.Takes u :=
  ⟨h.toTrails.trans h'.toTrails, h'.sameJobs.trans h.sameJobs, h'.err.trans h.err, h'.ldgHeld.trans h.ldgHeld⟩

theorem State.onProd_takes (r : RingId) (f : ProdRing → ProdRing) : s.Takes (s.onProd r f) :=
  ⟨s.onProd_trails r f, by rw [s.onProd_eq], by rw [s.onProd_eq], by rw [s.onProd_eq]⟩

theorem State.onSq_takes (n : Nat) (f : SqRing → SqRing) (hf : ∀ q, (f q).fetched = q.fetched) : s.Takes (s.onSq n f) :=
  ⟨s.onSq_trails n f hf, rfl, rfl, rfl⟩

theorem State.unattributedHost_takes (n : Nat) : s.Takes (s.unattributedHost n) :=
  ⟨.of_same List.prefix_rfl rfl rfl, rfl, rfl, rfl⟩

theorem State.readOver_takes (r : RingId) : s.Takes (s.readOver r) := by
  refine .trans ?_ (State.unattributedHost_takes _ 4)
  cases r with
  | sq n => exact s.onSq_takes n (fun q => { q with reading := false, again := false }) fun _ => rfl
  | cq _ | err | ldg => exact s.onProd_takes _ _

theorem State.readOver_regs (r : RingId) : (s.readOver r).regs = s.regs := by cases r <;> rfl

theorem State.readOver_sq (r : RingId) (n : Nat) :
    ((s.readOver r).sq n).own = (s.sq n).own ∧ ((s.readOver r).sq n).host = (s.sq n).host := by
  cases r with
  | sq m =>
    exact ⟨s.sq_onSq_proj SqRing.own m n (fun q => { q with reading := false, again := false }) fun _ => rfl,
      s.sq_onSq_proj SqRing.host m n (fun q => { q with reading := false, again := false }) fun _ => rfl⟩
  | cq _ | err | ldg => exact ⟨rfl, rfl⟩

theorem State.readOver_prod (r r' : RingId) :
    ((s.readOver r).prod r').own = (s.prod r').own ∧ ((s.readOver r).prod r').host = (s.prod r').host := by
  have hprod := s.prod_onProd_proj (fun p => (p.own, p.host)) r r' (fun p => { p with reading := false, again := false }) fun _ => rfl
  cases r with
  | sq m => cases r' <;> exact ⟨rfl, rfl⟩
  | cq _ | err | ldg => cases r' <;> exact ⟨congrArg Prod.fst hprod, congrArg Prod.snd hprod⟩

theorem State.readOver_hasProd (r r' : RingId) : (s.readOver r).hasProd r' ↔ s.hasProd r' := by
  cases r with
  | sq _ => cases r' <;> exact Iff.rfl
  | cq n => exact Iff.trans (by cases r' <;> exact Iff.rfl) (s.onProd_onProd_hasProd (.cq n) r' fun p => { p with reading := false, again := false })
  | err => cases r' <;> exact Iff.rfl
  | ldg => cases r' <;> exact Iff.rfl

theorem State.readDoorbell_sq (r : RingId) (n : Nat) :
    ((s.readDoorbell r).sq n).own = (s.sq n).own ∧ ((s.readDoorbell r).sq n).host = (s.sq n).host := by
  cases r with
  | sq m =>
    have hsq (f : SqRing → SqRing) (hf : ∀ q, ((f q).own, (f q).host) = (q.own, q.host)) :=
      s.sq_onSq_proj (fun q => (q.own, q.host)) m n f hf
    have hagain := hsq (fun q => { q with again := true }) fun _ => rfl
    have hreading := hsq (fun q => { q with reading := true }) fun _ => rfl
    unfold State.readDoorbell
    dsimp only
    split
    · exact ⟨congrArg Prod.fst hagain, congrArg Prod.snd hagain⟩
    · exact ⟨congrArg Prod.fst hreading, congrArg Prod.snd hreading⟩
  | cq _ | err | ldg =>
    unfold State.readDoorbell
    dsimp only
    split <;> exact ⟨rfl, rfl⟩

theorem State.readDoorbell_prod (r r' : RingId) :
    ((s.readDoorbell r).prod r').own = (s.prod r').own ∧ ((s.readDoorbell r).prod r').host = (s.prod r').host := by
  have hprod (f : ProdRing → ProdRing) (hf : ∀ q, ((f q).own, (f q).host) = (q.own, q.host)) :=
    s.prod_onProd_proj (fun q => (q.own, q.host)) r r' f hf
  have hagain := hprod (fun q => { q with again := true }) fun _ => rfl
  have hreading := hprod (fun q => { q with reading := true }) fun _ => rfl
  unfold State.readDoorbell
  cases r with
  | sq m =>
    dsimp only
    split <;> cases r' <;> exact ⟨rfl, rfl⟩
  | cq _ | err | ldg =>
    dsimp only
    split
    · exact ⟨congrArg Prod.fst hagain, congrArg Prod.snd hagain⟩
    · cases r' <;> exact ⟨congrArg Prod.fst hreading, congrArg Prod.snd hreading⟩

section
variable (r : RingId) (again : Bool)

theorem State.readOnce_reads : s.ReadsDoorbells (s.readOnce r again) := by
  unfold State.readOnce
  split
  · exact s.readDoorbell_reads r
  · exact ⟨_, _, rfl⟩

theorem State.readOnce_trails : s.Trails (s.readOnce r again) := .ite (s.readDoorbell_trails r) .refl

theorem State.readOnce_regs : (s.readOnce r again).regs = s.regs := by
  obtain ⟨_, _, h⟩ := s.readOnce_reads r again
  rw [h]

theorem State.readOnce_jobs : (s.readOnce r again).jobs = s.jobs := by
  obtain ⟨_, _, h⟩ := s.readOnce_reads r again
  rw [h]

theorem State.readOnce_sq (n : Nat) :
    ((s.readOnce r again).sq n).own = (s.sq n).own ∧ ((s.readOnce r again).sq n).host = (s.sq n).host := by
  unfold State.readOnce
  split
  · exact s.readDoorbell_sq r n
  · exact ⟨rfl, rfl⟩

theorem State.readOnce_prod (r' : RingId) :
    ((s.readOnce r again).prod r').own = (s.prod r').own ∧ ((s.readOnce r again).prod r').host = (s.prod r').host := by
  unfold State.readOnce
  split
  · exact s.readDoorbell_prod r r'
  · exact ⟨rfl, rfl⟩

end

theorem State.entries_of_regs {s t : State} (h : t.regs = s.regs) (r : RingId) : t.entries r = s.entries r := by
  rw [State.entries, State.regF_of_regs h, State.entries]

theorem State.ringBase_of_regs {s t : State} (h : t.regs = s.regs) (r : RingId) : t.ringBase r = s.ringBase r := by
  cases r <;> simp only [State.ringBase, State.regPair, State.reg, h]

/-! ### The count taken (R72, R73) -/

/-- The host's count of a ring that a doorbell record gives. -/
def State.hostCount (s : State) (r : RingId) (index gen : Nat) : Nat := (gen * s.entries r + index) % s.countMod r

/-- A submission ring's doorbell is out of range. -/
def State.sqOutOfRange (s : State) (n index gen : Nat) : Prop :=
  index ≥ s.entries (.sq n) ∨ modSub (s.countMod (.sq n)) (s.hostCount (.sq n) index gen) (s.sq n).own > s.entries (.sq n)

/-- A produced ring's doorbell is out of range. -/
def State.prodOutOfRange (s : State) (r : RingId) (index gen : Nat) : Prop :=
  index ≥ s.entries r ∨ modSub (s.countMod r) (s.prod r).own (s.hostCount r index gen) > s.entries r

theorem State.takeCount_sq (n index gen : Nat) :
    (s.sqOutOfRange n index gen → s.takeCount (.sq n) index gen = s.flag rRingStatus 0) ∧
      (¬s.sqOutOfRange n index gen →
        s.takeCount (.sq n) index gen = s.onSq n fun q => { q with host := s.hostCount (.sq n) index gen }) := by
  have hiff : (index ≥ s.entries (.sq n) ||
      modSub (s.countMod (.sq n)) (s.hostCount (.sq n) index gen) (s.sq n).own > s.entries (.sq n)) = true ↔ s.sqOutOfRange n index gen := by
    simp [State.sqOutOfRange]
  exact ⟨fun h => if_pos (hiff.2 h), fun h => if_neg (mt hiff.1 h)⟩

theorem State.takeCount_prod {r : RingId} (hr : s.hasProd r) (index gen : Nat) :
    (s.prodOutOfRange r index gen → s.takeCount r index gen = s.flag rRingStatus 0) ∧
      (¬s.prodOutOfRange r index gen →
        s.takeCount r index gen = s.onProd r fun p => { p with host := s.hostCount r index gen }) := by
  have hiff : (index ≥ s.entries r || modSub (s.countMod r) (s.prod r).own (s.hostCount r index gen) > s.entries r) = true ↔
      s.prodOutOfRange r index gen := by
    simp [State.prodOutOfRange]
  cases r with
  | sq _ => exact hr.elim
  | cq _ | err | ldg => exact ⟨fun h => if_pos (hiff.2 h), fun h => if_neg (mt hiff.1 h)⟩

theorem ringOf_sq {n : Nat} (hn : n < 64) : ringOf n = some (.sq n) := if_pos hn

theorem ringOf_cq {n : Nat} (hn : n < 64) : ringOf (64 + n) = some (.cq n) := by
  rw [ringOf, if_neg (by omega), if_pos (by omega), Nat.add_sub_cancel_left]

theorem State.hasProd_of_ringOf {rec : Nat} {r : RingId} (h : ringOf rec = some r) (hrec : 63 < rec) (hcount : s.rings.cqs.length = 64) :
    s.hasProd r := by
  unfold ringOf at h
  split at h
  · omega
  · split at h
    · cases h
      simp only [State.hasProd, hcount]
      omega
    · split at h
      · cases h
        exact trivial
      · split at h
        · cases h
          exact trivial
        · cases h

/-- The doorbell of a submission ring: the host's count is taken, or DB_RANGE is set. -/
theorem State.doorbellReadDone_sq {n index gen : Nat} (hn : n < 64) (hinv : s.Inv) (hemb : s.emb = false) (hen : s.ringEn (.sq n) = true)
    (hread : (s.sq n).reading = true) (hcancels : s.rings.cancels = []) (hi : index < 65536) (hg : gen < 65536) :
    ((s.doorbellReadDone n index gen).sq n).own = (s.sq n).own ∧
      (s.sqOutOfRange n index gen → ((s.doorbellReadDone n index gen).sq n).host = (s.sq n).host ∧
        (s.doorbellReadDone n index gen).regB rRingStatus 0 = true) ∧
      (¬s.sqOutOfRange n index gen → ((s.doorbellReadDone n index gen).sq n).host = s.hostCount (.sq n) index gen ∧
        (s.doorbellReadDone n index gen).regs = s.regs) := by
  rw [s.doorbellReadDone_of_read (ringOf_sq hn) hread hemb hen hi hg]
  generalize hu : s.readOver (.sq n) = u
  have htakes : s.Takes u := hu ▸ s.readOver_takes _
  have hregs : u.regs = s.regs := hu ▸ s.readOver_regs _
  have hcounts := s.readOver_sq (.sq n) n
  rw [hu] at hcounts
  obtain ⟨hown, hhost⟩ := hcounts
  have hlen : n < u.rings.sqs.length := by rw [← hu]; simpa [State.readOver, State.unattributedHost, State.unattributed, hinv.numbers.sqs] using hn
  have hent : u.entries (.sq n) = s.entries (.sq n) := State.entries_of_regs hregs _
  have hcount : u.hostCount (.sq n) index gen = s.hostCount (.sq n) index gen := by
    simp only [State.hostCount, State.countMod, hent]
  have hrange : u.sqOutOfRange n index gen ↔ s.sqOutOfRange n index gen := by
    simp only [State.sqOutOfRange, State.countMod, hcount, hent, hown]
  have hc : u.rings.cancels = [] := htakes.cancels.trans hcancels
  obtain ⟨hbad, hgood⟩ := u.takeCount_sq n index gen
  by_cases h : s.sqOutOfRange n index gen
  · rw [hbad (hrange.2 h), show (u.flag rRingStatus 0).flushRing (.sq n) = u.flag rRingStatus 0 from rfl,
      State.releaseCancels_of_none (u.flag rRingStatus 0) hc]
    obtain ⟨hown', hhost'⟩ := (u.flag rRingStatus 0).readOnce_sq (.sq n) (s.readNoted (.sq n)) n
    refine ⟨hown'.trans hown, fun _ => ⟨hhost'.trans hhost, ?_⟩, absurd h⟩
    rw [State.regB_of_regs (State.readOnce_regs _ _ _), u.regB_flag_same _ _ (by rw [hregs]; exact hinv.mem.regs) (by omega)]
  · rw [hgood (mt hrange.1 h)]
    generalize hv : (u.onSq n fun q => { q with host := u.hostCount (.sq n) index gen }) = v
    have hsq : v.sq n = { u.sq n with host := u.hostCount (.sq n) index gen } := by rw [← hv]; exact u.sq_onSq_same _ hlen
    rw [show v.flushRing (.sq n) = v from rfl, v.releaseCancels_of_none (by rw [← hv]; exact hc)]
    obtain ⟨hown', hhost'⟩ := v.readOnce_sq (.sq n) (s.readNoted (.sq n)) n
    rw [hsq] at hown' hhost'
    exact ⟨hown'.trans hown, fun h' => absurd h' h,
      fun _ => ⟨hhost'.trans hcount, (v.readOnce_regs _ _).trans (by rw [← hv]; exact hregs)⟩⟩

/-- Nothing is held for a produced ring. -/
def State.noneHeld (s : State) : RingId → Prop
  | .sq _ => True
  | .cq n => (s.cq n).held = []
  | .err => s.err.held = [] ∧ s.err.stuck = []
  | .ldg => s.ldg.held = []

theorem State.flushRing_of_none {r : RingId} (hr : s.hasProd r) (h : s.noneHeld r) :
    s.flushRing r = s.onProd r fun p => { p with full := false } := by
  cases r with
  | sq _ => exact hr.elim
  | cq _ => exact s.flushRing_cq_of_none h
  | err => exact s.flushRing_err_of_none h.1 h.2
  | ldg => exact s.flushRing_ldg_of_none h

theorem State.Takes.noneHeld {s t : State} (h : s.Takes t) {r : RingId} (hs : s.noneHeld r) : t.noneHeld r := by
  cases r with
  | sq _ => exact trivial
  | cq n => exact (h.held n).trans hs
  | err => exact ⟨by rw [h.err]; exact hs.1, by rw [h.err]; exact hs.2⟩
  | ldg => exact h.ldgHeld.trans hs

theorem State.flag_takes (off i : Nat) : s.Takes (s.flag off i) := ⟨.of_same List.prefix_rfl rfl rfl, rfl, rfl, rfl⟩

/-- The doorbell of a produced ring for which nothing is held: the host's count is taken, or DB_RANGE is set. -/
theorem State.doorbellReadDone_prod {rec index gen : Nat} {r : RingId} (hring : ringOf rec = some r) (hr : s.hasProd r) (hinv : s.Inv)
    (hemb : s.emb = false) (hen : s.ringEn r = true) (hread : (s.prod r).reading = true) (hcancels : s.rings.cancels = [])
    (hi : index < 65536) (hg : gen < 65536) (hnone : s.noneHeld r) :
    ((s.doorbellReadDone rec index gen).prod r).own = (s.prod r).own ∧ (s.doorbellReadDone rec index gen).jobs = s.jobs ∧
      (s.doorbellReadDone rec index gen).dram = s.dram ∧
      (s.prodOutOfRange r index gen → ((s.doorbellReadDone rec index gen).prod r).host = (s.prod r).host ∧
        (s.doorbellReadDone rec index gen).regB rRingStatus 0 = true) ∧
      (¬s.prodOutOfRange r index gen → ((s.doorbellReadDone rec index gen).prod r).host = s.hostCount r index gen ∧
        (s.doorbellReadDone rec index gen).regs = s.regs) := by
  have hread' : s.beingRead r = true := by
    cases r with
    | sq _ => exact hr.elim
    | cq _ | err | ldg => exact hread
  rw [s.doorbellReadDone_of_read hring hread' hemb hen hi hg]
  generalize hu : s.readOver r = u
  have htakes : s.Takes u := hu ▸ s.readOver_takes _
  have hregs : u.regs = s.regs := hu ▸ s.readOver_regs _
  have hcounts := s.readOver_prod r r
  rw [hu] at hcounts
  obtain ⟨hown, hhost⟩ := hcounts
  have hur : u.hasProd r := hu ▸ (s.readOver_hasProd r r).2 hr
  have hent : u.entries r = s.entries r := State.entries_of_regs hregs _
  have hcount : u.hostCount r index gen = s.hostCount r index gen := by simp only [State.hostCount, State.countMod, hent]
  have hrange : u.prodOutOfRange r index gen ↔ s.prodOutOfRange r index gen := by
    simp only [State.prodOutOfRange, State.countMod, hcount, hent, hown]
  obtain ⟨hbad, hgood⟩ := u.takeCount_prod hur index gen
  -- what every count taken is followed by
  have hrest (v : State) (hv : u.Takes v) (hvr : v.hasProd r) :
      let t := ((v.flushRing r).releaseCancels).readOnce r (s.readNoted r)
      t.regs = v.regs ∧ t.jobs = s.jobs ∧ t.dram = s.dram ∧ (t.prod r).own = (v.prod r).own ∧ (t.prod r).host = (v.prod r).host := by
    have hvs := htakes.trans hv
    have hw := v.onProd_takes r fun p => { p with full := false }
    have hsw := hvs.trans hw
    have hprod := v.prod_onProd_same (fun p => { p with full := false }) hvr
    rw [v.flushRing_of_none hvr (hvs.noneHeld hnone), State.releaseCancels_of_none _ (hsw.cancels.trans hcancels)]
    generalize hwdef : (v.onProd r fun p => { p with full := false }) = w at *
    obtain ⟨hown', hhost'⟩ := w.readOnce_prod r (s.readNoted r) r
    refine ⟨(w.readOnce_regs _ _).trans (by rw [← hwdef, State.onProd_eq]), (w.readOnce_jobs _ _).trans hsw.sameJobs,
      (w.readOnce_trails _ _).dram.trans hsw.dram, ?_, ?_⟩
    · rw [hown', hprod]
    · rw [hhost', hprod]
  by_cases h : s.prodOutOfRange r index gen
  · rw [hbad (hrange.2 h)]
    obtain ⟨htregs, htjobs, htdram, htown, hthost⟩ :=
      hrest (u.flag rRingStatus 0) (u.flag_takes _ _) (by cases r <;> exact hur)
    have hflag := u.regB_flag_same rRingStatus 0 (by rw [hregs]; exact hinv.mem.regs) (by omega)
    have hsame : (u.flag rRingStatus 0).prod r = u.prod r := by cases r <;> rfl
    rw [hsame] at htown hthost
    exact ⟨htown.trans hown, htjobs, htdram, fun _ => ⟨hthost.trans hhost, (State.regB_of_regs htregs _ _).trans hflag⟩, absurd h⟩
  · rw [hgood (mt hrange.1 h)]
    obtain ⟨htregs, htjobs, htdram, htown, hthost⟩ := hrest (u.onProd r fun p => { p with host := u.hostCount r index gen })
      (u.onProd_takes _ _) ((u.onProd_onProd_hasProd r r _).2 hur)
    rw [u.prod_onProd_same _ hur] at htown hthost
    refine ⟨htown.trans hown, htjobs, htdram, fun h' => absurd h' h, fun _ => ⟨hthost.trans hcount, htregs.trans ?_⟩⟩
    rw [State.onProd_eq]
    exact hregs

/-! ### A record held for a full ring (R99) -/

/-- Where a record goes, and its bytes, depend on the registers and the ring's own count. -/
theorem State.cqWrite_of_regs {s t : State} {n : Nat} (hregs : t.regs = s.regs) (hown : (t.cq n).ring.own = (s.cq n).ring.own) (r : CqRec) :
    t.cqWrite n r = s.cqWrite n r := by
  have hphase : t.phase (.cq n) = s.phase (.cq n) := by
    rw [State.phase, State.phase, State.entries_of_regs hregs, show (t.prod (.cq n)).own = (s.prod (.cq n)).own from hown]
  rw [State.cqWrite, State.cqWrite, State.ringBase_of_regs hregs, State.entries_of_regs hregs, hown, hphase, State.ronvelHi, State.ronvelHi,
    State.regF_of_regs hregs]

theorem State.writeCq_held (n m : Nat) (r : CqRec) : ((s.writeCq n r).cq m).held = (s.cq m).held := by
  refine ((s.writeCq_trails n r).held m).trans ?_
  rw [State.putCq, State.onProd_cq_held, State.cq, State.hostWrite_rings, State.cq]

theorem State.writeCq_cancels (n : Nat) (r : CqRec) : (s.writeCq n r).rings.cancels = s.rings.cancels := by
  refine (s.writeCq_trails n r).cancels.trans ?_
  rw [State.putCq, State.onProd_cancels, State.hostWrite_rings]

/-- The one record held for a ring with room is written, and the ring is then not full. -/
theorem State.flushRing_cq_one {n : Nat} {r : CqRec} (hn : n < s.rings.cqs.length) (hheld : (s.cq n).held = [r])
    (hroom : s.occupied (.cq n) < s.entries (.cq n)) :
    s.flushRing (.cq n) = ((s.onCq n fun c => { c with held := [] }).writeCq n r).onProd (.cq n) fun p => { p with full := false } := by
  have hempty : ((((s.onCq n fun c => { c with held := [] }).writeCq n r).cq n).held) = [] := by
    rw [State.writeCq_held, s.cq_onCq_same _ hn]
  rw [State.flushRing, hheld, List.length_singleton, State.flushCq, hheld]
  simp only [ge_iff_le, not_le.2 hroom, if_false, State.flushCq, hempty]

theorem State.doorbellReadDone_held {n index gen : Nat} {r : CqRec} (hn : n < 64) (hinv : s.Inv) (hemb : s.emb = false)
    (hen : s.ringEn (.cq n) = true) (hread : (s.cq n).ring.reading = true) (hcancels : s.rings.cancels = [])
    (hi : index < 65536) (hg : gen < 65536) (hbase : s.ringBase (.cq n) % 4096 = 0) (hheld : (s.cq n).held = [r])
    (hrange : index < s.entries (.cq n))
    (hroom : modSub (s.countMod (.cq n)) (s.cq n).ring.own (s.hostCount (.cq n) index gen) < s.entries (.cq n)) :
    s.cqWrite n r ∈ (s.doorbellReadDone (64 + n) index gen).out ∧ ((s.doorbellReadDone (64 + n) index gen).cq n).held = [] := by
  have hr : s.hasProd (.cq n) := by rw [State.hasProd, hinv.numbers.cqs]; exact hn
  rw [s.doorbellReadDone_of_read (ringOf_cq hn) hread hemb hen hi hg]
  generalize hu : s.readOver (.cq n) = u
  have htakes : s.Takes u := hu ▸ s.readOver_takes _
  have hregs : u.regs = s.regs := hu ▸ s.readOver_regs _
  have hown : (u.cq n).ring.own = (s.cq n).ring.own := hu ▸ (s.readOver_prod (.cq n) (.cq n)).1
  have hur : u.hasProd (.cq n) := hu ▸ (s.readOver_hasProd _ _).2 hr
  have hent : u.entries (.cq n) = s.entries (.cq n) := State.entries_of_regs hregs _
  have hcount : u.hostCount (.cq n) index gen = s.hostCount (.cq n) index gen := by simp only [State.hostCount, State.countMod, hent]
  have hin : ¬u.prodOutOfRange (.cq n) index gen := by
    simp only [State.prodOutOfRange, State.prod, State.countMod, hcount, hent, hown]
    rw [State.countMod] at hroom
    omega
  rw [(u.takeCount_prod hur index gen).2 hin]
  generalize hv : (u.onProd (.cq n) fun p => { p with host := u.hostCount (.cq n) index gen }) = v
  have hvtakes : s.Takes v := htakes.trans (hv ▸ u.onProd_takes _ _)
  have hvprod : v.prod (.cq n) = { u.prod (.cq n) with host := u.hostCount (.cq n) index gen } := hv ▸ u.prod_onProd_same _ hur
  have hvregs : v.regs = s.regs := by rw [← hv, State.onProd_eq]; exact hregs
  have hvr : n < v.rings.cqs.length := by
    have := (u.onProd_onProd_hasProd (.cq n) (.cq n) fun p => { p with host := u.hostCount (.cq n) index gen }).2 hur
    rwa [hv] at this
  have hvroom : v.occupied (.cq n) < v.entries (.cq n) := by
    have hvent : v.entries (.cq n) = s.entries (.cq n) := State.entries_of_regs hvregs _
    have hvown : (u.prod (.cq n)).own = (s.cq n).ring.own := hown
    rw [State.occupied, hvprod, hvent, State.countMod, hvent]
    dsimp only
    rw [hcount, hvown]
    exact hroom
  rw [v.flushRing_cq_one hvr ((hvtakes.held n).trans hheld) hvroom]
  generalize hw : (v.onCq n fun c => { c with held := [] }) = w
  have hwregs : w.regs = s.regs := by rw [← hw]; exact hvregs
  have hwown : (w.cq n).ring.own = (s.cq n).ring.own := by
    rw [← hw, v.cq_onCq_proj (fun c => c.ring.own) n n (fun c => { c with held := [] }) fun _ => rfl]
    exact (congrArg ProdRing.own hvprod).trans hown
  have hwheld : (w.cq n).held = [] := by rw [← hw, v.cq_onCq_same _ hvr]
  have hwcancels : w.rings.cancels = [] := by rw [← hw]; exact hvtakes.cancels.trans hcancels
  have hwbase : w.ringBase (.cq n) % 4096 = 0 := by rw [State.ringBase_of_regs hwregs]; exact hbase
  obtain ⟨more, hout⟩ := w.writeCq_out r ((State.regB_of_regs hwregs _ _).trans hemb) hwbase
  have hfull := (w.writeCq n r).onProd_trails (.cq n) fun p => { p with full := false }
  rw [State.releaseCancels_of_none _ (hfull.cancels.trans ((w.writeCq_cancels n r).trans hwcancels))]
  have hlast := hfull.trans (State.readOnce_trails _ (.cq n) (s.readNoted (.cq n)))
  refine ⟨hlast.out.subset ?_, (hlast.held n).trans ((w.writeCq_held n n r).trans hwheld)⟩
  rw [hout, State.cqWrite_of_regs hwregs hwown]
  simp

/-- Settles O12: by the range of the count that the read brings; the one record held goes out when there is room. -/
theorem doorbellCounts : Obligations.DoorbellCounts := by
  refine ⟨fun s n index gen hn hon hinv hemb hen hread hcancels hi hg => ?_,
    fun s rec index gen r hring hrec hon hinv hemb hen hread hcancels hi hg hcq herr hldg => ?_,
    fun s n index gen r hn hon hinv hemb hen hread hcancels hrange hg hi hbase hheld hroom => ?_⟩
  · obtain ⟨hown, hbad, hgood⟩ := s.doorbellReadDone_sq hn hinv hemb hen hread hcancels hi hg
    refine ⟨_, s.next_of_on hon rfl, hown, ?_⟩
    dsimp only
    split
    next h => exact hbad h
    next h => exact hgood h
  · have hr := s.hasProd_of_ringOf hring hrec hinv.numbers.cqs
    have hnone : s.noneHeld r := by
      cases r with
      | sq _ => exact trivial
      | cq n => exact hcq n rfl
      | err => exact herr rfl
      | ldg => exact hldg rfl
    obtain ⟨hown, hjobs, hdram, hbad, hgood⟩ := s.doorbellReadDone_prod hring hr hinv hemb hen hread hcancels hi hg hnone
    refine ⟨_, s.next_of_on hon rfl, hown, hjobs, hdram, ?_⟩
    dsimp only
    split
    next h => exact hbad h
    next h => exact hgood h
  · obtain ⟨hout, hnone⟩ := s.doorbellReadDone_held hn hinv hemb hen hread hcancels hi hg hbase hheld hrange hroom
    exact ⟨_, s.next_of_on hon rfl, hout, hnone⟩

end Sys2Proof.Machine
end

section
/-! PROOF. CANCEL of a job whose job-end record is held, in a state in which its slot also waits for a self-test (R101 to R104, R566). -/

namespace Sys2Proof.Machine

set_option Elab.async false

/-- A Ronvel 1.0 descriptor of an opcode for completion ring 3, zero elsewhere: tag 0, and a CANCEL's targets ring 0 and tag 0. -/
def plainDesc (op : Nat) : Bytes := [0x10, BitVec.ofNat 8 op, 0, 0, 3] ++ zeros 59

/-- The job of a BAY_BIST of bay 0, in slot 2 of ring 0. -/
def bistJob (p : JobPhase) : Job := { newJob 2 0 0 false (plainDesc opBayBist) true with phase := p }

/-- TEST with submission ring 0 and completion ring 3 enabled, and a CANCEL at the head of ring 0. The job of a BAY_BIST has ended: its
job-end record is held for ring 3, while its slot still stands in the queue of the self-tests. -/
def endedInBistQueue : State :=
  { State.reset with
    regs := [(rRingSqCtrl 0, BitVec.ofNat 32 (1 + 4 * 2 + 1 * 64 + 3 * 2 ^ 15)), (rRingCqCtrl 3, BitVec.ofNat 32 (1 + 4 * 2))]
    dev := { State.reset.dev with state := .test }
    rst := { State.reset.rst with fabricRelease := false, epOpen := false }
    rings := { State.reset.rings with
      sqs := State.reset.rings.sqs.set 0 { SqRing.empty with fetched := [(plainDesc opCancel, none)] }
      cqs := State.reset.rings.cqs.set 3 { CqRing.empty with held := [jobEndRec 0 (plainDesc opBayBist) stOk 0 0 0 0 0 0 (some 2)] } }
    jobs := [bistJob .ended]
    jobCount := 1
    sch := { State.reset.sch with bistQueue := [2] } }

theorem inv_endedInBistQueue : endedInBistQueue.Inv := State.inv_of_ok _ (by decide +kernel)

theorem ready_endedInBistQueue : endedInBistQueue.ready 0 (plainDesc opCancel) none := by
  constructor <;> decide +kernel

/-- The CANCEL names the ended job, and the self-test that waits in its slot begins behind it. -/
theorem cancel_endedInBistQueue :
    endedInBistQueue.cancelTargets (plainDesc opCancel) = [bistJob .ended] ∧
      ((endedInBistQueue.cancel 0).bistStart).job? 2 = some (bistJob .bistDrain) := by decide +kernel

/-- Refutes O36: the clause on CANCEL does not say that a job whose job-end record is held waits for no self-test. Without that premise
the CANCEL of such a job is followed by the beginning of its test, and the job that holds the slot is in BIST_DRAIN, not ended. -/
theorem not_teardownAndCancelEndJobs : ¬ Obligations.TeardownAndCancelEndJobs := by
  intro h
  obtain ⟨-, hcancel, -⟩ := h endedInBistQueue (by decide) inv_endedInBistQueue
  obtain ⟨t, hexec, -, -, hends⟩ := hcancel 0 (plainDesc opCancel) ready_endedInBistQueue (by decide) (by decide +kernel)
  obtain ⟨htargets, hjob⟩ := cancel_endedInBistQueue
  have hact : exec (.cancel 0) endedInBistQueue = .next (endedInBistQueue.cancel 0).bistStart :=
    endedInBistQueue.next_of_on (by decide) rfl
  obtain rfl : (endedInBistQueue.cancel 0).bistStart = t := Host.Outcome.next.inj (hact.symm.trans hexec)
  have hended : JobPhase.bistDrain = .ended := (hends (bistJob .ended) (htargets ▸ List.mem_singleton_self _)).2 _ hjob
  cases hended

end Sys2Proof.Machine
end

section
/-! PROOF. LC_ADMISSION of a job whose ring's number no submission ring has: the count of refused admissions moves the ring that its
records go to (R83, R477). -/

namespace Sys2Proof.Machine

set_option Elab.async false

/-- A stage that makes one run for each page-side, and a committed folio of handle 0 that is this stage. -/
def oneStage : Stage :=
  { kind := 4, input := 0xFF, wingParts := 1, conc := false, card := false, list := 0, listLen := 4, units := 2, streams := 1, winKib := 16,
    expand4k := 0, stripeH := 8, minW := 1, maxW := 64, minH := 1, maxH := 64, bound := 1000, catAllow := 0, textClasses := 0, kv := none,
    shelfOff := 0, shelfShards := 0 }

def oneStageFolio : Folio :=
  { handle := 0, addr := 0x200000, len := 65536, version := 0x20, committed := true, unloading := false, loaderSlot := none, pinned := false,
    pinWanted := false, grammarBase := 0, grammars := [], defaultGrammar := 0, prefixSeed := 0, seqSlots := 1, stages := [oneStage],
    kvs := [], quant := [], commandOff := 0x1000, params := none, bindings := [], fixups := [], digest := zeros 32, grammarDigests := [] }

/-- An LC RUN of folio 0 over one page-side for completion ring 0. The number of its ring is 2886, whose control register would lie at
the offset of SCH_REFUSED. -/
def strayJob : Job :=
  { newJob 2 0 2886 true ([0x10, BitVec.ofNat 8 opRun] ++ zeros 26 ++ [1] ++ zeros 35) true with phase := .admission }

/-- SERVICE with every carrel out of work, as every bay is held in reset. Completion ring 0, which the RUN names, is not enabled, so the
field that stands for its ERR_CQ takes its records: bits 15 to 20 of SCH_REFUSED, which say 2 until one more refusal is counted. -/
def strayAdmission : State :=
  { State.reset with
    regs := [(rRingCqBaseLo 2, 0x1000#32), (rRingCqCtrl 2, 8#32), (rSchRefused, 0x17FFF#32)]
    dev := { State.reset.dev with state := .service }
    rst := { State.reset.rst with fabricRelease := false, epOpen := false }
    jobs := [strayJob]
    jobCount := 1
    fol := { State.reset.fol with folios := [oneStageFolio] } }

/-- A write to host memory at an address. -/
def Out.goesTo (a : Nat) : Out → Bool
  | .hostWrite b _ _ => decide (b = a)
  | _ => false

theorem inv_strayAdmission : strayAdmission.Inv := State.inv_of_ok _ (by decide +kernel)

theorem slotJob_strayAdmission : strayAdmission.slotJob strayJob.sq strayJob.desc strayJob := by
  constructor <;> decide +kernel

theorem cqOpen_strayAdmission : strayAdmission.cqOpen (strayAdmission.cqFor strayJob.sq strayJob.desc) := by
  constructor <;> decide +kernel

/-- The record is due at completion ring 2, whose entry lies at 0x1000, and nothing is sent there. -/
theorem lcAdmission_strayAdmission :
    strayAdmission.ringBase (.cq (strayAdmission.cqFor strayJob.sq strayJob.desc)) +
        (strayAdmission.cq (strayAdmission.cqFor strayJob.sq strayJob.desc)).ring.own %
          strayAdmission.entries (.cq (strayAdmission.cqFor strayJob.sq strayJob.desc)) * 32 = 0x1000 ∧
      (strayAdmission.lcAdmission 2 0).out.any (Out.goesTo 0x1000) = false := by decide +kernel

/-- Refutes O20: the clause on an admission without an eligible carrel does not bound the number of the job's ring. With 2886 the count
of R477's refusals, SCH_REFUSED, is read as that ring's ERR_CQ, and the job-end record goes to completion ring 3 instead of 2. -/
theorem not_runsAreCheckedAndAdmitted : ¬ Obligations.RunsAreCheckedAndAdmitted := by
  intro h
  obtain ⟨-, hadmission⟩ := h strayAdmission inv_strayAdmission (by decide +kernel)
  obtain ⟨hrefused, -⟩ := hadmission strayJob oneStageFolio 0 (by decide +kernel) (by decide +kernel) rfl rfl (by decide +kernel)
  obtain ⟨t, detail, hexec, hrecord, -⟩ := hrefused (by decide +kernel) slotJob_strayAdmission cqOpen_strayAdmission
  obtain ⟨hentry, hnone⟩ := lcAdmission_strayAdmission
  have hact : exec (.lcAdmission 2 0) strayAdmission = .next (strayAdmission.lcAdmission 2 0) :=
    strayAdmission.next_of_on (by decide) rfl
  obtain rfl : strayAdmission.lcAdmission 2 0 = t := Host.Outcome.next.inj (hact.symm.trans hexec)
  exact Bool.noConfusion (hnone.symm.trans (List.any_eq_true.2 ⟨_, hrecord, decide_eq_true hentry⟩))

end Sys2Proof.Machine
end

section
/-! PROOF. RECORD_DISPATCH of a job whose ring's number no submission ring has: the count of failed records moves the ring that its
records go to (R83, R138). -/

namespace Sys2Proof.Machine

set_option Elab.async false

/-- A QUIRE job over one record of which no byte lies within INPUT_LEN, for completion ring 0. The number of its ring is 837, whose
control register would lie at the offset of ACC_FAIL_COUNT. -/
def strayQuireJob : Job := { strayJob with sq := 837, phase := .running }

/-- SERVICE with completion ring 0, which the job names, not enabled, so that the field that stands for its ERR_CQ takes its records:
bits 15 to 20 of ACC_FAIL_COUNT, which say 0 until the 32,768th DECODE_CORRUPT is counted. -/
def strayDispatch : State :=
  { strayAdmission with
    regs := [(rRingCqBaseLo 0, 0x1000#32), (rRingCqCtrl 0, 8#32), (rAccFailCount, 0x7FFF#32)]
    jobs := [strayQuireJob] }

theorem inv_strayDispatch : strayDispatch.Inv := State.inv_of_ok _ (by decide +kernel)

theorem runs_strayDispatch : strayDispatch.runs strayQuireJob oneStageFolio := by
  constructor <;> decide +kernel

theorem cqOpen_strayDispatch : strayDispatch.cqOpen (strayDispatch.cqFor strayQuireJob.sq strayQuireJob.desc) := by
  constructor <;> decide +kernel

theorem openSeq_strayDispatch : strayDispatch.openSeq strayQuireJob 0 where
  job := by decide +kernel
  alive := rfl
  going := by decide
  engines := fun _ hx => absurd hx (List.not_mem_nil)
  cq := cqOpen_strayDispatch

/-- The record is due at completion ring 0, whose entry lies at 0x1000, and nothing is sent there. -/
theorem recordDispatch_strayDispatch :
    strayDispatch.ringBase (.cq (strayDispatch.cqFor strayQuireJob.sq strayQuireJob.desc)) +
        (strayDispatch.cq (strayDispatch.cqFor strayQuireJob.sq strayQuireJob.desc)).ring.own %
          strayDispatch.entries (.cq (strayDispatch.cqFor strayQuireJob.sq strayQuireJob.desc)) * 32 = 0x1000 ∧
      (strayDispatch.recordDispatch 2 []).out.any (Out.goesTo 0x1000) = false := by decide +kernel

/-- Refutes O18: the clause on lost framing does not bound the number of the job's ring. With 837 the count of R138's failures,
ACC_FAIL_COUNT, is read as that ring's ERR_CQ, and the sequence record goes to completion ring 1 instead of 0. -/
theorem not_recordsDecodeOrFail : ¬ Obligations.RecordsDecodeOrFail := by
  intro h
  obtain ⟨hdispatch, -⟩ := h strayDispatch inv_strayDispatch
  obtain ⟨-, -, hlost⟩ := hdispatch strayQuireJob oneStageFolio [] runs_strayDispatch (by decide) rfl (by decide) (by decide)
  obtain ⟨t, hexec, ⟨hrecord, -⟩, -⟩ := hlost 3 (by decide) openSeq_strayDispatch
  obtain ⟨hentry, hnone⟩ := recordDispatch_strayDispatch
  have hact : exec (.recordDispatch 2 []) strayDispatch = .next (strayDispatch.recordDispatch 2 []) :=
    strayDispatch.next_of_on (by decide) rfl
  obtain rfl : strayDispatch.recordDispatch 2 [] = t := Host.Outcome.next.inj (hact.symm.trans hexec)
  exact Bool.noConfusion (hnone.symm.trans (List.any_eq_true.2 ⟨_, hrecord, decide_eq_true hentry⟩))

end Sys2Proof.Machine
end

section
/-! PROOF. What the end of a context, a sequence or a job leaves (R92, R96, R324, R456): outside embedded mode DRAM stays, nothing sent is
taken back, and every job is there only if it was. -/

namespace Sys2Proof.Machine

set_option Elab.async false

/-- From `s₀` to `s`, outside embedded mode and with canonical registers, things end: DRAM stays, nothing sent is taken back, a job that
is there was there, has ended no fewer sequences and works only if it worked, and the packed batches that `K` names are there. -/
structure State.Ends (K : Batch → Prop) (s₀ s : State) : Prop where
  dram : s.dram = s₀.dram
  regs : cellsFrom regReset 0 s.regs = true
  host : s.emb = false
  out : s₀.out <+: s.out
  jobs : ∀ n k, s.job? n = some k → ∃ k₀, s₀.job? n = some k₀ ∧ k₀.ended ⊆ k.ended ∧ (k.alive = true → k₀.alive = true)
  batches : ∀ c ∈ s₀.acc.batches, c.packed = true → K c → c ∈ s.acc.batches

/-- Whatever is found after the change of one element was found before, or is its change. -/
theorem find?_updFirst_some {α : Type} {p q : α → Bool} {f : α → α} (hf : ∀ a, q (f a) = q a) {l : List α} {b : α}
    (h : (updFirst p f l).find? q = some b) : ∃ a, l.find? q = some a ∧ (b = a ∨ b = f a) := by
  induction l with
  | nil => cases h
  | cons a l ih =>
    cases hp : p a <;> cases hq : q a <;> simp only [updFirst, hp, List.find?_cons, hf, hq, if_true, Bool.false_eq_true, if_false] at h ⊢
    · exact ih h
    · exact ⟨a, rfl, .inl (Option.some.inj h).symm⟩
    · exact ⟨b, h, .inl rfl⟩
    · exact ⟨a, rfl, .inr (Option.some.inj h).symm⟩

namespace State

variable {K : Batch → Prop} {s₀ s t : State}

theorem Ends.refl (hregs : cellsFrom regReset 0 s.regs = true) (hhost : s.emb = false) : Ends K s s where
  dram := rfl
  regs := hregs
  host := hhost
  out := List.prefix_rfl
  jobs _ k h := ⟨k, h, fun _ h => h, id⟩
  batches _ h _ _ := h

/-- A change of what the relation does not speak of, and of what is sent besides. -/
theorem Ends.same (h : Ends K s₀ s) (dram : t.dram = s.dram := by rfl) (regs : t.regs = s.regs := by rfl)
    (out : s.out <+: t.out := by exact List.prefix_rfl) (jobs : t.jobs = s.jobs := by rfl)
    (batches : t.acc.batches = s.acc.batches := by rfl) : Ends K s₀ t where
  dram := dram.trans h.dram
  regs := regs ▸ h.regs
  host := (congrArg (wbit · 0) (State.reg_of_regs regs rMgtEmb)).trans h.host
  out := h.out.trans out
  jobs n k hk := h.jobs n k ((s.job?_of_jobs jobs n).symm.trans hk)
  batches c hc hp hK := batches ▸ h.batches c hc hp hK

theorem Ends.setReg {off : Nat} {v : Word} (h : Ends K s₀ s) (hoff : off ≠ rMgtEmb := by decide) : Ends K s₀ (s.setReg off v) :=
  { h with
    regs := s.setReg_regsWf off v h.regs
    host := (congrArg (wbit · 0) (s.reg_setReg_other off rMgtEmb v hoff.symm h.regs)).trans h.host }

/-- A change of jobs that keeps their slots, what has ended of them, and whether they work. -/
theorem Ends.updJobs {p : Job → Bool} {f : Job → Job} (h : Ends K s₀ s) (hslot : ∀ j, (f j).slot = j.slot)
    (hended : ∀ j, j.ended ⊆ (f j).ended) (halive : ∀ j, (f j).alive = true → j.alive = true) :
    Ends K s₀ { s with jobs := updFirst p f s.jobs } :=
  { h with
    jobs := fun n k hk => by
      obtain ⟨a, ha, hka⟩ := find?_updFirst_some (fun j => by rw [hslot]) hk
      obtain ⟨k₀, hk₀, hsub, hal⟩ := h.jobs n a ha
      obtain rfl | rfl := hka
      · exact ⟨k₀, hk₀, hsub, hal⟩
      · exact ⟨k₀, hk₀, fun i hi => hended a (hsub hi), fun h => hal (halive a h)⟩ }

/-- A job slot is freed. -/
theorem Ends.dropJob {slot : Nat} (h : Ends K s₀ s) : Ends K s₀ { s with jobs := s.jobs.filter (·.slot ≠ slot) } :=
  { h with
    jobs := fun n k hk => by
      refine h.jobs n k ?_
      change (s.jobs.filter _).find? _ = some k at hk
      rw [List.find?_filter] at hk
      have hslot : k.slot ≠ slot ∧ k.slot = n := by simpa using List.find?_some hk
      rw [← hk]
      exact congrArg s.jobs.find? (funext fun a => by by_cases ha : a.slot = n <;> simp [ha, hslot.2 ▸ hslot.1]) }

theorem Ends.onBatches {f : Acc → Acc} (h : Ends K s₀ s) (hf : ∀ a : Acc, ∀ c ∈ a.batches, c.packed = true → K c → c ∈ (f a).batches) :
    Ends K s₀ (s.onAcc f) :=
  { h with batches := fun c hc hp hK => hf _ c (h.batches c hc hp hK) hp hK }

theorem Ends.onAcc {f : Acc → Acc} (h : Ends K s₀ s) (hf : ∀ a : Acc, (f a).batches = a.batches := by exact fun _ => rfl) :
    Ends K s₀ (s.onAcc f) :=
  h.same (batches := hf _)

theorem Ends.onSch {f : Sch → Sch} (h : Ends K s₀ s) : Ends K s₀ (s.onSch f) := h.same
theorem Ends.onKv {f : Kv → Kv} (h : Ends K s₀ s) : Ends K s₀ (s.onKv f) := h.same
theorem Ends.onCol {f : Col → Col} (h : Ends K s₀ s) : Ends K s₀ (s.onCol f) := h.same
theorem Ends.onFol {f : Fol → Fol} (h : Ends K s₀ s) : Ends K s₀ (s.onFol f) := h.same
theorem Ends.onSec {f : Sec → Sec} (h : Ends K s₀ s) : Ends K s₀ (s.onSec f) := h.same
theorem Ends.onErr {f : Errs → Errs} (h : Ends K s₀ s) : Ends K s₀ (s.onErr f) := h.same
theorem Ends.onRings {f : Rings → Rings} (h : Ends K s₀ s) : Ends K s₀ (s.onRings f) := h.same
theorem Ends.onLdg {f : Ldg → Ldg} (h : Ends K s₀ s) : Ends K s₀ (s.onLdg f) := h.same
theorem Ends.onCtx {id : Nat} {f : Ctx → Ctx} (h : Ends K s₀ s) : Ends K s₀ (s.onCtx id f) := h.same
theorem Ends.onCarrel {c : Nat} {f : Carrel → Carrel} (h : Ends K s₀ s) : Ends K s₀ (s.onCarrel c f) := h.same
theorem Ends.onSeq {slot : Nat} {f : SeqSlot → SeqSlot} (h : Ends K s₀ s) : Ends K s₀ (s.onSeq slot f) := h.same
theorem Ends.onRefs {a : Nat} {f : Nat → Nat} (h : Ends K s₀ s) : Ends K s₀ (s.onRefs a f) := h.same
theorem Ends.sweepPools (h : Ends K s₀ s) : Ends K s₀ s.sweepPools := h.same
theorem Ends.poolDone {p : PoolOwner → Bool} (h : Ends K s₀ s) : Ends K s₀ (s.poolDone p) := h.same
theorem Ends.emit {o : Out} (h : Ends K s₀ s) : Ends K s₀ (s.emit o) := h.same (out := List.prefix_append _ _)
theorem Ends.drawBytes {n : Nat} (h : Ends K s₀ s) : Ends K s₀ (s.drawBytes n).2 := h.same
theorem Ends.bumpSat {off lo n k : Nat} (h : Ends K s₀ s) (hoff : off ≠ rMgtEmb := by decide) : Ends K s₀ (s.bumpSat off lo n k) :=
  h.setReg hoff

theorem Ends.letsGo (h : Ends K s₀ s) (hgo : s.LetsGo t) : Ends K s₀ t := by
  obtain ⟨_, _, rfl⟩ := hgo
  exact h.same

theorem Ends.ite {c : Prop} {_ : Decidable c} (h : Ends K s₀ s) (h' : Ends K s₀ t) : Ends K s₀ (if c then s else t) := by
  split <;> assumption

theorem Ends.foldl {α : Type} {f : State → α → State} {l : List α} (h : Ends K s₀ s) (hf : ∀ t a, Ends K s₀ t → Ends K s₀ (f t a)) :
    Ends K s₀ (l.foldl f s) :=
  List.foldlRecOn l f h fun t ht a _ => hf t a ht

theorem Ends.foldlSnd {α β : Type} {f : β × State → α → β × State} {l : List α} {p : β × State} (h : Ends K s₀ p.2)
    (hf : ∀ t a, Ends K s₀ t.2 → Ends K s₀ (f t a).2) : Ends K s₀ (l.foldl f p).2 :=
  List.foldlRecOn l f (motive := fun q => Ends K s₀ q.2) h fun t ht a _ => hf t a ht

/-! ### Accounts and summaries -/

theorem Ends.charge {a : Account} (h : Ends K s₀ s) : Ends K s₀ (s.charge a) := by
  rw [s.charge_eq]
  exact h.same

theorem Ends.chargePcie {c n : Nat} (h : Ends K s₀ s) : Ends K s₀ (s.chargePcie c n) := .ite h.charge h.charge

theorem Ends.chargeCtx {x : Ctx} {n : Nat} {mk : State → Nat → Nat → State} (h : Ends K s₀ s)
    (hmk : ∀ t a b, Ends K s₀ t → Ends K s₀ (mk t a b)) : Ends K s₀ (s.chargeCtx x n mk) := by
  unfold State.chargeCtx
  split
  · exact hmk _ _ _ (.foldl h fun _ _ h => hmk _ _ _ h)
  · exact hmk _ _ _ h
  · exact hmk _ _ _ h

theorem Ends.raise {ev : ErrEvent} (h : Ends K s₀ s) : Ends K s₀ (s.raise ev) := by
  unfold State.raise
  dsimp only
  split
  · exact .ite h.onErr h.onErr.onSch
  · exact h.onErr

/-! ### Engines given back, and the ATTN that goes on with them (R341, R465) -/

theorem rCarErrcnt_ne (c : Nat) : rCarErrcnt c ≠ rMgtEmb := by
  simp only [rCarErrcnt, rMgtEmb]
  omega

theorem Ends.locWrite {x : Ctx} {a : Nat} {bs : Bytes} (h : Ends K s₀ s) : Ends K s₀ (s.locWrite x a bs) := by
  unfold State.locWrite
  split
  · exact h.onCarrel
  · exact h

theorem Ends.injectRead {c : Nat} {words : List Nat} (h : Ends K s₀ s) : Ends K s₀ (s.injectRead c words) := by
  unfold State.injectRead
  dsimp only
  split
  · exact h
  · exact .ite (Ends.onCarrel h.setReg) h

theorem Ends.readWord64 {x : Ctx} {c w : Nat} (h : Ends K s₀ s) : Ends K s₀ (s.readWord64 x c w).1 := by
  have hcount := fun lo : Nat => (h.drawBytes (n := 2)).bumpSat (lo := lo) (n := 8) (k := 1) (rCarErrcnt_ne c)
  unfold State.readWord64
  split
  · exact h
  · dsimp only
    split
    · exact hcount 8
    · exact (hcount 0).raise

theorem Ends.readWords64 {x : Ctx} {c : Nat} {ws : List Nat} (h : Ends K s₀ s) : Ends K s₀ (s.readWords64 x c ws).1 := by
  induction ws generalizing s with
  | nil => exact h
  | cons w ws ih =>
    have hword := h.readWord64 (x := x) (c := c) (w := w)
    unfold State.readWords64
    split <;> rename_i e <;> rw [e] at hword
    · exact hword
    · exact ih hword

theorem Ends.accessing {x : Ctx} {c : Nat} {reads writes : List (Nat × Nat)} {run : State → State} (h : Ends K s₀ s)
    (hrun : ∀ t, Ends K s₀ t → Ends K s₀ (run t)) : Ends K s₀ (s.accessing x c reads writes run) := by
  have hsense : Ends K s₀ (s.sense x c reads writes).1 := h.injectRead.readWords64
  unfold State.accessing
  split <;> rename_i e <;> rw [e] at hsense
  · exact hsense.raise
  · exact hrun _ hsense

theorem Ends.injectResidue {c : Nat} {cells : List AccCell} (h : Ends K s₀ s) : Ends K s₀ (s.injectResidue c cells).2 := by
  unfold State.injectResidue
  split
  · dsimp only
    split <;> exact Ends.drawBytes h.setReg
  · exact h

theorem Ends.attnBlock {x : Ctx} {d p : Bytes} {b : Block} (h : Ends K s₀ s) : Ends K s₀ (s.attnBlock x d p b).2 :=
  .foldlSnd h fun _ _ h => h.locWrite.locWrite.locWrite

theorem Ends.consumePage {id : Nat} {d : Bytes} {i : Nat} (h : Ends K s₀ s) : Ends K s₀ (s.consumePage id d i) := by
  unfold State.consumePage
  split
  · exact h
  · split
    · exact h
    · split
      · exact h
      · refine Ends.onCtx (Ends.foldlSnd h fun _ _ h => ?_)
        exact ((h.attnBlock.chargeCtx fun _ _ _ => Ends.charge).chargeCtx fun _ _ _ => Ends.charge).chargeCtx fun _ _ _ => Ends.charge

theorem Ends.takePageOf {x : Ctx} {d : Bytes} {i : Nat} (h : Ends K s₀ s) : Ends K s₀ (s.takePageOf x d i) := by
  unfold State.takePageOf
  split
  · exact h
  · rename_i c _ _
    refine h.accessing fun t h => ?_
    cases e : t.attnResidue x c (t.firstScore x d i) with
    | none => exact h.consumePage
    | some u =>
      obtain ⟨det, -, rfl⟩ := Option.map_eq_some_iff.1 e
      exact (h.injectResidue.bumpSat (rCarErrcnt_ne c)).raise

theorem Ends.attnGoesOn {id : Nat} (h : Ends K s₀ s) : Ends K s₀ (s.attnGoesOn id) := by
  have hqueued : ∀ d, Ends K s₀ (s.consumeQueued id d) := fun d => by
    unfold State.consumeQueued
    split
    · exact h
    · refine Ends.onCtx (.foldl h fun t _ h => ?_)
      split
      · exact .ite h h.takePageOf
      · exact h
  unfold State.attnGoesOn
  split
  · exact .ite h (hqueued _)
  · exact h

theorem Ends.returnTo {c id : Nat} (h : Ends K s₀ s) : Ends K s₀ (s.returnTo c id) := by
  have hload : ∀ t x, Ends K s₀ t → Ends K s₀ (t.loadPass x c) := fun t x h => by
    unfold State.loadPass
    split
    · split
      · exact h
      · exact Ends.onCtx (.ite h h.onCarrel)
    · exact h
  unfold State.returnTo
  split
  · exact h
  · exact .ite h (.ite h.onCtx (hload _ _ h.onCtx))

theorem Ends.giveBack {c : Nat} (h : Ends K s₀ s) : Ends K s₀ (s.giveBack c) :=
  .foldl (.foldl h fun _ _ => Ends.returnTo) fun _ _ => Ends.attnGoesOn

/-! ### Contexts, and what a job holds (R324, R456, R499) -/

theorem Ends.dropRefs {l : List Nat} (h : Ends K s₀ s) : Ends K s₀ (s.dropRefs l) := (Ends.foldl h fun _ _ => Ends.onRefs).sweepPools

theorem Ends.dropPageBuffers {number idx : Nat} {l : List Nat} (h : Ends K s₀ s) : Ends K s₀ (s.dropPageBuffers number idx l) :=
  (Ends.foldl h.onAcc fun _ _ => Ends.onRefs).sweepPools

theorem Ends.endCtx {id : Nat} (h : Ends K s₀ s) : Ends K s₀ (s.endCtx id) := by
  unfold State.endCtx
  split
  · exact h
  · rename_i x _
    cases x.place with
    | none => exact h.onSch.onAcc.dropRefs
    | some p => exact h.onCarrel.onSch.onAcc.giveBack.dropRefs

theorem Ends.dropPlan {j : Job} (h : Ends K s₀ s) : Ends K s₀ (s.dropPlan j) := by
  unfold State.dropPlan
  split
  · exact h
  · refine Ends.updJobs (Ends.foldl h fun _ _ h => ?_) (fun _ => rfl) (fun _ _ h => h) fun _ h => h
    exact h.updJobs (fun _ => rfl) (fun _ _ h => h) fun _ h => h

/-- A job lets everything go; of the batches those of other jobs stay. -/
theorem Ends.releaseJob {slot : Nat} (h : Ends K s₀ s) (hK : ∀ j, s.job? slot = some j → ∀ c, K c → c.jobNumber ≠ j.number) :
    Ends K s₀ (s.releaseJob slot) := by
  unfold State.releaseJob
  split
  · exact h
  · rename_i j hj
    refine Ends.dropPlan (Ends.onRings (Ends.onSec (Ends.onCol (Ends.onFol (Ends.sweepPools (Ends.poolDone
      (Ends.foldl (Ends.onBatches (Ends.onSch ?_) ?_) fun _ _ => Ends.onRefs)))))))
    · exact Ends.foldl (Ends.foldl (Ends.foldl h fun _ _ => Ends.endCtx) fun _ _ => Ends.onSeq) fun t k h => h.letsGo (t.releaseSeq_letsGo k)
    · exact fun _ c hc _ hKc => List.mem_filter.2 ⟨hc, by simpa using hK j hj c hKc⟩

/-! ### Completion records (R92, R98 to R100) -/

theorem Ends.hostWrite {a : Nat} {bs : Bytes} {bulk : Bool} (h : Ends K s₀ s) : Ends K s₀ (s.hostWrite a bs bulk) := by
  rw [State.hostWrite, if_neg (by simp [h.host])]
  exact Ends.foldl h fun _ _ => Ends.emit

theorem Ends.onProd {r : RingId} {f : ProdRing → ProdRing} (h : Ends K s₀ s) : Ends K s₀ (s.onProd r f) := by
  rw [s.onProd_eq]
  exact h.same

theorem Ends.msix {v : Nat} (h : Ends K s₀ s) : Ends K s₀ (s.msix v) := .ite h (.ite h.same h.emit)

theorem Ends.cqInterrupt {n : Nat} {jobEnd : Bool} (h : Ends K s₀ s) : Ends K s₀ (s.cqInterrupt n jobEnd) := by
  unfold State.cqInterrupt
  simp only [h.host, Bool.false_eq_true, if_false]
  exact .ite h.msix h

theorem Ends.readDoorbell {r : RingId} (h : Ends K s₀ s) : Ends K s₀ (s.readDoorbell r) := by
  unfold State.readDoorbell
  cases r with
  | sq n => exact .ite h.onRings (Ends.emit h.onRings)
  | cq _ | err | ldg => exact .ite h.onProd h.onProd.emit

theorem Ends.freeSlot {slot : Nat} (h : Ends K s₀ s) : Ends K s₀ (s.freeSlot slot) := by
  unfold State.freeSlot
  split
  · rename_i j _
    have hlate : Ends K s₀ (if s.late j then s.bumpSat rSchRefused 16 16 1 else s) := .ite h.bumpSat h
    exact (Ends.dropJob (slot := slot) hlate.onAcc).same
  · exact h

theorem Ends.writeCq {n : Nat} {r : CqRec} (h : Ends K s₀ s) : Ends K s₀ (s.writeCq n r) := by
  have hput : Ends K s₀ (s.putCq n r) := h.hostWrite.onProd
  have hafter : Ends K s₀ ((s.putCq n r).afterCq n r) := by
    unfold State.afterCq
    extract_lets jobEnd s3 _ s4
    have h3 : Ends K s₀ s3 := hput.cqInterrupt.chargePcie
    have h4 : Ends K s₀ s4 := .ite h3 h3.charge
    split
    · exact h4.letsGo (s4.releasePage_letsGo _ _)
    · exact h4
  rw [s.writeCq_eq]
  generalize (s.putCq n r).afterCq n r = u at hafter ⊢
  unfold State.closeCq
  extract_lets s5
  have h5 : Ends K s₀ s5 := by
    change Ends K s₀ (match r.frees with | some slot => u.freeSlot slot | none => u)
    split
    · exact hafter.freeSlot
    · exact hafter
  exact .ite (Ends.foldl (Ends.foldl h5 fun _ _ => Ends.readDoorbell) fun _ _ => Ends.readDoorbell) h5

theorem Ends.postCq {n : Nat} {r : CqRec} (h : Ends K s₀ s) : Ends K s₀ (s.postCq n r) := .ite h.onRings h.writeCq

theorem Ends.releaseCancels (h : Ends K s₀ s) : Ends K s₀ s.releaseCancels := .foldl h.onRings fun _ _ => Ends.postCq

/-! ### The end of a job -/

theorem Ends.endJob {slot status flags amount detail : Nat} (h : Ends K s₀ s) : Ends K s₀ (s.endJob slot status flags amount detail) := by
  unfold State.endJob
  split
  · exact h
  · exact Ends.postCq (h.updJobs (fun _ => rfl) (fun _ _ h => h) fun _ h => nomatch h)

theorem Ends.closeJob {slot status flags detail : Nat} (h : Ends K s₀ s)
    (hK : ∀ j, s.job? slot = some j → ∀ c, K c → c.jobNumber ≠ j.number) : Ends K s₀ (s.closeJob slot status flags detail) := by
  unfold State.closeJob
  split
  · exact h
  · exact (h.releaseJob hK).endJob.releaseCancels

end State

end Sys2Proof.Machine
end

section
/-! PROOF. The end of a sequence: its record is written, and whatever follows takes nothing back (R93, R96, R97, R456). -/

namespace Sys2Proof.Machine

set_option Elab.async false

/-- The job counts a sequence among those that have ended. -/
def Job.withEnded (idx : Nat) (j : Job) : Job := { j with seqRecs := j.seqRecs + 1, ended := idx :: j.ended }

/-- The job's record is formed: it works no more. -/
def Job.finished (j : Job) : Job := { j with phase := .ended }

/-- The record of a sequence of job `j` is formed. -/
def State.recordSeq (s : State) (j : Job) (idx sample status flags amount detail : Nat) : State :=
  (s.onJob j.slot (Job.withEnded idx)).postCq (s.cqFor j.sq j.desc) (j.seqRec idx sample status flags amount detail)

/-- The page-side takes no further step, and its buffers, planes at `planes` among them, and its place in an encoder batch go. -/
def State.dropSeq (s : State) (j : Job) (idx : Nat) (planes : List Nat) : State :=
  (((s.retirePage j.number idx).dropPageBuffers j.number idx planes).leaveBatch j.number idx).poolDone (PoolOwner.ofJob j.number (some idx))

namespace State

variable {K : Batch → Prop} {s₀ s : State} {j : Job} {slot idx sample status flags amount detail : Nat}

theorem endSequence_of_open (hj : s.job? j.slot = some j) (halive : j.alive = true) (hidx : idx ∉ j.ended) :
    s.endSequence j.slot idx sample status flags amount detail =
      ((s.recordSeq j idx sample status flags amount detail).dropSeq j idx
        (((s.pageSlots j.number idx).filterMap (·.planes)).map (·.addr))).jobEndCheck j.slot := by
  simp only [State.endSequence, State.seqRecord, hj, halive, hidx, Bool.not_true, decide_false, Bool.or_self, Bool.false_eq_true, if_false]
  rfl

theorem endSequence_of_over (h : ∀ k, s.job? slot = some k → k.alive = false) :
    s.endSequence slot idx sample status flags amount detail = s := by
  unfold State.endSequence
  split
  · rfl
  · rename_i k hk
    exact if_pos (by simp [h k hk])

theorem Ends.mono {K' : Batch → Prop} (h : Ends K s₀ s) (hK : ∀ c, K' c → K c) : Ends K' s₀ s :=
  { h with batches := fun c hc hp hKc => h.batches c hc hp (hK c hKc) }

theorem Ends.recordSeq (h : Ends K s₀ s) : Ends K s₀ (s.recordSeq j idx sample status flags amount detail) :=
  Ends.postCq (h.updJobs (fun _ => rfl) (fun _ _ hi => List.mem_cons_of_mem _ hi) fun _ h => h)

theorem Ends.dropSeq {planes : List Nat} (h : Ends K s₀ s) : Ends K s₀ (s.dropSeq j idx planes) := by
  refine Ends.poolDone (Ends.onBatches (Ends.dropPageBuffers h.onKv) fun a c hc hp _ => ?_)
  exact List.mem_map.2 ⟨c, hc, if_neg (by simp [hp])⟩

/-! ### The end of the job with its last sequence (R97) -/

/-- A job that is closed works no more, whether its slot is free or not. -/
theorem closeJob_over (hregs : cellsFrom regReset 0 s.regs = true) (hhost : s.emb = false) :
    ∀ k, (s.closeJob slot status flags detail).job? slot = some k → k.alive = false := by
  intro k hk
  unfold State.closeJob at hk
  split at hk
  · rename_i hnone
    rw [hnone] at hk
    cases hk
  · rename_i j _
    have hrel : Ends (fun _ => False) s (s.releaseJob slot) := (Ends.refl hregs hhost).releaseJob fun _ _ _ h => h.elim
    unfold State.endJob at hk
    split at hk
    · rename_i hnone
      obtain ⟨k₀, hk₀, -⟩ := (Ends.refl (K := fun _ => False) hrel.regs hrel.host).releaseCancels.jobs slot k hk
      rw [hnone] at hk₀
      cases hk₀
    · have hself := Ends.refl (K := fun _ => False) (s := (s.releaseJob slot).onJob slot Job.finished) hrel.regs hrel.host
      obtain ⟨k₀, hk₀, -, halive⟩ := hself.postCq.releaseCancels.jobs slot k hk
      obtain ⟨j', -, rfl⟩ := Option.map_eq_some_iff.1 ((State.job?_onJob_same slot Job.finished fun _ => rfl).symm.trans hk₀)
      exact Bool.eq_false_iff.2 fun h => nomatch halive h

/-- From `s₀` to `s` things have ended, or the job in the slot has, with its batches: it works no more. -/
def EndsOrOver (K : Batch → Prop) (s₀ : State) (slot : Nat) (s : State) : Prop :=
  Ends K s₀ s ∨ (Ends (fun _ => False) s₀ s ∧ ∀ k, s.job? slot = some k → k.alive = false)

theorem EndsOrOver.ends (h : EndsOrOver K s₀ slot s) : Ends (fun _ => False) s₀ s := h.elim (·.mono fun _ => False.elim) (·.1)

theorem Ends.jobEndCheck (h : Ends K s₀ s) : EndsOrOver K s₀ slot (s.jobEndCheck slot) := by
  unfold State.jobEndCheck
  split
  · exact .inl h
  · split
    · exact .inr ⟨(h.mono fun _ => False.elim).closeJob fun _ _ _ => False.elim, closeJob_over h.regs h.host⟩
    · exact .inl h

/-- What follows the write of the sequence record takes nothing back of it. -/
theorem endSequence_endsSeq (hregs : cellsFrom regReset 0 s.regs = true) (hopen : s.openSeq j idx) :
    s.endsSeq (s.endSequence j.slot idx sample status flags amount detail) j idx sample status flags amount detail ∧
      (s.endSequence j.slot idx sample status flags amount detail).dram = s.dram := by
  obtain ⟨hj, halive, hidx, -, hcq⟩ := hopen
  have hself : Ends (fun _ => False) (s.onJob j.slot (Job.withEnded idx)) (s.onJob j.slot (Job.withEnded idx)) := .refl hregs hcq.host
  have hrest : ∀ s₀ u planes, Ends (fun _ => False) s₀ u → Ends (fun _ => False) s₀ ((u.dropSeq j idx planes).jobEndCheck j.slot) :=
    fun _ _ _ h => h.dropSeq.jobEndCheck.ends
  obtain ⟨more, hout⟩ := State.writeCq_out (s.onJob j.slot (Job.withEnded idx)) (j.seqRec idx sample status flags amount detail) hcq.host hcq.base
  have hpost : s.recordSeq j idx sample status flags amount detail = _ := State.postCq_of_open _ _ hcq.held hcq.room
  rw [endSequence_of_open hj halive hidx, hpost]
  have hwritten := hself.writeCq (n := s.cqFor j.sq j.desc) (r := j.seqRec idx sample status flags amount detail)
  have hmade := hrest _ _ (((s.pageSlots j.number idx).filterMap (·.planes)).map (·.addr)) hwritten
  refine ⟨⟨(hrest _ _ _ (.refl hwritten.regs hwritten.host)).out.subset ?_, fun k hk => ?_⟩, hmade.dram⟩
  · rw [hout]
    exact List.mem_append_right _ List.mem_cons_self
  · obtain ⟨k₀, hk₀, hsub, -⟩ := hmade.jobs j.slot k hk
    rw [State.job?_onJob_same j.slot (Job.withEnded idx) fun _ => rfl, hj] at hk₀
    cases hk₀
    exact hsub List.mem_cons_self

/-- A further sequence of the job ends, or there is none to end. -/
theorem EndsOrOver.endSequence (h : EndsOrOver K s₀ slot s) :
    EndsOrOver K s₀ slot (s.endSequence slot idx sample status flags amount detail) := by
  obtain h | ⟨h, hover⟩ := h
  · by_cases hopen : ∃ j, s.job? slot = some j ∧ j.alive = true ∧ idx ∉ j.ended
    · obtain ⟨j, hj, halive, hidx⟩ := hopen
      obtain rfl : j.slot = slot := by simpa using List.find?_some hj
      rw [endSequence_of_open hj halive hidx]
      exact h.recordSeq.dropSeq.jobEndCheck
    · refine .inl ?_
      unfold State.endSequence
      split
      · exact h
      · rename_i j hj
        rwa [if_pos (by_contra fun hc => hopen ⟨j, hj, by simpa using hc⟩)]
  · rw [endSequence_of_over hover]
    exact .inr ⟨h, hover⟩

/-- The checks of a job's page-sides end sequences of that job alone. -/
theorem Ends.pageChecks {number stage : Nat} (h : Ends K s₀ s) (hslot : ∀ j, s.jobNum? number = some j → j.slot = slot) :
    EndsOrOver K s₀ slot (s.pageChecks number stage) := by
  unfold State.pageChecks
  split
  · exact .inl h
  · rename_i j hj
    split
    · exact .inl h
    · rw [hslot j hj]
      refine List.foldlRecOn _ _ (motive := EndsOrOver K s₀ slot) (.inl h) fun t ht q _ => ?_
      dsimp only
      split
      · exact ht.endSequence
      · split
        · exact ht.endSequence
        · exact ht

end State

end Sys2Proof.Machine
end

section
/-! PROOF. SEQ_SLOT_GRANT: the page-side that waits first takes its slots, its input and its start configuration; a packed row takes a
row slot (R134, R135, R208, R350, R411, R420, R457). -/

namespace Sys2Proof.Machine

set_option Elab.async false

variable (s : State)

/-! ### The steps of a grant -/

/-- The job's next grant moves on, and the KV clock ticks. -/
def State.beginGrant (s : State) (j : Job) (i : Nat) : State := (s.onJob j.slot fun j => { j with nextGrant := i + 1 }).kvTick

/-- The page-side of an input that the LT8 holds joins its encoder batch, and its entry of a sample list is read. -/
def State.sideReady (s : State) (j : Job) (f : Folio) (i : Nat) : State :=
  let s := (s.beginGrant j i).formBatch j f i
  if dKind j.desc = 2 then s.chargeDram j.client 8 else s

/-- The geometry of a page-side's sequences. -/
def Folio.sideGeom (f : Folio) : Option KvDecl := if f.stagesOf 3 = [] then none else f.geomAt f.decodeAt

/-- A page-side takes its slots; the first of them has its planes. -/
def State.seatSide (s : State) (j : Job) (f : Folio) (i id : Nat) (slots tables : List Nat) (pl : Option Planes) : State :=
  s.onKv fun k =>
    { k with
      seqs := k.seqs ++ slots.zipIdx.map fun e =>
        newSeq e.1 j i false f.decodeAt id f.sideGeom none (if e.1 = slots.headD 0 then pl else none) (tables.getD e.2 0) k.clock }

/-- A held page-side is the job's. -/
def State.claimSide (s : State) (j : Job) (f : Folio) (h : HeldSide) : State :=
  let s := s.onAcc fun a =>
    { a with
      held := updFirst (fun g => g.planes.addr = h.planes.addr && g.fate = .held && g.claimedBy.isNone)
        (fun g => { g with claimedBy := some j.number }) a.held }
  s.onRefs h.planes.addr fun _ => s.planeRefs f h.planes.width h.planes.height

section
variable {j : Job} {f : Folio} {i : Nat} {slots tables : List Nat}

@[simp] theorem State.seatSide_dram (t : State) (id : Nat) (pl : Option Planes) : (t.seatSide j f i id slots tables pl).dram = t.dram := rfl
@[simp] theorem State.seatSide_out (t : State) (id : Nat) (pl : Option Planes) : (t.seatSide j f i id slots tables pl).out = t.out := rfl
@[simp] theorem State.seatSide_acc (t : State) (id : Nat) (pl : Option Planes) : (t.seatSide j f i id slots tables pl).acc = t.acc := rfl
@[simp] theorem State.claimSide_dram (t : State) (h : HeldSide) : (t.claimSide j f h).dram = t.dram := rfl
@[simp] theorem State.claimSide_out (t : State) (h : HeldSide) : (t.claimSide j f h).out = t.out := rfl

theorem State.grantPage_quire (hk : dKind j.desc = 0) : s.grantPage j f i slots tables =
    ((s.beginGrant j i).seatSide j f i 0 slots tables none).startCat f j i (slots.headD 0) := by
  have hid : ∀ t : State, t.inputId j i = 0 := fun t => by simp [State.inputId, hk]
  simp only [State.grantPage, hk, hid, if_true]
  rfl

theorem State.grantPage_fails (hk : dKind j.desc ≠ 0) {e : Nat × Nat}
    (htake : (s.sideReady j f i).takeHeld j f (s.inputId j i) (dKind j.desc) = .error e) :
    s.grantPage j f i slots tables = (s.sideReady j f i).endSequence j.slot i (s.inputId j i) e.1 0 0 e.2 := by
  have hid : ((s.onJob j.slot fun j => { j with nextGrant := i + 1 }).kvTick).inputId j i = s.inputId j i := rfl
  unfold State.sideReady State.beginGrant at *
  simp only [State.grantPage, hk, if_false, hid] at *
  rw [htake]

theorem State.grantPage_claims (hk : dKind j.desc ≠ 0) {p : Planes} {t : State}
    (htake : (s.sideReady j f i).takeHeld j f (s.inputId j i) (dKind j.desc) = .ok (p, t))
    (hfit : (t.seatSide j f i (s.inputId j i) slots tables (some p)).planeRefused f p.width p.height = false) :
    s.grantPage j f i slots tables =
      (t.seatSide j f i (s.inputId j i) slots tables (some p)).startCat f j i (slots.headD 0) := by
  have hid : ((s.onJob j.slot fun j => { j with nextGrant := i + 1 }).kvTick).inputId j i = s.inputId j i := rfl
  unfold State.sideReady State.beginGrant at *
  simp only [State.grantPage, hk, if_false, hid] at *
  rw [htake]
  exact if_neg (by rw [Bool.not_eq_true]; exact hfit)

/-! ### What each step leaves -/

theorem State.formUpTo_eq (j : Job) (i fuel : Nat) (t : State) : ∃ b, State.formUpTo j i fuel t = { t with acc := { t.acc with batches := b } } := by
  induction fuel generalizing t with
  | zero => exact ⟨_, rfl⟩
  | succ fuel ih =>
    unfold State.formUpTo
    dsimp only
    split
    · exact ⟨_, rfl⟩
    · obtain ⟨b, h⟩ := ih (t.onAcc _)
      exact ⟨b, h⟩

/-- Forming batches changes the batches alone. -/
theorem State.formBatch_eq (j : Job) (f : Folio) (i : Nat) : ∃ b, s.formBatch j f i = { s with acc := { s.acc with batches := b } } := by
  unfold State.formBatch
  split
  · exact ⟨_, rfl⟩
  · exact State.formUpTo_eq _ _ _ _

theorem State.sideReady_eq (j : Job) (f : Folio) (i : Nat) :
    ∃ b ldg, s.sideReady j f i = { s.beginGrant j i with acc := { s.acc with batches := b }, ldg := ldg } := by
  obtain ⟨b, h⟩ := (s.beginGrant j i).formBatch_eq j f i
  unfold State.sideReady
  rw [h]
  dsimp only
  split
  · exact ⟨b, _, State.charge_eq _ _⟩
  · exact ⟨b, _, rfl⟩

/-- The job as it stands once its grant has begun. -/
def Job.granting (i : Nat) (j : Job) : Job := { j with nextGrant := i + 1 }

theorem State.job?_beginGrant (hj : s.job? j.slot = some j) : (s.beginGrant j i).job? j.slot = some (j.granting i) := by
  have h := State.job?_onJob_same (s := s) j.slot (Job.granting i) fun _ => rfl
  rw [hj] at h
  exact h

/-- A page-side whose input is not held ends its sequence, at the completion ring as it stood. -/
theorem State.sideReady_endsSeq {sample status detail : Nat} (hregs : cellsFrom regReset 0 s.regs = true) (hopen : s.openSeq j i) :
    s.endsSeq ((s.sideReady j f i).endSequence j.slot i sample status 0 0 detail) j i sample status 0 0 detail ∧
      ((s.sideReady j f i).endSequence j.slot i sample status 0 0 detail).dram = s.dram := by
  obtain ⟨b, ldg, h⟩ := s.sideReady_eq j f i
  obtain ⟨hj, halive, hidx, hengines, hcq⟩ := hopen
  have hjob := s.job?_beginGrant (i := i) hj
  rw [h]
  exact State.endSequence_endsSeq (j := j.granting i) hregs
    ⟨hjob, halive, hidx, hengines, ⟨hcq.host, hcq.ring, hcq.base, hcq.size, hcq.held, hcq.room⟩⟩

theorem State.startCat_of_plain (hd : f.decode = none) (slot : Nat) : s.startCat f j i slot = s := by
  simp [State.startCat, hd]

/-- A slot among the lowest free ones is free. -/
theorem State.seq?_of_free {lo hi n k : Nat} (h : s.freeSeqSlots lo hi n = some slots) (hk : k ∈ slots) : s.seq? k = none := by
  unfold State.freeSeqSlots at h
  dsimp only at h
  split at h
  · cases h
    simpa using (List.mem_filter.1 (List.mem_of_mem_take hk)).2
  · cases h

/-- The first of the slots is new. -/
theorem State.seatSide_seqs {t : State} {id : Nat} {pl : Option Planes} (hne : slots ≠ []) :
    ∃ rest, (t.seatSide j f i id slots tables pl).kv.seqs = t.kv.seqs ++
      newSeq (slots.headD 0) j i false f.decodeAt id f.sideGeom none pl (tables.getD 0 0) t.kv.clock :: rest := by
  obtain ⟨a, l, rfl⟩ := List.exists_cons_of_ne_nil hne
  refine ⟨(l.zipIdx 1).map fun e =>
    newSeq e.1 j i false f.decodeAt id f.sideGeom none (if e.1 = a then pl else none) (tables.getD e.2 0) t.kv.clock, ?_⟩
  simp only [State.seatSide, State.onKv_kv, List.zipIdx_cons, List.map_cons, List.headD_cons, if_true, Nat.zero_add]
  rfl

theorem State.seq?_seatSide {t : State} {id : Nat} {pl : Option Planes} (hne : slots ≠ []) (hfree : t.seq? (slots.headD 0) = none) :
    (t.seatSide j f i id slots tables pl).seq? (slots.headD 0) =
      some (newSeq (slots.headD 0) j i false f.decodeAt id f.sideGeom none pl (tables.getD 0 0) t.kv.clock) := by
  obtain ⟨rest, h⟩ := t.seatSide_seqs (j := j) (f := f) (i := i) (tables := tables) (id := id) (pl := pl) hne
  rw [State.seq?, h, List.find?_append, ← State.seq?, hfree]
  simp [newSeq]

/-! ### The start configuration (R411, R420) -/

/-- A mask that allows a token comes into force on a run that holds none, and of the rest leaves what a sampler goes on from. -/
theorem State.catMask_of_some {t : State} {slot : Nat} {q : SeqSlot} {c : CatSeq} (hq : t.seq? slot = some q) (hc : q.cat = some c)
    (hrun : c.run = 0) (hm : gMask t.dram c.grammarAddr c.state c.stack ≠ []) :
    ∃ g : CatSeq → CatSeq, t.catMask slot = t.onCat slot g ∧ (g c).mask = some (gMask t.dram c.grammarAddr c.state c.stack) ∧
      (g c).rng = c.rng ∧ (g c).state = c.state ∧ (g c).stack = c.stack ∧ (g c).emitted = c.emitted := by
  have hcat : (t.seq? slot).bind (·.cat) = some c := by rw [hq]; exact hc
  unfold State.catMask
  rw [hcat]
  dsimp only
  split
  · rename_i h
    exact absurd h hm
  · rename_i tok h
    rw [if_neg (by omega), h]
    exact ⟨fun c => { c.take tok marginInf with mask := some [tok] }, rfl, rfl, rfl, rfl, rfl, rfl⟩
  · exact ⟨fun c => { c with mask := some _, run := 0 }, rfl, rfl, rfl, rfl, rfl, rfl⟩

/-- A page-side has a catalog's state. -/
def SeqSlot.withCat (c : CatSeq) (q : SeqSlot) : SeqSlot := { q with cat := some c }

theorem State.seq?_onSeq_withCat {t : State} {slot : Nat} {q : SeqSlot} (c : CatSeq) (hq : t.seq? slot = some q) :
    (t.onSeq slot (SeqSlot.withCat c)).seq? slot = some (q.withCat c) := by
  have h := find?_updFirst_same (fun q : SeqSlot => decide (q.slot = slot)) (SeqSlot.withCat c) (fun _ => rfl) t.kv.seqs
  exact h.trans (congrArg _ hq)

theorem State.seq?_onCat {t : State} {slot : Nat} {q : SeqSlot} {c : CatSeq} (u : CatSeq → CatSeq) (hq : t.seq? slot = some (q.withCat c)) :
    (t.onCat slot u).seq? slot = some (q.withCat (u c)) := by
  have h := find?_updFirst_same (fun q : SeqSlot => decide (q.slot = slot)) (fun q => { q with cat := q.cat.map u }) (fun _ => rfl) t.kv.seqs
  exact h.trans (congrArg _ hq)

/-- A catalog begins: its generator is seeded, and the mask of its start configuration is in force. -/
theorem State.startCat_of_grammar {t : State} {slot : Nat} {q : SeqSlot} {g : Nat × Nat × Nat} (hd : f.decode.isSome = true)
    (hgr : t.grammarOf f j.param = some g) (hq : t.seq? slot = some q) (hm : gMask t.dram g.2.1 0 [] ≠ []) :
    ∃ c, (t.startCat f j i slot).seq? slot = some (q.withCat c) ∧ c.mask = some (gMask t.dram g.2.1 0 []) ∧
      c.rng = seedOf (pSeed j.param) i ∧ c.state = 0 ∧ c.stack = [] ∧ c.emitted = [] ∧ (t.startCat f j i slot).dram = t.dram := by
  have hset := State.seq?_onSeq_withCat (newCat g.2.1 (pSeed j.param) i) hq
  obtain ⟨u, hact, hmask, hrng, hstate, hstack, hemitted⟩ := State.catMask_of_some hset rfl rfl hm
  have hstart : t.startCat f j i slot = (t.onSeq slot (SeqSlot.withCat (newCat g.2.1 (pSeed j.param) i))).onCat slot u := by
    rw [← hact, State.startCat, if_neg (by rw [Option.isNone_iff_eq_none]; exact Option.isSome_iff_ne_none.1 hd), hgr]
    rfl
  rw [hstart]
  exact ⟨_, State.seq?_onCat u hset, hmask, hrng, hstate, hstack, hemitted, rfl⟩

/-! ### A held page-side (R134, R135, R208) -/

theorem State.takeHeld_of_match {t : State} {id : Nat} {h : HeldSide} (hm : t.heldMatch id = some h) :
    t.takeHeld j f id 2 = .ok (h.planes, t.claimSide j f h) := by
  simp only [State.takeHeld, if_true, hm]
  rfl

theorem State.takeHeld_of_no_match {t : State} {id : Nat} (hm : t.heldMatch id = none) : t.takeHeld j f id 2 = .error (stCorrupt, 0x43) := by
  simp only [State.takeHeld, if_true, hm]

theorem State.takeHeld_of_uncaptured {t : State} {id : Nat} (hc : t.captured? id = none) : t.takeHeld j f id 1 = .error (stCorrupt, 0x42) := by
  simp [State.takeHeld, hc]

/-- What an entry matches is held and unclaimed. -/
theorem State.mem_of_heldMatch {t : State} {id : Nat} {h : HeldSide} (hm : t.heldMatch id = some h) :
    h ∈ t.acc.held ∧ h.claimedBy.isNone = true ∧ h.fate = .held := by
  have hbest : ∀ b, t.heldMatch id = some b →
      b ∈ t.acc.held.filter fun h => h.claimable && h.claimedBy.isNone && h.fate = .held && h.planes.sample = id :=
    List.foldlRecOn _ _ (motive := fun o : Option HeldSide => ∀ b, o = some b → b ∈ _) (fun _ h => nomatch h) fun o ho a ha b hb => by
      cases o with
      | none => exact Option.some.inj hb ▸ ha
      | some c =>
        dsimp only at hb
        split at hb <;> cases hb
        · exact ha
        · exact ho _ rfl
  obtain ⟨hmem, hcond⟩ := List.mem_filter.1 (hbest h hm)
  simp only [Bool.and_eq_true, decide_eq_true_eq] at hcond
  exact ⟨hmem, hcond.1.1.2, hcond.1.2⟩

/-- Where an element meets the condition, the first that does is changed. -/
theorem exists_mem_updFirst {α : Type} {p : α → Bool} (g : α → α) {l : List α} (h : ∃ a ∈ l, p a = true) :
    ∃ a ∈ l, p a = true ∧ g a ∈ updFirst p g l := by
  induction l with
  | nil => simp at h
  | cons b l ih =>
    by_cases hb : p b = true
    · exact ⟨b, List.mem_cons_self, hb, by simp [updFirst, hb]⟩
    · obtain ⟨a, hmem, ha, hin⟩ := ih (by simpa [hb] using h)
      exact ⟨a, List.mem_cons_of_mem _ hmem, ha, by simp [updFirst, hb, hin]⟩

/-- The page-side that an entry matched is the job's. -/
theorem State.claimSide_held {t : State} {id : Nat} {h : HeldSide} (hm : t.heldMatch id = some h) :
    ∃ g ∈ (t.claimSide j f h).acc.held, g.planes.addr = h.planes.addr ∧ g.claimedBy = some j.number := by
  obtain ⟨hmem, hnone, hfate⟩ := State.mem_of_heldMatch hm
  obtain ⟨a, -, ha, hin⟩ := exists_mem_updFirst (p := fun g : HeldSide => g.planes.addr = h.planes.addr && g.fate = .held && g.claimedBy.isNone)
    (fun g => { g with claimedBy := some j.number }) ⟨h, hmem, by simp [hnone, hfate]⟩
  simp only [Bool.and_eq_true, decide_eq_true_eq] at ha
  exact ⟨_, hin, ha.1.1, rfl⟩

/-- Whether a first stage takes a plane depends on the folio's commands in DRAM alone. -/
theorem State.planeRefused_of_dram {s t : State} (f : Folio) (w h : Nat) (hdram : t.dram = s.dram) :
    t.planeRefused f w h = s.planeRefused f w h := by
  have hout : ∀ g a b, t.stageOut f g a b = s.stageOut f g a b := fun g a b => by
    simp only [State.stageOut, State.stageExpand, State.stageCmds, State.dramRead, hdram]
  have hin : ∀ fuel k, t.stageIn f w h fuel k = s.stageIn f w h fuel k := fun fuel => by
    induction fuel with
    | zero => exact fun _ => rfl
    | succ fuel ih => exact fun k => by simp only [State.stageIn, ih, hout]
  simp only [State.planeRefused, State.outOfRange, hin]

/-! ### The grant (R457) -/

theorem State.seqSlotGrant_of_head {rest : List (Job × Nat)} {slot : Nat} (hq : s.slotQueue = (j, i) :: rest) (hruns : s.runs j f)
    (hfree : s.freeSeqSlots 0 4032 f.seqSlots = some slots) : s.seqSlotGrant false slot tables = s.grantPage j f i slots tables := by
  simp only [State.seqSlotGrant, hruns.running, Bool.not_true, Bool.false_eq_true, if_false, State.grantSide, hq, hruns.folio, hfree]

theorem State.grantPage_plain (hj : s.job? j.slot = some j) (hk : dKind j.desc = 0) (hd : f.decode = none) :
    (s.grantPage j f i slots tables).kv.seqs = s.kv.seqs ++ slots.zipIdx.map (fun e => newSeq e.1 j i false f.decodeAt 0
      (if f.stagesOf 3 = [] then none else f.geomAt f.decodeAt) none none (tables.getD e.2 0) (s.kv.clock + 1)) ∧
    ((s.grantPage j f i slots tables).job? j.slot).map (·.nextGrant) = some (i + 1) ∧
    (s.grantPage j f i slots tables).out = s.out ∧ (s.grantPage j f i slots tables).dram = s.dram := by
  rw [s.grantPage_quire hk, State.startCat_of_plain _ hd]
  refine ⟨?_, congrArg (Option.map _) (s.job?_beginGrant hj), rfl, rfl⟩
  simp only [State.seatSide, State.onKv_kv, ite_self]
  rfl

theorem State.grantPage_catalog (hk : dKind j.desc = 0) {g : Nat × Nat × Nat} (hd : f.decode.isSome = true)
    (hgr : s.grammarOf f j.param = some g) (hm : gMask s.dram g.2.1 0 [] ≠ []) (hne : slots ≠ [])
    (hfree : s.seq? (slots.headD 0) = none) :
    ∃ q c, (s.grantPage j f i slots tables).seq? (slots.headD 0) = some q ∧ q.jobNumber = j.number ∧ q.idx = i ∧ q.cat = some c ∧
      c.mask = some (gMask s.dram g.2.1 0 []) ∧ c.rng = seedOf (pSeed j.param) i ∧ c.state = 0 ∧ c.stack = [] ∧ c.emitted = [] ∧
      (s.grantPage j f i slots tables).dram = s.dram := by
  have hseat := State.seq?_seatSide (t := s.beginGrant j i) (j := j) (f := f) (i := i) (tables := tables) (id := 0) (pl := none) hne hfree
  obtain ⟨c, hq, hrest⟩ := State.startCat_of_grammar (t := (s.beginGrant j i).seatSide j f i 0 slots tables none) (i := i) hd hgr hseat hm
  rw [s.grantPage_quire hk]
  exact ⟨_, c, hq, rfl, rfl, rfl, hrest⟩

theorem State.grantPage_match (hk : dKind j.desc = 2) (hd : f.decode = none) {h : HeldSide} (hm : s.heldMatch (s.inputId j i) = some h)
    (hfit : s.planeRefused f h.planes.width h.planes.height = false) (hne : slots ≠ []) :
    (∃ q ∈ (s.grantPage j f i slots tables).kv.seqs, q.slot = slots.headD 0 ∧ q.jobNumber = j.number ∧ q.idx = i ∧
      q.planes = some h.planes) ∧
    (∃ g ∈ (s.grantPage j f i slots tables).acc.held, g.planes.addr = h.planes.addr ∧ g.claimedBy = some j.number) ∧
    (s.grantPage j f i slots tables).out = s.out ∧ (s.grantPage j f i slots tables).dram = s.dram := by
  obtain ⟨b, ldg, hready⟩ := s.sideReady_eq j f i
  have hm' : (s.sideReady j f i).heldMatch (s.inputId j i) = some h := by rw [hready]; exact hm
  have htake : (s.sideReady j f i).takeHeld j f (s.inputId j i) (dKind j.desc) = .ok (h.planes, (s.sideReady j f i).claimSide j f h) := by
    rw [hk]; exact State.takeHeld_of_match hm'
  have hdram : (s.sideReady j f i).dram = s.dram := by rw [hready]; rfl
  have hout : (s.sideReady j f i).out = s.out := by rw [hready]; rfl
  have hseated := (State.planeRefused_of_dram (s := s) (t := ((s.sideReady j f i).claimSide j f h).seatSide j f i (s.inputId j i) slots tables
    (some h.planes)) f h.planes.width h.planes.height (by simp [hdram])).trans hfit
  rw [s.grantPage_claims (by omega) htake hseated, State.startCat_of_plain _ hd]
  obtain ⟨rest, hseqs⟩ := State.seatSide_seqs (t := (s.sideReady j f i).claimSide j f h) (j := j) (f := f) (i := i) (tables := tables)
    (id := s.inputId j i) (pl := some h.planes) hne
  exact ⟨⟨_, hseqs ▸ List.mem_append_right _ List.mem_cons_self, rfl, rfl, rfl, rfl⟩, by simpa using State.claimSide_held hm', by simp [hout],
    by simp [hdram]⟩

end

/-! ### A packed row (R350) -/

theorem State.grantRow_of_batch {j : Job} {f : Folio} {n : Nat} {b : Batch} {tables : List Nat} (hruns : s.runs j f)
    (hfree : s.freeSeqSlots 4032 4096 1 = some [n])
    (hb : s.acc.batches.find? (fun b => b.jobNumber = j.number && b.packed && decide (b.granted < b.rowRuns f)) = some b) :
    (s.seqSlotGrant true j.slot tables).dram = s.dram ∧ (s.seqSlotGrant true j.slot tables).kv.seqs = s.kv.seqs ++
      [newSeq n j b.number true ((f.stagesOf 2).getD (b.granted / b.rows.length) 0) (b.granted % b.rows.length)
        (f.geomAt ((f.stagesOf 2).getD (b.granted / b.rows.length) 0)) none none (tables.headD 0) (s.kv.clock + 1)] := by
  simp only [State.seqSlotGrant, hruns.running, Bool.not_true, Bool.false_eq_true, if_false, if_true, State.grantRow, hruns.job, hruns.folio,
    hfree, hb, hruns.phase, ne_eq, not_true_eq_false]
  exact ⟨rfl, rfl⟩

end Sys2Proof.Machine
end

section
/-! PROOF. BATCH_PACK and KEEP_DROP (R135, R148, R151), and what every grant of slots leads to. -/

namespace Sys2Proof.Machine

set_option Elab.async false

variable (s : State)

/-! ### Memory: a write in two parts -/

theorem Mem.write_append (a b : Bytes) (m : Mem) (c : Nat) : m.write c (a ++ b) = (m.write c a).write (c + a.length) b := by
  induction a generalizing m c with
  | nil => rfl
  | cons x a ih => rw [List.cons_append, Mem.write, ih, Mem.write, List.length_cons, Nat.add_right_comm, Nat.add_assoc]

/-- The first part of what was written is read back. -/
theorem Mem.read_write_append (a b : Bytes) (m : Mem) (c : Nat) (h : m.wf = true) : (m.write c (a ++ b)).read c a.length = a := by
  rw [Mem.write_append, Mem.read_write_other _ _ _ _ _ (Mem.write_wf _ _ _ h) (.inl (Nat.le_refl _)), Mem.read_write _ _ _ h]

/-! ### A packed row (R151, R152) -/

/-- What a draw of free values leaves: all that the packing of a batch speaks of. -/
structure State.Draws (s t : State) : Prop where
  dram : t.dram = s.dram
  regs : t.regs = s.regs
  jobs : t.jobs = s.jobs
  acc : t.acc = s.acc

theorem State.Draws.refl : s.Draws s := ⟨rfl, rfl, rfl, rfl⟩

theorem State.Draws.trans {s t u : State} (h : s.Draws t) (h' : t.Draws u) : s.Draws u :=
  ⟨h'.dram.trans h.dram, h'.regs.trans h.regs, h'.jobs.trans h.jobs, h'.acc.trans h.acc⟩

theorem State.drawBytes_draws (n : Nat) : s.Draws (s.drawBytes n).2 := ⟨rfl, rfl, rfl, rfl⟩

/-- Bytes gathered one after the other draw no more than each of them does. -/
theorem State.Draws.gather {α : Type} {g : State → α → Bytes × State} (hg : ∀ (t : State) a, t.Draws (g t a).2) (l : List α) (p : Bytes × State) :
    p.2.Draws (l.foldl (fun acc a => (acc.1 ++ (g acc.2 a).1, (g acc.2 a).2)) p).2 := by
  induction l generalizing p with
  | nil => exact .refl _
  | cons a l ih => exact (hg p.2 a).trans (ih (p.1 ++ (g p.2 a).1, (g p.2 a).2))

theorem State.cropPixel_draws (p : Option Planes) (x y : Nat) : s.Draws (s.cropPixel p x y).2 := by
  unfold State.cropPixel
  split
  · split
    · exact .refl s
    · exact s.drawBytes_draws 1
  · exact s.drawBytes_draws 1

theorem State.cropPosition_draws (p : Option Planes) (x y : Nat) : s.Draws (s.cropPosition p x y).2 :=
  State.Draws.gather (g := fun t b => t.cropPixel p (x + b % 8) (y + b / 8)) (fun t _ => t.cropPixel_draws _ _ _) _ ([], s)

theorem State.cropSegment_draws (number : Nat) (g : Segment) : s.Draws (s.cropSegment number g).2 :=
  State.Draws.gather (g := fun t k => t.cropPosition ((s.pageHead number g.index).bind (·.planes)) (g.x + 8192 * g.piece + 8 * k) g.y)
    (fun t _ => t.cropPosition_draws _ _ _) _ ([], s)

/-- A row is written at its address, its header first. -/
theorem State.writeRow_eq (number batch addr row : Nat) (blank : Bytes) (segs : List Segment) : ∃ t rest, s.Draws t ∧
    s.writeRow number batch addr row blank segs = t.dramWrite addr (rowHead batch row segs ++ rest) := by
  have hcrop := State.Draws.gather (g := fun t g => t.cropSegment number g) (fun t g => t.cropSegment_draws number g) segs ([], s)
  exact ⟨_, _, hcrop, congrArg (State.dramWrite _ addr) (List.append_assoc _ _ _)⟩

/-- A batch counts as packed, with its rows. -/
def Batch.packedAt (rows : List Nat) (c : Batch) : Batch := { c with packed := true, rows := rows }

/-- From `s` to `u` the only row of a batch is written. -/
structure State.PacksRow (s u : State) (number batch base : Nat) (row : List Segment) : Prop where
  dram : ∃ rest, u.dram = s.dram.write base (rowHead batch 0 row ++ rest)
  regs : u.regs = s.regs
  jobs : u.jobs = s.jobs
  batches : u.acc.batches = updFirst (fun c => c.jobNumber = number && c.number = batch) (Batch.packedAt [base]) s.acc.batches

/-- A batch of one row is packed: the row is written, the crop lets the planes go, and the job's page-sides are checked. -/
theorem State.batchPack_of_row {j : Job} {f : Folio} {number base : Nat} {crops : List (Nat × List CropLine)} {b : Batch}
    {row : List Segment} (hruns : s.runs j f)
    (hb : s.acc.batches.find? (fun b => b.jobNumber = j.number && b.number = number && !b.packed) = some b)
    (hready : ∀ i ∈ b.members, s.cropReady f j.number i = true)
    (hrow : packRows (b.members.flatMap fun i => pageSegments i (((crops.find? (·.1 = i)).map (·.2)).getD [])) [] = [row]) :
    ∃ u refs stage, s.PacksRow u j.number number base row ∧
      s.batchPack j.slot number crops base = (u.dropRefs refs).pageChecks j.number stage := by
  have hall : b.members.all (s.cropReady f j.number) = true := List.all_eq_true.2 hready
  obtain ⟨t, rest, hdraws, hwrite⟩ :=
    (s.drawBytes 1).2.writeRow_eq j.number number base 0 (s.blankPosition f ((s.drawBytes 1).1.headD 0)) row
  unfold State.batchPack
  simp only [hruns.job, hruns.folio, hb, hruns.phase, hruns.running, hall, hrow, ne_eq, not_true_eq_false, decide_false, Bool.not_true,
    Bool.or_self, Bool.false_eq_true, if_false, List.zipIdx_cons, List.zipIdx_nil, List.foldl_cons, List.foldl_nil, Nat.mul_zero,
    Nat.add_zero, hwrite, State.chargeDram, List.length_singleton, List.range_one, List.map_cons,
    List.map_nil]
  refine ⟨_, _, _, ?_, rfl⟩
  rw [State.charge_eq]
  generalize (State.charge _ _).ldg = ldg
  obtain ⟨hdram, hregs, hjobs, hacc⟩ := (s.drawBytes_draws 1).trans hdraws
  constructor
  · exact ⟨rest, by rw [State.onAcc_dram, State.dramWrite_dram, hdram]⟩
  · rw [State.onAcc_regs, State.dramWrite_regs, hregs]
  · rw [State.onAcc_jobs, State.dramWrite_jobs, hjobs]
  · rw [State.onAcc_acc, State.dramWrite_acc, hacc]; rfl

end Sys2Proof.Machine
end

section
/-! PROOF. O19: what is done with the slots, the batches and the kept page-sides. -/

namespace Sys2Proof.Machine

set_option Elab.async false

variable (s : State)

/-! ### Reference counts -/

/-- New reference counts leave the jobs, DRAM and the held page-sides. -/
theorem State.foldl_onRefs_keeps (g : Nat → Nat) (l : List Nat) :
    (l.foldl (fun s a => s.onRefs a g) s).jobs = s.jobs ∧ (l.foldl (fun s a => s.onRefs a g) s).dram = s.dram ∧
      (l.foldl (fun s a => s.onRefs a g) s).acc.held = s.acc.held := by
  induction l generalizing s with
  | nil => exact ⟨rfl, rfl, rfl⟩
  | cons a l ih => exact ih (s.onRefs a g)

theorem State.dropRefs_jobs (l : List Nat) : (s.dropRefs l).jobs = s.jobs := (s.foldl_onRefs_keeps (· - 1) l).1

/-! ### BATCH_PACK -/

/-- The job that has a number of `j` sits in the slot of `j`. -/
theorem State.slot_of_jobNum {t : State} {j : Job} (hinv : s.Inv) (hj : s.job? j.slot = some j) (hjobs : t.jobs = s.jobs) (k : Job)
    (hk : t.jobNum? j.number = some k) : k.slot = j.slot := by
  have hfind := find?_key_of_mem (key := Job.number) hinv.apart.jobNumbers (List.mem_of_find?_eq_some hj)
  rw [State.jobNum?, hjobs] at hk
  rw [Option.some.inj (hk.symm.trans hfind)]

theorem State.batchPack_packs {j : Job} {f : Folio} {number base : Nat} {crops : List (Nat × List CropLine)} {b : Batch}
    {row : List Segment} (hinv : s.Inv) (hruns : s.runs j f)
    (hb : s.acc.batches.find? (fun b => b.jobNumber = j.number && b.number = number && !b.packed) = some b)
    (hready : ∀ i ∈ b.members, s.cropReady f j.number i = true)
    (hrow : packRows (b.members.flatMap fun i => pageSegments i (((crops.find? (·.1 = i)).map (·.2)).getD [])) [] = [row]) :
    (s.batchPack j.slot number crops base).dram.read base (rowHead number 0 row).length = rowHead number 0 row ∧
      ∀ k, (s.batchPack j.slot number crops base).job? j.slot = some k → k.alive = true →
        ∃ c ∈ (s.batchPack j.slot number crops base).acc.batches,
          c.jobNumber = j.number ∧ c.number = number ∧ c.packed = true ∧ c.rows = [base] := by
  obtain ⟨u, refs, stage, hu, hstep⟩ := s.batchPack_of_row hruns hb hready hrow
  have hkeys : (b.jobNumber = j.number ∧ b.number = number) ∧ b.packed = false := by simpa using List.find?_some hb
  obtain ⟨a, -, ha, hpacked⟩ := exists_mem_updFirst (p := fun c : Batch => c.jobNumber = j.number && c.number = number)
    (Batch.packedAt [base]) ⟨b, List.mem_of_find?_eq_some hb, by simpa using hkeys.1⟩
  rw [← hu.batches] at hpacked
  have hchecked : State.EndsOrOver (· = a.packedAt [base]) u j.slot ((u.dropRefs refs).pageChecks j.number stage) :=
    (State.Ends.refl (hu.regs ▸ hinv.mem.regs) ((congrArg (wbit · 0) (State.reg_of_regs hu.regs rMgtEmb)).trans hruns.host)).dropRefs.pageChecks
      (s.slot_of_jobNum hinv hruns.job ((u.dropRefs_jobs refs).trans hu.jobs))
  rw [hstep]
  obtain ⟨rest, hdram⟩ := hu.dram
  refine ⟨by rw [hchecked.ends.dram, hdram, Mem.read_write_append _ _ _ _ hinv.mem.dram], fun k hk halive => ?_⟩
  obtain hends | ⟨-, hover⟩ := hchecked
  · simp only [Bool.and_eq_true, decide_eq_true_eq] at ha
    exact ⟨_, hends.batches _ hpacked rfl rfl, ha.1, ha.2, rfl, rfl⟩
  · exact absurd halive (by simp [hover k hk])

/-! ### KEEP_DROP -/

/-- A page-side that KEEP_DROP releases. -/
def HeldSide.droppable (h : HeldSide) : Bool := !h.captured && h.claimable && h.claimedBy.isNone

/-- What is held after a sweep was held, and all that no job has claimed still is. -/
theorem State.sweepPools_held (t : State) :
    t.sweepPools.acc.held ⊆ t.acc.held ∧ ∀ h ∈ t.acc.held, h.claimedBy = none → h ∈ t.sweepPools.acc.held :=
  ⟨List.filter_subset_self _, fun _ hmem hnone => List.mem_filter.2 ⟨hmem, by simp [hnone]⟩⟩

theorem State.keepDrop_drops (hup : s.rst.fabricRelease = false) :
    s.keepDrop.jobs = s.jobs ∧ s.keepDrop.dram = s.dram ∧
      (∀ h ∈ s.keepDrop.acc.held, h.captured = true ∨ h.claimable = false ∨ h.claimedBy.isSome = true) ∧
      ∀ h ∈ s.acc.held, (h.captured = true ∨ h.claimable = false) → h.claimedBy = none → h ∈ s.keepDrop.acc.held := by
  let u := s.onAcc fun a => { a with held := a.held.filter fun h => !h.droppable }
  let l := (s.acc.held.filter HeldSide.droppable).map (·.planes.addr)
  have hstep : s.keepDrop = (l.foldl (fun s a => s.onRefs a fun _ => 0) u).sweepPools := by
    rw [State.keepDrop, s.fabricHidden_of_up hup]
    rfl
  obtain ⟨hjobs, hdram, hheld⟩ := u.foldl_onRefs_keeps (fun _ => 0) l
  obtain ⟨hsub, hkept⟩ := State.sweepPools_held (l.foldl (fun s a => s.onRefs a fun _ => 0) u)
  rw [← hstep, hheld] at hsub hkept
  refine ⟨hstep ▸ hjobs, hstep ▸ hdram, fun h hmem => ?_, fun h hmem hkeep hnone => ?_⟩
  · have hstays := (List.mem_filter.1 (hsub hmem)).2
    simpa [HeldSide.droppable, or_assoc, Option.isSome_iff_ne_none] using hstays
  · refine hkept h (List.mem_filter.2 ⟨hmem, ?_⟩) hnone
    obtain hc | hc := hkeep <;> simp [HeldSide.droppable, hc]

/-! ### What a grant of slots leads to -/

section
variable {j : Job} {f : Folio} {i : Nat} {slots tables : List Nat}

/-- An entry of a sample list that matches no held page-side ends its sequence. -/
theorem State.grantPage_no_match (hregs : cellsFrom regReset 0 s.regs = true) (hk : dKind j.desc = 2)
    (hm : s.heldMatch (s.inputId j i) = none) (hopen : s.openSeq j i) :
    s.endsSeq (s.grantPage j f i slots tables) j i (s.inputId j i) stCorrupt 0 0 0x43 ∧ (s.grantPage j f i slots tables).dram = s.dram := by
  obtain ⟨b, ldg, hready⟩ := s.sideReady_eq j f i
  have hm' : (s.sideReady j f i).heldMatch (s.inputId j i) = none := by rw [hready]; exact hm
  rw [s.grantPage_fails (by omega) (by rw [hk]; exact State.takeHeld_of_no_match hm')]
  exact s.sideReady_endsSeq hregs hopen

/-- A captured page-side that is not held ends its sequence. -/
theorem State.grantPage_uncaptured (hregs : cellsFrom regReset 0 s.regs = true) (hk : dKind j.desc = 1)
    (hc : s.captured? (s.inputId j i) = none) (hopen : s.openSeq j i) :
    s.endsSeq (s.grantPage j f i slots tables) j i (dPageId j.desc i) stCorrupt 0 0 0x42 ∧ (s.grantPage j f i slots tables).dram = s.dram := by
  obtain ⟨b, ldg, hready⟩ := s.sideReady_eq j f i
  have hc' : (s.sideReady j f i).captured? (s.inputId j i) = none := by rw [hready]; exact hc
  have hid : s.inputId j i = dPageId j.desc i := by simp [State.inputId, hk]
  rw [s.grantPage_fails (by omega) (by rw [hk]; exact State.takeHeld_of_uncaptured hc'), hid]
  exact s.sideReady_endsSeq hregs hopen

end

/-- Settles O19: each command's effect is read off its function, and what follows a sequence's end takes nothing of it back. -/
theorem pageSidesTakeSlotsAndPack : Obligations.PageSidesTakeSlotsAndPack := by
  intro s hinv
  have hon : ∀ j f, s.runs j f → s.dev.state ≠ .off := fun j f hruns => (DeviceState.on_of_serves (s.serves_of_running hruns.running)).1
  refine ⟨fun j f i slot rest slots tables hq hruns hfree hne => ?_, fun j f n b tables hruns hfree hb => ?_,
    fun j f number base crops b row hruns hb hready hrow => ?_, fun hoff hstandby hup => ?_⟩
  · have hgrant : exec (.seqSlotGrant false slot tables) s = .next (s.grantPage j f i slots tables) :=
      s.next_of_on (f := (·.seqSlotGrant false slot tables)) (hon j f hruns) (s.seqSlotGrant_of_head hq hruns hfree)
    refine ⟨fun hk hd => ⟨_, hgrant, s.grantPage_plain hruns.job hk hd⟩, fun hk g m hd hgr hm hne' => ?_,
      fun hk hd => ⟨fun h hmatch hfit => ⟨_, hgrant, s.grantPage_match hk hd hmatch hfit hne⟩,
        fun hmatch hopen => ⟨_, hgrant, s.grantPage_no_match hinv.mem.regs hk hmatch hopen⟩⟩,
      fun hk hc hopen => ⟨_, hgrant, s.grantPage_uncaptured hinv.mem.regs hk hc hopen⟩⟩
    subst hm
    obtain ⟨a, l, rfl⟩ := List.exists_cons_of_ne_nil hne
    obtain ⟨q, c, hseated⟩ := s.grantPage_catalog (tables := tables) hk hd hgr hne' hne (State.seq?_of_free s hfree List.mem_cons_self)
    exact ⟨_, q, c, hgrant, hseated⟩
  · exact ⟨_, s.next_of_on (hon j f hruns) rfl, s.grantRow_of_batch hruns hfree hb⟩
  · exact ⟨_, s.next_of_on (hon j f hruns) rfl, s.batchPack_packs hinv hruns hb hready hrow⟩
  · have hdrops := s.exitIdle.keepDrop_drops (by simpa using hup)
    have hacc : s.exitIdle.acc = s.acc := by rw [s.exitIdle_eq]; rfl
    rw [State.exitIdle_jobs, State.exitIdle_dram, hacc] at hdrops
    exact ⟨_, s.next_of_awake hoff hstandby rfl, hdrops⟩

end Sys2Proof.Machine
end

section
/-! PROOF. The end of a job that holds no context and no plan: its record is written, its slot is free, and the collation unit keeps its
configuration and its references (R92, R96). -/

namespace Sys2Proof.Machine

set_option Elab.async false

/-! ### What the record of a job's end leaves -/

section
variable (s : State)

theorem State.Reports.col {s t : State} (h : s.Reports t) : t.col = s.col := by
  obtain ⟨_, _, _, _, _, _, _, _, rfl⟩ := h
  rfl

theorem State.afterCq_col (n : Nat) (r : CqRec) : (s.afterCq n r).col = s.col := by
  unfold State.afterCq
  extract_lets jobEnd s3 _ s4
  have h3 : s.Reports s3 := (s.cqInterrupt_reports _ _).trans (State.chargePcie_reports _ _ _)
  have h4 : s4.col = s.col := (State.Reports.ite s h3 (h3.trans (s3.charge_reports _))).col
  split
  · obtain ⟨_, _, h⟩ := s4.releasePage_letsGo _ _
    rw [h]
    exact h4
  · exact h4

theorem State.freeSlot_col (k : Nat) : (s.freeSlot k).col = s.col := by
  unfold State.freeSlot
  split
  · dsimp only
    split <;> rfl
  · rfl

theorem State.readAll_col (l : List RingId) : (l.foldl State.readDoorbell s).col = s.col := by
  obtain ⟨_, _, h⟩ := s.foldl_readDoorbell_reads l
  rw [h]

theorem State.closeCq_col (r : CqRec) : (s.closeCq r).col = s.col := by
  have hreads (u : State) : (u.readAllSqs.readFullProds).col = u.col := (State.readAll_col _ _).trans (State.readAll_col _ _)
  unfold State.closeCq
  cases r.frees with
  | none => dsimp only; split <;> simp only [hreads]
  | some k => dsimp only; split <;> simp only [hreads, State.freeSlot_col]

theorem State.writeCq_col (n : Nat) (r : CqRec) : (s.writeCq n r).col = s.col := by
  rw [s.writeCq_eq, State.closeCq_col, State.afterCq_col, (s.putCq_reports n r).col]

theorem State.postCq_col (n : Nat) (r : CqRec) : (s.postCq n r).col = s.col := by
  unfold State.postCq
  split
  · rfl
  · exact s.writeCq_col n r

theorem State.postCq_fetched (n m : Nat) (r : CqRec) : ((s.postCq n r).sq m).fetched = (s.sq m).fetched := by
  unfold State.postCq
  split
  · rfl
  · exact s.writeCq_fetched n m r

theorem State.releaseCancels_col : s.releaseCancels.col = s.col :=
  List.foldlRecOn _ _ (motive := fun t : State => t.col = s.col) rfl fun t ht _ _ => (t.postCq_col _ _).trans ht

theorem State.releaseCancels_fetched (m : Nat) : (s.releaseCancels.sq m).fetched = (s.sq m).fetched :=
  List.foldlRecOn _ _ (motive := fun t : State => (t.sq m).fetched = (s.sq m).fetched) rfl
    fun t ht _ _ => (t.postCq_fetched _ m _).trans ht

/-- A record that frees a job slot leaves it free. -/
theorem State.writeCq_frees {n k : Nat} {r : CqRec} (h : r.frees = some k) : (s.writeCq n r).job? k = none := by
  have hfree (u : State) : (u.freeSlot k).job? k = none := by
    unfold State.freeSlot
    split
    · exact List.find?_eq_none.2 fun j hj => by simpa using (List.mem_filter.1 hj).2
    · assumption
  have hreads (u : State) : (u.readAllSqs.readFullProds).job? k = u.job? k :=
    State.job?_of_jobs (State.readAll_jobs _ _ |>.trans (State.readAll_jobs _ _)) k
  rw [s.writeCq_eq, State.closeCq, h]
  dsimp only
  split
  · rw [hreads, hfree]
  · exact hfree _

/-! ### What a job lets go -/

end

/-- From `s` to `t` pages, buffers, folios and contexts are let go, and granules of the capture pool. -/
def State.Frees (s t : State) : Prop :=
  ∃ acc fol sch kv pool, t = { s with acc := acc, fol := fol, sch := sch, kv := kv, col := { s.col with pool := pool } }

namespace State.Frees

variable {s t u : State}

theorem refl : s.Frees s := ⟨_, _, _, _, _, rfl⟩

theorem trans (h : s.Frees t) (h' : t.Frees u) : s.Frees u := by
  obtain ⟨_, _, _, _, _, rfl⟩ := h
  obtain ⟨_, _, _, _, _, rfl⟩ := h'
  exact ⟨_, _, _, _, _, rfl⟩

theorem foldl {α : Type} {f : State → α → State} {l : List α} (h : s.Frees t) (hf : ∀ (u : State) a, u.Frees (f u a)) :
    s.Frees (l.foldl f t) :=
  List.foldlRecOn l f h fun u hu a _ => hu.trans (hf u a)

theorem letsGo (h : s.LetsGo t) : s.Frees t := by
  obtain ⟨_, _, rfl⟩ := h
  exact ⟨_, _, _, _, _, rfl⟩

theorem onSch {f : Sch → Sch} (h : s.Frees t) : s.Frees (t.onSch f) := h.trans ⟨_, _, _, _, _, rfl⟩
theorem onAcc {f : Acc → Acc} (h : s.Frees t) : s.Frees (t.onAcc f) := h.trans ⟨_, _, _, _, _, rfl⟩
theorem onFol {f : Fol → Fol} (h : s.Frees t) : s.Frees (t.onFol f) := h.trans ⟨_, _, _, _, _, rfl⟩
theorem poolDone {p : PoolOwner → Bool} (h : s.Frees t) : s.Frees (t.poolDone p) := h.onAcc
theorem onRefs {a : Nat} {f : Nat → Nat} (h : s.Frees t) : s.Frees (t.onRefs a f) := h.trans ⟨_, _, _, _, _, rfl⟩
theorem sweepPools (h : s.Frees t) : s.Frees t.sweepPools := h.trans ⟨_, _, _, _, _, rfl⟩

end State.Frees

variable {s t u : State} {n m : Nat} {d : Bytes} {j : Job}

/-- The work of the job in slot `k` that waits in the collation unit, in the security unit or among the fetched descriptors is gone. -/
def State.dropWaiting (s : State) (k : Nat) : State :=
  ((s.onCol fun c => { c with queue := c.queue.filter (·.1 ≠ k), calib := c.calib.filter (·.slot ≠ k) }).onSec fun c =>
    { c with attest := c.attest.filter (·.slot ≠ k) }).onRings fun r =>
      { r with sqs := r.sqs.map fun q => { q with fetched := q.fetched.filter (·.2 ≠ some k) } }

theorem State.dropWaiting_fetched (s : State) (k : Nat) (hm : (s.sq m).fetched = []) : ((s.dropWaiting k).sq m).fetched = [] := by
  simp only [State.dropWaiting, State.sq, State.onRings_rings, State.onSec_rings, State.onCol_rings, List.getD_eq_getElem?_getD,
    List.getElem?_map] at hm ⊢
  cases hq : s.rings.sqs[m]? with
  | none => rfl
  | some q =>
    rw [hq] at hm
    simp [show q.fetched = [] from hm]

/-- What a job without contexts and without a plan lets go. -/
theorem State.releaseJob_frees (hj : s.slotJob n d j) : ∃ u, s.Frees u ∧ s.releaseJob j.slot = u.dropWaiting j.slot := by
  have hmine : (s.sch.ctxs.filter (·.jobNumber = j.number)) = [] :=
    List.filter_eq_nil_iff.2 fun x hx => by simpa using hj.ctxs x hx
  rw [State.releaseJob, hj.inSlot]
  dsimp only
  rw [hmine]
  simp only [List.filter_nil, List.flatMap_nil, List.foldl_nil, State.dropPlan, hj.plan]
  refine ⟨_, ?_, rfl⟩
  refine .onFol (.sweepPools (.poolDone (.foldl (.onAcc (.onSch (.foldl .refl fun u k => ?_))) fun _ _ => .onRefs .refl)))
  exact .letsGo (u.releaseSeq_letsGo k)

/-- What is left of the machine around the job. -/
theorem State.releaseJob_form (hj : s.slotJob n d j) :
    ∃ acc fol sch kv pool, s.releaseJob j.slot =
      { s.dropWaiting j.slot with
        acc := acc, fol := fol, sch := sch, kv := kv, col := { (s.dropWaiting j.slot).col with pool := pool } } := by
  obtain ⟨u, ⟨acc, fol, sch, kv, pool, rfl⟩, hrel⟩ := State.releaseJob_frees hj
  exact ⟨acc, fol, sch, kv, pool, hrel⟩

/-- A job ends with a record of the given STATUS, flags, AMOUNT and DETAIL. -/
def State.finishJob (s : State) (slot status flags amount detail : Nat) : State :=
  ((s.releaseJob slot).endJob slot status flags amount detail).releaseCancels

theorem State.closeJob_eq (hj : s.slotJob n d j) (status flags detail : Nat) :
    s.closeJob j.slot status flags detail = s.finishJob j.slot status flags 0 detail := by
  rw [State.closeJob, hj.inSlot, State.finishJob, ← hj.seqRecs]

theorem State.closeAmount_eq (slot amount : Nat) : s.closeAmount slot amount = s.finishJob slot stOk 0 amount 0 := rfl

/-- The record of a job that has counted nothing is formed. -/
theorem State.endJob_of_slotJob (hj : s.job? j.slot = some j) (hcounts : j.counts = []) (hdeg : j.degenerate = false)
    (status flags amount detail : Nat) :
    s.endJob j.slot status flags amount detail =
      (s.onJob j.slot Job.finished).postCq (s.cqFor j.sq j.desc) (j.endRec status flags amount detail) := by
  simp only [State.endJob, hj, hcounts, hdeg, ite_self, List.filter_nil, List.map_nil, List.sum_nil, ne_eq, not_true_eq_false, if_false,
    decide_false, Bool.false_and, Bool.false_eq_true, Nat.or_zero]
  rfl

/-- From `s` to `u` neither the registers nor the completion rings have changed: a record is written in `u` as in `s`. -/
structure State.SameCqs (s u : State) : Prop where
  regs : u.regs = s.regs
  cqs : u.rings.cqs = s.rings.cqs

/-- Whatever depends on nothing else is the same of `u` as of `s`. -/
theorem State.SameCqs.eq (h : s.SameCqs u) : { s with regs := u.regs, rings := { s.rings with cqs := u.rings.cqs } } = s := by
  rw [h.regs, h.cqs]

theorem State.SameCqs.cqFor (h : s.SameCqs u) (n : Nat) (d : Bytes) : u.cqFor n d = s.cqFor n d := by
  exact (congrArg (fun w : State => w.cqFor n d) h.eq :)

theorem State.SameCqs.cqWrite (h : s.SameCqs u) (c : Nat) (r : CqRec) : u.cqWrite c r = s.cqWrite c r := by
  exact (congrArg (fun w : State => w.cqWrite c r) h.eq :)

theorem State.SameCqs.cqOpen (h : s.SameCqs u) {c : Nat} (hc : s.cqOpen c) : u.cqOpen c := by
  rw [← h.eq] at hc
  exact ⟨hc.host, hc.ring, hc.base, hc.size, hc.held, hc.room⟩

theorem State.slotJob.of_same (hj : s.slotJob n d j) (hjobs : u.jobs = s.jobs) (hctxs : u.sch.ctxs = s.sch.ctxs) : u.slotJob n d j :=
  { hj with inSlot := (State.job?_of_jobs hjobs _).trans hj.inSlot, ctxs := hctxs ▸ hj.ctxs }

/-- The end of a job whose record can be written: it is written as it would have been from any earlier state with the same registers and
completion rings. -/
theorem State.endsJob_finishJob (hsame : s.SameCqs u) (hregs : cellsFrom regReset 0 s.regs = true) (hj : u.slotJob n d j)
    (hcq : s.cqOpen (s.cqFor n d)) (status flags amount detail : Nat) :
    s.endsJob (u.finishJob j.slot status flags amount detail) j status flags amount detail := by
  obtain ⟨_, _, _, _, _, hform⟩ := State.releaseJob_form hj
  have hrel : s.SameCqs ((u.releaseJob j.slot).onJob j.slot Job.finished) := by
    rw [hform]
    exact ⟨hsame.regs, hsame.cqs⟩
  have hin : (u.releaseJob j.slot).job? j.slot = some j := by
    rw [hform]
    exact hj.inSlot
  have hring : (u.releaseJob j.slot).cqFor j.sq j.desc = s.cqFor j.sq j.desc := hrel.cqFor _ _
  obtain ⟨hhost, -, hbase, -, hheld, hroom⟩ := hrel.cqOpen hcq
  rw [← hj.sq, ← hj.desc] at hbase hheld hroom
  obtain ⟨more, hout⟩ := State.writeCq_out _ (j.endRec status flags amount detail) hhost hbase
  have hwritten := (State.Ends.refl (K := fun _ => False) (hrel.regs ▸ hregs) hhost).writeCq (n := s.cqFor j.sq j.desc)
    (r := j.endRec status flags amount detail)
  have hafter := (State.Ends.refl (K := fun _ => False) hwritten.regs hwritten.host).releaseCancels
  rw [State.finishJob, State.endJob_of_slotJob hin hj.counts hj.degenerate, hring, State.postCq_of_open _ _ hheld hroom]
  refine ⟨hafter.out.subset ?_, Option.eq_none_iff_forall_ne_some.2 fun k hk => ?_⟩
  · rw [hout, ← hrel.cqWrite]
    exact List.mem_append_right _ List.mem_cons_self
  · obtain ⟨k₀, hk₀, -⟩ := hafter.jobs _ _ hk
    rw [State.writeCq_frees _ rfl] at hk₀
    cases hk₀

/-- Of the collation unit a job's end takes the pool's free granules and the job's own waiting work. -/
theorem State.finishJob_col (hj : s.slotJob n d j) (status flags amount detail : Nat) :
    ∃ pool, (s.finishJob j.slot status flags amount detail).col =
      { s.col with pool := pool, queue := s.col.queue.filter (·.1 ≠ j.slot), calib := s.col.calib.filter (·.slot ≠ j.slot) } := by
  obtain ⟨_, _, _, _, pool, hform⟩ := State.releaseJob_form hj
  have hin : (s.releaseJob j.slot).job? j.slot = some j := by
    rw [hform]
    exact hj.inSlot
  refine ⟨pool, ?_⟩
  rw [State.finishJob, State.releaseCancels_col, State.endJob_of_slotJob hin hj.counts hj.degenerate, State.postCq_col, hform]
  rfl

/-- A ring with nothing fetched has nothing fetched once a job has ended. -/
theorem State.finishJob_fetched (hj : s.slotJob n d j) (hm : (s.sq m).fetched = []) (status flags amount detail : Nat) :
    ((s.finishJob j.slot status flags amount detail).sq m).fetched = [] := by
  obtain ⟨_, _, _, _, _, hform⟩ := State.releaseJob_form hj
  have hin : (s.releaseJob j.slot).job? j.slot = some j := by
    rw [hform]
    exact hj.inSlot
  rw [State.finishJob, State.releaseCancels_fetched, State.endJob_of_slotJob hin hj.counts hj.degenerate, State.postCq_fetched, hform]
  exact s.dropWaiting_fetched _ hm

end Sys2Proof.Machine
end

section
/-! PROOF. The collation unit's transports and ports: what a change of one leaves of the others (R154). -/

namespace Sys2Proof.Machine

set_option Elab.async false

variable (s : State)

theorem State.transport_of_col {s t : State} (h : t.col.transports = s.col.transports) (k : Nat) : t.transport k = s.transport k := by
  rw [State.transport, State.transport, h]

theorem State.lsp_of_col {s t : State} (h : t.col.lsps = s.col.lsps) (p : Nat) : t.lsp p = s.lsp p := by rw [State.lsp, State.lsp, h]

@[simp] theorem State.onTransport_count (m : Nat) (f : Transport → Transport) :
    (s.onTransport m f).col.transports.length = s.col.transports.length := by
  simp [State.onTransport]

@[simp] theorem State.onLsp_count (p : Nat) (f : Lsp → Lsp) : (s.onLsp p f).col.lsps.length = s.col.lsps.length := by
  simp [State.onLsp]

theorem State.transport_onTransport_same {m : Nat} (f : Transport → Transport) (hm : m < s.col.transports.length) :
    (s.onTransport m f).transport m = f (s.transport m) := by
  simp [State.transport, State.onTransport, hm]

theorem State.transport_onTransport_other {m k : Nat} (f : Transport → Transport) (h : k ≠ m) :
    (s.onTransport m f).transport k = s.transport k := by
  simp [State.transport, State.onTransport, h.symm]

/-- What a change of one transport leaves in each transport reads as before. -/
theorem State.transport_onTransport_proj {α : Type} (g : Transport → α) (m k : Nat) (f : Transport → Transport)
    (hf : ∀ x, g (f x) = g x) : g ((s.onTransport m f).transport k) = g (s.transport k) := by
  simp only [State.transport, State.onTransport, State.onCol_col, List.getD_eq_getElem?_getD, List.getElem?_modify]
  cases s.col.transports[k]? with
  | none => rfl
  | some x => by_cases h : m = k <;> simp [h, hf]

theorem State.lsp_onLsp_same {p : Nat} (f : Lsp → Lsp) (hp : p < s.col.lsps.length) : (s.onLsp p f).lsp p = f (s.lsp p) := by
  simp [State.lsp, State.onLsp, hp]

theorem State.lsp_onLsp_other {p q : Nat} (f : Lsp → Lsp) (h : q ≠ p) : (s.onLsp p f).lsp q = s.lsp q := by
  simp [State.lsp, State.onLsp, h.symm]

/-- A transport that has a configuration exists. -/
theorem State.transport_lt {m : Nat} (h : (s.transport m).cfg ≠ none) : m < s.col.transports.length := by
  by_contra hm
  exact h (by rw [State.transport, List.getD_eq_getElem?_getD, List.getElem?_eq_none (by omega)]; rfl)

/-- A transport that has a source exists. -/
theorem State.transport_lt_of_source {m i : Nat} {src : Source} (h : (s.transport m).sources[i]? = some src) :
    m < s.col.transports.length := by
  refine s.transport_lt fun hnone => ?_
  rw [Transport.sources, hnone] at h
  cases h

end Sys2Proof.Machine
end

section
/-! PROOF. O21: capture jobs begin, wait or are refused, and a configuration is applied (R182, R186, R198 to R201). -/

namespace Sys2Proof.Machine

set_option Elab.async false

/-! ### A capture descriptor begins -/

theorem rowless_of_capture {d : Bytes} (hop : dOp d = opCapture) (ha : dAction d ≤ 3) : rowless d = false := by
  have hu : ¬3 < u8 d 5 := Nat.not_lt.2 ha
  simp [rowless, hop, opCapture, opAttest, hu]

variable {s t u : State} {n k : Nat} {d : Bytes} {j : Job}

/-- A capture descriptor of an action that exists begins with that action's effect. -/
theorem State.beginCapture {slot : Option Nat} {a : Nat} {run : State → Bytes → Option Nat → State} (hready : s.ready n d slot)
    (hop : dOp d = opCapture) (hact : dAction d = a) (ha : a ≤ 3) (hrun : ((run (s.popHead n) d slot).sq n).fetched = []) :
    s.beginDesc n (fun d => dOp d = opCapture && dAction d = a) run = run (s.popHead n) d slot :=
  s.beginDesc_of_ready hready (rowless_of_capture hop (hact ▸ ha)) (by simp [hop, hact]) hrun

theorem State.slotJob.popHead (hj : s.slotJob n d j) : (s.popHead n).slotJob n d j := hj.of_same rfl rfl

theorem State.popHead_sameCqs (s : State) (n : Nat) : s.SameCqs (s.popHead n) := ⟨rfl, rfl⟩

/-! ### The configuration block is read -/

/-- The reads of a configuration block, on the job's account. -/
def State.readConfig (s : State) (d : Bytes) : State :=
  (s.hostRead (dConfigAddr d) (dConfigLen d)).chargePcie (dClient d) (dConfigLen d)

theorem State.hostRead_eq (s : State) (a n : Nat) : s.hostRead a n = { s with out := (s.hostRead a n).out } := by
  unfold State.hostRead
  split
  · rfl
  · rw [foldl_emit s fun p : Nat × Nat => Out.hostRead p.1 p.2]

theorem State.readConfig_form (s : State) (d : Bytes) : ∃ out ldg, s.readConfig d = { s with out := out, ldg := ldg } := by
  rw [State.readConfig, State.chargePcie_eq, State.hostRead_eq]
  exact ⟨_, _, rfl⟩

/-- The block is checked and refused, or queued for its transports. -/
def State.takeBlock (s : State) (d block : Bytes) (slot : Nat) : State :=
  match blockFault (s.hostBytes (dConfigAddr d) (dConfigLen d) block) (dConfigLen d) (65536 * s.colGranules) (dSelected d) with
  | some off => (s.readConfig d).closeJob slot stConfig 0 off
  | none => (s.readConfig d).queueCapture slot
      ((dSelected d).map fun m => (m, parseTransport (s.hostBytes (dConfigAddr d) (dConfigLen d) block) m))

theorem State.commit_of_ready {block : Bytes} (hready : s.ready n d (some k)) (hop : dOp d = opCapture) (hact : dAction d = 0)
    (hrun : (((s.popHead n).takeBlock d block k).sq n).fetched = []) : s.commit n block = (s.popHead n).takeBlock d block k := by
  have hgran : ((s.popHead n).readConfig d).colGranules = (s.popHead n).colGranules := by
    obtain ⟨_, _, h⟩ := (s.popHead n).readConfig_form d
    rw [h]
    rfl
  have htake : s.commit n block = s.beginDesc n (fun d => dOp d = opCapture && dAction d = 0) fun s d slot =>
      match slot with
      | none => s
      | some k => match blockFault (s.hostBytes (dConfigAddr d) (dConfigLen d) block) (dConfigLen d) (65536 * (s.readConfig d).colGranules)
            (dSelected d) with
        | some off => (s.readConfig d).closeJob k stConfig 0 off
        | none => (s.readConfig d).queueCapture k
            ((dSelected d).map fun m => (m, parseTransport (s.hostBytes (dConfigAddr d) (dConfigLen d) block) m)) := rfl
  rw [htake, State.beginCapture hready hop hact (by decide)]
  · dsimp only
    rw [hgran]
    rfl
  · dsimp only
    rw [hgran]
    exact hrun

/-! ### Work that waits -/

theorem State.phase_onJob (hj : s.job? k = some j) (p : JobPhase) :
    ((s.onJob k fun j => { j with phase := p }).job? k).map (·.phase) = some p := by
  rw [State.job?_onJob_same k (fun j => { j with phase := p }) fun _ => rfl, hj]
  rfl

/-- Work for transports waits, and its job is in capture. -/
theorem State.queueCapture_waits {sel : List Nat} (g : Nat → Option TransportCfg) (hj : s.job? k = some j) (hsel : sel ≠ []) :
    ((s.queueCapture k (sel.map fun m => (m, g m))).job? k).map (·.phase) = some .capture ∧
      (s.queueCapture k (sel.map fun m => (m, g m))).col =
        { s.col with queue := s.col.queue ++ [(k, sel, sel.map fun m => (m, g m))] } ∧
      (s.queueCapture k (sel.map fun m => (m, g m))).rings = s.rings := by
  have hfirst : (sel.map fun m => (m, g m)).map (·.1) = sel := by
    rw [List.map_map]
    exact List.map_id _
  rw [State.queueCapture, if_neg (by simpa using hsel), hfirst]
  exact ⟨State.phase_onJob hj _, rfl, rfl⟩

theorem State.captureStop_of_ready (hready : s.ready n d (some k)) (hop : dOp d = opCapture) (hact : dAction d = 3)
    (hrun : (((s.popHead n).queueCapture k ((dSelected d).map fun m => (m, none))).sq n).fetched = []) :
    s.captureStop n = (s.popHead n).queueCapture k ((dSelected d).map fun m => (m, none)) :=
  State.beginCapture hready hop hact (by decide) hrun

/-- The request for a calibration waits. -/
def State.addCalib (s : State) (d : Bytes) (white : Bool) (k : Nat) : State :=
  (s.onCol fun c => { c with calib := c.calib ++ [⟨k, white, dAvg d, dSelected d, false, [], []⟩] }).onJob k
    fun j => { j with phase := .calibrating }

theorem State.calibrate_of_ready {white : Bool} (hready : s.ready n d (some k)) (hop : dOp d = opCapture)
    (hact : dAction d = (if white then 2 else 1)) (hgone : ((s.popHead n).sq n).fetched = []) :
    s.calibrate n white = (s.popHead n).addCalib d white k :=
  State.beginCapture hready hop hact (by cases white <;> decide) hgone

/-! ### A configuration is applied (R182, R200) -/

/-- The references that a commit of a configuration keeps. -/
def keptRefs (refs : List Refs) (m : Nat) : Option TransportCfg → List Refs
  | none => refs
  | some c => refs.filter fun r => r.transport ≠ m || keepsRefs r c.sources

/-- A transport that takes a configuration, or none. -/
def Transport.configured (cfg : Option TransportCfg) (x : Transport) : Transport :=
  { x with cfg := cfg, pTrail := none, nextRow := [], nextStrobe := [], lateStrobes := [] }

theorem State.setCfg_eq (s : State) (m : Nat) (cfg : Option TransportCfg) :
    s.setCfg m cfg = { s with col := (s.setCfg m cfg).col } ∧
      (s.setCfg m cfg).col.transports = (s.onTransport m (Transport.configured cfg)).col.transports ∧
      (s.setCfg m cfg).col.refs = keptRefs s.col.refs m cfg ∧ (s.setCfg m cfg).col.queue = s.col.queue := by
  cases cfg <;> exact ⟨rfl, rfl, rfl, rfl⟩

/-- The only work that waits is for one transport: the transport takes it. -/
theorem State.configApply_of_one {m : Nat} {cfg : Option TransportCfg} (hup : s.colUp = true) (hsides : (s.transport m).sides = [])
    (hqueue : s.col.queue = [(k, [m], [(m, cfg)])]) (hfree : s.captureBlocked k = false) :
    s.configApply m =
      ((s.setCfg m cfg).onCol fun c => { c with queue := [(k, [], [(m, cfg)])] }).closeJob k stOk 0 0 := by
  have hshut : (s.transport m).isOpen = false := by simp [Transport.isOpen, hsides]
  obtain ⟨-, -, -, hq⟩ := s.setCfg_eq m cfg
  rw [State.configApply, if_neg (by simp [hup, hshut])]
  simp only [hqueue, hfree, List.find?_cons, List.mem_singleton, decide_true, Bool.not_false, Bool.and_self, Option.map_some,
    Option.getD_some, ne_eq, not_true_eq_false, decide_false, Bool.false_eq_true, not_false_eq_true, List.filter_cons_of_neg,
    List.filter_nil, if_true]
  congr 1
  simp only [State.onCol, hq, hqueue, updFirst, decide_true, if_true]

/-! ### The clauses -/

/-- A capture job ends in a state that differs from `s` in nothing that its record depends on. -/
theorem State.closeJob_ends (hinv : s.Inv) (hsame : s.SameCqs u) (hju : u.slotJob n d j) (hcq : s.cqOpen (s.cqFor n d))
    (status detail : Nat) : s.endsJob (u.closeJob j.slot status 0 detail) j status 0 0 detail := by
  rw [State.closeJob_eq hju]
  exact State.endsJob_finishJob hsame hinv.mem.regs hju hcq _ _ _ _

section
variable (hinv : s.Inv) (hj : s.slotJob n d j) (hready : s.ready n d (some j.slot)) (hop : dOp d = opCapture)
include hinv hj hready hop

theorem State.commit_refuses {block : Bytes} {off : Nat} (hact : dAction d = 0) (hcq : s.cqOpen (s.cqFor n d))
    (hfault : blockFault (s.hostBytes (dConfigAddr d) (dConfigLen d) block) (dConfigLen d) (65536 * s.colGranules) (dSelected d)
      = some off) :
    s.endsJob (s.commit n block) j stConfig 0 0 off ∧ (s.commit n block).col.transports = s.col.transports ∧
      (s.commit n block).col.refs = s.col.refs ∧ (s.commit n block).col.lsps = s.col.lsps := by
  have htake : (s.popHead n).takeBlock d block j.slot = ((s.popHead n).readConfig d).closeJob j.slot stConfig 0 off := by
    unfold State.takeBlock
    split <;> rename_i h <;> cases hfault.symm.trans h
    rfl
  obtain ⟨out, ldg, hform⟩ := (s.popHead n).readConfig_form d
  have hju : ((s.popHead n).readConfig d).slotJob n d j := by
    rw [hform]
    exact hj.of_same rfl rfl
  have hgone : (((s.popHead n).readConfig d).sq n).fetched = [] := by
    rw [hform]
    exact s.popHead_fetched hready hinv.numbers.sqs
  have hsame : s.SameCqs ((s.popHead n).readConfig d) := by
    rw [hform]
    exact ⟨rfl, rfl⟩
  rw [State.commit_of_ready hready hop hact (by rw [htake, State.closeJob_eq hju]; exact State.finishJob_fetched hju hgone _ _ _ _), htake]
  refine ⟨State.closeJob_ends hinv hsame hju hcq _ _, ?_⟩
  obtain ⟨pool, hcol⟩ := State.finishJob_col hju stConfig 0 0 off
  rw [State.closeJob_eq hju, hcol, hform]
  exact ⟨rfl, rfl, rfl⟩

theorem State.commit_queues {block : Bytes} (hact : dAction d = 0) (hsel : dSelected d ≠ [])
    (hgood : blockFault (s.hostBytes (dConfigAddr d) (dConfigLen d) block) (dConfigLen d) (65536 * s.colGranules) (dSelected d)
      = none) :
    ((s.commit n block).job? j.slot).map (·.phase) = some .capture ∧ (s.commit n block).col.transports = s.col.transports ∧
      (s.commit n block).col.queue = s.col.queue ++ [(j.slot, dSelected d, (dSelected d).map fun m =>
        (m, parseTransport (s.hostBytes (dConfigAddr d) (dConfigLen d) block) m))] := by
  have htake : (s.popHead n).takeBlock d block j.slot = ((s.popHead n).readConfig d).queueCapture j.slot
      ((dSelected d).map fun m => (m, parseTransport (s.hostBytes (dConfigAddr d) (dConfigLen d) block) m)) := by
    unfold State.takeBlock
    split <;> rename_i h <;> cases hgood.symm.trans h
    rfl
  obtain ⟨out, ldg, hform⟩ := (s.popHead n).readConfig_form d
  have hin : ((s.popHead n).readConfig d).job? j.slot = some j := by
    rw [hform]
    exact hj.inSlot
  obtain ⟨hphase, hcol, hrings⟩ := State.queueCapture_waits
    (parseTransport (s.hostBytes (dConfigAddr d) (dConfigLen d) block)) hin hsel
  rw [State.commit_of_ready hready hop hact, htake]
  · refine ⟨hphase, ?_⟩
    rw [hcol, hform]
    exact ⟨rfl, rfl⟩
  · rw [htake, State.sq, hrings, hform]
    exact s.popHead_fetched hready hinv.numbers.sqs

theorem State.stop_queues (hact : dAction d = 3) (hsel : dSelected d ≠ []) :
    ((s.captureStop n).job? j.slot).map (·.phase) = some .capture ∧ (s.captureStop n).col.transports = s.col.transports ∧
      (s.captureStop n).col.queue = s.col.queue ++ [(j.slot, dSelected d, (dSelected d).map fun m => (m, none))] := by
  obtain ⟨hphase, hcol, hrings⟩ := State.queueCapture_waits (s := s.popHead n) (fun _ => none) hj.inSlot hsel
  rw [State.captureStop_of_ready hready hop hact]
  · refine ⟨hphase, ?_⟩
    rw [hcol]
    exact ⟨rfl, rfl⟩
  · rw [State.sq, hrings]
    exact s.popHead_fetched hready hinv.numbers.sqs

/-- STOP with no transport selected has nothing to wait for. -/
theorem State.stop_ends (hact : dAction d = 3) (hsel : dSelected d = []) (hcq : s.cqOpen (s.cqFor n d)) :
    s.endsJob (s.captureStop n) j stOk 0 0 0 ∧ (s.captureStop n).col.transports = s.col.transports := by
  have hclose : (s.popHead n).queueCapture j.slot ((dSelected d).map fun m => (m, none)) = (s.popHead n).closeJob j.slot stOk 0 0 := by
    rw [hsel]
    rfl
  have hgone := State.finishJob_fetched hj.popHead (s.popHead_fetched hready hinv.numbers.sqs) stOk 0 0 0
  obtain ⟨pool, hcol⟩ := State.finishJob_col hj.popHead stOk 0 0 0
  rw [← State.closeJob_eq hj.popHead, ← hclose] at hgone
  rw [State.captureStop_of_ready hready hop hact hgone, hclose]
  refine ⟨State.closeJob_ends hinv (s.popHead_sameCqs n) hj.popHead hcq _ _, ?_⟩
  rw [State.closeJob_eq hj.popHead, hcol]
  rfl

theorem State.calibrate_waits {white : Bool} (hact : dAction d = (if white then 2 else 1)) :
    ((s.calibrate n white).job? j.slot).map (·.phase) = some .calibrating ∧
      (s.calibrate n white).col.calib = s.col.calib ++ [⟨j.slot, white, dAvg d, dSelected d, false, [], []⟩] ∧
      (s.calibrate n white).col.refs = s.col.refs := by
  rw [State.calibrate_of_ready hready hop hact (s.popHead_fetched hready hinv.numbers.sqs)]
  exact ⟨State.phase_onJob hj.inSlot _, rfl, rfl⟩

end

theorem State.configApply_applies {m : Nat} {cfg : Option TransportCfg} (hinv : s.Inv) (hj : s.slotJob n d j)
    (hup : s.colUp = true) (hsides : (s.transport m).sides = []) (hqueue : s.col.queue = [(j.slot, [m], [(m, cfg)])])
    (hfree : s.captureBlocked j.slot = false) (hcq : s.cqOpen (s.cqFor n d)) :
    (∀ k, (s.configApply m).transport k = (s.onTransport m (Transport.configured cfg)).transport k) ∧
      (s.configApply m).col.queue = [] ∧ s.endsJob (s.configApply m) j stOk 0 0 0 ∧
      (s.configApply m).col.refs = keptRefs s.col.refs m cfg := by
  obtain ⟨hform, htransports, hrefs, -⟩ := s.setCfg_eq m cfg
  have hu : ∀ u, u = ((s.setCfg m cfg).onCol fun c => { c with queue := [(j.slot, [], [(m, cfg)])] }) →
      s.SameCqs u ∧ u.slotJob n d j := by
    rintro u rfl
    rw [hform]
    exact ⟨⟨rfl, rfl⟩, hj.of_same rfl rfl⟩
  obtain ⟨hsame, hju⟩ := hu _ rfl
  obtain ⟨pool, hcol⟩ := State.finishJob_col hju stOk 0 0 0
  rw [State.configApply_of_one hup hsides hqueue hfree]
  refine ⟨fun k => State.transport_of_col ?_ k, ?_, State.closeJob_ends hinv hsame hju hcq _ _, ?_⟩ <;>
    rw [State.closeJob_eq hju, hcol]
  · exact htransports
  · simp
  · exact hrefs

/-- Settles O21: a capture descriptor begins with its action's effect, its record is the one that the state before could write, and the
only work that waits is applied whole. -/
theorem captureConfigured : Obligations.CaptureConfigured := by
  intro s n d j hinv hj
  refine ⟨fun hready hop => ?_, fun m cfg hm hon hup hsides hqueue hfree hcq => ?_⟩
  · obtain ⟨hon, -⟩ := DeviceState.on_of_serves (s.serves_of_running hready.running)
    refine ⟨fun block hact => ⟨fun off hfault hcq => ?_, fun hgood hsel => ?_⟩, fun hact hsel => ?_, fun hact hsel hcq => ?_,
      fun white hact => ?_⟩
    · exact ⟨_, s.next_of_on hon rfl, State.commit_refuses hinv hj hready hop hact hcq hfault⟩
    · exact ⟨_, s.next_of_on hon rfl, State.commit_queues hinv hj hready hop hact hsel hgood⟩
    · exact ⟨_, s.next_of_on hon rfl, State.stop_queues hinv hj hready hop hact hsel⟩
    · exact ⟨_, s.next_of_on hon rfl, State.stop_ends hinv hj hready hop hact hsel hcq⟩
    · cases white
      · exact ⟨_, s.next_of_on hon rfl, State.calibrate_waits hinv hj hready hop hact⟩
      · exact ⟨_, s.next_of_on hon rfl, State.calibrate_waits hinv hj hready hop hact⟩
  · obtain ⟨htransports, hq, hends, hrefs⟩ := State.configApply_applies hinv hj hup hsides hqueue hfree hcq
    have hself := (htransports m).trans (s.transport_onTransport_same _ (hinv.numbers.transports ▸ hm))
    refine ⟨_, s.next_of_on hon rfl, ?_, ?_, ?_, hq, hends, ?_, fun k hk => ?_⟩
    · rw [hself]; rfl
    · rw [hself]; rfl
    · rw [hself]; rfl
    · rw [hrefs]; cases cfg <;> rfl
    · rw [htransports k, s.transport_onTransport_other _ hk]

end Sys2Proof.Machine
end

section
/-! PROOF. What the work on open page-sides leaves (R161 to R178): triggers, strobes, lines and the ends of page-sides move what stands for
them, and every page-side that was open still is, with its lines, or is held. -/

namespace Sys2Proof.Machine

set_option Elab.async false

/-- What the work on open page-sides leaves of a transport. -/
def Transport.still (x : Transport) : Transport := { x with high := 0, nextRow := [], sides := [], nextStrobe := [], lateStrobes := [] }

/-- The page-side `q` is `o`, with further lines and marks. -/
def OpenSide.grows (o q : OpenSide) : Prop := q.sample = o.sample ∧ q.side = o.side ∧ o.lines ⊆ q.lines

/-- The page-side `o` of transport `m` is open still, with its lines, or it is held. -/
def State.keepsSide (s : State) (m : Nat) (o : OpenSide) : Prop :=
  (∃ q ∈ (s.transport m).sides, o.grows q) ∨ ∃ h ∈ s.acc.held, h.planes.sample = o.sample ∧ h.fate = .held

/-- From `s₀` to `s`, with four transports and canonical registers, the collation unit has worked: more may be sent and held, and the
ports that `P` names are as they were, with their counts of errors; so are the lamps, if `L` says so. -/
structure State.Moves (P : Nat → Prop) (L : Prop) (s₀ s : State) : Prop where
  regs : cellsFrom regReset 0 s.regs = true
  four : s.col.transports.length = 4
  eight : s.col.lsps.length = s₀.col.lsps.length
  out : s₀.out <+: s.out
  held : s₀.acc.held ⊆ s.acc.held
  still : ∀ m, (s.transport m).still = (s₀.transport m).still
  ports : ∀ p, P p → s.lsp p = s₀.lsp p
  counts : ∀ p, P p → s.reg (rColLspErr p) = s₀.reg (rColLspErr p)
  refs : s.col.refs = s₀.col.refs
  lamps : L → s.col.lamps = s₀.col.lamps

/-- The same, and no page-side is lost. -/
structure State.Works (P : Nat → Prop) (L : Prop) (s₀ s : State) : Prop extends State.Moves P L s₀ s where
  sides : ∀ m, ∀ o ∈ (s₀.transport m).sides, s.keepsSide m o

namespace OpenSide

theorem grows.refl (o : OpenSide) : o.grows o := ⟨rfl, rfl, List.Subset.refl _⟩

theorem grows.trans {o q r : OpenSide} (h : o.grows q) (h' : q.grows r) : o.grows r :=
  ⟨h'.1.trans h.1, h'.2.1.trans h.2.1, fun _ hl => h'.2.2 (h.2.2 hl)⟩

theorem mark_grows (o : OpenSide) (bit : Nat) : o.grows (o.mark bit) := grows.refl o

end OpenSide

namespace State

variable {P : Nat → Prop} {L : Prop} {s₀ s t : State} {m k p : Nat}

/-! ### Single changes -/

theorem Moves.refl (hregs : cellsFrom regReset 0 s.regs = true) (hfour : s.col.transports.length = 4) : Moves P L s s :=
  ⟨hregs, hfour, rfl, List.prefix_rfl, List.Subset.refl _, fun _ => rfl, fun _ _ => rfl, fun _ _ => rfl, rfl, fun _ => rfl⟩

theorem Works.refl (hregs : cellsFrom regReset 0 s.regs = true) (hfour : s.col.transports.length = 4) : Works P L s s :=
  ⟨.refl hregs hfour, fun _ o ho => .inl ⟨o, ho, .refl o⟩⟩

/-- A change of what the relation does not speak of, and of what is sent besides. -/
theorem Moves.same (h : Moves P L s₀ s) (col : t.col = s.col := by rfl) (acc : t.acc = s.acc := by rfl) (regs : t.regs = s.regs := by rfl)
    (out : s.out <+: t.out := by exact List.prefix_rfl) : Moves P L s₀ t where
  regs := regs ▸ h.regs
  four := col ▸ h.four
  eight := col ▸ h.eight
  out := h.out.trans out
  held := acc ▸ h.held
  still m := by rw [transport_of_col (congrArg Col.transports col)]; exact h.still m
  ports p hp := by rw [lsp_of_col (congrArg Col.lsps col)]; exact h.ports p hp
  counts p hp := (reg_of_regs regs _).trans (h.counts p hp)
  refs := col ▸ h.refs
  lamps hl := col ▸ h.lamps hl

/-- Another pool leaves all this as it is, and so do other lamps where `L` does not forbid them. -/
theorem Moves.onCol {f : Col → Col} (h : Moves P L s₀ s) (hlamps : L → (f s.col).lamps = s.col.lamps)
    (htransports : (f s.col).transports = s.col.transports := by rfl) (hlsps : (f s.col).lsps = s.col.lsps := by rfl)
    (hrefs : (f s.col).refs = s.col.refs := by rfl) : Moves P L s₀ (s.onCol f) where
  regs := h.regs
  four := by rw [onCol_col, htransports]; exact h.four
  eight := by rw [onCol_col, hlsps]; exact h.eight
  out := h.out
  held := h.held
  still m := by rw [transport_of_col (s := s) htransports]; exact h.still m
  ports p hp := by rw [lsp_of_col (s := s) hlsps]; exact h.ports p hp
  counts := h.counts
  refs := hrefs.trans h.refs
  lamps hl := (hlamps hl).trans (h.lamps hl)

theorem Moves.onTransport {f : Transport → Transport} (h : Moves P L s₀ s) (hf : ∀ x, (f x).still = x.still) :
    Moves P L s₀ (s.onTransport m f) where
  regs := h.regs
  four := (s.onTransport_count m f).trans h.four
  eight := h.eight
  out := h.out
  held := h.held
  still k := (s.transport_onTransport_proj Transport.still m k f hf).trans (h.still k)
  ports := h.ports
  counts := h.counts
  refs := h.refs
  lamps := h.lamps

theorem Moves.onLsp {f : Lsp → Lsp} (h : Moves P L s₀ s) (hp : ¬P p) : Moves P L s₀ (s.onLsp p f) :=
  { h with
    eight := (s.onLsp_count p f).trans h.eight
    ports := fun q hq => (s.lsp_onLsp_other f fun e : q = p => hp (e ▸ hq)).trans (h.ports q hq) }

theorem Moves.setReg {off : Nat} {v : Word} (h : Moves P L s₀ s) (hoff : ∀ p, P p → rColLspErr p ≠ off) : Moves P L s₀ (s.setReg off v) :=
  { h with
    regs := s.setReg_regsWf off v h.regs
    counts := fun p hp => (s.reg_setReg_other off _ v (hoff p hp) h.regs).trans (h.counts p hp) }

theorem Moves.addHeld {pl : Planes} {fate : HeldFate} (h : Moves P L s₀ s) : Moves P L s₀ (s.addHeld pl fate) :=
  { h with held := List.subset_append_of_subset_left _ h.held }

/-- Where no page-side goes and nothing held does, each is kept. -/
theorem keepsSide_of {o : OpenSide} (h : s.keepsSide m o) (hsides : ∀ q ∈ (s.transport m).sides, ∃ r ∈ (t.transport m).sides, q.grows r)
    (hheld : s.acc.held ⊆ t.acc.held) : t.keepsSide m o := by
  obtain ⟨q, hq, hoq⟩ | ⟨e, he, hoe⟩ := h
  · obtain ⟨r, hr, hqr⟩ := hsides q hq
    exact .inl ⟨r, hr, hoq.trans hqr⟩
  · exact .inr ⟨e, hheld he, hoe⟩

/-- A change that moves no page-side. -/
theorem Works.ofMoves (h : Works P L s₀ s) (hmoves : Moves P L s₀ t) (hsides : ∀ m, (t.transport m).sides = (s.transport m).sides)
    (hheld : s.acc.held ⊆ t.acc.held) : Works P L s₀ t :=
  ⟨hmoves, fun m o ho => keepsSide_of (h.sides m o ho) (fun q hq => ⟨q, hsides m ▸ hq, .refl q⟩) hheld⟩

theorem Works.same (h : Works P L s₀ s) (col : t.col = s.col := by rfl) (acc : t.acc = s.acc := by rfl) (regs : t.regs = s.regs := by rfl)
    (out : s.out <+: t.out := by exact List.prefix_rfl) : Works P L s₀ t :=
  h.ofMoves (h.toMoves.same col acc regs out) (fun m => by rw [transport_of_col (congrArg Col.transports col)]) (acc ▸ List.Subset.refl _)

theorem Works.onCol {f : Col → Col} (h : Works P L s₀ s) (hlamps : L → (f s.col).lamps = s.col.lamps)
    (htransports : (f s.col).transports = s.col.transports := by rfl) (hlsps : (f s.col).lsps = s.col.lsps := by rfl)
    (hrefs : (f s.col).refs = s.col.refs := by rfl) : Works P L s₀ (s.onCol f) :=
  h.ofMoves (h.toMoves.onCol hlamps htransports hlsps hrefs) (fun m => by rw [transport_of_col (s := s) htransports]) (List.Subset.refl _)

theorem Works.onTransport {f : Transport → Transport} (h : Works P L s₀ s) (hf : ∀ x, (f x).still = x.still)
    (hsides : ∀ x : Transport, ∀ o ∈ x.sides, ∃ q ∈ (f x).sides, o.grows q) : Works P L s₀ (s.onTransport m f) where
  toMoves := h.toMoves.onTransport hf
  sides k o ho := by
    refine keepsSide_of (h.sides k o ho) (fun q hq => ?_) (List.Subset.refl _)
    by_cases hk : k = m
    · subst hk
      by_cases hlt : k < s.col.transports.length
      · rw [s.transport_onTransport_same f hlt]
        exact hsides _ q hq
      · rw [State.transport, List.getD_eq_getElem?_getD, List.getElem?_eq_none (by omega)] at hq
        cases hq
    · rw [s.transport_onTransport_other f hk]
      exact ⟨q, hq, .refl q⟩

/-- A change of each page-side that keeps its name and its lines. -/
theorem Works.mapSides {g : OpenSide → OpenSide} {f : Transport → Transport} (h : Works P L s₀ s) (hg : ∀ o : OpenSide, o.grows (g o))
    (hf : ∀ x, f x = { x with sides := x.sides.map g } := by exact fun _ => rfl) : Works P L s₀ (s.onTransport m f) :=
  h.onTransport (fun x => by rw [hf]; rfl) fun x o ho => ⟨g o, by rw [hf]; exact List.mem_map_of_mem ho, hg o⟩

/-- A change of what is neither still nor a page-side. -/
theorem Works.onMarks {f : Transport → Transport} (h : Works P L s₀ s) (hf : ∀ x, (f x).still = x.still := by exact fun _ => rfl)
    (hsides : ∀ x, (f x).sides = x.sides := by exact fun _ => rfl) : Works P L s₀ (s.onTransport m f) :=
  h.onTransport hf fun x o ho => ⟨o, hsides x ▸ ho, .refl o⟩

theorem Works.onLsp {f : Lsp → Lsp} (h : Works P L s₀ s) (hp : ¬P p) : Works P L s₀ (s.onLsp p f) :=
  h.ofMoves (h.toMoves.onLsp hp) (fun _ => rfl) (List.Subset.refl _)

theorem Works.setReg {off : Nat} {v : Word} (h : Works P L s₀ s) (hoff : ∀ p, P p → rColLspErr p ≠ off) : Works P L s₀ (s.setReg off v) :=
  h.ofMoves (h.toMoves.setReg hoff) (fun _ => rfl) (List.Subset.refl _)

theorem Works.addHeld {pl : Planes} {fate : HeldFate} (h : Works P L s₀ s) : Works P L s₀ (s.addHeld pl fate) :=
  h.ofMoves h.toMoves.addHeld (fun _ => rfl) (List.subset_append_left _ _)

theorem Works.ite {c : Prop} {_ : Decidable c} (h : Works P L s₀ s) (h' : Works P L s₀ t) : Works P L s₀ (if c then s else t) := by
  split <;> assumption

theorem Works.foldl {α : Type} {f : State → α → State} {l : List α} (h : Works P L s₀ s)
    (hf : ∀ u, Works P L s₀ u → ∀ a ∈ l, Works P L s₀ (f u a)) : Works P L s₀ (l.foldl f s) :=
  List.foldlRecOn l f h fun u hu a ha => hf u hu a ha

/-! ### What is still -/

section
variable (h : Moves P L s₀ s)
include h

/-- Whatever the work leaves reads as before. -/
theorem Moves.read {α : Type} (g : Transport → α) (hg : ∀ x, g x.still = g x) (m : Nat) : g (s.transport m) = g (s₀.transport m) := by
  rw [← hg, h.still, hg]

theorem Moves.cfg (m : Nat) : (s.transport m).cfg = (s₀.transport m).cfg := h.read Transport.cfg (fun _ => rfl) m
theorem Moves.sources (m : Nat) : (s.transport m).sources = (s₀.transport m).sources := h.read Transport.sources (fun _ => rfl) m
theorem Moves.page (m : Nat) : (s.transport m).page = (s₀.transport m).page := h.read Transport.page (fun _ => rfl) m
theorem Moves.pos (m : Nat) : (s.transport m).pos = (s₀.transport m).pos := h.read Transport.pos (fun _ => rfl) m
theorem Moves.pLead (m : Nat) : (s.transport m).pLead = (s₀.transport m).pLead := h.read Transport.pLead (fun _ => rfl) m
theorem Moves.pTrail (m : Nat) : (s.transport m).pTrail = (s₀.transport m).pTrail := h.read Transport.pTrail (fun _ => rfl) m

theorem Moves.lt_of_cfg {c : TransportCfg} (hc : (s.transport m).cfg = some c) : m < 4 := by
  rw [← h.four]
  exact s.transport_lt (by simp [hc])

theorem Moves.lt_of_source {i : Nat} {src : Source} (hi : (s.transport m).sources[i]? = some src) : m < 4 := by
  rw [← h.four]
  exact s.transport_lt_of_source hi

end

/-! ### Events and lost lines (R162, R167) -/

theorem rColLspErr_ne_event {t : Nat} (ht : t < 4) (p : Nat) : rColLspErr p ≠ rColTEvent t := by
  simp only [rColLspErr, rColTEvent]
  omega

theorem Works.msix {v : Nat} (h : Works P L s₀ s) : Works P L s₀ (s.msix v) :=
  .ite h (.ite h.same (h.same (out := List.prefix_append _ _)))

theorem Works.colEvent {bit : Nat} {page : Option Nat} (h : Works P L s₀ s) (hm : m < 4) : Works P L s₀ (s.colEvent m bit page) := by
  have hflag : Works P L s₀ (s.flag (rColTEvent m) bit) := h.setReg fun p _ => rColLspErr_ne_event hm p
  cases page with
  | none => exact .ite hflag.msix hflag
  | some q =>
    have hpage : Works P L s₀ ((s.flag (rColTEvent m) bit).setRegF (rColTEvent m) 16 16 q) :=
      hflag.setReg fun p _ => rColLspErr_ne_event hm p
    exact .ite hpage.msix hpage

theorem Works.pageEvent {bit : Nat} (h : Works P L s₀ s) (hm : m < 4) : Works P L s₀ (s.pageEvent m bit) :=
  (h.colEvent hm).mapSides fun o => o.mark_grows bit

theorem Works.sideEvent {side bit : Nat} (h : Works P L s₀ s) (hm : m < 4) : Works P L s₀ (s.sideEvent m side bit) := by
  refine (h.colEvent hm).mapSides fun o => ?_
  split
  · exact o.mark_grows bit
  · exact .refl o

theorem Works.loseLine {g : Trigger} (h : Works P L s₀ s) : Works P L s₀ (s.loseLine g) := by
  unfold State.loseLine
  split
  · exact h
  · rename_i src hsrc
    refine .ite h ((h.mapSides fun o => ?_).sideEvent (h.lt_of_source hsrc))
    split
    · exact .refl o
    · exact .refl o

theorem Works.bumpPort {lo n k : Nat} (h : Works P L s₀ s) (hp : ¬P p) : Works P L s₀ (s.bumpSat (rColLspErr p) lo n k) := by
  refine h.setReg fun q hq e => hp ?_
  simp only [rColLspErr] at e
  rwa [show p = q by omega]

/-! ### LSYNC (R175, R176) -/

/-- The frames still outstanding on a port are lost (R162). -/
def loseOutstanding (s : State) (p : Nat) : State :=
  if (s.lsp p).outstanding = [] then s
  else (((s.lsp p).outstanding.foldl State.loseLine s).bumpSat (rColLspErr p) 16 8 1).onLsp p fun l => { l with known := l.known + 1 }

/-- The lines of a trigger that are taken while UV is held off are marked (R191). -/
def markUv (s : State) (gs : List Trigger) : State := (s.uvLines gs).foldl (fun s e => s.sideEvent e.1 e.2 5) s

theorem issueLsync_eq (s : State) (p : Nat) (gs : List Trigger) (minLine : Nat) :
    s.issueLsync p gs minLine = (((s.loseOutstanding p).markUv gs).onLsp p fun l =>
      { l with outstanding := gs, inMinLine := minLine ≠ 0 }).emit (.lsync p) := rfl

theorem Works.loseOutstanding (h : Works P L s₀ s) (hp : ¬P p) : Works P L s₀ (s.loseOutstanding p) :=
  .ite h (((Works.foldl h fun _ hu _ _ => hu.loseLine).bumpPort hp).onLsp hp)

theorem Works.markUv {gs : List Trigger} (h : Works P L s₀ s) : Works P L s₀ (s.markUv gs) := by
  refine .foldl h fun u hu e he => ?_
  obtain ⟨g, -, hg⟩ := List.mem_filterMap.1 (List.mem_eraseDups.1 he)
  dsimp only at hg
  split at hg
  · obtain ⟨src, hsrc, rfl⟩ := Option.map_eq_some_iff.1 hg
    exact hu.sideEvent (h.lt_of_source hsrc)
  · cases hg

theorem Works.issueLsync {gs : List Trigger} {minLine : Nat} (h : Works P L s₀ s) (hp : ¬P p) :
    Works P L s₀ (s.issueLsync p gs minLine) := by
  rw [issueLsync_eq]
  exact ((h.loseOutstanding hp).markUv.onLsp hp).same (out := List.prefix_append _ _)

/-- The port asks for the lines of a trigger, and holds back what it held back. -/
theorem issueLsync_asks (hregs : cellsFrom regReset 0 s.regs = true) (hfour : s.col.transports.length = 4) (hp : p < s.col.lsps.length)
    (gs : List Trigger) (minLine : Nat) :
    ((s.issueLsync p gs minLine).lsp p).outstanding = gs ∧ ((s.issueLsync p gs minLine).lsp p).deferred = (s.lsp p).deferred ∧
      Out.lsync p ∈ (s.issueLsync p gs minLine).out := by
  have hlost : Works (fun _ => False) True s (s.loseOutstanding p) := (Works.refl hregs hfour).loseOutstanding id
  have hmarked : Works (fun _ => True) True (s.loseOutstanding p) ((s.loseOutstanding p).markUv gs) := (Works.refl hlost.regs hlost.four).markUv
  have hheld : ((s.loseOutstanding p).lsp p).deferred = (s.lsp p).deferred := by
    unfold State.loseOutstanding
    split
    · rfl
    · have hfold : Works (fun _ => True) True s ((s.lsp p).outstanding.foldl State.loseLine s) :=
        .foldl (.refl hregs hfour) fun _ hu _ _ => hu.loseLine
      rw [lsp_onLsp_same _ _ (by rw [bumpSat_col, hfold.eight]; exact hp)]
      exact (congrArg Lsp.deferred (hfold.ports p trivial) :)
  have hcount : p < ((s.loseOutstanding p).markUv gs).col.lsps.length := by rw [hmarked.eight, hlost.eight]; exact hp
  have hport := lsp_onLsp_same _ (fun l : Lsp => { l with outstanding := gs, inMinLine := minLine ≠ 0 }) hcount
  rw [issueLsync_eq]
  refine ⟨congrArg Lsp.outstanding hport, (congrArg Lsp.deferred hport).trans ?_, by simp⟩
  exact (congrArg Lsp.deferred (hmarked.ports p trivial)).trans hheld

theorem Works.triggerPort {gs : List Trigger} {minLine : Nat} (h : Works P L s₀ s) (hp : ¬P p) :
    Works P L s₀ (s.triggerPort p gs minLine) := .ite (h.onLsp hp) (h.issueLsync hp)

theorem Works.fireRows {fuel : Nat} {l : List (Nat × Nat)} (hP : ∀ p, ¬P p) (h : Works P L s₀ s) : Works P L s₀ (s.fireRows m fuel l) := by
  induction fuel generalizing s l with
  | zero => exact h
  | succ fuel ih =>
    cases l with
    | nil => exact h
    | cons e rest =>
      obtain ⟨k, i⟩ := e
      unfold State.fireRows
      split
      · exact h
      · exact ih (Works.triggerPort (.foldl h fun _ hu _ _ => hu.onMarks) (hP _))

/-! ### Strobes (R178, R179, R190) -/

theorem Works.strobeEvent {b : Strobe} (hL : ¬L) (h : Works P L s₀ s) (hm : m < 4) : Works P L s₀ (s.strobeEvent m b) := by
  unfold State.strobeEvent
  refine .ite h ?_
  split
  · exact .ite h (h.onCol fun hl => absurd hl hL)
  · exact h.colEvent hm

theorem Works.fireStrobes {c : TransportCfg} (hL : ¬L) (h : Works P L s₀ s) (hm : m < 4) : Works P L s₀ (s.fireStrobes m c) := by
  refine .foldl h fun u hu e _ => ?_
  dsimp only
  split
  · exact hu
  · exact hu.onMarks.strobeEvent hL hm

theorem Works.fireLate (hL : ¬L) (h : Works P L s₀ s) (hm : m < 4) : Works P L s₀ (s.fireLate m) :=
  .ite h (.foldl h.onMarks fun _ hu _ _ => hu.strobeEvent hL hm)

theorem Works.fireDue (hP : ∀ p, ¬P p) (hL : ¬L) (h : Works P L s₀ s) : Works P L s₀ (s.fireDue m) := by
  unfold State.fireDue
  split
  · exact h
  · rename_i c hc
    exact .ite h ((h.fireStrobes hL (h.lt_of_cfg hc)).fireRows hP)

theorem Moves.keepStrobes {side : Nat} (h : Moves P L s₀ s) : Moves P L s₀ (s.keepStrobes m side) := by
  unfold State.keepStrobes
  split
  · exact h
  · split
    · exact h
    · exact h.onTransport fun _ => rfl

/-! ### The end of page-sides (R171, R172) -/

theorem keepStrobes_sides (s : State) (m side k : Nat) : ((s.keepStrobes m side).transport k).sides = (s.transport k).sides := by
  unfold State.keepStrobes
  split
  · rfl
  · split
    · rfl
    · exact s.transport_onTransport_proj Transport.sides m k _ fun _ => rfl

@[simp] theorem keepStrobes_count (s : State) (m side : Nat) :
    (s.keepStrobes m side).col.transports.length = s.col.transports.length := by
  unfold State.keepStrobes
  split
  · rfl
  · split
    · rfl
    · exact s.onTransport_count _ _

/-- The page-sides of one side of a transport go. -/
def dropSide (s : State) (m side : Nat) : State :=
  (s.keepStrobes m side).onTransport m fun x => { x with sides := x.sides.filter (·.side ≠ side) }

theorem dropSide_sides_same (s : State) {m : Nat} (side : Nat) (hm : m < s.col.transports.length) :
    ((s.dropSide m side).transport m).sides = (s.transport m).sides.filter (·.side ≠ side) := by
  rw [State.dropSide, State.transport_onTransport_same _ _ (by simpa using hm)]
  exact congrArg _ (s.keepStrobes_sides m side m)

theorem dropSide_sides_other (s : State) {m k : Nat} (side : Nat) (hk : k ≠ m) :
    ((s.dropSide m side).transport k).sides = (s.transport k).sides := by
  rw [State.dropSide, State.transport_onTransport_other _ _ hk]
  exact s.keepStrobes_sides m side k

@[simp] theorem dropSide_acc (s : State) (m side : Nat) : (s.dropSide m side).acc = s.acc := by
  rw [State.dropSide]
  unfold State.keepStrobes
  split
  · rfl
  · split <;> rfl

theorem Moves.dropSide {side : Nat} (h : Moves P L s₀ s) : Moves P L s₀ (s.dropSide m side) := h.keepStrobes.onTransport fun _ => rfl

/-- A page-side that closes goes, and is held. -/
theorem closeSide_form (s : State) (m : Nat) (c : TransportCfg) (o : OpenSide) (n : Nat) :
    ∃ dram ldg f pl, (∀ q : Col, ∃ pool, f q = { q with pool := pool }) ∧ pl.sample = o.sample ∧
      s.closeSide m c o n = ((({ s with dram := dram, ldg := ldg } : State).dropSide m o.side).onCol f).addHeld pl .held := by
  unfold State.closeSide
  dsimp only
  generalize setHeader _ _ _ _ _ _ _ _ _ ++ _ = planes
  exact ⟨_, _, _, _, fun _ => ⟨_, rfl⟩, rfl, rfl⟩

theorem Moves.closeSide {c : TransportCfg} {o : OpenSide} {n : Nat} (h : Moves P L s₀ s) : Moves P L s₀ (s.closeSide m c o n) := by
  obtain ⟨dram, ldg, f, pl, hf, -, hform⟩ := s.closeSide_form m c o n
  have hpool (q : Col) : (f q).transports = q.transports ∧ (f q).lsps = q.lsps ∧ (f q).refs = q.refs ∧ (f q).lamps = q.lamps := by
    obtain ⟨pool, hq⟩ := hf q
    rw [hq]
    exact ⟨rfl, rfl, rfl, rfl⟩
  rw [hform]
  exact (Moves.onCol (Moves.dropSide (h.same (t := { s with dram := dram, ldg := ldg }))) (fun _ => (hpool _).2.2.2) (hpool _).1
    (hpool _).2.1 (hpool _).2.2.1).addHeld

/-- What the close of a page-side leaves open and held. -/
theorem closeSide_sides (s : State) {m : Nat} (c : TransportCfg) (o : OpenSide) (n : Nat) (hm : m < s.col.transports.length) :
    ((s.closeSide m c o n).transport m).sides = (s.transport m).sides.filter (·.side ≠ o.side) ∧
      (∀ k, k ≠ m → ((s.closeSide m c o n).transport k).sides = (s.transport k).sides) ∧
      ∃ h, (s.closeSide m c o n).acc.held = s.acc.held ++ [h] ∧ h.planes.sample = o.sample ∧ h.fate = .held := by
  obtain ⟨dram, ldg, f, pl, hf, hsample, hform⟩ := s.closeSide_form m c o n
  have hpool (k : Nat) : ((({ s with dram := dram, ldg := ldg } : State).dropSide m o.side).onCol f).transport k =
      (({ s with dram := dram, ldg := ldg } : State).dropSide m o.side).transport k := by
    refine transport_of_col ?_ k
    obtain ⟨pool, hq⟩ := hf (({ s with dram := dram, ldg := ldg } : State).dropSide m o.side).col
    rw [onCol_col, hq]
  rw [hform]
  refine ⟨?_, fun k hk => ?_, ⟨pl, true, 0, 0, true, s.acc.heldCount, none, .held⟩, ?_, hsample, rfl⟩
  · exact (congrArg _ (hpool m)).trans (dropSide_sides_same _ _ hm)
  · exact (congrArg _ (hpool k)).trans (dropSide_sides_other _ _ hk)
  · simp [State.addHeld]

/-- Page-sides of a transport close one after another, each with the rows that `rows` gives. -/
def closeSides (s : State) (m : Nat) (c : TransportCfg) (rows : State → OpenSide → Nat) (l : List OpenSide) : State :=
  l.foldl (fun s o => s.closeSide m c o (rows s o)) s

theorem Moves.closeSides {c : TransportCfg} {rows : State → OpenSide → Nat} {l : List OpenSide} (h : Moves P L s₀ s) :
    Moves P L s₀ (s.closeSides m c rows l) :=
  List.foldlRecOn l _ (motive := Moves P L s₀) h fun _ hu _ _ => hu.closeSide

/-- The page-sides of every side that closes are gone, and each that was to close is held. -/
theorem closeSides_sides (s : State) {m : Nat} (c : TransportCfg) (rows : State → OpenSide → Nat) (l : List OpenSide)
    (hm : m < s.col.transports.length) (hfour : s.col.transports.length = 4) (hregs : cellsFrom regReset 0 s.regs = true) :
    ((s.closeSides m c rows l).transport m).sides = (s.transport m).sides.filter (fun q => l.all (q.side ≠ ·.side)) ∧
      (∀ k, k ≠ m → ((s.closeSides m c rows l).transport k).sides = (s.transport k).sides) ∧
      ∀ o ∈ l, ∃ h ∈ (s.closeSides m c rows l).acc.held, h.planes.sample = o.sample ∧ h.fate = .held := by
  induction l generalizing s with
  | nil => exact ⟨by simp [closeSides], fun _ _ => rfl, fun _ ho => nomatch ho⟩
  | cons o l ih =>
    have hmoves : Moves (fun _ => True) True s (s.closeSide m c o (rows s o)) := (Moves.refl hregs hfour).closeSide
    obtain ⟨hself, hothers, e, hheld, he⟩ := s.closeSide_sides c o (rows s o) hm
    obtain ⟨hself', hothers', hheld'⟩ := ih (s.closeSide m c o (rows s o)) (by rw [hmoves.four, ← hfour]; exact hm) hmoves.four hmoves.regs
    refine ⟨?_, fun k hk => (hothers' k hk).trans (hothers k hk), fun q hq => ?_⟩
    · refine hself'.trans ?_
      rw [hself, List.filter_filter]
      refine List.filter_congr fun q _ => ?_
      simp [Bool.and_comm]
    · obtain rfl | hq := List.mem_cons.1 hq
      · have hrest : Moves (fun _ => True) True (s.closeSide m c q (rows s q)) ((s.closeSide m c q (rows s q)).closeSides m c rows l) :=
          (Moves.refl hmoves.regs hmoves.four).closeSides
        exact ⟨e, hrest.held (by rw [hheld]; simp), he⟩
      · exact hheld' q hq

/-- Whole sides close: nothing is lost. -/
theorem Works.closeSides {c : TransportCfg} {rows : State → OpenSide → Nat} {l : List OpenSide} (h : Works P L s₀ s) (hm : m < 4)
    (hl : ∀ q ∈ (s.transport m).sides, ∀ o ∈ l, q.side = o.side → q ∈ l) : Works P L s₀ (s.closeSides m c rows l) := by
  have hmoves : Moves (fun _ => True) True s (s.closeSides m c rows l) := (Moves.refl h.regs h.four).closeSides
  obtain ⟨hself, hothers, hheld⟩ := s.closeSides_sides c rows l (h.four ▸ hm) h.four h.regs
  refine ⟨h.toMoves.closeSides, fun k o ho => ?_⟩
  obtain ⟨q, hq, hoq⟩ | ⟨e, he, hoe⟩ := h.sides k o ho
  · by_cases hk : k = m
    · subst hk
      by_cases hgoes : ∃ r ∈ l, q.side = r.side
      · obtain ⟨r, hr, hqr⟩ := hgoes
        obtain ⟨e, he, hsample, hfate⟩ := hheld q (hl q hq r hr hqr)
        exact .inr ⟨e, he, hsample.trans hoq.1, hfate⟩
      · refine .inl ⟨q, ?_, hoq⟩
        rw [hself]
        exact List.mem_filter.2 ⟨hq, by simpa using hgoes⟩
    · exact .inl ⟨q, hothers k hk ▸ hq, hoq⟩
  · exact .inr ⟨e, hmoves.held he, hoe⟩

theorem Works.closeWhere {c : TransportCfg} {rows : State → OpenSide → Nat} {want : OpenSide → Bool} (h : Works P L s₀ s) (hm : m < 4)
    (hwant : ∀ q o : OpenSide, q.side = o.side → want o = true → want q = true) :
    Works P L s₀ (s.closeSides m c rows ((s.transport m).sides.filter want)) :=
  h.closeSides hm fun q hq o ho hqo => List.mem_filter.2 ⟨hq, hwant q o hqo (List.mem_filter.1 ho).2⟩

theorem Works.closeCheck (h : Works P L s₀ s) : Works P L s₀ (s.closeCheck m) := by
  unfold State.closeCheck
  dsimp only
  split
  · exact h
  · rename_i c hc
    have hm : m < 4 := h.lt_of_cfg hc
    refine .ite h (.foldl h fun u hu d _ => .ite hu ?_)
    exact Works.closeWhere (.ite (hu.sideEvent hm) hu) hm fun q o hqo ho => by simpa [hqo] using ho

theorem Works.orphan {want : Trigger → Bool} (hP : ∀ p, ¬P p) (h : Works P L s₀ s) : Works P L s₀ (s.orphan want) :=
  h.ofMoves
    { h.toMoves with
      eight := by simpa [State.orphan] using h.eight
      ports := fun p hp => absurd hp (hP p) } (fun _ => rfl) (List.Subset.refl _)

theorem Works.closeEarly {c : TransportCfg} {want : OpenSide → Bool} (hP : ∀ p, ¬P p) (h : Works P L s₀ s) (hm : m < 4)
    (hwant : ∀ q o : OpenSide, q.side = o.side → want o = true → want q = true) : Works P L s₀ (s.closeEarly m c want) := by
  have hmarked : Works P L s₀ (((s.transport m).sides.filter want).foldl (fun s o => s.sideEvent m o.side 7) s) :=
    .foldl h fun _ hu _ _ => hu.sideEvent hm
  exact (hmarked.orphan hP).closeWhere hm hwant

theorem Works.closeFrame {c : TransportCfg} {sides : List Nat} {clipped : Bool} (h : Works P L s₀ s) (hm : m < 4) :
    Works P L s₀ (s.closeFrame m c sides clipped) := by
  refine Works.closeWhere (.ite (.foldl h fun _ hu _ _ => .ite (hu.sideEvent hm) hu) h) hm fun q o hqo ho => ?_
  simpa [hqo] using ho

theorem Works.follow {fwd : Bool} (hP : ∀ p, ¬P p) (hL : ¬L) (h : Works P L s₀ s) : Works P L s₀ (s.follow m fwd) := by
  unfold State.follow
  dsimp only
  split
  · exact h
  · rename_i c hc
    exact .ite h (.ite (.ite (h.onMarks.fireDue hP hL).closeCheck h) (.ite (h.pageEvent (h.lt_of_cfg hc)) h))

theorem Works.takeLine {g : Trigger} {bits : Nat} {vs : List Nat} (h : Works P L s₀ s) : Works P L s₀ (s.takeLine g bits vs) := by
  unfold State.takeLine
  dsimp only
  split
  · refine h.mapSides fun o => ?_
    split
    · exact ⟨rfl, rfl, List.subset_append_left _ _⟩
    · exact .refl o
  · exact h

/-- With no page-side open there is nothing to fire, and nothing to close. -/
theorem fireDue_of_shut (h : (s.transport m).sides = []) : s.fireDue m = s := by
  unfold State.fireDue
  split
  · rfl
  · exact if_pos (by simp [Transport.isOpen, h])

theorem closeCheck_of_shut (h : (s.transport m).sides = []) : s.closeCheck m = s := by
  unfold State.closeCheck
  dsimp only
  split
  · rfl
  · split
    · rfl
    · simp [Transport.sideOpen, h]

end State

end Sys2Proof.Machine
end

section
/-! PROOF. O22: a calibration begins, asks for its lines, and sets each reference to their mean (R181, R182, R186, R189). -/

namespace Sys2Proof.Machine

set_option Elab.async false

/-- A calibration that has begun. -/
def Calib.begun (sums : List CalSum) (k : Calib) : Calib := { k with started := true, sums := sums }

namespace State

variable {P : Nat → Prop} {L : Prop} {s₀ s t : State} {m p : Nat} {k : Calib}

/-! ### The start (R186) -/

theorem calib?_onCalib (s : State) (slot : Nat) (f : Calib → Calib) (hf : ∀ k, (f k).slot = k.slot) :
    (s.onCalib slot f).calib? slot = (s.calib? slot).map f :=
  find?_updFirst_same _ f (fun k => by rw [hf]) _

/-- The strobes of a dark calibration's transports go low. -/
def dimLamps (s : State) (k : Calib) : State :=
  if k.white then s
  else s.onCol fun c =>
    { c with lamps := c.lamps.map fun l => match l with
        | .delay uv u => if u ∈ k.transports then .idle else .delay uv u
        | .high uv u => if u ∈ k.transports then .idle else .high uv u
        | .idle => .idle }

/-- The sums that a calibration begins with. -/
def freshSums (s : State) (k : Calib) : List CalSum :=
  k.transports.flatMap fun t => (s.transport t).indexed.map fun e => (⟨t, e.1, 0, 0, []⟩ : CalSum)

theorem calibrationStart_of_free (hk : s.calib? k.slot = some k) (hup : s.colUp = true) (hnew : k.started = false)
    (hfree : s.captureBlocked k.slot = false) (hshut : ∀ m ∈ k.transports, (s.transport m).sides = []) :
    s.calibrationStart k.slot = (s.onCalib k.slot (Calib.begun (s.freshSums k))).dimLamps k := by
  have hopen : (k.transports.any fun m => (s.transport m).isOpen) = false :=
    List.any_eq_false.2 fun m hm => by simp [Transport.isOpen, hshut m hm]
  rw [State.calibrationStart, hk]
  dsimp only
  rw [if_neg (by simp [hnew, hup, hfree, hopen])]
  rfl

theorem dimLamps_calib? (s : State) (k : Calib) (slot : Nat) : (s.dimLamps k).calib? slot = s.calib? slot := by
  unfold State.dimLamps
  split <;> rfl

theorem calibrationStart_starts (hk : s.calib? k.slot = some k) (hup : s.colUp = true) (hnew : k.started = false)
    (hfree : s.captureBlocked k.slot = false) (hshut : ∀ m ∈ k.transports, (s.transport m).sides = []) :
    ((s.calibrationStart k.slot).calib? k.slot).map (·.started) = some true ∧
      (s.calibrationStart k.slot).col.transports = s.col.transports ∧ (s.calibrationStart k.slot).col.refs = s.col.refs ∧
      (s.calibrationStart k.slot).out = s.out := by
  rw [calibrationStart_of_free hk hup hnew hfree hshut]
  refine ⟨?_, ?_⟩
  · rw [dimLamps_calib?, calib?_onCalib _ _ (Calib.begun _) fun _ => rfl, hk]
    rfl
  · unfold State.dimLamps
    split <;> exact ⟨rfl, rfl, rfl⟩

/-! ### The triggers (R186) -/

/-- The trigger of one port of a calibration under way. -/
def calPort (k : Calib) (s : State) (p : Nat) : State :=
  let gs := s.calTriggers k p
  if gs = [] then s
  else
    let s := s.issueLsync p gs (maxNat (gs.map fun g => (((s.transport g.transport).sources[g.source]?).map (·.minLine)).getD 0))
    if k.white then (s.strobesOf gs).foldl (fun s z => s.strobeEvent z.1 z.2) s else s

theorem calLineTrigger_of_started (hk : s.calib? k.slot = some k) (hup : s.colUp = true) (hstarted : k.started = true) :
    s.calLineTrigger k.slot = (List.range 8).foldl (calPort k) s := by
  rw [State.calLineTrigger, hk]
  dsimp only
  rw [if_neg (by simp [hstarted, hup])]
  rfl

theorem calPort_idle (h : s.calTriggers k p = []) : s.calPort k p = s := if_pos h

/-- The strobes that run are those of transports with a configuration. -/
theorem lt_of_mem_strobesOf {gs : List Trigger} {z : Nat × Strobe} (hz : z ∈ s.strobesOf gs) :
    z.1 < s.col.transports.length := by
  obtain ⟨m, -, hm⟩ := List.mem_flatMap.1 hz
  obtain ⟨b, hb, hbz⟩ := List.mem_filterMap.1 hm
  have hz1 : z.1 = m := by
    split at hbz
    · rw [← Option.some.inj hbz]
    · cases hbz
  rw [hz1]
  refine s.transport_lt fun hnone => ?_
  rw [hnone] at hb
  cases hb

/-- A calibration's trigger moves the lamps in white calibration alone. -/
theorem Works.calStrobes {gs : List Trigger} (h : Works P (k.white = false) s₀ s) :
    Works P (k.white = false) s₀ (if k.white then (s.strobesOf gs).foldl (fun s z => s.strobeEvent z.1 z.2) s else s) := by
  split
  · rename_i hwhite
    exact .foldl h fun u hu z hz => hu.strobeEvent (by simp [hwhite]) (h.four ▸ lt_of_mem_strobesOf hz)
  · exact h

theorem Works.calPort (h : Works P (k.white = false) s₀ s) (hp : ¬P p) : Works P (k.white = false) s₀ (s.calPort k p) :=
  .ite h (h.issueLsync hp).calStrobes

/-- What a calibration asks of a port does not change with the triggers of others. -/
theorem Moves.calTriggers (h : Moves P L s₀ s) (k : Calib) (p : Nat) : s.calTriggers k p = s₀.calTriggers k p := by
  simp only [State.calTriggers, h.sources]

/-- A port that the calibration owes nothing is left alone. -/
theorem calPorts_idle (hregs : cellsFrom regReset 0 s.regs = true) (hfour : s.col.transports.length = 4) (hnone : s.calTriggers k p = [])
    (l : List Nat) : Works (· = p) (k.white = false) s (l.foldl (State.calPort k) s) := by
  refine .foldl (.refl hregs hfour) fun u hu q _ => ?_
  by_cases hq : q = p
  · rwa [calPort_idle (hq ▸ (hu.calTriggers k p).trans hnone)]
  · exact hu.calPort hq

/-- A port that owes lines is asked for them. -/
theorem calPorts_asks (hregs : cellsFrom regReset 0 s.regs = true) (hfour : s.col.transports.length = 4) (hp : p < s.col.lsps.length)
    (hsome : s.calTriggers k p ≠ []) {l : List Nat} (hmem : p ∈ l) (hnodup : l.Nodup) :
    ((l.foldl (State.calPort k) s).lsp p).outstanding = s.calTriggers k p ∧ Out.lsync p ∈ (l.foldl (State.calPort k) s).out := by
  obtain ⟨before, after, rfl⟩ := List.append_of_mem hmem
  have hfirst : Works (fun _ => False) (k.white = false) s (before.foldl (State.calPort k) s) :=
    .foldl (.refl hregs hfour) fun _ hu _ _ => hu.calPort id
  have hgs := hfirst.calTriggers k p
  have hlater : p ∉ after := (List.nodup_cons.1 (List.nodup_middle.1 hnodup)).1 ∘ List.mem_append_right before
  obtain ⟨hout, -, hsent⟩ := issueLsync_asks hfirst.regs hfirst.four (hfirst.eight ▸ hp) (s.calTriggers k p)
    (maxNat ((s.calTriggers k p).map fun g =>
      ((((before.foldl (State.calPort k) s).transport g.transport).sources[g.source]?).map (·.minLine)).getD 0))
  have hissued := (Works.refl (P := fun _ => False) (L := k.white = false) hfirst.regs hfirst.four).issueLsync (p := p)
    (gs := s.calTriggers k p) (minLine := maxNat ((s.calTriggers k p).map fun g =>
      ((((before.foldl (State.calPort k) s).transport g.transport).sources[g.source]?).map (·.minLine)).getD 0)) id
  have hport : (before.foldl (State.calPort k) s).calPort k p = _ := if_neg (hgs ▸ hsome)
  have hrest := Works.foldl (f := State.calPort k) (l := after)
    ((Works.refl (P := (· = p)) (L := k.white = false) hissued.regs hissued.four).calStrobes (gs := s.calTriggers k p))
    fun _ hu q hq => hu.calPort fun e : q = p => hlater (e ▸ hq)
  rw [List.foldl_append, List.foldl_cons, hport, hgs]
  exact ⟨(congrArg Lsp.outstanding (hrest.ports p rfl)).trans hout, hrest.out.subset hsent⟩

/-! ### The references (R181, R182, R186) -/

/-- The references of a source once its dark or its white ones are set. -/
theorem refsOf_setRefs {i : Nat} {src : Source} (hsrc : (s.transport m).sources[i]? = some src) (white : Bool) (vs : List Nat) (x : Nat) :
    (s.setRefs m i white vs).refsOf m i src.sampleBits x =
      if white then ((s.refsOf m i src.sampleBits x).1, vs.getD x (2 ^ src.sampleBits - 1))
      else (vs.getD x 0, (s.refsOf m i src.sampleBits x).2) := by
  have hnone : (s.col.refs.filter fun r => !(r.transport = m && r.source = i)).find? (fun r => r.transport = m && r.source = i) = none :=
    List.find?_eq_none.2 fun r hr => by simpa [imp_iff_not_or] using (List.mem_filter.1 hr).2
  have hold : ∀ r ∈ s.col.refs.find? fun r => r.transport = m && r.source = i, r.transport = m ∧ r.source = i := fun r hr => by
    simpa using List.find?_some hr
  unfold State.setRefs State.refsOf
  rw [hsrc]
  simp only [onCol_col, List.find?_append, hnone, Option.none_or]
  cases hfind : s.col.refs.find? fun r => r.transport = m && r.source = i with
  | none => cases white <;> simp [List.getD_eq_getElem?_getD, List.getElem?_replicate] <;> split <;> rfl
  | some r =>
    obtain ⟨hm, hi⟩ := hold r hfind
    cases white <;> simp [hm, hi]

theorem refsOf_of_col (h : t.col.refs = s.col.refs) (m i bits x : Nat) : t.refsOf m i bits x = s.refsOf m i bits x := by
  rw [State.refsOf, State.refsOf, h]

theorem deadPixels_of_col (hrefs : t.col.refs = s.col.refs) (htransports : t.col.transports = s.col.transports) (m i : Nat) :
    t.deadPixels m i = s.deadPixels m i := by
  simp only [State.deadPixels, transport_of_col htransports, refsOf_of_col hrefs]

theorem setRefs_col (s : State) (m i : Nat) (white : Bool) (vs : List Nat) :
    ∃ refs, s.setRefs m i white vs = { s with col := { s.col with refs := refs } } := by
  unfold State.setRefs
  split
  · exact ⟨_, rfl⟩
  · exact ⟨_, rfl⟩

theorem calibrationDone_of_full {e : CalSum} (hk : s.calib? k.slot = some k) (hup : s.colUp = true) (hstarted : k.started = true)
    (hsums : k.sums = [e]) (hline : ((s.transport e.transport).cfg.map (·.frameMode)).getD false = false) (hfull : 2 ^ k.avg ≤ e.lines) :
    s.calibrationDone k.slot =
      ((s.setRefs e.transport e.source k.white (calMean false k.avg e)).orphan fun g => g.cal && g.transport ∈ k.transports).closeAmount
        k.slot ((s.setRefs e.transport e.source k.white (calMean false k.avg e)).deadPixels e.transport e.source) := by
  have hdone : s.calSumDone k e = true := by simp [State.calSumDone, hline, hfull]
  rw [State.calibrationDone, hk]
  dsimp only
  rw [hsums, if_neg (by simp [hstarted, hup, hdone])]
  simp only [List.foldl_cons, List.foldl_nil, hline, List.map_cons, List.map_nil, List.sum_cons, List.sum_nil, Nat.add_zero]

theorem calMean_getD (k : Calib) (e : CalSum) {x : Nat} (hx : x < e.sums.length) (d : Nat) :
    (calMean false k.avg e).getD x d = e.sums.getD x 0 / 2 ^ k.avg := by
  simp [calMean, List.getD_eq_getElem?_getD, hx]

end State

/-- Settles O22: nothing but the calibration moves at its start; a port's trigger leaves the other ports; and the job's end leaves the
references as they were set. -/
theorem calibrationRuns : Obligations.CalibrationRuns := by
  intro s k hinv hon hup hk
  have hregs := hinv.mem.regs
  have hfour := hinv.numbers.transports
  refine ⟨fun hnew hfree hshut => ?_, fun hstarted => ?_, fun j e src hstarted hsums hj hslot hcq hsrc hline hfull => ?_⟩
  · exact ⟨_, s.next_of_on hon rfl, State.calibrationStart_starts hk hup hnew hfree hshut⟩
  · have hall : State.Works (fun _ => False) (k.white = false) s ((List.range 8).foldl (State.calPort k) s) :=
      .foldl (.refl hregs hfour) fun _ hu _ _ => hu.calPort id
    refine ⟨_, s.next_of_on hon (State.calLineTrigger_of_started hk hup hstarted), hall.refs, hall.lamps, fun p hp => ?_⟩
    split
    next hnone => exact (State.calPorts_idle hregs hfour hnone _).ports p rfl
    next hsome => exact State.calPorts_asks hregs hfour (hinv.numbers.ports ▸ hp) hsome (List.mem_range.2 hp) List.nodup_range
  · obtain ⟨refs, hset⟩ := s.setRefs_col e.transport e.source k.white (calMean false k.avg e)
    have hrefsOf := State.refsOf_setRefs hsrc k.white (calMean false k.avg e)
    have hact := State.calibrationDone_of_full hk hup hstarted hsums hline hfull
    generalize s.setRefs e.transport e.source k.white (calMean false k.avg e) = u at hset hrefsOf hact
    have hju : (u.orphan fun g => g.cal && g.transport ∈ k.transports).slotJob j.sq j.desc j := by
      rw [hset]
      exact hj.of_same rfl rfl
    have hsame : s.SameCqs (u.orphan fun g => g.cal && g.transport ∈ k.transports) := by
      rw [hset]
      exact ⟨rfl, rfl⟩
    rw [State.closeAmount_eq, ← hslot] at hact
    obtain ⟨pool, hcol⟩ := State.finishJob_col hju stOk 0 (u.deadPixels e.transport e.source) 0
    have hends := State.endsJob_finishJob hsame hregs hju hcq stOk 0 (u.deadPixels e.transport e.source) 0
    generalize (u.orphan _).finishJob j.slot stOk 0 _ 0 = t at hact hcol hends
    have hrefs : t.col.refs = u.col.refs := by rw [hcol]; rfl
    have htransports : t.col.transports = u.col.transports := by rw [hcol]; rfl
    rw [← hslot]
    refine ⟨t, s.next_of_on hon hact, ?_, fun x hx => ?_⟩
    · rw [State.deadPixels_of_col hrefs htransports]
      exact hends
    · rw [State.refsOf_of_col hrefs, hrefsOf]
      simp only [State.calMean_getD k e hx]

end Sys2Proof.Machine
end

section
/-! PROOF. What the events of a transport leave: their flags, a wake, an edge that opens a page-side (R166 to R169, R204, R205, R537). -/

namespace Sys2Proof.Machine

set_option Elab.async false

/-- LEAD_n is active, and UV strobes are allowed again where the interlock is closed (R169, R191). -/
def Transport.led (x : Transport) : Transport := { x with leadActive := true, ilkHeld := x.ilkClosed }

/-- P_lead is latched, and nothing has fired. -/
def Transport.latched (p : Nat) (x : Transport) : Transport :=
  { x with pLead := p, pTrail := none, high := if reached x.pos p then x.pos else p, nextRow := [], nextStrobe := [] }

namespace State

variable {P : Nat → Prop} {L : Prop} {s₀ s t : State} {m : Nat} {c : TransportCfg}

/-! ### Flags of events (R167) -/

@[simp] theorem colEvent_col (s : State) (m bit : Nat) (page : Option Nat) : (s.colEvent m bit page).col = s.col := by
  cases page <;> (unfold State.colEvent; dsimp only; split <;> simp)

/-- An event sets its bit, whatever page it names. -/
theorem regB_colEvent (hregs : cellsFrom regReset 0 s.regs = true) (m : Nat) {bit : Nat} (hbit : bit < 16) (page : Option Nat) :
    (s.colEvent m bit page).regB (rColTEvent m) bit = true := by
  have hmsix (u : State) (v off i : Nat) : (u.msix v).regB off i = u.regB off i := congrArg (wbit · i) (reg_of_regs (u.msix_regs v) off)
  have hflag := s.regB_flag_same (rColTEvent m) bit hregs (by omega)
  cases page with
  | none =>
    unfold State.colEvent
    dsimp only
    split
    · exact (hmsix _ _ _ _).trans hflag
    · exact hflag
  | some q =>
    have hpage : ((s.flag (rColTEvent m) bit).setRegF (rColTEvent m) 16 16 q).regB (rColTEvent m) bit = true := by
      rw [regB_setRegF _ _ _ _ _ _ (s.flag_regsWf _ _ hregs) (by omega), if_neg (by omega)]
      exact hflag
    unfold State.colEvent
    dsimp only
    split
    · exact (hmsix _ _ _ _).trans hpage
    · exact hpage

/-- An event of the open page-sides sets its bit, and marks them. -/
theorem pageEvent_marks (hregs : cellsFrom regReset 0 s.regs = true) (hm : m < s.col.transports.length) {bit : Nat} (hbit : bit < 16) :
    (s.pageEvent m bit).regB (rColTEvent m) bit = true ∧
      (s.pageEvent m bit).transport m = { s.transport m with sides := (s.transport m).sides.map (·.mark bit) } := by
  refine ⟨regB_colEvent hregs m hbit _, ?_⟩
  rw [State.pageEvent, transport_onTransport_same _ _ (by simpa using hm), transport_of_col (congrArg Col.transports (s.colEvent_col _ _ _))]

/-! ### A wake (R537) -/

theorem colUp_iff : s.colUp = true ↔ s.fabricUp = true ∧ s.dev.colReady = true ∧ (s.dev.power = .active ∨ s.dev.waking = true) := by
  simp [State.colUp, and_assoc]

/-- The end of READY_IDLE leaves a collation unit that works at work. -/
theorem exitIdle_colUp (h : s.colUp = true) : s.exitIdle.colUp = true := by
  by_cases hidle : s.dev.power = .readyIdle
  · obtain ⟨hup, hready, hpower⟩ := colUp_iff.1 h
    rw [State.exitIdle, if_pos hidle]
    exact colUp_iff.2 ⟨hup, hready, .inr (hpower.resolve_left (by simp [hidle]))⟩
  · rwa [s.exitIdle_of_active hidle]

/-- A wake moves the power state, and the registers that note it. -/
theorem wake_form (s : State) (k : WakeCause) : s.wake k = { s with dev := (s.wake k).dev, regs := (s.wake k).regs } := by
  unfold State.wake
  split
  · rfl
  · split
    · rfl
    · split
      · rfl
      · split
        · rw [State.exitIdle_eq]
          rfl
        · rfl

@[simp] theorem wake_col (s : State) (k : WakeCause) : (s.wake k).col = s.col := by rw [wake_form]

/-- A wake leaves the registers canonical, and the size of the capture pool; and a collation unit that works works on. -/
theorem wake_keeps (hregs : cellsFrom regReset 0 s.regs = true) (k : WakeCause) :
    cellsFrom regReset 0 (s.wake k).regs = true ∧ (s.wake k).reg rColPoolSize = s.reg rColPoolSize ∧
      (s.colUp = true → (s.wake k).colUp = true) := by
  have hflag (u : State) (hu : cellsFrom regReset 0 u.regs = true) :
      cellsFrom regReset 0 (u.flag rPwrWakeCause k.bit).regs = true ∧ (u.flag rPwrWakeCause k.bit).reg rColPoolSize = u.reg rColPoolSize :=
    ⟨u.flag_regsWf _ _ hu, u.reg_flag_other _ _ _ (by decide) hu⟩
  unfold State.wake
  split
  · exact ⟨hregs, rfl, id⟩
  · split
    · have hone := s.flag_regsWf rSysState 10 hregs
      have htwo := State.flag_regsWf (s.flag rSysState 10) rMgtIntStatus 3 hone
      obtain ⟨hwf, hsize⟩ := hflag ((s.onDev fun d => { d with req := none }).sysEvent 10) htwo
      refine ⟨hwf, hsize.trans ?_, id⟩
      exact (State.reg_flag_other (s.flag rSysState 10) _ _ _ (by decide) hone).trans (s.reg_flag_other _ _ _ (by decide) hregs)
    · split
      · obtain ⟨hwf, hsize⟩ := hflag (s.onDev fun d => { d with power := .exiting, waking := true }) hregs
        refine ⟨hwf, hsize, fun hup => ?_⟩
        obtain ⟨hfab, hready, -⟩ := colUp_iff.1 hup
        exact colUp_iff.2 ⟨hfab, hready, .inr rfl⟩
      · split
        · obtain ⟨hwf, hsize⟩ := hflag s hregs
          exact ⟨by rwa [exitIdle_regs], (exitIdle_reg _ _).trans hsize, fun hup => exitIdle_colUp hup⟩
        · exact ⟨hregs, rfl, id⟩

/-! ### Page-sides open (R168, R204, R205) -/

/-- The room in the capture pool for a page-side of MAX_ROWS rows. -/
def captureRoom (s : State) (c : TransportCfg) (side : Nat) : Option Nat :=
  firstRun s.colGranules (granules (c.setBytes side c.maxRows)) (poolRuns s.col.pool)

/-- The room depends on the size of the capture pool and on what lies in it. -/
theorem captureRoom_of (hsize : t.reg rColPoolSize = s.reg rColPoolSize) (hpool : t.col.pool = s.col.pool) {side : Nat} :
    t.captureRoom c side = s.captureRoom c side := by
  rw [State.captureRoom, State.captureRoom, State.colGranules, State.colGranules, State.regF, State.regF, hsize, hpool]

/-- A page-side as it opens at granule `f`. -/
def freshSide (s : State) (id side f : Nat) : OpenSide := ⟨id, side, s.colPoolBase + 65536 * f, [], [], 0, 0, 0⟩

theorem openSide_eq (s : State) (m : Nat) (c : TransportCfg) (page side : Nat) :
    s.openSide m c page side = match s.captureRoom c side with
      | none => (s.colEvent m 8 (some page)).addHeld ⟨sampleId page side m, 0, 0, 0, 0, 0, 0⟩ .noRoom
      | some f => (s.onCol fun q => { q with
          pool := q.pool ++ [⟨f, granules (c.setBytes side c.maxRows), .capture (sampleId page side m), 1⟩] }).onTransport m
            fun x => { x with sides := x.sides ++ [s.freshSide (sampleId page side m) side f] } := by
  unfold State.openSide State.captureRoom
  dsimp only
  generalize firstRun _ _ _ = room
  cases room <;> rfl

theorem Works.openSide {page side : Nat} (h : Works P L s₀ s) (hm : m < 4) : Works P L s₀ (s.openSide m c page side) := by
  rw [openSide_eq]
  cases s.captureRoom c side with
  | none => exact (h.colEvent hm).addHeld
  | some f => exact (h.onCol (fun _ => rfl)).onTransport (fun _ => rfl) fun x o ho => ⟨o, List.mem_append_left _ ho, .refl o⟩

theorem addHeld_regB (s : State) (pl : Planes) (fate : HeldFate) (off i : Nat) : (s.addHeld pl fate).regB off i = s.regB off i := rfl

/-- With the pool full a page-side is NO_ROOM: nothing opens. -/
theorem openSide_noRoom (hregs : cellsFrom regReset 0 s.regs = true) (page side : Nat) (hroom : s.captureRoom c side = none) :
    (∀ k, (s.openSide m c page side).transport k = s.transport k) ∧ (s.openSide m c page side).regB (rColTEvent m) 8 = true ∧
      ∃ h ∈ (s.openSide m c page side).acc.held, h.planes.sample = sampleId page side m ∧ h.fate = .noRoom := by
  rw [openSide_eq, hroom]
  refine ⟨fun k => transport_of_col (by simp [State.addHeld]) k, ?_, ?_⟩
  · rw [addHeld_regB]
    exact regB_colEvent hregs m (by omega) _
  · exact ⟨_, List.mem_append_right _ (List.mem_singleton_self _), rfl, rfl⟩

/-- With room it opens, with no line. -/
theorem openSide_room (hm : m < s.col.transports.length) (page side : Nat) {f : Nat} (hroom : s.captureRoom c side = some f) :
    (s.openSide m c page side).transport m =
      { s.transport m with sides := (s.transport m).sides ++ [s.freshSide (sampleId page side m) side f] } := by
  rw [openSide_eq, hroom]
  exact transport_onTransport_same _ _ hm

/-- The page number goes up (R168). -/
def turnPage (s : State) (m : Nat) : State := s.onTransport m fun x => { x with page := (x.page + 1) % 2 ^ 45 }

theorem openSides_one (s : State) (m : Nat) (c : TransportCfg) (side : Nat) :
    s.openSides m c [side] = (s.turnPage m).openSide m c (s.transport m).page side := by
  rw [State.openSides, List.foldl_cons, List.foldl_nil]
  rfl

theorem turnPage_transport (hm : m < s.col.transports.length) :
    (s.turnPage m).transport m = { s.transport m with page := ((s.transport m).page + 1) % 2 ^ 45 } := transport_onTransport_same _ _ hm

/-- Where no page-side is open, one opens under the present page number, which goes up, or it is NO_ROOM. -/
theorem openSides_one_leaves (hregs : cellsFrom regReset 0 s.regs = true) (hfour : s.col.transports.length = 4) (hm : m < 4)
    (hshut : (s.transport m).sides = []) (side : Nat) :
    cellsFrom regReset 0 (s.openSides m c [side]).regs = true ∧ (s.openSides m c [side]).col.transports.length = 4 ∧
      (∀ k, ((s.openSides m c [side]).transport k).cfg = (s.transport k).cfg) ∧
      (s.captureRoom c side = none →
        (s.openSides m c [side]).transport m = { s.transport m with page := ((s.transport m).page + 1) % 2 ^ 45 } ∧
        (s.openSides m c [side]).regB (rColTEvent m) 8 = true ∧
        ∃ h ∈ (s.openSides m c [side]).acc.held, h.planes.sample = sampleId (s.transport m).page side m ∧ h.fate = .noRoom) ∧
      ∀ f, s.captureRoom c side = some f →
        (s.openSides m c [side]).transport m = { s.transport m with
          page := ((s.transport m).page + 1) % 2 ^ 45
          sides := [s.freshSide (sampleId (s.transport m).page side m) side f] } := by
  have hturned := turnPage_transport (hfour ▸ hm : m < s.col.transports.length)
  have hcount : (s.turnPage m).col.transports.length = 4 := (s.onTransport_count _ _).trans hfour
  have hworks := (Works.refl (P := fun _ => True) (L := True) (s := s.turnPage m) hregs hcount).openSide (c := c)
    (page := (s.transport m).page) (side := side) hm
  rw [openSides_one]
  have hcfg (k : Nat) := (hworks.cfg k).trans (s.transport_onTransport_proj Transport.cfg m k _ fun _ => rfl)
  refine ⟨hworks.regs, hworks.four, hcfg, fun hroom => ?_, fun f hroom => ?_⟩
  · obtain ⟨hsame, hflag, hheld⟩ := openSide_noRoom (s := s.turnPage m) (m := m) (c := c) hregs (s.transport m).page side hroom
    exact ⟨(hsame m).trans hturned, hflag, hheld⟩
  · rw [openSide_room (s := s.turnPage m) (hcount ▸ hm) (s.transport m).page side hroom, hturned, hshut]
    rfl

/-! ### A leading edge (R169, R172) -/

/-- With no page-side open, to close early forgets the lines asked for alone. -/
theorem closeEarly_of_shut (hsides : (s.transport m).sides = []) (want : OpenSide → Bool) :
    ∃ lsps, s.closeEarly m c want = { s with col := { s.col with lsps := lsps } } := by
  have horphan (f : Trigger → Bool) : ((s.orphan f).transport m).sides = [] := hsides
  unfold State.closeEarly
  simp only [hsides, List.filter_nil, List.foldl_nil, horphan]
  exact ⟨_, rfl⟩

/-- A leading edge where no page-side is open and no calibration is under way. -/
theorem leadEdge_of_shut (hc : (s.transport m).cfg = some c) (hsides : (s.transport m).sides = [])
    (hcalib : ∀ k ∈ s.col.calib, k.started = true → m ∉ k.transports) (p : Nat) :
    ∃ lsps, s.leadEdge m p =
      ((({ s with col := { s.col with lsps := lsps } } : State).onTransport m (Transport.latched p)).openSides m c
        ([0, 1].filter fun d => c.sources.any (·.side = d))).fireDue m := by
  have hcals : (s.col.calib.filter fun k => k.started && decide (m ∈ k.transports)) = [] :=
    List.filter_eq_nil_iff.2 fun k hk => by simpa using hcalib k hk
  unfold State.leadEdge
  rw [hc]
  dsimp only
  rw [hcals]
  simp only [List.map_nil, if_true, List.foldl_nil]
  obtain ⟨lsps, hshut⟩ := closeEarly_of_shut (c := c)
    (s := s.onCol fun q => { q with lsps := q.lsps.mapIdx fun i l =>
      if i ∈ (s.transport m).sources.map (·.port) then { l with muted := false } else l }) hsides fun _ => true
  rw [hshut]
  exact ⟨lsps, rfl⟩

end State

end Sys2Proof.Machine
end

section
/-! PROOF. O23: the events of a transport act as chapter 5 says (R165 to R171, R175, R178, R190, R191, R205). -/

namespace Sys2Proof.Machine

set_option Elab.async false

/-- An opened interlock of transport `m` cuts its UV pulses short (R190). -/
def StrobePhase.uvCut (m : Nat) (l : StrobePhase) : StrobePhase :=
  match l with
  | .delay uv u => if uv && u = m then .idle else .delay uv u
  | .high uv u => if uv && u = m then .idle else .high uv u
  | .idle => .idle

theorem StrobePhase.uvCut_ne (m : Nat) (l : StrobePhase) : l.uvCut m ≠ .delay true m ∧ l.uvCut m ≠ .high true m := by
  cases l with
  | idle => exact ⟨nofun, nofun⟩
  | delay uv u => by_cases h : uv = true ∧ u = m <;> simp [StrobePhase.uvCut, h]
  | high uv u => by_cases h : uv = true ∧ u = m <;> simp [StrobePhase.uvCut, h]

namespace State

variable {P : Nat → Prop} {L : Prop} {s₀ s t : State} {m : Nat} {c : TransportCfg}

/-! ### Edges on LEAD_n (R169, R171, R205) -/

/-- The leading edge as LEAD_n shows it, and its wake. -/
def leadShown (s : State) (m : Nat) : State := (s.onTransport m Transport.led).wake (.lead m)

theorem leadShown_transport (hm : m < s.col.transports.length) :
    (s.leadShown m).transport m = (s.transport m).led := by
  rw [State.leadShown, transport_of_col (congrArg Col.transports (wake_col _ _))]
  exact s.transport_onTransport_same _ hm

theorem leadAssert_eq (hm : m < 4) :
    s.leadAssert m = match ((s.onTransport m Transport.led).transport m).cfg with
      | none => s.onTransport m Transport.led
      | some c =>
        if c.frameMode then s.leadShown m
        else if (s.onTransport m Transport.led).colUp then ((s.leadShown m).leadEdge m ((s.leadShown m).transport m).pos).closeCheck m
        else (s.leadShown m).onTransport m fun x => { x with leadLatch := some (x.leadLatch.getD x.pos), pTrail := none } :=
  if_neg (by omega)

theorem leadAssert_of_committed (hm : m < 4) (hfour : s.col.transports.length = 4) (hc : (s.transport m).cfg = some c)
    (hline : c.frameMode = false) (hup : s.colUp = true) :
    s.leadAssert m = ((s.leadShown m).leadEdge m (s.transport m).pos).closeCheck m := by
  have hpos : ((s.leadShown m).transport m).pos = (s.transport m).pos := by rw [leadShown_transport (hfour ▸ hm)]; rfl
  have hcfg : ((s.onTransport m Transport.led).transport m).cfg = some c :=
    (s.transport_onTransport_proj Transport.cfg m m Transport.led fun _ => rfl).trans hc
  rw [leadAssert_eq hm, hcfg]
  dsimp only
  rw [hline, if_neg Bool.false_ne_true, if_pos (show (s.onTransport m Transport.led).colUp = true from hup), hpos]

/-- Where no page-side is open, a leading edge latches P_lead and opens the front. -/
theorem leadAssert_opens (hregs : cellsFrom regReset 0 s.regs = true) (hfour : s.col.transports.length = 4) (hm : m < 4)
    (hc : (s.transport m).cfg = some c) (hline : c.frameMode = false) (hup : s.colUp = true) (hshut : (s.transport m).sides = [])
    (hcalib : ∀ k ∈ s.col.calib, k.started = true → m ∉ k.transports) (hfront : ∃ x ∈ c.sources, x.side = 0)
    (hall : ∀ x ∈ c.sources, x.side = 0) :
    ∃ u : State, cellsFrom regReset 0 u.regs = true ∧ u.col.transports.length = 4 ∧ u.captureRoom c 0 = s.captureRoom c 0 ∧
      u.transport m = ((s.leadShown m).transport m).latched (s.transport m).pos ∧
      s.leadAssert m = ((u.openSides m c [0]).fireDue m).closeCheck m := by
  have hlen : m < s.col.transports.length := hfour ▸ hm
  have hshown := leadShown_transport hlen
  have hsides : ([0, 1].filter fun d => c.sources.any (·.side = d)) = [0] := by
    have h0 : (c.sources.any (·.side = 0)) = true := List.any_eq_true.2 (by simpa using hfront)
    have h1 : (c.sources.any (·.side = 1)) = false := List.any_eq_false.2 fun x hx => by simp [hall x hx]
    simp only [List.filter_cons, h0, h1, if_true, Bool.false_eq_true, if_false, List.filter_nil]
  obtain ⟨hwf, hsize, -⟩ := wake_keeps (s := s.onTransport m Transport.led) hregs (.lead m)
  have hcol : (s.leadShown m).col = (s.onTransport m Transport.led).col := wake_col _ _
  have hcount : (s.leadShown m).col.transports.length = 4 := by rw [hcol, onTransport_count, hfour]
  obtain ⟨lsps, hedge⟩ := leadEdge_of_shut (s := s.leadShown m) (m := m) (c := c) (by rw [hshown]; exact hc) (by rw [hshown]; exact hshut)
    (by rw [hcol]; exact hcalib) (s.transport m).pos
  rw [hsides] at hedge
  refine ⟨(({ s.leadShown m with col := { (s.leadShown m).col with lsps := lsps } } : State).onTransport m
    (Transport.latched (s.transport m).pos)), hwf, ?_, captureRoom_of hsize (congrArg Col.pool hcol), ?_, ?_⟩
  · exact (onTransport_count _ _ _).trans hcount
  · exact transport_onTransport_same _ _ (hcount ▸ hm : m < (s.leadShown m).col.transports.length)
  · rw [leadAssert_of_committed hm hfour hc hline hup, hedge]

/-- The page number goes up, P_lead is latched, UV strobes follow the interlock; and the page-side is open, held or NO_ROOM. -/
theorem leadAssert_leaves (hregs : cellsFrom regReset 0 s.regs = true) (hfour : s.col.transports.length = 4) (hm : m < 4)
    (hc : (s.transport m).cfg = some c) (hline : c.frameMode = false) (hup : s.colUp = true) (hshut : (s.transport m).sides = [])
    (hcalib : ∀ k ∈ s.col.calib, k.started = true → m ∉ k.transports) (hfront : ∃ x ∈ c.sources, x.side = 0)
    (hall : ∀ x ∈ c.sources, x.side = 0) :
    ((s.leadAssert m).transport m).page = ((s.transport m).page + 1) % 2 ^ 45 ∧
      ((s.leadAssert m).transport m).pLead = (s.transport m).pos ∧
      ((s.leadAssert m).transport m).ilkHeld = (s.transport m).ilkClosed ∧
      if s.captureRoom c 0 = none then (s.leadAssert m).regB (rColTEvent m) 8 = true ∧
        ∃ h ∈ (s.leadAssert m).acc.held, h.planes.sample = sampleId (s.transport m).page 0 m ∧ h.fate = .noRoom
      else (∃ o ∈ ((s.leadAssert m).transport m).sides, o.sample = sampleId (s.transport m).page 0 m) ∨
        ∃ h ∈ (s.leadAssert m).acc.held, h.planes.sample = sampleId (s.transport m).page 0 m ∧ h.fate = .held := by
  obtain ⟨u, huregs, hufour, huroom, hux, hact⟩ := leadAssert_opens hregs hfour hm hc hline hup hshut hcalib hfront hall
  rw [leadShown_transport (hfour ▸ hm)] at hux
  obtain ⟨hwregs, hwfour, -, hnone, hsome⟩ := openSides_one_leaves (c := c) huregs hufour hm (by rw [hux]; exact hshut) 0
  rw [hact]
  generalize u.openSides m c [0] = w at hwregs hwfour hnone hsome
  have hworks : Works (fun _ => False) False w ((w.fireDue m).closeCheck m) :=
    ((Works.refl hwregs hwfour).fireDue (fun _ => id) id).closeCheck
  rw [hworks.page, hworks.pLead, hworks.read Transport.ilkHeld fun _ => rfl]
  cases hroom : u.captureRoom c 0 with
  | none =>
    obtain ⟨hx, hflag, hgone⟩ := hnone hroom
    rw [hux] at hx hgone
    rw [hx, if_pos (huroom.symm.trans hroom), fireDue_of_shut (by rw [hx]; exact hshut), closeCheck_of_shut (by rw [hx]; exact hshut)]
    exact ⟨rfl, rfl, rfl, hflag, hgone⟩
  | some f =>
    have hx := hsome f hroom
    rw [hux] at hx
    have hkept := hworks.sides m _ (by rw [hx]; exact List.mem_singleton_self _)
    rw [hx, if_neg (by simp [← huroom, hroom])]
    refine ⟨rfl, rfl, rfl, ?_⟩
    obtain ⟨q, hq, hgrows⟩ | hend := hkept
    · exact .inl ⟨q, hq, hgrows.1⟩
    · exact .inr hend

theorem leadAssert_of_uncommitted (hm : m < 4) (hc : (s.transport m).cfg = none) :
    s.leadAssert m = s.onTransport m Transport.led := by
  rw [leadAssert_eq hm, (s.transport_onTransport_proj Transport.cfg m m Transport.led fun _ => rfl).trans hc]

theorem leadDeassert_of_frame (hm : m < 4) (hc : (s.transport m).cfg = some c) (hframe : c.frameMode = true) :
    s.leadDeassert m = s.onTransport m fun x => { x with leadActive := false } := by
  have hcfg := (s.transport_onTransport_proj Transport.cfg m m (fun x => { x with leadActive := false }) fun _ => rfl).trans hc
  rw [State.leadDeassert, if_neg (by omega)]
  dsimp only
  rw [hcfg]
  simp [hframe]

/-- The trailing edge as LEAD_n shows it, where P_trail is not yet latched. -/
def trailShown (s : State) (m : Nat) : State :=
  (s.onTransport m fun x => { x with leadActive := false }).onTransport m fun y => { y with pTrail := some (y.pTrail.getD y.pos) }

theorem trailShown_count (s : State) (m : Nat) : (s.trailShown m).col.transports.length = s.col.transports.length :=
  (onTransport_count _ _ _).trans (onTransport_count _ _ _)

theorem trailShown_transport (s : State) {m : Nat} (hm : m < s.col.transports.length) : (s.trailShown m).transport m =
    { s.transport m with leadActive := false, pTrail := some ((s.transport m).pTrail.getD (s.transport m).pos) } := by
  rw [State.trailShown, transport_onTransport_same _ _ (by simpa using hm), transport_onTransport_same _ _ hm]

theorem leadDeassert_of_line (hm : m < 4) (hlen : m < s.col.transports.length) (hc : (s.transport m).cfg = some c)
    (hline : c.frameMode = false) (hopen : (s.transport m).sides ≠ []) :
    s.leadDeassert m = if (s.trailShown m).colUp then (s.trailShown m).closeCheck m else s.trailShown m := by
  rw [State.leadDeassert, if_neg (by omega)]
  exact if_pos (by simp [transport_onTransport_same _ _ hlen, Transport.isOpen, hopen, hc, hline])

/-- The first trailing edge latches P_trail. -/
theorem leadDeassert_latches (hregs : cellsFrom regReset 0 s.regs = true) (hfour : s.col.transports.length = 4) (hm : m < 4)
    (hc : (s.transport m).cfg = some c) (hline : c.frameMode = false) (hopen : (s.transport m).sides ≠ [])
    (htrail : (s.transport m).pTrail = none) :
    ((s.leadDeassert m).transport m).pTrail = some (s.transport m).pos ∧
      ((s.leadDeassert m).transport m).page = (s.transport m).page := by
  have hlen : m < s.col.transports.length := hfour ▸ hm
  have hrefl : Works (fun _ => False) False (s.trailShown m) (s.trailShown m) := .refl hregs (by rw [s.trailShown_count, hfour])
  have hworks : Works (fun _ => False) False (s.trailShown m) (s.leadDeassert m) := by
    rw [leadDeassert_of_line hm hlen hc hline hopen]
    exact .ite hrefl.closeCheck hrefl
  rw [hworks.pTrail, hworks.page, s.trailShown_transport hlen, htrail]
  exact ⟨rfl, rfl⟩

theorem stallLimit_of_line (hm : m < 4) (hup : s.colUp = true) (hopen : (s.transport m).sides ≠ []) (hc : (s.transport m).cfg = some c)
    (hline : c.frameMode = false) : s.stallLimit m = s.pageEvent m 1 := by
  rw [State.stallLimit, hc]
  exact if_pos (by simp [hm, hup, Transport.isOpen, hopen, hline])

theorem ilkOpen_eq (hm : m < 4) : s.ilkOpen m = (s.onTransport m fun x => { x with ilkClosed := false, ilkHeld := false }).onCol
    fun q => { q with lamps := q.lamps.map (StrobePhase.uvCut m) } :=
  if_neg (by omega)

/-! ### Encoder (R166, R175) -/

theorem encPhase_both {a b a' b' : Bool} (ha : a ≠ a') (hb : b ≠ b') : (encPhase a b + 4 - encPhase a' b') % 4 = 2 := by
  revert a b a' b'
  decide

/-- The levels after an edge, and its wake. -/
def encShown (s : State) (m : Nat) (a b : Bool) : State := (s.onTransport m fun y => { y with encA := a, encB := b }).wake (.enc m)

theorem encShown_transport (hm : m < s.col.transports.length) (a b : Bool) :
    (s.encShown m a b).transport m = { s.transport m with encA := a, encB := b } := by
  rw [State.encShown, transport_of_col (congrArg Col.transports (wake_col _ _))]
  exact s.transport_onTransport_same _ hm

theorem encShown_count (s : State) (m : Nat) (a b : Bool) : (s.encShown m a b).col.transports.length = s.col.transports.length := by
  rw [State.encShown, wake_col, onTransport_count]

theorem encShown_keeps (s : State) (hregs : cellsFrom regReset 0 s.regs = true) (m : Nat) (a b : Bool) :
    cellsFrom regReset 0 (s.encShown m a b).regs = true ∧ (s.colUp = true → (s.encShown m a b).colUp = true) := by
  obtain ⟨hwf, -, hup⟩ := wake_keeps (s := s.onTransport m fun y => { y with encA := a, encB := b }) hregs (.enc m)
  exact ⟨hwf, hup⟩

theorem encEdge_forward (hm : m < 4) {a b : Bool} (hstep : (encPhase a b + 4 - encPhase (s.transport m).encA (s.transport m).encB) % 4 = 1) :
    s.encEdge m a b =
      let fwd := !(s.transport m).dir
      let u := (s.encShown m a b).movePos m (if fwd then 1 else -1)
      if u.colUp then (if fwd then u.fireLate m else u).follow m fwd else u := by
  rw [State.encEdge, if_neg (by omega)]
  simp only [hstep, one_ne_zero, if_false, show (1 : Nat) ≠ 2 by decide, decide_true, Bool.true_bne]
  rfl

/-- A quarter count moves the position; what fires and closes with it moves it no further. -/
theorem encEdge_works (hregs : cellsFrom regReset 0 s.regs = true) (hfour : s.col.transports.length = 4) (hm : m < 4) {a b : Bool}
    (hstep : (encPhase a b + 4 - encPhase (s.transport m).encA (s.transport m).encB) % 4 = 1) :
    Works (fun _ => False) False ((s.encShown m a b).movePos m (if !(s.transport m).dir then 1 else -1)) (s.encEdge m a b) := by
  have hmoved : Works (fun _ => False) False ((s.encShown m a b).movePos m (if !(s.transport m).dir then 1 else -1))
      ((s.encShown m a b).movePos m (if !(s.transport m).dir then 1 else -1)) :=
    .refl (s.encShown_keeps hregs m a b).1 ((onTransport_count _ _ _).trans ((s.encShown_count m a b).trans hfour))
  rw [encEdge_forward hm hstep]
  exact .ite (Works.follow (fun _ => id) id (.ite (hmoved.fireLate id hm) hmoved)) hmoved

theorem encEdge_both (hm : m < 4) {a b : Bool} (ha : a ≠ (s.transport m).encA) (hb : b ≠ (s.transport m).encB)
    (hup : (s.encShown m a b).colUp = true) :
    s.encEdge m a b = ((s.encShown m a b).onTransport m fun y => { y with encErrs := y.encErrs + 1 }).pageEvent m 6 := by
  rw [State.encEdge, if_neg (by omega)]
  dsimp only
  rw [encPhase_both ha hb, if_neg (by decide), if_pos rfl]
  exact if_pos hup

theorem encEdge_counts (hregs : cellsFrom regReset 0 s.regs = true) (hfour : s.col.transports.length = 4) (hm : m < 4) {a b : Bool}
    (hstep : (encPhase a b + 4 - encPhase (s.transport m).encA (s.transport m).encB) % 4 = 1) :
    ((s.encEdge m a b).transport m).pos = (if (s.transport m).dir then wrapN 32 (((s.transport m).pos : Int) - 1)
        else wrapN 32 (((s.transport m).pos : Int) + 1)) ∧
      ((s.encEdge m a b).transport m).encA = a ∧ ((s.encEdge m a b).transport m).encB = b := by
  have hlen : m < s.col.transports.length := hfour ▸ hm
  have hworks := encEdge_works hregs hfour hm hstep
  rw [hworks.pos, hworks.read Transport.encA fun _ => rfl, hworks.read Transport.encB fun _ => rfl, State.movePos,
    transport_onTransport_same _ _ (by rwa [encShown_count]), encShown_transport hlen]
  refine ⟨?_, rfl, rfl⟩
  cases (s.transport m).dir <;> rfl

theorem encEdge_errs (hregs : cellsFrom regReset 0 s.regs = true) (hfour : s.col.transports.length = 4) (hm : m < 4) {a b : Bool}
    (hup : s.colUp = true) (ha : a ≠ (s.transport m).encA) (hb : b ≠ (s.transport m).encB) :
    ((s.encEdge m a b).transport m).pos = (s.transport m).pos ∧
      ((s.encEdge m a b).transport m).encErrs = (s.transport m).encErrs + 1 ∧ (s.encEdge m a b).regB (rColTEvent m) 6 = true := by
  obtain ⟨hwf, hkept⟩ := s.encShown_keeps hregs m a b
  have hlen : m < s.col.transports.length := hfour ▸ hm
  have hlen' : m < (s.encShown m a b).col.transports.length := by rwa [encShown_count]
  obtain ⟨hflag, hx⟩ := pageEvent_marks (s := (s.encShown m a b).onTransport m fun y => { y with encErrs := y.encErrs + 1 }) (m := m)
    (bit := 6) hwf (by rwa [onTransport_count]) (by omega)
  rw [encEdge_both hm ha hb (hkept hup), hx, transport_onTransport_same _ _ hlen', encShown_transport hlen]
  exact ⟨rfl, rfl, hflag⟩

end State

/-- Settles O23: each event's own change is read off its definition, and what follows it (triggers, strobes, ends of page-sides) leaves
that as it is and loses no page-side. -/
theorem transportEvents : Obligations.TransportEvents := by
  intro s m hinv hon hm
  have hregs := hinv.mem.regs
  have hfour := hinv.numbers.transports
  have hlen : m < s.col.transports.length := hfour ▸ hm
  refine ⟨fun c hc hline hup hshut hcalib hfront hall => ?_, fun hc => ?_, fun hopen htrail => ⟨fun c hc hframe => ?_, fun c hc hline => ?_⟩,
    fun hup hopen => ⟨?_, fun c hc hline => ?_⟩, fun a b hstep => ?_, fun a b hup ha hb => ?_, ?_, ?_, fun i uv hi => ?_, fun i uv hi => ?_⟩
  · exact ⟨_, s.next_of_on hon rfl, State.leadAssert_leaves hregs hfour hm hc hline hup hshut hcalib hfront hall⟩
  · exact ⟨_, s.next_of_on hon (State.leadAssert_of_uncommitted hm hc), s.transport_onTransport_proj Transport.sides m m _ fun _ => rfl,
      s.transport_onTransport_proj Transport.page m m _ fun _ => rfl, rfl, rfl⟩
  · refine ⟨_, s.next_of_on hon (State.leadDeassert_of_frame hm hc hframe), ?_, s.transport_onTransport_proj Transport.sides m m _ fun _ => rfl⟩
    refine Eq.trans ?_ htrail
    exact s.transport_onTransport_proj Transport.pTrail m m _ fun _ => rfl
  · exact ⟨_, s.next_of_on hon rfl, State.leadDeassert_latches hregs hfour hm hc hline hopen htrail⟩
  · have hmarks := State.pageEvent_marks hregs hlen (bit := 0) (by omega)
    refine ⟨_, s.next_of_on hon (if_pos (by simp [hm, hup, Transport.isOpen, hopen])), hmarks.1, congrArg Transport.sides hmarks.2⟩
  · have hmarks := State.pageEvent_marks hregs hlen (bit := 1) (by omega)
    refine ⟨_, s.next_of_on hon (State.stallLimit_of_line hm hup hopen hc hline), hmarks.1, congrArg Transport.sides hmarks.2⟩
  · exact ⟨_, s.next_of_on hon rfl, State.encEdge_counts hregs hfour hm hstep⟩
  · exact ⟨_, s.next_of_on hon rfl, State.encEdge_errs hregs hfour hm hup ha hb⟩
  · refine ⟨_, s.next_of_on hon (State.ilkOpen_eq hm), ?_, fun l hl => ?_, fun i u hi => ?_⟩
    · refine (congrArg Transport.uvHeld (s.transport_onTransport_same _ hlen)).trans ?_
      simp [Transport.uvHeld]
    · obtain ⟨l', -, rfl⟩ := List.mem_map.1 hl
      exact l'.uvCut_ne m
    · exact (List.getElem?_map ..).trans (congrArg (Option.map (StrobePhase.uvCut m)) hi)
  · refine ⟨_, s.next_of_on hon (if_neg (by omega)), ?_, s.transport_onTransport_proj Transport.ilkHeld m m _ fun _ => rfl, rfl⟩
    rw [State.transport_onTransport_same _ _ hlen]
  · refine ⟨_, s.next_of_on hon rfl, ?_, rfl⟩
    simp [State.strobeOn, hi]
  · refine ⟨_, s.next_of_on hon rfl, ?_, rfl⟩
    simp [State.strobeOff, hi]

end Sys2Proof.Machine
end

section
/-! PROOF. Line frames and triggers held back: what each leaves of its port and of the page-sides (R157 to R162, R176, R180). -/

namespace Sys2Proof.Machine

set_option Elab.async false

namespace State

variable {P : Nat → Prop} {L : Prop} {s₀ s t : State} {m p i j : Nat} {c : TransportCfg} {f : Bytes} {src : Source}

/-! ### A frame that is taken (R161, R180) -/

/-- A line of a committed transport joins the page-sides of its source's side. -/
theorem takeLine_eq (hc : (s.transport m).cfg = some c) (hsrc : c.sources[i]? = some src) (bits : Nat) (vs : List Nat) :
    s.takeLine ⟨m, i, j, false⟩ bits vs = s.onTransport m fun x => { x with sides := x.sides.map fun o =>
      if o.side = src.side then { o with lines := o.lines ++ [(i, j, s.shadeLine m i c.whiteTarget bits vs)] } else o } := by
  have hsources : (s.transport m).sources[i]? = some src := by rw [Transport.sources, hc]; exact hsrc
  unfold State.takeLine
  dsimp only
  rw [hsources, hc]

/-- The one page-side open on a transport, of the source's side, holds the line that has come. -/
theorem takeLine_sides {o : OpenSide} (hm : m < s.col.transports.length) (hc : (s.transport m).cfg = some c)
    (hsrc : c.sources[i]? = some src) (hopen : (s.transport m).sides = [o]) (hside : o.side = src.side) (bits : Nat) (vs : List Nat) :
    ((s.takeLine ⟨m, i, j, false⟩ bits vs).transport m).sides =
      [{ o with lines := o.lines ++ [(i, j, s.shadeLine m i c.whiteTarget bits vs)] }] := by
  rw [takeLine_eq hc hsrc, transport_onTransport_same _ _ hm]
  simp [hopen, hside]

/-- A port has met its sync code. -/
def synced (s : State) (p : Nat) : State := s.onLsp p fun l => { l with sync := true }

/-- The lines asked for have come, with the frame of sequence number `q`. -/
def portServed (s : State) (p q : Nat) : State := s.onLsp p fun l => { l with outstanding := [], lastSeq := some q, known := 0 }

theorem synced_lsp (hp : p < s.col.lsps.length) : (s.synced p).lsp p = { s.lsp p with sync := true } := s.lsp_onLsp_same _ hp

/-- A frame that agrees, of the one line asked for, gives that line to its page-side. -/
theorem lineFrame_of_good (hup : s.colUp = true) (hp8 : p < 8) (hp : p < s.col.lsps.length) (hheader : lfHeaderOk f = true)
    (hlow : s.regF rHlkVerAgree1 16 8 ≤ lfVer f) (hhigh : lfVer f ≤ s.regF rHlkVerAgree1 24 8) (htrailer : lfTrailerOk f = true)
    (htest : lfTest f = false) (hmuted : (s.lsp p).muted = false) (hfits : ∀ e ∈ s.portSources p, frameFits f e.2 = true)
    (hout : (s.lsp p).outstanding = [⟨m, i, j, false⟩]) (hseq : (s.lsp p).lastSeq = none)
    (hsrc : (s.transport m).sources[i]? = some src) :
    s.lineFrame p f = (((s.synced p).takeLine ⟨m, i, j, false⟩ (lfBits f)
      (lfChannel f src.channelIn)).portServed p (lfSeq f)).closeCheck m := by
  have hlsp := synced_lsp hp
  have hver : (decide (lfVer f < (s.synced p).regF rHlkVerAgree1 16 8) || decide ((s.synced p).regF rHlkVerAgree1 24 8 < lfVer f)) = false := by
    have hreg (lo : Nat) : (s.synced p).regF rHlkVerAgree1 lo 8 = s.regF rHlkVerAgree1 lo 8 := rfl
    simp [hreg, hlow, hhigh]
  have hfits' : ((s.synced p).portSources p).all (fun e => frameFits f e.2) = true := List.all_eq_true.2 hfits
  have hsrc' : ((s.synced p).transport m).sources[i]? = some src := hsrc
  have hbegin : s.lineFrame p f = _ := if_neg (by simp [hup, hp8])
  rw [← State.synced] at hbegin
  rw [hbegin]
  simp only [hheader, hver, htrailer, htest, hfits', hlsp, hout, hmuted, hseq, Bool.not_true, Bool.false_eq_true, if_false, Bool.or_self,
    decide_true, Bool.true_or, List.cons_ne_nil, List.foldl_cons, List.foldl_nil, hsrc', if_true, List.map_cons, List.map_nil]
  rfl

/-! ### A frame that is discarded (R157, R162) -/

theorem lineFrame_of_badHeader (hup : s.colUp = true) (hp8 : p < 8) (hheader : lfHeaderOk f = false) :
    s.lineFrame p f = ((s.synced p).bumpSat (rColLspErr p) 0 8 1).dropFrame p := by
  have hbegin : s.lineFrame p f = _ := if_neg (by simp [hup, hp8])
  rw [hbegin]
  exact if_pos (by simp [hheader])

/-- A frame that is dropped leaves its port asking for nothing, and its port's counts of errors. -/
theorem dropFrame_leaves (hregs : cellsFrom regReset 0 s.regs = true) (hfour : s.col.transports.length = 4) (hp : p < s.col.lsps.length) :
    ((s.dropFrame p).lsp p).outstanding = [] ∧ (s.dropFrame p).reg (rColLspErr p) = s.reg (rColLspErr p) := by
  have hlost : Works (fun _ => True) True s ((s.lsp p).outstanding.foldl State.loseLine s) :=
    .foldl (.refl hregs hfour) fun _ hu _ _ => hu.loseLine
  have hserved := lsp_onLsp_same ((s.lsp p).outstanding.foldl State.loseLine s)
    (fun l => { l with outstanding := [], known := l.known + 1 }) (hlost.eight ▸ hp)
  have hclosed : Works (fun _ => True) True (((s.lsp p).outstanding.foldl State.loseLine s).onLsp p
      fun l => { l with outstanding := [], known := l.known + 1 }) (s.dropFrame p) :=
    .foldl (.refl hlost.regs hlost.four) fun _ hu _ _ => hu.closeCheck
  exact ⟨(congrArg Lsp.outstanding (hclosed.ports p trivial)).trans (congrArg Lsp.outstanding hserved),
    (hclosed.counts p trivial).trans (hlost.counts p trivial)⟩

/-! ### A trigger that was held back (R176) -/

/-- The sources of a trigger's lines, with their transports. -/
def askedSources (s : State) (gs : List Trigger) : List (Nat × Source) :=
  gs.filterMap fun g => ((s.transport g.transport).sources[g.source]?).map fun x => (g.transport, x)

/-- The page-sides of a trigger that fires late count it (R176). -/
def markLate (s : State) (e : Nat × Nat) : State :=
  (s.onTransport e.1 fun x => { x with sides := x.sides.map fun o =>
    if o.side = e.2 then { o with overspeed := satAdd 0xFFFF o.overspeed 1 } else o }).sideEvent e.1 e.2 3

theorem Works.markLate {e : Nat × Nat} (h : Works P L s₀ s) (he : e.1 < 4) : Works P L s₀ (s.markLate e) := by
  refine (h.mapSides fun o => ?_).sideEvent he
  split
  · exact .refl o
  · exact .refl o

/-- The port holds back the triggers `rest`. -/
def holdBack (s : State) (p : Nat) (rest : List (List Trigger)) : State := s.onLsp p fun l => { l with deferred := rest }

theorem lineTriggerDeferred_of_cons (hup : s.colUp = true) (hp8 : p < 8) {gs : List Trigger} {rest : List (List Trigger)}
    (hheld : (s.lsp p).deferred = gs :: rest) :
    s.lineTriggerDeferred p = ((((s.askedSources gs).map fun e => (e.1, e.2.side)).eraseDups).foldl State.markLate (s.holdBack p rest)).issueLsync p
      gs (maxNat ((s.askedSources gs).map (·.2.minLine))) := by
  have hbegin : s.lineTriggerDeferred p = _ := if_neg (by simp [hup, hp8])
  rw [hbegin, hheld]
  rfl

theorem lineTriggerDeferred_fires (hregs : cellsFrom regReset 0 s.regs = true) (hfour : s.col.transports.length = 4)
    (hp : p < s.col.lsps.length) (hup : s.colUp = true) (hp8 : p < 8) {gs : List Trigger} {rest : List (List Trigger)}
    (hheld : (s.lsp p).deferred = gs :: rest) :
    ((s.lineTriggerDeferred p).lsp p).outstanding = gs ∧ ((s.lineTriggerDeferred p).lsp p).deferred = rest ∧
      Out.lsync p ∈ (s.lineTriggerDeferred p).out := by
  have hport : (s.holdBack p rest).lsp p = { s.lsp p with deferred := rest } := s.lsp_onLsp_same _ hp
  have hmarked : Works (fun _ => True) True (s.holdBack p rest)
      ((((s.askedSources gs).map fun e => (e.1, e.2.side)).eraseDups).foldl State.markLate (s.holdBack p rest)) := by
    refine .foldl (.refl hregs hfour) fun u hu e he => hu.markLate ?_
    obtain ⟨a, ha, rfl⟩ := List.mem_map.1 (List.mem_eraseDups.1 he)
    obtain ⟨g, -, hg⟩ := List.mem_filterMap.1 ha
    obtain ⟨src, hsrc, rfl⟩ := Option.map_eq_some_iff.1 hg
    exact hfour ▸ s.transport_lt_of_source hsrc
  obtain ⟨hout, hdeferred, hsent⟩ := issueLsync_asks hmarked.regs hmarked.four
    (by rw [hmarked.eight]; exact (s.onLsp_count _ _).symm ▸ hp) gs (maxNat ((s.askedSources gs).map (·.2.minLine)))
  rw [lineTriggerDeferred_of_cons hup hp8 hheld]
  exact ⟨hout, hdeferred.trans (congrArg Lsp.deferred ((hmarked.ports p trivial).trans hport)), hsent⟩

theorem lineTriggerDeferred_of_nil (hup : s.colUp = true) (hp8 : p < 8) (hheld : (s.lsp p).deferred = []) :
    s.lineTriggerDeferred p = s.onLsp p fun l => { l with inMinLine := false } := by
  have hbegin : s.lineTriggerDeferred p = _ := if_neg (by simp [hup, hp8])
  rw [hbegin, hheld]

end State

end Sys2Proof.Machine
end

section
/-! PROOF. Frames of a camera on a frame-mode transport (R163 to R165): one transport takes them, its page-side opens, fills and closes. -/

namespace Sys2Proof.Machine

set_option Elab.async false

/-- A frame begins at position `lead` for some sources (R165). -/
def Transport.framed (lead : Nat) (srcs : List (Nat × Source)) (x : Transport) : Transport :=
  { x with pLead := lead, pTrail := none, nextRow := x.nextRow.filter fun e => !(srcs.any (·.1 = e.1)) }

theorem Transport.mem_indexed {x : Transport} {i : Nat} {src : Source} (h : (i, src) ∈ x.indexed) : x.sources[i]? = some src := by
  obtain ⟨k, hk, hget⟩ := List.mem_mapIdx.1 h
  cases hget
  exact List.getElem?_eq_getElem hk

theorem Transport.csiSources_of_cfg {x y : Transport} (h : x.cfg = y.cfg) (port vc : Nat) : x.csiSources port vc = y.csiSources port vc := by
  rw [Transport.csiSources, Transport.csiSources, Transport.indexed, Transport.indexed, Transport.sources, Transport.sources, h]

theorem Transport.mem_csiSources {x : Transport} {port vc i : Nat} {src : Source} (h : (i, src) ∈ x.csiSources port vc) :
    x.sources[i]? = some src := by
  rw [Transport.csiSources] at h
  split at h
  · exact Transport.mem_indexed (List.mem_filter.1 h).1
  · cases h

theorem Transport.source_of_csi {x : Transport} {c : TransportCfg} {port vc i : Nat} {src : Source} (hc : x.cfg = some c)
    (h : x.csiSources port vc = [(i, src)]) : c.sources[i]? = some src := by
  have hsrc := Transport.mem_csiSources (h ▸ List.mem_singleton_self (i, src) : (i, src) ∈ x.csiSources port vc)
  rwa [Transport.sources, hc] at hsrc

namespace State

variable {P : Nat → Prop} {L : Prop} {s₀ s t : State} {m p i j port vc d : Nat} {c : TransportCfg} {src : Source} {o : OpenSide}

/-- No transport but `m` takes frames of a port and virtual channel. -/
def soleCsi (s : State) (m port vc : Nat) : Prop := ∀ k, k < 4 → k ≠ m → (s.transport k).csiSources port vc = []

theorem soleCsi.of_cfg (h : s.soleCsi m port vc) (hcfg : ∀ k, (t.transport k).cfg = (s.transport k).cfg) : t.soleCsi m port vc :=
  fun k hk hkm => (Transport.csiSources_of_cfg (hcfg k) port vc).trans (h k hk hkm)

/-- Where every other transport is left alone, the transports' turns are the turn of `m`. -/
theorem foldl_sole {f : State → Nat → State} (hm : m < 4) (hidle : ∀ u k, u.soleCsi m port vc → k < 4 → k ≠ m → f u k = u)
    (hs : s.soleCsi m port vc) (hturn : f s m = t) (ht : t.soleCsi m port vc) : (List.range 4).foldl f s = t := by
  have hskip (l : List Nat) (hl : ∀ k ∈ l, k < 4 ∧ k ≠ m) (u : State) (hu : u.soleCsi m port vc) : l.foldl f u = u :=
    List.foldlRecOn l f (motive := (· = u)) rfl fun v hv k hk => by
      rw [hv]
      exact hidle u k hu (hl k hk).1 (hl k hk).2
  obtain ⟨before, after, hsplit⟩ := List.append_of_mem (List.mem_range.2 hm)
  have hnodup : (m :: (before ++ after)).Nodup := List.nodup_middle.1 (hsplit ▸ List.nodup_range)
  have hothers (k : Nat) (hk : k ∈ before ++ after) : k < 4 ∧ k ≠ m := by
    refine ⟨List.mem_range.1 (hsplit ▸ ?_), fun e => (List.nodup_cons.1 hnodup).1 (e ▸ hk)⟩
    exact (List.perm_middle (a := m)).mem_iff.2 (List.mem_cons_of_mem _ hk)
  rw [hsplit, List.foldl_append, List.foldl_cons, hskip before (fun k hk => hothers k (List.mem_append_left _ hk)) s hs, hturn]
  exact hskip after (fun k hk => hothers k (List.mem_append_right _ hk)) _ ht

theorem works_foldl_sole {f : State → Nat → State} (hm : m < 4) (hidle : ∀ u k, u.soleCsi m port vc → k < 4 → k ≠ m → f u k = u)
    (hs : s.soleCsi m port vc) (hcfg : ∀ k, (t.transport k).cfg = (s.transport k).cfg) (hturn : Works P L t (f s m)) :
    Works P L t ((List.range 4).foldl f s) := by
  rwa [foldl_sole hm hidle hs rfl (hs.of_cfg fun k => (hturn.cfg k).trans (hcfg k))]

/-! ### The start of a frame (R165) -/

/-- A frame of a port and virtual channel is under way. -/
def csiBegun (s : State) (port vc : Nat) : State := s.onCol fun q => { q with csiOpen := addNew q.csiOpen (port, vc) }

/-- A frame has begun on transport `m`, and the ports stand as `lsps`. -/
def frameBegun (s : State) (m port vc : Nat) (lsps : List Lsp) : State :=
  ({ s with
      fresh := s.fresh + 4
      col := { s.col with csiOpen := addNew s.col.csiOpen (port, vc), lsps := lsps } } : State).onTransport m
    (Transport.framed (leNat (s.drawBytes 4).1) ((s.transport m).csiSources port vc))

/-- A frame opens one page-side on its transport, where none is open. -/
theorem frameStart_opens (hregs : cellsFrom regReset 0 s.regs = true) (hfour : s.col.transports.length = 4) (hup : s.colUp = true)
    (hm : m < 4) (hc : (s.transport m).cfg = some c) (hcalib : s.col.calib = []) (hsole : s.soleCsi m port vc)
    (hsides : (((s.transport m).csiSources port vc).map (·.2.side)).eraseDups = [d]) (hshut : (s.transport m).sides = []) :
    ∃ u : State, cellsFrom regReset 0 u.regs = true ∧ u.col.transports.length = 4 ∧ u.captureRoom c d = s.captureRoom c d ∧
      (u.transport m).page = (s.transport m).page ∧ (u.transport m).sides = [] ∧ s.frameStart port vc = u.openSides m c [d] := by
  have hsome : (s.transport m).csiSources port vc ≠ [] := fun h => by simp [h] at hsides
  obtain ⟨lsps, hearly⟩ := closeEarly_of_shut (c := c) (s := s.csiBegun port vc)
    hshut fun o => decide (o.side ∈ [d])
  have hux : (s.frameBegun m port vc lsps).transport m = (s.transport m).framed (leNat (s.drawBytes 4).1) ((s.transport m).csiSources port vc) :=
    transport_onTransport_same _ _ (hfour ▸ hm : m < s.col.transports.length)
  have hucount : (s.frameBegun m port vc lsps).col.transports.length = 4 := (onTransport_count _ _ _).trans hfour
  have hushut : ((s.frameBegun m port vc lsps).transport m).sides = [] := by rw [hux]; exact hshut
  obtain ⟨-, -, hcfg, -⟩ := openSides_one_leaves (c := c) (s := s.frameBegun m port vc lsps) hregs hucount hm hushut d
  refine ⟨s.frameBegun m port vc lsps, hregs, hucount, captureRoom_of rfl rfl, by rw [hux]; rfl, hushut, ?_⟩
  have hbegin : s.frameStart port vc = _ := if_neg (by simp [hup])
  rw [hbegin]
  refine foldl_sole (s := s.csiBegun port vc) hm (fun v k hv hk hkm => ?_)
    (hsole.of_cfg fun _ => rfl) ?_ (hsole.of_cfg fun k => (hcfg k).trans (transport_onTransport_proj _ Transport.cfg m k _ fun _ => rfl))
  · dsimp only
    rw [hv k hk hkm]
    split <;> rfl
  · have hc' : ((s.csiBegun port vc).transport m).cfg = some c := hc
    have hsome' : ((s.csiBegun port vc).transport m).csiSources port vc ≠ [] := hsome
    have hcal : (s.csiBegun port vc).calFrame m
        (((s.csiBegun port vc).transport m).csiSources port vc) = false := by
      rw [State.calFrame, State.csiBegun, onCol_col, hcalib, List.any_nil]
    have hsides' : ((((s.csiBegun port vc).transport m).csiSources port vc).map
      (·.2.side)).eraseDups = [d] := hsides
    dsimp only
    rw [hc']
    dsimp only
    rw [if_neg hsome', hcal, if_neg Bool.false_ne_true, hsides', hearly]
    rfl

/-! ### The end of a frame (R165) -/

/-- No frame of a port and virtual channel is under way. -/
def csiEnded (s : State) (port vc : Nat) : State := s.onCol fun q => { q with csiOpen := q.csiOpen.filter (· ≠ (port, vc)) }

theorem onCol_map_calib (h : s.col.calib = []) (f : Calib → Calib) : (s.onCol fun q => { q with calib := q.calib.map f }) = s := by
  have hcol : { s.col with calib := s.col.calib.map f } = s.col := by rw [h, List.map_nil, ← h]
  rw [State.onCol, hcol]

/-- The page-side of a frame closes at its last complete row. -/
theorem frameEnd_eq (hregs : cellsFrom regReset 0 s.regs = true) (hfour : s.col.transports.length = 4) (hup : s.colUp = true)
    (hm : m < 4) (hc : (s.transport m).cfg = some c) (hcalib : s.col.calib = []) (hsole : s.soleCsi m port vc)
    (hsides : (((s.transport m).csiSources port vc).map (·.2.side)).eraseDups = [d]) (hopen : (s.transport m).sides = [o])
    (ho : o.side = d) :
    s.frameEnd port vc = (s.csiEnded port vc).closeSides m c (fun s o => (s.transport m).rowsDone c o) [o] := by
  have hsome : (s.transport m).csiSources port vc ≠ [] := fun h => by simp [h] at hsides
  have hmine : (((s.csiEnded port vc).transport m).sides.filter fun x => decide (x.side ∈ [d])) = [o] := by
    rw [show ((s.csiEnded port vc).transport m).sides = [o] from hopen]
    simp [ho]
  have hc' : ((s.csiEnded port vc).transport m).cfg = some c := hc
  have hsome' : ((s.csiEnded port vc).transport m).csiSources port vc ≠ [] := hsome
  have hsides' : ((((s.csiEnded port vc).transport m).csiSources port vc).map (·.2.side)).eraseDups = [d] := hsides
  have hclosed : Moves (fun _ => True) True (s.csiEnded port vc)
      ((s.csiEnded port vc).closeSides m c (fun s o => (s.transport m).rowsDone c o) [o]) :=
    (Moves.refl (s := s.csiEnded port vc) hregs hfour).closeSides
  have hbegin : s.frameEnd port vc = _ := if_neg (by simp [hup])
  rw [hbegin]
  refine foldl_sole (s := s.csiEnded port vc) hm (fun v k hv hk hkm => ?_) (hsole.of_cfg fun _ => rfl) ?_ (hsole.of_cfg hclosed.cfg)
  · dsimp only
    rw [hv k hk hkm]
    split <;> rfl
  · dsimp only
    rw [hc']
    dsimp only
    rw [if_neg hsome', hsides', onCol_map_calib (s := s.csiEnded port vc) hcalib]
    exact congrArg (State.closeSides _ m c _) hmine

theorem frameEnd_closes (hregs : cellsFrom regReset 0 s.regs = true) (hfour : s.col.transports.length = 4) (hup : s.colUp = true)
    (hm : m < 4) (hc : (s.transport m).cfg = some c) (hcalib : s.col.calib = []) (hsole : s.soleCsi m port vc)
    (hsides : (((s.transport m).csiSources port vc).map (·.2.side)).eraseDups = [d]) (hopen : (s.transport m).sides = [o])
    (ho : o.side = d) :
    ((s.frameEnd port vc).transport m).sides = [] ∧
      ∃ h ∈ (s.frameEnd port vc).acc.held, h.planes.sample = o.sample ∧ h.fate = .held := by
  obtain ⟨hgone, -, hheld⟩ := closeSides_sides (s.csiEnded port vc) (m := m) c
    (fun s o => (s.transport m).rowsDone c o) [o] (hfour ▸ hm) hfour hregs
  have hsame : ((s.csiEnded port vc).transport m).sides = [o] := hopen
  rw [frameEnd_eq hregs hfour hup hm hc hcalib hsole hsides hopen ho]
  refine ⟨hgone.trans ?_, hheld o (List.mem_singleton_self o)⟩
  simp [hsame]

/-! ### The lines of a frame (R163 to R165) -/

/-- The next line of a source has come. -/
def lineCounted (s : State) (m i : Nat) : State :=
  s.onTransport m fun x => { x with nextRow := setNext x.nextRow i (nextOf (s.transport m).nextRow i + 1) }

theorem lineCounted_cfg (s : State) (m i k : Nat) : ((s.lineCounted m i).transport k).cfg = (s.transport k).cfg :=
  s.transport_onTransport_proj Transport.cfg m k _ fun _ => rfl

theorem lineCounted_sides (s : State) (m i k : Nat) : ((s.lineCounted m i).transport k).sides = (s.transport k).sides :=
  s.transport_onTransport_proj Transport.sides m k _ fun _ => rfl

/-- A good line of one source joins its page-side, which may close with it. -/
theorem csiLine_takes {dt herr i : Nat} {b : Bytes} (hregs : cellsFrom regReset 0 s.regs = true) (hfour : s.col.transports.length = 4)
    (hup : s.colUp = true) (hm : m < 4) (hc : (s.transport m).cfg = some c) (hcalib : s.col.calib = []) (hsole : s.soleCsi m port vc)
    (hsrc : (s.transport m).csiSources port vc = [(i, src)]) (hopen : (s.transport m).sides = [o]) (ho : o.side = src.side)
    (hherr : herr < 2) (hbits : csiBits dt = some src.sampleBits) (hlen : csiLen dt src.pixels ≤ b.length) :
    Works (fun _ => True) True ((s.lineCounted m i).takeLine ⟨m, i, nextOf (s.transport m).nextRow i, false⟩ src.sampleBits
      ((List.range src.pixels).map fun x => csiSample dt b src.channelIn x)) (s.csiLine port vc dt b herr true) := by
  have hside : (s.transport m).sideOpen src.side = true := by simp [Transport.sideOpen, hopen, ho]
  have htake : s.csiTake m port vc dt b true (i, src) = (s.lineCounted m i).takeLine ⟨m, i, nextOf (s.transport m).nextRow i, false⟩
      src.sampleBits ((List.range src.pixels).map fun x => csiSample dt b src.channelIn x) := by
    rw [State.csiTake]
    simp only [hcalib, List.any_nil, Bool.false_eq_true, if_false, hside, Bool.not_true, Bool.true_and, ge_iff_le, hlen, decide_true, if_true]
    rfl
  have htaken : Works (fun _ => True) True s ((s.lineCounted m i).takeLine ⟨m, i, nextOf (s.transport m).nextRow i, false⟩
      src.sampleBits ((List.range src.pixels).map fun x => csiSample dt b src.channelIn x)) := ((Works.refl hregs hfour).onMarks).takeLine
  have hmine : (((s.transport m).csiSources port vc).filter fun e => decide (e.2.sampleBits = src.sampleBits)) = [(i, src)] := by simp [hsrc]
  have hbegin : s.csiLine port vc dt b herr true = _ := if_neg (by simp [hup, hherr])
  generalize (s.lineCounted m i).takeLine _ _ _ = u at htake htaken
  have hrefl : Works (fun _ => True) True u u := .refl htaken.regs htaken.four
  rw [hbegin, hbits]
  dsimp only
  refine works_foldl_sole hm (fun v k hv hk hkm => ?_) hsole htaken.cfg ?_
  · rw [hv k hk hkm]
    split <;> rfl
  · rw [hc]
    dsimp only
    rw [hmine]
    simp only [List.foldl_cons, List.foldl_nil, htake]
    exact .ite hrefl (hrefl.closeFrame hm)

end State

end Sys2Proof.Machine
end

section
/-! PROOF. O24: lines and frames reach their page-sides; ABORT ends page-sides, COL_T_DROP frees them (R161, R165, R176, R177, R209). -/

namespace Sys2Proof.Machine

set_option Elab.async false

namespace State

variable {s : State} {m p i port vc : Nat} {c : TransportCfg} {src : Source} {o : OpenSide}

/-! ### A line that has come (R161, R165, R180) -/

/-- A page-side kept with a line holds the line still, or it is held. -/
theorem keepsSide.holds {o : OpenSide} {l : Nat × Nat × List Nat} {before : List (Nat × Nat × List Nat)}
    (h : s.keepsSide m { o with lines := before ++ [l] }) :
    (∃ q ∈ (s.transport m).sides, q.sample = o.sample ∧ l ∈ q.lines) ∨
      ∃ h ∈ s.acc.held, h.planes.sample = o.sample ∧ h.fate = .held := by
  obtain ⟨q, hq, hsample, -, hlines⟩ | hend := h
  · exact .inl ⟨q, hq, hsample, hlines (List.mem_append_right _ (List.mem_singleton_self l))⟩
  · exact .inr hend

/-- A line frame that is taken serves its port, and its line stands in the page-side, which may close with it. -/
theorem lineServed_leaves (hregs : cellsFrom regReset 0 s.regs = true) (hfour : s.col.transports.length = 4) (hm : m < 4)
    (hp : p < s.col.lsps.length) (hc : (s.transport m).cfg = some c) (hsrc : c.sources[i]? = some src)
    (hopen : (s.transport m).sides = [o]) (hside : o.side = src.side) (j : Nat) (f : Bytes) :
    let t := (((s.synced p).takeLine ⟨m, i, j, false⟩ (lfBits f) (lfChannel f src.channelIn)).portServed p (lfSeq f)).closeCheck m
    (t.lsp p).outstanding = [] ∧ (t.lsp p).lastSeq = some (lfSeq f) ∧
      ((∃ q ∈ (t.transport m).sides, q.sample = o.sample ∧
          (i, j, s.shadeLine m i c.whiteTarget (lfBits f) (lfChannel f src.channelIn)) ∈ q.lines) ∨
        ∃ h ∈ t.acc.held, h.planes.sample = o.sample ∧ h.fate = .held) := by
  intro t
  have htaken := takeLine_sides (s := s.synced p) (j := j) (hfour ▸ hm) hc hsrc hopen hside (lfBits f) (lfChannel f src.channelIn)
  have hmoves := (Works.refl (P := fun _ => True) (L := True) (s := s.synced p) hregs hfour).takeLine (g := ⟨m, i, j, false⟩)
    (bits := lfBits f) (vs := lfChannel f src.channelIn)
  have hlsp := lsp_onLsp_same ((s.synced p).takeLine ⟨m, i, j, false⟩ (lfBits f) (lfChannel f src.channelIn))
    (fun l => { l with outstanding := [], lastSeq := some (lfSeq f), known := 0 }) (by rwa [hmoves.eight, State.synced, onLsp_count])
  have hclosed : Works (fun _ => True) True (((s.synced p).takeLine ⟨m, i, j, false⟩ (lfBits f)
      (lfChannel f src.channelIn)).portServed p (lfSeq f)) t :=
    Works.closeCheck (.refl hmoves.regs (show (State.onLsp _ _ _).col.transports.length = 4 from hmoves.four))
  have hport := (hclosed.ports p trivial).trans hlsp
  exact ⟨congrArg Lsp.outstanding hport, congrArg Lsp.lastSeq hport,
    (hclosed.sides m _ (htaken ▸ List.mem_singleton_self _)).holds⟩

/-- A header that fails its CRC is counted, and the frame with it is dropped. -/
theorem lineFrame_counts {f : Bytes} (hregs : cellsFrom regReset 0 s.regs = true) (hfour : s.col.transports.length = 4)
    (hp : p < s.col.lsps.length) (hup : s.colUp = true) (hp8 : p < 8) (hheader : lfHeaderOk f = false) :
    ((s.lineFrame p f).lsp p).outstanding = [] ∧
      (s.lineFrame p f).regF (rColLspErr p) 0 8 = min 255 (s.regF (rColLspErr p) 0 8 + 1) := by
  obtain ⟨hnone, hcount⟩ := dropFrame_leaves (s := (s.synced p).bumpSat (rColLspErr p) 0 8 1) (p := p) (setReg_regsWf _ _ _ hregs) hfour
    (by rwa [bumpSat_col, State.synced, onLsp_count])
  rw [lineFrame_of_badHeader hup hp8 hheader]
  refine ⟨hnone, ?_⟩
  rw [State.regF, hcount]
  refine (regF_setRegF_same (s.synced p) (rColLspErr p) 0 8 _ hregs (by omega)).trans (Nat.mod_eq_of_lt ?_)
  exact Nat.lt_succ_of_le (Nat.min_le_left _ _)

/-- A good line of a camera stands in its page-side, which may close with it. -/
theorem csiLine_leaves {dt herr : Nat} {b : Bytes} (hregs : cellsFrom regReset 0 s.regs = true) (hfour : s.col.transports.length = 4)
    (hup : s.colUp = true) (hm : m < 4) (hc : (s.transport m).cfg = some c) (hcalib : s.col.calib = []) (hsole : s.soleCsi m port vc)
    (hsrc : (s.transport m).csiSources port vc = [(i, src)]) (hopen : (s.transport m).sides = [o]) (hside : o.side = src.side)
    (hherr : herr < 2) (hbits : csiBits dt = some src.sampleBits) (hlen : csiLen dt src.pixels ≤ b.length) :
    (∃ q ∈ ((s.csiLine port vc dt b herr true).transport m).sides, q.sample = o.sample ∧
        (i, nextOf (s.transport m).nextRow i, s.shadeLine m i c.whiteTarget src.sampleBits
          ((List.range src.pixels).map fun x => csiSample dt b src.channelIn x)) ∈ q.lines) ∨
      ∃ h ∈ (s.csiLine port vc dt b herr true).acc.held, h.planes.sample = o.sample ∧ h.fate = .held := by
  have htaken := takeLine_sides (s := s.lineCounted m i) (j := nextOf (s.transport m).nextRow i)
    ((s.onTransport_count _ _).symm ▸ hfour ▸ hm) ((s.lineCounted_cfg m i m).trans hc) (Transport.source_of_csi hc hsrc)
    ((s.lineCounted_sides m i m).trans hopen) hside src.sampleBits ((List.range src.pixels).map fun x => csiSample dt b src.channelIn x)
  exact ((csiLine_takes hregs hfour hup hm hc hcalib hsole hsrc hopen hside hherr hbits hlen).sides m _
    (htaken ▸ List.mem_singleton_self _)).holds

/-! ### ABORT (R177) -/

theorem failSide_eq (s : State) (m : Nat) (o : OpenSide) (fate : HeldFate) : s.failSide m o fate =
    ((s.dropSide m o.side).onCol fun q => { q with pool := q.pool.filter (·.owner ≠ .capture o.sample) }).addHeld
      ⟨o.sample, 0, 0, 0, 0, 0, 0⟩ fate := rfl

/-- A page-side of which nothing is kept goes, and its fate is noted. -/
theorem failSide_sides (s : State) {m : Nat} (o : OpenSide) (fate : HeldFate) (hm : m < s.col.transports.length) :
    ((s.failSide m o fate).transport m).sides = (s.transport m).sides.filter (·.side ≠ o.side) ∧
      (s.failSide m o fate).col.transports.length = s.col.transports.length ∧
      ∃ h, (s.failSide m o fate).acc.held = s.acc.held ++ [h] ∧ h.planes.sample = o.sample ∧ h.fate = fate := by
  have hsides := s.dropSide_sides_same o.side hm
  have hcount : (s.dropSide m o.side).col.transports.length = s.col.transports.length :=
    (onTransport_count _ _ _).trans (s.keepStrobes_count m o.side)
  have hacc := s.dropSide_acc m o.side
  rw [failSide_eq]
  generalize s.dropSide m o.side = u at hsides hcount hacc
  rw [← hacc]
  exact ⟨hsides, hcount, _, rfl, rfl, rfl⟩

theorem failSides_sides (fate : HeldFate) (l : List OpenSide) (s : State) (hm : m < s.col.transports.length) :
    ((l.foldl (fun s o => s.failSide m o fate) s).transport m).sides =
        (s.transport m).sides.filter (fun q => l.all (q.side ≠ ·.side)) ∧
      s.acc.held ⊆ (l.foldl (fun s o => s.failSide m o fate) s).acc.held ∧
      ∀ o ∈ l, ∃ h ∈ (l.foldl (fun s o => s.failSide m o fate) s).acc.held, h.planes.sample = o.sample ∧ h.fate = fate := by
  induction l generalizing s with
  | nil => exact ⟨by simp, List.Subset.refl _, fun _ ho => nomatch ho⟩
  | cons o l ih =>
    obtain ⟨hsides, hcount, e, hheld, he⟩ := s.failSide_sides o fate hm
    obtain ⟨hsides', hkept, hends⟩ := ih (s.failSide m o fate) (hcount ▸ hm)
    refine ⟨hsides'.trans ?_, fun x hx => hkept (hheld ▸ List.mem_append_left _ hx), fun q hq => ?_⟩
    · rw [hsides, List.filter_filter]
      refine List.filter_congr fun q _ => ?_
      simp [Bool.and_comm]
    · obtain rfl | hq := List.mem_cons.1 hq
      · exact ⟨e, hkept (by rw [hheld]; simp), he⟩
      · exact hends q hq

/-- ABORT ends every open page-side of its transport. -/
theorem abortPage_ends (hm : m < 4) (hlen : m < s.col.transports.length) (hup : s.colUp = true) :
    ((s.abortPage m).transport m).sides = [] ∧
      ∀ o ∈ (s.transport m).sides, ∃ h ∈ (s.abortPage m).acc.held, h.planes.sample = o.sample ∧ h.fate = .aborted := by
  obtain ⟨hsides, -, hends⟩ := failSides_sides .aborted (s.transport m).sides (s.orphan fun g => g.transport = m && !g.cal) hlen
  have habort : s.abortPage m = (s.transport m).sides.foldl (fun s o => s.failSide m o .aborted) (s.orphan fun g => g.transport = m && !g.cal) :=
    if_neg (by simp [hm, hup])
  rw [habort]
  refine ⟨hsides.trans (List.filter_eq_nil_iff.2 fun q hq => ?_), hends⟩
  simp only [List.all_eq_true, decide_eq_true_eq, not_forall]
  exact ⟨q, hq, not_not.2 rfl⟩

/-! ### COL_T_DROP (R209) -/

/-- Of the page-sides that no job has claimed, those up to the page written go, and no other. -/
theorem dropPages_held (s : State) (m v : Nat) {h : HeldSide} (hmem : h ∈ s.acc.held) (hfree : h.claimedBy = none) :
    h ∈ (s.dropPages m v).acc.held ↔
      ¬(h.captured = true ∧ idTransport h.planes.sample = m ∧ bitsN h.planes.sample 0 32 ≤ v) := by
  obtain ⟨hsub, hkept⟩ := State.sweepPools_held (s.onAcc fun a => { a with held := a.held.filter fun h =>
    !(h.captured && h.claimedBy.isNone && idTransport h.planes.sample = m && decide (bitsN h.planes.sample 0 32 ≤ v)) })
  refine Iff.trans (⟨fun hin => hsub hin, fun hin => hkept h hin hfree⟩ : _ ↔ h ∈ List.filter _ s.acc.held) ?_
  rw [List.mem_filter, Bool.not_eq_true', ← Bool.not_eq_true]
  simp [hmem, hfree]

end State

/-- Settles O24: each command's own change is read off its definition; the ends of page-sides that follow lose no page-side and no line. -/
theorem linesReachPageSides : Obligations.LinesReachPageSides := by
  intro s m c hinv hon hup hm hc
  have hregs := hinv.mem.regs
  have hfour := hinv.numbers.transports
  have hports := hinv.numbers.ports
  have hlen : m < s.col.transports.length := hfour ▸ hm
  have hcol : s.exitIdle.col = s.col := by rw [State.exitIdle_eq]; rfl
  have hacc : s.exitIdle.acc = s.acc := by rw [State.exitIdle_eq]; rfl
  refine ⟨fun p f i j src o hp hheader hlow hhigh htrailer htest hmuted hfits hout hseq hsrc hopen hside => ?_, fun p f hp hheader => ?_,
    fun p gs rest hp hheld => ?_, fun p hp hheld => ?_, fun port vc d hframe hcalib hsole hsides =>
      ⟨fun hshut hroom => ?_, fun o hopen ho => ⟨?_, fun dt b herr i src hherr hbits hsrc hlong => ?_⟩⟩,
    fun hawake hrelease => ⟨?_, fun v => ?_⟩⟩
  · have hact := State.lineFrame_of_good hup hp (hports ▸ hp) hheader hlow hhigh htrailer htest hmuted hfits hout hseq
      (by rwa [Transport.sources, hc])
    exact ⟨_, s.next_of_on hon hact, State.lineServed_leaves hregs hfour hm (hports ▸ hp) hc hsrc hopen hside j f⟩
  · exact ⟨_, s.next_of_on hon rfl, State.lineFrame_counts hregs hfour (hports ▸ hp) hup hp hheader⟩
  · exact ⟨_, s.next_of_on hon rfl, State.lineTriggerDeferred_fires hregs hfour (hports ▸ hp) hup hp hheld⟩
  · refine ⟨_, s.next_of_on hon (State.lineTriggerDeferred_of_nil hup hp hheld), ?_, rfl⟩
    rw [State.lsp_onLsp_same _ _ (hports ▸ hp)]
  · obtain ⟨u, huregs, hufour, huroom, hupage, hushut, hact⟩ :=
      State.frameStart_opens hregs hfour hup hm hc hcalib hsole hsides hshut
    obtain ⟨f, hf⟩ := Option.ne_none_iff_exists'.1 hroom
    obtain ⟨-, -, -, -, hsome⟩ := State.openSides_one_leaves (c := c) huregs hufour hm hushut d
    have hx := hsome f (huroom.trans hf)
    rw [hupage] at hx
    exact ⟨_, _, s.next_of_on hon hact, congrArg Transport.sides hx, rfl, rfl, congrArg Transport.page hx⟩
  · exact ⟨_, s.next_of_on hon rfl, State.frameEnd_closes hregs hfour hup hm hc hcalib hsole hsides hopen ho⟩
  · have hside : o.side = src.side := by
      rw [hsrc] at hsides
      exact ho.trans (List.cons.inj hsides).1.symm
    exact ⟨_, s.next_of_on hon rfl, State.csiLine_leaves hregs hfour hup hm hc hcalib hsole hsrc hopen hside hherr hbits hlong⟩
  · have hends := State.abortPage_ends (s := s.exitIdle) hm (hcol ▸ hlen) (State.exitIdle_colUp hup)
    rw [State.transport_of_col (congrArg Col.transports hcol)] at hends
    exact ⟨_, s.next_of_awake hon hawake (if_neg (by simp [State.fabricHidden_of_up, hrelease])), hends⟩
  · refine ⟨_, s.next_of_awake hon hawake (if_neg (by simp [State.fabricHidden_of_up, hrelease])), fun h hmem hfree => ?_⟩
    exact s.exitIdle.dropPages_held m v.toNat (hacc ▸ hmem) hfree

end Sys2Proof.Machine
end
